-- ==== Sys2Proof/Word.lean ====
section
/-! DEFINITION. The word types of Kyelle (00 R6): a byte, and the 64-bit word of scalars and registers. -/

namespace Sys2Proof

/-- A byte; the smallest addressable unit. -/
abbrev Byte := BitVec 8

/-- The 64-bit word of scalars, address registers and control registers. -/
abbrev W64 := BitVec 64

end Sys2Proof
end

