-- ==== Sys2Proof/Machine/Bits.lean ====
section
/-! DEFINITION. Bytes, words and fields: little-endian composition (00 R6), fields of a word, the
helpers of 00 R10, and element access of a fixed table. -/

namespace Sys2Proof.Machine

/-! ### Fields of a word -/

/-- Bits lo to lo + n - 1 of a word, as a number. -/
def bitsOf {w : Nat} (x : BitVec w) (lo n : Nat) : Nat := x.toNat / 2 ^ lo % 2 ^ n

/-- Bits lo to lo + n - 1 of a word. -/
def field {w : Nat} (x : BitVec w) (lo n : Nat) : BitVec n := BitVec.ofNat n (x.toNat / 2 ^ lo)

/-- Bit n of a word. -/
def bit {w : Nat} (x : BitVec w) (n : Nat) : Bool := x.getLsbD n

/-- A word with bits lo to lo + n - 1 replaced. -/
def setField {w : Nat} (x : BitVec w) (lo n : Nat) (v : Nat) : BitVec w :=
  (x &&& ~~~(BitVec.ofNat w (2 ^ n - 1) <<< lo)) ||| (BitVec.ofNat w (v % 2 ^ n) <<< lo)

/-- A truth value as one bit. -/
def b2n (b : Bool) : Nat := if b then 1 else 0

/-- sext(x, n): the low n bits of x, read as two's complement (00 R10). -/
def sextInt {w : Nat} (x : BitVec w) (n : Nat) : Int :=
  let v := x.toNat % 2 ^ n
  if n ≠ 0 ∧ v / 2 ^ (n - 1) = 1 then (v : Int) - (2 ^ n : Nat) else v

/-- A number from its bits as `n`-bit two's complement. -/
def signedNat (v n : Nat) : Int := if n ≠ 0 ∧ v % 2 ^ n / 2 ^ (n - 1) = 1 then ((v % 2 ^ n : Nat) : Int) - (2 ^ n : Nat) else (v % 2 ^ n : Nat)

/-- trunc(x, w) of an integer (00 R10). -/
def truncInt (w : Nat) (x : Int) : BitVec w := BitVec.ofInt w x

/-- The least k with 2^k ≥ n. -/
def ceilLog2 (n : Nat) : Nat := if n ≤ 1 then 0 else Nat.log2 (n - 1) + 1

/-- n / d rounded up. -/
def ceilDiv (n d : Nat) : Nat := (n + d - 1) / d

/-- Saturation at the largest value of an n-bit counter. -/
def satAdd {w : Nat} (x : BitVec w) (n : Nat) : BitVec w :=
  if x.toNat + n < 2 ^ w then BitVec.ofNat w (x.toNat + n) else BitVec.allOnes w

/-! ### Bytes -/

/-- The number that a run of bytes spells, lowest byte first (R6). -/
def leNat : List Byte → Nat
  | [] => 0
  | b :: bs => b.toNat + 256 * leNat bs

/-- The n low bytes of a number, lowest first (R6). -/
def leBytes : Nat → Nat → List Byte
  | 0, _ => []
  | n + 1, v => BitVec.ofNat 8 v :: leBytes n (v / 256)

def w64 (bs : List Byte) : W64 := BitVec.ofNat 64 (leNat bs)

/-- A run of bytes cut into words of 8 bytes; a shorter tail counts as one word. -/
def dwords : Nat → List Byte → List W64
  | 0, _ => []
  | n + 1, bs => w64 (bs.take 8) :: dwords n (bs.drop 8)

/-- Word n of a list of words; 0 beyond its end. -/
def wordAt (ws : List W64) (n : Nat) : W64 := ws.getD n 0

/-- Byte k of a register of many bytes. -/
def byteOf {w : Nat} (x : BitVec w) (k : Nat) : Byte := BitVec.ofNat 8 (x.toNat / 2 ^ (8 * k))

/-- All bytes of a register, lowest first. -/
def bytesOf {w : Nat} (x : BitVec w) (n : Nat) : List Byte := leBytes n x.toNat

/-! ### Tables -/

/-- Element i of a fixed table. -/
def vget {α : Type} {n : Nat} (v : Vector α n) (i : Fin n) : α := v[i]

/-- A fixed table with element i replaced. -/
def vset {α : Type} {n : Nat} (v : Vector α n) (i : Fin n) (x : α) : Vector α n := v.set i.val x i.isLt

/-- A fixed table with element i updated. -/
def vupd {α : Type} {n : Nat} (v : Vector α n) (i : Fin n) (f : α → α) : Vector α n := vset v i (f (vget v i))

/-- Every index of a table of n elements. -/
def fins : (n : Nat) → List (Fin n)
  | 0 => []
  | n + 1 => 0 :: (fins n).map Fin.succ

/-- Every element of a table updated. -/
def vmapAll {α : Type} {n : Nat} (v : Vector α n) (f : Fin n → α → α) : Vector α n :=
  (fins n).foldl (fun acc i => vupd acc i (f i)) v

/-- An entry of a table kept as a list of keyed values. -/
def alookup {β : Type} (k : Nat) (l : List (Nat × β)) : Option β := (l.find? fun p => p.1 == k).map Prod.snd

/-- A list of keyed values in rising key order, with one key's value replaced. -/
def ainsert {β : Type} (k : Nat) (x : β) : List (Nat × β) → List (Nat × β)
  | [] => [(k, x)]
  | p :: rest => if p.1 < k then p :: ainsert k x rest else if p.1 = k then (k, x) :: rest else (k, x) :: p :: rest

def aerase {β : Type} (k : Nat) (l : List (Nat × β)) : List (Nat × β) := l.filter fun p => p.1 != k

/-- The first index of a list at which a test holds. -/
def indexWhere {α : Type} (f : α → Bool) : List α → Option Nat
  | [] => none
  | x :: xs => if f x then some 0 else (indexWhere f xs).map (· + 1)

/-- A list with the first element that meets a test updated. -/
def updFirst {α : Type} (t : α → Bool) (f : α → α) : List α → List α
  | [] => []
  | x :: xs => if t x then f x :: xs else x :: updFirst t f xs

end Sys2Proof.Machine
end

