-- ==== Sys2Proof/Machine/Flags.lean ====
section
/-! DEFINITION. The status flags of FSTAT (11 R273) and how an operation's flags come about:
NV when an operation makes a NaN from inputs that hold none, OF, UF, NX and SATF at a delivery. -/

namespace Sys2Proof.Machine

/-- The five flags of FSTAT, in its bit order (R273). -/
abbrev Flags := BitVec 5

def fNV : Flags := 1
def fOF : Flags := 2
def fUF : Flags := 4
def fNX : Flags := 8
def fSATF : Flags := 16

/-- A flag that is set when a condition holds. -/
def flagIf (c : Bool) (f : Flags) : Flags := if c then f else 0

/-- The flags of a rounding to a delivered value (R273): NX when it differs from x, UF when in
addition |x| lies below the least normal. -/
def roundFlags (inexact below : Bool) : Flags := flagIf inexact fNX ||| flagIf (inexact && below) fUF

/-- The flags of a finite overflow (R268). -/
def overflowFlags (sat : Bool) : Flags := fOF ||| fNX ||| flagIf sat fSATF

/-- The flags of an infinite input to a floating-point format (R268). -/
def infiniteFlags (sat : Bool) : Flags := flagIf sat fSATF

/-- The flags of an integer clamp (R335, R270). -/
def clampFlags (clamped : Bool) : Flags := flagIf clamped fSATF

end Sys2Proof.Machine
end

