-- ==== Sys2Proof/Config.lean ====
section
/-! DEFINITION. What one part or one run fixes and the manual leaves open: free values, as opaque
constants with no body. Nothing in the model or in a proof can know one of these values. -/

namespace Sys2Proof.Config

/-- One less than the length of a deferred freeze that an image kept (log 81). The argument is `State.free`. -/
opaque keptFreeze : Nat → BitVec 6

/-- Which of the two integers within 1 of S / 2^g a converter delivers when R217 leaves it open
(log 8). The argument is `State.free`. -/
opaque converterUp : Nat → Bool

/-- The code of a window that is not calibrated, in range by R217 but otherwise open (log 9). -/
opaque uncalibratedCode : Nat → BitVec 14

/-- The factory-measured loss to die d in 0.1 dB (R210); R210's limit of 30 is a bound on it (log 12). -/
opaque jloss : Nat → BitVec 16

/-- The factory-measured loss to Eosor port q in 0.1 dB (R210), at most 50 (log 12). -/
opaque eloss : Nat → BitVec 16

/-- An ECDSA P-521 signature value (r for 0, s for 1) over a digest, as 66 bytes in one number (R453, log 10). -/
opaque ecdsa : Nat → BitVec 512 → Nat → BitVec 528

/-- Byte i of the identity certificate chain (R452, log 10). -/
opaque certByte : Nat → BitVec 8

/-- The length in bytes of the certificate chain (R452, log 10). -/
opaque certLength : Nat

/-- The SHA-512 digest of the verified firmware image, MEAS0 (R452, log 10). -/
opaque firmwareDigest : BitVec 512

/-- The fused security version (R453, log 10). -/
opaque securityVersion : BitVec 16

/-- The temperature of die d in 0.25 °C units at a cycle (R225, log 13). -/
opaque dieTemp : Nat → Nat → BitVec 10

/-- The residual skew of a lane at a core in one window, signed, 1/64 symbol (R227, log 13):
core number in the package, lane, the DELAY in effect, `State.free`. -/
opaque residualSkew : Nat → Nat → BitVec 8 → Nat → BitVec 8

/-- Whether a lit lane's power is below FLOOR in one window although its comb carries light (R226, log 13). -/
opaque lowPower : Nat → Nat → Bool

/-- Whether the first weight lines are in the prefetch buffer at a window's first symbol (R209: how
far ahead the prefetch runs is not fixed; log 17). -/
opaque weightsReady : Nat → Bool

/-- Whether a later weight line of a window is missing when its symbols are due (R209; log 17):
`State.free`, line number within the window. -/
opaque lineMissing : Nat → Nat → Bool

/-- Whether source and destination bytes of an overlapping copy are read after the operation's own
write (R377, log 18): `State.free`, byte index. -/
opaque copyReadsNew : Nat → Nat → Bool

/-- The temperature of a comb in 0.25 °C units at a cycle (R228, log 13). -/
opaque combTemp : Nat → Nat → BitVec 10

/-- The margin of a lane whose comb gives no light, at a cycle (R228 calls it the deficit, log 13). -/
opaque laneDeficit : Nat → Nat → BitVec 16

/-- The byte that another package answers to a read of a key-value list by the block-table unit, or of a weight or an
accumulator by a stream (log 30): member, offset, cycle. -/
opaque peerByte : Nat → Nat → Nat → BitVec 8

/-- The payload of a port's telemetry flit at a GTIME: powers and error counts (R401 gives no layout, log 45). -/
opaque telemetry : Nat → Nat → BitVec 2048

/-- The margin of a lane, and its corrected errors since the last flit, in the payload of a telemetry flit that a port
receives (log 45). -/
opaque flitMargin : BitVec 2048 → Nat → BitVec 16
opaque flitCorr : BitVec 2048 → Nat → BitVec 16

end Sys2Proof.Config
end

