-- ==== Sys2Proof/Syntax.lean ====
section
/-! DEFINITION. The instruction set of Kyelle: one constructor for each row of the opcode table.
The first 187 rows are slot operations (10 R251): their arguments are the fields of the slot word,
the guard first. `nop` is the empty bundle (R235) with the header's own fields. The other 99 rows
are the hardware events of 95_what_each_step_holds.md; an event's arguments are what the step takes
from outside the machine (a written value, a sensed outcome) or what names the unit it acts on. -/

namespace Sys2Proof

/-- One hardware context of the package (08 R198, 12 R203). -/
structure CtxId where
  die  : Fin 8
  core : Fin 16
  ctx  : Fin 4
deriving DecidableEq, Repr

/-- The access kinds of FINFO.ACC (03 R91), in code order. -/
inductive AccKind where
  | load | store | rmw | reduction | fetch | engRead | engWrite | dispatch
deriving DecidableEq, Repr

/-- What one single-copy-atomic piece does at its home (06 R138). Sizes of atomics are 4 bytes,
or 8 when `wide`. -/
inductive PieceOp where
  | read (n : Nat)
  | write (bytes : List (BitVec 8))
  | amo (wide : Bool) (op : BitVec 3) (x : BitVec 64)
  | cas (wide : Bool) (cmp x : BitVec 64)
  | famo (op : BitVec 3) (x : BitVec 32)
  /-- No piece of a program: an uncorrectable error arises in the unit, or awaits the next read that a die makes of
  the 64 bytes of host memory (02 R53, R56). -/
  | fail (d : Fin 8)
deriving DecidableEq, Repr

/-- The refusal that a peer sends: the sequence of the request, and whether that package has no valid member identifier
(01 R15). -/
structure PeerRefusal where
  seq      : BitVec 16
  noMember : Bool
deriving DecidableEq, Repr

/-- The trailer of a flit: CRC-32C over header and payload, and the link sequence (16 R393). -/
structure Trailer where
  crc : BitVec 32
  seq : BitVec 32
deriving DecidableEq, Repr

/-- A gap that the other end of a link proposes or answers with: GTIME of its start and of the request for a swap, and
the other end's UNTIMED (16 R403). -/
structure GapOffer where
  start    : BitVec 64
  request  : BitVec 64
  untimed  : Bool
deriving DecidableEq, Repr

/-- Who writes a register, and where (01 R30). -/
structure RegWrite where
  die : Fin 8
  pa  : BitVec 52
deriving DecidableEq, Repr

/-- Operand size of a PCIe AtomicOp (19 R444). -/
inductive AtomicSize where
  | b32 | b64 | b128
deriving DecidableEq, Repr

/-- Where a cause comes due (18 R424): a context, and the number of a register whose read by its bundle found two bits
wrong, if that is the cause (02 R53). -/
structure TrapPoint where
  id  : CtxId
  bad : Option (BitVec 8)
deriving DecidableEq, Repr

/-- How a comb is lost (09 R228): its lock, or a mean power as measured. -/
structure CombLoss where
  comb  : Fin 5
  power : Option (BitVec 16)
deriving DecidableEq, Repr

/-- Where a correctable error was met (02 R54, R62). -/
inductive ErrPlace where
  | scratchpad | dram | regFile
deriving DecidableEq, Repr

/-- What a scrub read found (02 R59). -/
inductive ScrubFinding where
  | clean | correctable | uncorrectable
deriving DecidableEq, Repr

/-- A flit on an Eosor link (16 R393, R394): the 16-byte header and the 256-byte payload. -/
structure Flit where
  header  : BitVec 128
  payload : BitVec 2048
deriving DecidableEq, Repr

/-- The PCIe AtomicOps (19 R444); only a compare-and-swap has operands of 128 bits. -/
inductive HostAtomic where
  | fetchAdd (x : BitVec 64)
  | swap (x : BitVec 64)
  | cas (cmp x : BitVec 128)
deriving DecidableEq, Repr

/-- The slot operations (10 R251) in the opcode table's order, the empty bundle, then the hardware
events (95). -/
inductive Instr where
  | add (g : BitVec 4) (d : BitVec 6) (a : BitVec 6) (b : BitVec 6)  -- ADD (R279)
  | sub (g : BitVec 4) (d : BitVec 6) (a : BitVec 6) (b : BitVec 6)  -- SUB (R279)
  | mul (g : BitVec 4) (d : BitVec 6) (a : BitVec 6) (b : BitVec 6)  -- MUL (R279)
  | mulh (g : BitVec 4) (d : BitVec 6) (a : BitVec 6) (b : BitVec 6) (f : BitVec 3)  -- MULH (R279)
  | div (g : BitVec 4) (d : BitVec 6) (a : BitVec 6) (b : BitVec 6) (f : BitVec 3)  -- DIV (R280)
  | rem (g : BitVec 4) (d : BitVec 6) (a : BitVec 6) (b : BitVec 6) (f : BitVec 3)  -- REM (R280)
  | and (g : BitVec 4) (d : BitVec 6) (a : BitVec 6) (b : BitVec 6)  -- AND (R279)
  | or (g : BitVec 4) (d : BitVec 6) (a : BitVec 6) (b : BitVec 6)  -- OR (R279)
  | xor (g : BitVec 4) (d : BitVec 6) (a : BitVec 6) (b : BitVec 6)  -- XOR (R279)
  | andn (g : BitVec 4) (d : BitVec 6) (a : BitVec 6) (b : BitVec 6)  -- ANDN (R279)
  | shl (g : BitVec 4) (d : BitVec 6) (a : BitVec 6) (b : BitVec 6)  -- SHL (R279)
  | shr (g : BitVec 4) (d : BitVec 6) (a : BitVec 6) (b : BitVec 6)  -- SHR (R279)
  | sra (g : BitVec 4) (d : BitVec 6) (a : BitVec 6) (b : BitVec 6)  -- SRA (R279)
  | min (g : BitVec 4) (d : BitVec 6) (a : BitVec 6) (b : BitVec 6) (f : BitVec 3)  -- MIN (R279)
  | max (g : BitVec 4) (d : BitVec 6) (a : BitVec 6) (b : BitVec 6) (f : BitVec 3)  -- MAX (R279)
  | sel (g : BitVec 4) (d : BitVec 6) (a : BitVec 6) (b : BitVec 6) (p : BitVec 3)  -- SEL (R279)
  | addi (g : BitVec 4) (d : BitVec 6) (a : BitVec 6) (i : BitVec 9)  -- ADDI (R281)
  | andi (g : BitVec 4) (d : BitVec 6) (a : BitVec 6) (i : BitVec 9)  -- ANDI (R281)
  | ori (g : BitVec 4) (d : BitVec 6) (a : BitVec 6) (i : BitVec 9)  -- ORI (R281)
  | xori (g : BitVec 4) (d : BitVec 6) (a : BitVec 6) (i : BitVec 9)  -- XORI (R281)
  | shli (g : BitVec 4) (d : BitVec 6) (a : BitVec 6) (i : BitVec 9)  -- SHLI (R281)
  | shri (g : BitVec 4) (d : BitVec 6) (a : BitVec 6) (i : BitVec 9)  -- SHRI (R281)
  | srai (g : BitVec 4) (d : BitVec 6) (a : BitVec 6) (i : BitVec 9)  -- SRAI (R281)
  | movi (g : BitVec 4) (d : BitVec 6) (i : BitVec 15)  -- MOVI (R281)
  | movh (g : BitVec 4) (d : BitVec 6) (i : BitVec 15)  -- MOVH (R281)
  | clz (g : BitVec 4) (d : BitVec 6) (a : BitVec 6)  -- CLZ (R281)
  | ctz (g : BitVec 4) (d : BitVec 6) (a : BitVec 6)  -- CTZ (R281)
  | popc (g : BitVec 4) (d : BitVec 6) (a : BitVec 6)  -- POPC (R281)
  | sext (g : BitVec 4) (d : BitVec 6) (a : BitVec 6) (w : BitVec 9)  -- SEXT (R281)
  | zext (g : BitVec 4) (d : BitVec 6) (a : BitVec 6) (w : BitVec 9)  -- ZEXT (R281)
  | cmp (g : BitVec 4) (p : BitVec 4) (a : BitVec 6) (b : BitVec 6) (c : BitVec 3)  -- CMP (R282)
  | cmpi (g : BitVec 4) (p : BitVec 4) (a : BitVec 6) (i : BitVec 6) (c : BitVec 3)  -- CMPI (R282)
  | lea (g : BitVec 4) (d : BitVec 4) (a : BitVec 4) (b : BitVec 6) (h : BitVec 3)  -- LEA (R283)
  | amov (g : BitVec 4) (d : BitVec 4) (a : BitVec 6)  -- AMOV (R283)
  | agetA (g : BitVec 4) (d : BitVec 6) (a : BitVec 4)  -- AGET_A (R283)
  | agetD (g : BitVec 4) (d : BitVec 6) (a : BitVec 4)  -- AGET_D (R283)
  | dset (g : BitVec 4) (d : BitVec 4) (a : BitVec 6)  -- DSET (R283)
  | aadd (g : BitVec 4) (d : BitVec 4) (a : BitVec 4) (i : BitVec 9)  -- AADD (R283)
  | pand (g : BitVec 4) (d : BitVec 4) (a : BitVec 4) (b : BitVec 4)  -- PAND (R283)
  | por (g : BitVec 4) (d : BitVec 4) (a : BitVec 4) (b : BitVec 4)  -- POR (R283)
  | pxor (g : BitVec 4) (d : BitVec 4) (a : BitVec 4) (b : BitVec 4)  -- PXOR (R283)
  | pnot (g : BitVec 4) (d : BitVec 4) (a : BitVec 4)  -- PNOT (R283)
  | pmov (g : BitVec 4) (d : BitVec 4) (a : BitVec 4)  -- PMOV (R283)
  | psetConst (g : BitVec 4) (d : BitVec 4) (v : BitVec 1)  -- PSET_CONST (R284)
  | psetScalar (g : BitVec 4) (d : BitVec 4) (a : BitVec 6)  -- PSET_SCALAR (R284)
  | psetBit (g : BitVec 4) (d : BitVec 4) (a : BitVec 6) (n : BitVec 6)  -- PSET_BIT (R284)
  | br (g : BitVec 4) (p : BitVec 4) (n : BitVec 1) (o : BitVec 16)  -- BR (R285)
  | jmp (g : BitVec 4) (a : BitVec 4) (o : BitVec 16)  -- JMP (R285)
  | call (g : BitVec 4) (l : BitVec 5) (o : BitVec 16)  -- CALL (R285)
  | ret (g : BitVec 4) (l : BitVec 5)  -- RET (R285)
  | loop (g : BitVec 4) (n : BitVec 2) (o : BitVec 16)  -- LOOP (R286)
  | mloop (g : BitVec 4) (o : BitVec 16)  -- MLOOP (R287)
  | lexit (g : BitVec 4) (n : BitVec 2) (o : BitVec 16)  -- LEXIT (R285)
  | pin (g : BitVec 4)  -- PIN (R201)
  | unpin (g : BitVec 4)  -- UNPIN (R201)
  | yield (g : BitVec 4)  -- YIELD (R289)
  | halt (g : BitVec 4)  -- HALT (R290)
  | trap (g : BitVec 4) (k : BitVec 16)  -- TRAP (R288)
  | csrr (g : BitVec 4) (d : BitVec 6) (k : BitVec 12)  -- CSRR (R291)
  | csrw (g : BitVec 4) (d : BitVec 6) (k : BitVec 12)  -- CSRW (R294)
  | widf (g : BitVec 4) (d : BitVec 6) (k : BitVec 3)  -- WIDF (R291)
  | gtime (g : BitVec 4) (d : BitVec 6)  -- GTIME (R291)
  | realign (g : BitVec 4) (d : BitVec 6)  -- REALIGN (R295)
  | tshapeImm (g : BitVec 4) (t : BitVec 4) (r : BitVec 6) (c : BitVec 6) (f : BitVec 3)  -- TSHAPE_IMM (R292)
  | tshapeReg (g : BitVec 4) (t : BitVec 4) (n : BitVec 6)  -- TSHAPE_REG (R292)
  | tvalid (g : BitVec 4) (t : BitVec 4) (r : BitVec 6) (c : BitVec 6)  -- TVALID (R293)
  | ftsetAbs (g : BitVec 4) (d : BitVec 6) (n : BitVec 4)  -- FTSET_ABS (R291)
  | ftsetCur (g : BitVec 4) (d : BitVec 6) (n : BitVec 4)  -- FTSET_CUR (R291)
  | fbaseImm (g : BitVec 4) (n : BitVec 4)  -- FBASE_IMM (R291)
  | fbaseReg (g : BitVec 4) (d : BitVec 6)  -- FBASE_REG (R291)
  | pkset (g : BitVec 4) (d : BitVec 6)  -- PKSET (R84)
  | pksetKey (g : BitVec 4) (k : BitVec 5) (r : BitVec 1) (w : BitVec 1)  -- PKSET_KEY (R84)
  | xpset (g : BitVec 4) (d : BitVec 6) (n : BitVec 3)  -- XPSET (R291)
  | beat (g : BitVec 4)  -- BEAT (R204)
  | uiret (g : BitVec 4)  -- UIRET (R179)
  | ld (g : BitVec 4) (d : BitVec 6) (r : BitVec 4) (m : BitVec 2) (f : BitVec 1) (s : BitVec 1) (z : BitVec 2) (x : BitVec 5)  -- LD (R304)
  | st (g : BitVec 4) (d : BitVec 6) (r : BitVec 4) (m : BitVec 2) (f : BitVec 1) (z : BitVec 2) (x : BitVec 5)  -- ST (R304)
  | lld (g : BitVec 4) (d : BitVec 5) (r : BitVec 4) (m : BitVec 2) (f : BitVec 1) (x : BitVec 5)  -- LLD (R304)
  | lst (g : BitVec 4) (d : BitVec 5) (r : BitVec 4) (m : BitVec 2) (f : BitVec 1) (x : BitVec 5)  -- LST (R304)
  | pref (g : BitVec 4) (r : BitVec 4) (m : BitVec 2) (z : BitVec 2) (x : BitVec 5)  -- PREF (R305)
  | tld (g : BitVec 4) (t : BitVec 4) (q : BitVec 2) (r : BitVec 4) (m : BitVec 2) (s : BitVec 6) (f : BitVec 3)  -- TLD (R306)
  | tst (g : BitVec 4) (t : BitVec 4) (q : BitVec 2) (r : BitVec 4) (m : BitVec 2) (s : BitVec 6) (f : BitVec 3)  -- TST (R306)
  | tldg (g : BitVec 4) (t : BitVec 4) (q : BitVec 2) (r : BitVec 4) (m : BitVec 2) (s : BitVec 5) (f : BitVec 3)  -- TLDG (R306)
  | tsts (g : BitVec 4) (t : BitVec 4) (q : BitVec 2) (r : BitVec 4) (m : BitVec 2) (s : BitVec 5) (f : BitVec 3)  -- TSTS (R306)
  | kvld (g : BitVec 4) (t : BitVec 4) (q : BitVec 2) (r : BitVec 4) (s : BitVec 6) (c : BitVec 3)  -- KVLD (R309)
  | kvapp (g : BitVec 4) (t : BitVec 4) (r : BitVec 4) (s : BitVec 6)  -- KVAPP (R108)
  | kvfree (g : BitVec 4) (r : BitVec 4) (s : BitVec 6)  -- KVFREE (R112)
  | amo (g : BitVec 4) (d : BitVec 6) (r : BitVec 4) (f : BitVec 2) (b : BitVec 5) (z : BitVec 1) (o : BitVec 3)  -- AMO (R313)
  | cas (g : BitVec 4) (d : BitVec 6) (r : BitVec 4) (f : BitVec 2) (b : BitVec 5) (z : BitVec 1)  -- CAS (R313)
  | famo (g : BitVec 4) (d : BitVec 6) (r : BitVec 4) (f : BitVec 2) (b : BitVec 5) (o : BitVec 3)  -- FAMO (R314)
  | red (g : BitVec 4) (r : BitVec 4) (f : BitVec 1) (b : BitVec 6) (z : BitVec 1) (o : BitVec 3)  -- RED (R316)
  | fred (g : BitVec 4) (r : BitVec 4) (f : BitVec 1) (b : BitVec 6) (o : BitVec 3)  -- FRED (R316)
  | redb (g : BitVec 4) (r : BitVec 4) (f : BitVec 1) (b : BitVec 6) (z : BitVec 1) (o : BitVec 3) (q : BitVec 4)  -- REDB (R317)
  | fredb (g : BitVec 4) (r : BitVec 4) (f : BitVec 1) (b : BitVec 6) (o : BitVec 3) (q : BitVec 4)  -- FREDB (R317)
  | fence (g : BitVec 4) (k : BitVec 3) (s : BitVec 1)  -- FENCE (R318)
  | barinit (g : BitVec 4) (r : BitVec 4) (b : BitVec 6)  -- BARINIT (R321)
  | arrive (g : BitVec 4) (d : BitVec 6) (r : BitVec 4)  -- ARRIVE (R321)
  | bwait (g : BitVec 4) (d : BitVec 6) (r : BitVec 4)  -- BWAIT (R322)
  | btwait (g : BitVec 4) (d : BitVec 6) (r : BitVec 4) (b : BitVec 6)  -- BTWAIT (R322)
  | pub (g : BitVec 4) (d : BitVec 6) (r : BitVec 4)  -- PUB (R323)
  | tadd (g : BitVec 4) (d : BitVec 4) (a : BitVec 4) (b : BitVec 4) (c : BitVec 4) (r : BitVec 3) (s : BitVec 1) (m : BitVec 1)  -- TADD (R331)
  | tsub (g : BitVec 4) (d : BitVec 4) (a : BitVec 4) (b : BitVec 4) (c : BitVec 4) (r : BitVec 3) (s : BitVec 1) (m : BitVec 1)  -- TSUB (R331)
  | tmul (g : BitVec 4) (d : BitVec 4) (a : BitVec 4) (b : BitVec 4) (c : BitVec 4) (r : BitVec 3) (s : BitVec 1) (m : BitVec 1)  -- TMUL (R331)
  | tmin (g : BitVec 4) (d : BitVec 4) (a : BitVec 4) (b : BitVec 4) (c : BitVec 4) (r : BitVec 3) (s : BitVec 1) (m : BitVec 1)  -- TMIN (R331)
  | tmax (g : BitVec 4) (d : BitVec 4) (a : BitVec 4) (b : BitVec 4) (c : BitVec 4) (r : BitVec 3) (s : BitVec 1) (m : BitVec 1)  -- TMAX (R331)
  | tfma (g : BitVec 4) (d : BitVec 4) (a : BitVec 4) (b : BitVec 4) (c : BitVec 4) (r : BitVec 3) (s : BitVec 1)  -- TFMA (R331)
  | tfms (g : BitVec 4) (d : BitVec 4) (a : BitVec 4) (b : BitVec 4) (c : BitVec 4) (r : BitVec 3) (s : BitVec 1)  -- TFMS (R331)
  | tabs (g : BitVec 4) (d : BitVec 4) (a : BitVec 4) (c : BitVec 4) (r : BitVec 3) (s : BitVec 1) (m : BitVec 1)  -- TABS (R331)
  | tneg (g : BitVec 4) (d : BitVec 4) (a : BitVec 4) (c : BitVec 4) (r : BitVec 3) (s : BitVec 1) (m : BitVec 1)  -- TNEG (R331)
  | tcpy (g : BitVec 4) (d : BitVec 4) (a : BitVec 4) (c : BitVec 4) (m : BitVec 1)  -- TCPY (R333)
  | tscale (g : BitVec 4) (d : BitVec 4) (a : BitVec 4) (b : BitVec 4) (c : BitVec 4) (r : BitVec 3) (s : BitVec 1) (m : BitVec 1)  -- TSCALE (R334)
  | tclamp (g : BitVec 4) (d : BitVec 4) (a : BitVec 4) (b : BitVec 4) (c : BitVec 4) (r : BitVec 3) (s : BitVec 1)  -- TCLAMP (R331)
  | tcmp (g : BitVec 4) (d : BitVec 3) (a : BitVec 4) (b : BitVec 4) (c : BitVec 4) (k : BitVec 3) (m : BitVec 1)  -- TCMP (R332)
  | tsel (g : BitVec 4) (d : BitVec 4) (a : BitVec 4) (b : BitVec 4) (c : BitVec 4)  -- TSEL (R333)
  | tcvt (g : BitVec 4) (d : BitVec 4) (a : BitVec 4) (c : BitVec 4) (r : BitVec 3) (s : BitVec 1) (m : BitVec 1)  -- TCVT (R331)
  | tbcast (g : BitVec 4) (d : BitVec 4) (a : BitVec 4) (c : BitVec 4) (r : BitVec 3) (s : BitVec 1) (m : BitVec 1)  -- TBCAST (R334)
  | tiadd (g : BitVec 4) (d : BitVec 4) (a : BitVec 4) (b : BitVec 4) (s : BitVec 1) (u : BitVec 1) (k : BitVec 3) (m : BitVec 1)  -- TIADD (R335)
  | tisub (g : BitVec 4) (d : BitVec 4) (a : BitVec 4) (b : BitVec 4) (s : BitVec 1) (u : BitVec 1) (k : BitVec 3) (m : BitVec 1)  -- TISUB (R335)
  | timul (g : BitVec 4) (d : BitVec 4) (a : BitVec 4) (b : BitVec 4) (s : BitVec 1) (u : BitVec 1) (k : BitVec 3) (m : BitVec 1)  -- TIMUL (R335)
  | tand (g : BitVec 4) (d : BitVec 4) (a : BitVec 4) (b : BitVec 4) (u : BitVec 1) (k : BitVec 3) (m : BitVec 1)  -- TAND (R335)
  | tor (g : BitVec 4) (d : BitVec 4) (a : BitVec 4) (b : BitVec 4) (u : BitVec 1) (k : BitVec 3) (m : BitVec 1)  -- TOR (R335)
  | txor (g : BitVec 4) (d : BitVec 4) (a : BitVec 4) (b : BitVec 4) (u : BitVec 1) (k : BitVec 3) (m : BitVec 1)  -- TXOR (R335)
  | tshl (g : BitVec 4) (d : BitVec 4) (a : BitVec 4) (b : BitVec 4) (u : BitVec 1) (k : BitVec 3) (m : BitVec 1)  -- TSHL (R335)
  | tshr (g : BitVec 4) (d : BitVec 4) (a : BitVec 4) (b : BitVec 4) (u : BitVec 1) (k : BitVec 3) (m : BitVec 1)  -- TSHR (R335)
  | trget (g : BitVec 4) (t : BitVec 4) (v : BitVec 5) (s : BitVec 6) (i : BitVec 6)  -- TRGET (R336)
  | trput (g : BitVec 4) (t : BitVec 4) (v : BitVec 5) (s : BitVec 6) (i : BitVec 6)  -- TRPUT (R336)
  | tcget (g : BitVec 4) (t : BitVec 4) (v : BitVec 5) (s : BitVec 6) (i : BitVec 6)  -- TCGET (R336)
  | tcput (g : BitVec 4) (t : BitVec 4) (v : BitVec 5) (s : BitVec 6) (i : BitVec 6)  -- TCPUT (R336)
  | ttr (g : BitVec 4) (t : BitVec 4) (a : BitVec 4)  -- TTR (R336)
  | tbrow (g : BitVec 4) (t : BitVec 4) (v : BitVec 5)  -- TBROW (R336)
  | tbcol (g : BitVec 4) (t : BitVec 4) (v : BitVec 5)  -- TBCOL (R336)
  | tzero (g : BitVec 4) (t : BitVec 4) (s : BitVec 6)  -- TZERO (R336)
  | tredr (g : BitVec 4) (d : BitVec 4) (a : BitVec 4) (k : BitVec 3) (o : BitVec 4) (r : BitVec 3) (s : BitVec 1) (m : BitVec 1)  -- TREDR (R338)
  | tredc (g : BitVec 4) (d : BitVec 4) (a : BitVec 4) (k : BitVec 3) (o : BitVec 4) (r : BitVec 3) (s : BitVec 1) (m : BitVec 1)  -- TREDC (R338)
  | tred (g : BitVec 4) (d : BitVec 4) (a : BitVec 4) (k : BitVec 3) (o : BitVec 4) (r : BitVec 3) (s : BitVec 1) (m : BitVec 1)  -- TRED (R338)
  | tscan (g : BitVec 4) (d : BitVec 4) (a : BitVec 4) (k : BitVec 3) (o : BitVec 4) (r : BitVec 3) (s : BitVec 1) (m : BitVec 1)  -- TSCAN (R339)
  | tdot (g : BitVec 4) (d : BitVec 4) (a : BitVec 4) (b : BitVec 4) (r : BitVec 3) (s : BitVec 1) (x : BitVec 1)  -- TDOT (R341)
  | tdots (g : BitVec 4) (d : BitVec 4) (a : BitVec 4) (b : BitVec 4) (c : BitVec 4) (r : BitVec 3) (s : BitVec 1) (x : BitVec 1)  -- TDOTS (R343)
  | tsprs (g : BitVec 4) (d : BitVec 4) (a : BitVec 4) (b : BitVec 4) (n : BitVec 2)  -- TSPRS (R345)
  | trcpa (g : BitVec 4) (d : BitVec 4) (a : BitVec 4) (c : BitVec 4) (r : BitVec 3) (s : BitVec 1) (m : BitVec 1)  -- TRCPA (R346)
  | trsqa (g : BitVec 4) (d : BitVec 4) (a : BitVec 4) (c : BitVec 4) (r : BitVec 3) (s : BitVec 1) (m : BitVec 1)  -- TRSQA (R346)
  | trcpr (g : BitVec 4) (d : BitVec 4) (a : BitVec 4) (b : BitVec 4) (c : BitVec 4) (r : BitVec 3) (s : BitVec 1) (m : BitVec 1)  -- TRCPR (R347)
  | trsqr (g : BitVec 4) (d : BitVec 4) (a : BitVec 4) (b : BitVec 4) (c : BitVec 4) (r : BitVec 3) (s : BitVec 1) (m : BitVec 1)  -- TRSQR (R347)
  | texp2 (g : BitVec 4) (d : BitVec 4) (a : BitVec 4) (c : BitVec 4) (r : BitVec 3) (s : BitVec 1) (m : BitVec 1)  -- TEXP2 (R346)
  | tlog2 (g : BitVec 4) (d : BitVec 4) (a : BitVec 4) (c : BitVec 4) (r : BitVec 3) (s : BitVec 1) (m : BitVec 1)  -- TLOG2 (R346)
  | ttanh (g : BitVec 4) (d : BitVec 4) (a : BitVec 4) (c : BitVec 4) (r : BitVec 3) (s : BitVec 1) (m : BitVec 1)  -- TTANH (R346)
  | tsigm (g : BitVec 4) (d : BitVec 4) (a : BitVec 4) (c : BitVec 4) (r : BitVec 3) (s : BitVec 1) (m : BitVec 1)  -- TSIGM (R346)
  | twelf (g : BitVec 4) (d : BitVec 4) (a : BitVec 4) (c : BitVec 4) (r : BitVec 3) (s : BitVec 1) (m : BitVec 1)  -- TWELF (R348)
  | twmrg (g : BitVec 4) (d : BitVec 4) (a : BitVec 4) (b : BitVec 4) (c : BitVec 4) (r : BitVec 3) (s : BitVec 1) (m : BitVec 1)  -- TWMRG (R349)
  | kand (g : BitVec 4) (d : BitVec 3) (a : BitVec 3) (b : BitVec 3)  -- KAND (R350)
  | kor (g : BitVec 4) (d : BitVec 3) (a : BitVec 3) (b : BitVec 3)  -- KOR (R350)
  | kxor (g : BitVec 4) (d : BitVec 3) (a : BitVec 3) (b : BitVec 3)  -- KXOR (R350)
  | knot (g : BitVec 4) (d : BitVec 3) (a : BitVec 3)  -- KNOT (R350)
  | kcnt (g : BitVec 4) (a : BitVec 3) (d : BitVec 6)  -- KCNT (R350)
  | xdot (g : BitVec 4) (a : BitVec 3) (b : BitVec 3) (s : BitVec 6) (t : BitVec 4) (c : BitVec 1) (k : BitVec 1) (d : BitVec 1)  -- XDOT (R360)
  | xdots (g : BitVec 4) (a : BitVec 3) (b : BitVec 3) (s : BitVec 6) (t : BitVec 4) (c : BitVec 1) (k : BitVec 1) (d : BitVec 1) (n : BitVec 2)  -- XDOTS (R358)
  | xbcast (g : BitVec 4) (a : BitVec 3) (b : BitVec 3) (s : BitVec 6) (t : BitVec 4)  -- XBCAST (R363)
  | xrep (g : BitVec 4) (s : BitVec 6) (w : BitVec 1)  -- XREP (R365)
  | xrange (g : BitVec 4) (a : BitVec 3) (s : BitVec 6)  -- XRANGE (R366)
  | xcal (g : BitVec 4)  -- XCAL (R224)
  | xdesk (g : BitVec 4) (l : BitVec 3) (s : BitVec 6)  -- XDESK (R368)
  | xwait (g : BitVec 4) (s : BitVec 6)  -- XWAIT (R369)
  | xprog (g : BitVec 4) (s : BitVec 6)  -- XPROG (R370)
  | xprogClear (g : BitVec 4)  -- XPROG_CLEAR (R370)
  | board (g : BitVec 4) (d : BitVec 6) (s : BitVec 6) (t : BitVec 1)  -- BOARD (R371)
  | unboard (g : BitVec 4) (d : BitVec 6) (s : BitVec 6)  -- UNBOARD (R372)
  | rpos (g : BitVec 4) (d : BitVec 6)  -- RPOS (R373)
  | rposStat (g : BitVec 4) (d : BitVec 6) (s : BitVec 6)  -- RPOS_STAT (R373)
  | rposId (g : BitVec 4) (d : BitVec 6) (s : BitVec 6)  -- RPOS_ID (R373)
  | cpy (g : BitVec 4) (a : BitVec 3) (b : BitVec 3) (s : BitVec 6) (d : BitVec 6) (p : BitVec 1)  -- CPY (R376)
  | cpy2 (g : BitVec 4) (a : BitVec 3) (b : BitVec 3) (s : BitVec 6) (d : BitVec 6) (p : BitVec 1)  -- CPY2 (R376)
  | gath (g : BitVec 4) (a : BitVec 3) (b : BitVec 3) (s : BitVec 6) (d : BitVec 6) (p : BitVec 1)  -- GATH (R376)
  | scat (g : BitVec 4) (a : BitVec 3) (b : BitVec 3) (s : BitVec 6) (d : BitVec 6) (p : BitVec 1)  -- SCAT (R376)
  | cpyp (g : BitVec 4) (a : BitVec 3) (b : BitVec 3) (s : BitVec 6) (d : BitVec 6) (p : BitVec 1)  -- CPYP (R376)
  | kvmig (g : BitVec 4) (a : BitVec 3) (s : BitVec 6) (d : BitVec 6)  -- KVMIG (R378)
  | cwait (g : BitVec 4) (s : BitVec 6) (d : BitVec 6)  -- CWAIT (R379)
  | cwaitAll (g : BitVec 4) (d : BitVec 6)  -- CWAIT_ALL (R379)
  | cnote (g : BitVec 4) (s : BitVec 6) (d : BitVec 6)  -- CNOTE (R380)
  | cred (g : BitVec 4) (a : BitVec 3) (b : BitVec 3) (s : BitVec 6) (d : BitVec 6) (p : BitVec 1)  -- CRED (R408)
  | cbc (g : BitVec 4) (a : BitVec 3) (b : BitVec 3) (s : BitVec 6) (d : BitVec 6) (p : BitVec 1)  -- CBC (R406)
  | cag (g : BitVec 4) (a : BitVec 3) (b : BitVec 3) (s : BitVec 6) (d : BitVec 6) (p : BitVec 1)  -- CAG (R406)
  | cbar (g : BitVec 4) (s : BitVec 6) (d : BitVec 6)  -- CBAR (R407)
  | send (g : BitVec 4) (v : BitVec 5) (c : BitVec 5) (r : BitVec 4) (m : BitVec 1) (s : BitVec 6)  -- SEND (R390)
  | recv (g : BitVec 4) (v : BitVec 5) (c : BitVec 5) (r : BitVec 4) (m : BitVec 1) (s : BitVec 6)  -- RECV (R390)
  | recva (g : BitVec 4) (v : BitVec 5) (c : BitVec 5) (r : BitVec 4) (m : BitVec 1) (s : BitVec 6)  -- RECVA (R390)
  | recvm (g : BitVec 4) (v : BitVec 5) (c : BitVec 5) (r : BitVec 4) (m : BitVec 1) (s : BitVec 6)  -- RECVM (R390)
  | lstat (g : BitVec 4) (v : BitVec 5) (c : BitVec 5) (s : BitVec 6)  -- LSTAT (R392)
  | nop (c : BitVec 6) (m : BitVec 1) (t : BitVec 5) (r : BitVec 6)  -- NOP (R235)
  | registerWrite (x : RegWrite) (val : BitVec 64) (wide : Bool)  -- REGISTER_WRITE (R7)
  | dieidWrite (val : BitVec 64)  -- DIEID_WRITE (R36)
  | dtclr (d : Fin 8) (c : Fin 16) (val : BitVec 64)  -- DTCLR (R65)
  | qkick (d : Fin 8) (q : Fin 64) (val : BitVec 64)  -- QKICK (R411)
  | qcfgWrite (d : Fin 8) (q : Fin 64) (val : BitVec 64)  -- QCFG_WRITE (R411)
  | tlbinvPage (d : Fin 8) (asid : Fin 64) (bcast : Bool)  -- TLBINV_PAGE (R93)
  | tlbinvAsid (d : Fin 8) (asid : Fin 64) (bcast : Bool)  -- TLBINV_ASID (R93)
  | tlbinvAll (d : Fin 8) (bcast : Bool)  -- TLBINV_ALL (R93)
  | tlbinvDone (d : Fin 8)  -- TLBINV_DONE (R94)
  | pageWalk (id : CtxId) (va : BitVec 64)  -- PAGE_WALK (R70)
  | codeScan (id : CtxId) (va : BitVec 64)  -- CODE_SCAN (R248)
  | loadDelivery (id : CtxId)  -- LOAD_DELIVERY (R298)
  | piecePerform (pa : BitVec 52) (op : PieceOp)  -- PIECE_PERFORM (R136)
  | pubPerform (d : Fin 8) (idx : BitVec 12) (kind : Fin 4) (latched : BitVec 32)  -- PUB_PERFORM (R164)
  | barrierArrival (pa : BitVec 52)  -- BARRIER_ARRIVAL (R174)
  | barrierPoll (id : CtxId)  -- BARRIER_POLL (R175)
  | btwaitTimeout (id : CtxId)  -- BTWAIT_TIMEOUT (R157)
  | regionCommit (id : CtxId)  -- REGION_COMMIT (R428)
  | correctableError (d : Fin 8) (place : ErrPlace) (core : Option (Fin 8 × Fin 16))  -- CORRECTABLE_ERROR (R54)
  | freezeEnd (d : Fin 8) (c : Fin 16)  -- FREEZE_END (R433)
  | scrubRead (pa : BitVec 52) (found : ScrubFinding)  -- SCRUB_READ (R59)
  | kvfrposWrite (d : Fin 8) (val : BitVec 64)  -- KVFRPOS_WRITE (R104)
  | kvrlposWrite (d : Fin 8) (val : BitVec 64)  -- KVRLPOS_WRITE (R104)
  | kvRequestDone (id : CtxId)  -- KV_REQUEST_DONE (R311)
  | kvmigComplete (id : CtxId) (h : BitVec 16)  -- KVMIG_COMPLETE (R113)
  | pbtabWrite (d : Fin 8) (val : BitVec 64)  -- PBTAB_WRITE (R160)
  | pbcfgWrite (d : Fin 8) (val : BitVec 64)  -- PBCFG_WRITE (R160)
  | engineOperationComplete (id : CtxId) (h : BitVec 16)  -- ENGINE_OPERATION_COMPLETE (R169)
  | enginePieceFault (id : CtxId) (h : BitVec 16)  -- ENGINE_PIECE_FAULT (R377)
  | noticeEntry (id : CtxId)  -- NOTICE_ENTRY (R179)
  | contextSwitch (d : Fin 8) (c : Fin 16)  -- CONTEXT_SWITCH (R199)
  | quantumExpiry (d : Fin 8) (c : Fin 16)  -- QUANTUM_EXPIRY (R199)
  | pinmaxExpiry (id : CtxId)  -- PINMAX_EXPIRY (R201)
  | watchdog (id : CtxId)  -- WATCHDOG (R205)
  | trapDelivery (x : TrapPoint)  -- TRAP_DELIVERY (R424)
  | peerRefused (id : CtxId) (x : PeerRefusal)  -- PEER_REFUSED (R80)
  | descriptorFetch (d : Fin 8) (q : Fin 64)  -- DESCRIPTOR_FETCH (R412)
  | sequenceRetry (d : Fin 8) (q : Fin 64)  -- SEQUENCE_RETRY (R448)
  | dependencyPoll (d : Fin 8) (q : Fin 64)  -- DEPENDENCY_POLL (R413)
  | taskDispatch (d : Fin 8)  -- TASK_DISPATCH (R416)
  | preemptionSave (d : Fin 8)  -- PREEMPTION_SAVE (R417)
  | completionAction (d : Fin 8) (t : Fin 1024)  -- COMPLETION_ACTION (R185)
  | suspend (d : Fin 8) (t : Fin 1024)  -- SUSPEND (R419)
  | resume (d : Fin 8) (t : Fin 1024)  -- RESUME (R419)
  | endTask (d : Fin 8) (t : Fin 1024)  -- END (R419)
  | endq (d : Fin 8) (q : Fin 64)  -- ENDQ (R419)
  | scfgWrite (d : Fin 8) (val : BitVec 64)  -- SCFG_WRITE (R413)
  | ringTileArrival (d : Fin 8) (wire : Option (List (Nat × BitVec 8)))  -- RING_TILE_ARRIVAL (R125)
  | tileRepairDone (d : Fin 8) (ok : Bool)  -- TILE_REPAIR_DONE (R127)
  | segmentBoundary  -- SEGMENT_BOUNDARY (R130)
  | dwellLimit (d : Fin 8)  -- DWELL_LIMIT (R130)
  | ringStart (val : BitVec 64)  -- RING_START (R122)
  | ringStop (val : BitVec 64)  -- RING_STOP (R133)
  | bscfgWrite (d : Fin 8) (val : BitVec 64)  -- BSCFG_WRITE (R134)
  | laneLight (l : Fin 8) (val : BitVec 64)  -- LANE_LIGHT (R211)
  | laneUnlight (l : Fin 8) (val : BitVec 64)  -- LANE_UNLIGHT (R211)
  | modulatorWindowStart (d : Fin 8)  -- MODULATOR_WINDOW_START (R363)
  | windowResult (id : CtxId)  -- WINDOW_RESULT (R207)
  | xcalComplete (d : Fin 8) (c : Fin 16) (ok : Bool) (temp : BitVec 10)  -- XCAL_COMPLETE (R224)
  | combFailure (x : CombLoss)  -- COMB_FAILURE (R228): a lock lost, or the mean power measured
  | combSwap (k : Fin 4)  -- COMB_SWAP (R228)
  | combReturn (k : Fin 4)  -- COMB_RETURN (R228)
  | combSwapComplete  -- COMB_SWAP_COMPLETE (R228)
  | alignmentComplete (x : Unit)  -- ALIGNMENT_COMPLETE (R383)
  | skewMeasurement (x : Unit)  -- SKEW_MEASUREMENT (R384)
  | portEnable (q : Fin 16) (val : BitVec 64)  -- PORT_ENABLE (R385)
  | portDisable (q : Fin 16) (val : BitVec 64)  -- PORT_DISABLE (R446)
  | linkTrained (q : Fin 16) (keysOk : Bool) (fibre : BitVec 16)  -- LINK_TRAINED (R454)
  | telemetrySend (q : Fin 16)  -- TELEMETRY_SEND (R401)
  | telemetryFlit (q : Fin 16) (srcm : BitVec 9) (margins : List (BitVec 16)) (corr : List (BitVec 16))  -- TELEMETRY_FLIT (R396)
  | flitReceive (q : Fin 16) (f : Flit) (x : Trailer)  -- FLIT_RECEIVE (R395)
  | channelFlitArrival (d : Fin 8) (c : Fin 16) (ch : Fin 32) (seq : BitVec 16) (stamp : BitVec 64) (payload : BitVec 2048)  -- CHANNEL_FLIT_ARRIVAL (R387)
  | peerRequest (q : Fin 16) (f : Flit)  -- PEER_REQUEST (R398)
  | peerResponse (id : CtxId) (seq : BitVec 16) (data : BitVec 2048) (poison : Bool)  -- PEER_RESPONSE (R398)
  | acknowledgement (q : Fin 16) (n : BitVec 32)  -- ACKNOWLEDGEMENT (R395)
  | ackTimeout (q : Fin 16)  -- ACK_TIMEOUT (R395)
  | lossOfLight (q : Fin 16) (lane : Fin 34)  -- LOSS_OF_LIGHT (R402)
  | gapNegotiation (q : Fin 16) (x : GapOffer)  -- GAP_NEGOTIATION (R403)
  | laneSwapGap (q : Fin 16)  -- LANE_SWAP_GAP (R402)
  | spareTrainingDone (q : Fin 16) (ok : Bool)  -- SPARE_TRAINING_DONE (R402)
  | lightArbitration (q : Fin 16)  -- LIGHT_ARBITRATION (R404)
  | reclaim (q : Fin 16)  -- RECLAIM (R400)
  | slotGuardExpiry (id : CtxId)  -- SLOT_GUARD_EXPIRY (R389)
  | collectiveInstanceStart (grp : Fin 16)  -- COLLECTIVE_INSTANCE_START (R407)
  | hostInboundWrite (bar2 : Bool) (off : BitVec 36) (data : List (BitVec 8)) (poisoned inStream : Bool)  -- HOST_INBOUND_WRITE (R444)
  | hostAtomicop (bar2 : Bool) (off : BitVec 36) (size : AtomicSize) (op : HostAtomic) (inStream : Bool)  -- HOST_ATOMICOP (R444)
  | attest (d : Fin 8) (seq : BitVec 16)  -- ATTEST (R453)
  | extend (d : Fin 8) (seq : BitVec 16)  -- EXTEND (R452)
  | cert (d : Fin 8) (chunk : BitVec 8) (seq : BitVec 16)  -- CERT (R452)
  | resetRelease (sigOk verOk : Bool)  -- RESET_RELEASE (R450)
  | selftestStageDone (ok : Bool) (d : Fin 8) (unit : BitVec 5) (detail : BitVec 48)  -- SELFTEST_STAGE_DONE (R451)
  | pcieFundamentalReset  -- PCIE_FUNDAMENTAL_RESET (R450)
  | smbusReset  -- SMBUS_RESET (R455)
  | windowFirstSymbol (id : CtxId)  -- WINDOW_FIRST_SYMBOL (R209)
  | kvcfgWrite (d : Fin 8) (base : Bool) (val : BitVec 64)  -- KVCFG_WRITE (R103)
  | combcfgWrite (val : BitVec 64)  -- COMBCFG_WRITE (R228)
  | combLocked (k : Fin 5)  -- COMB_LOCKED (R228)
  | laserPowerLoop (power : List (BitVec 16))  -- LASER_POWER_LOOP (R457)
  | ideKm (enable : Bool) (stream : BitVec 1)  -- IDE_KM (R454)
deriving DecidableEq, Repr

/-- The slots of a bundle in the order of 10 R235. -/
inductive Slot where
  | s | m | va | vb | x | c
deriving DecidableEq, Repr

end Sys2Proof
end

