-- ==== Sys2Proof/Machine/State.lean ====
section
/-! DEFINITION. The state of the Kyelle package: eight dies of sixteen tile cores with four contexts
each, the Joist, memory, and what the model adds to say which agent moves next. All plain data.
Registers software reads and writes whole are words; what only hardware keeps is a named type. -/

namespace Sys2Proof.Machine

/-- Why the machine stops with a fault. No meaning of this model stops: every fault of the manual is
a trap, which is a next state (18 R424). -/
inductive Fault where
deriving DecidableEq, Repr

/-- Why a step is refused. -/
inductive Refusal where
  /-- An instruction without a meaning yet; raised by `exec` only. Safe: it stops. -/
  | notModelled (mnemonic : String)
deriving DecidableEq, Repr

/-- Bytes by address: addresses strictly rising, no entry equal to what an unlisted address reads as. -/
abbrev Memory := List Host.Cell

/-! ### Registers and their deliveries -/

/-- A register as the scoreboard names it (10 R247), by physical number; the handler bank and the
registers behind the scoreboard's back are named apart. -/
inductive RegName where
  | s (n : BitVec 6) | hs (n : BitVec 4) | p (n : BitVec 4) | hp (n : BitVec 3)
  | a (n : BitVec 4) | d (n : BitVec 4) | t (n : BitVec 4) | v (n : BitVec 5) | k (n : BitVec 3)
  | ts (n : BitVec 4) | lc (n : BitVec 2) | ft (n : BitVec 4) | fbase | pkr | xp (n : BitVec 3)
  | rot | csr (n : BitVec 12)
deriving DecidableEq, Repr

/-- One register write that an operation delivers. Tiles, lines and masks carry the bits written. -/
inductive Write where
  | s (n : BitVec 6) (v : W64)
  | hs (n : BitVec 4) (v : W64)
  | p (n : BitVec 4) (b : Bool)
  | hp (n : BitVec 3) (b : Bool)
  | a (n : BitVec 4) (v : W64)
  | d (n : BitVec 4) (v : BitVec 32)
  | t (n : BitVec 4) (data mask : BitVec 32768)
  | v (n : BitVec 5) (data mask : BitVec 2048)
  | k (n : BitVec 3) (data mask : BitVec 4096)
  | ts (n : BitVec 4) (v : BitVec 32)
  | lc (n : BitVec 2) (v : W64)
  | ft (n : BitVec 4) (v : BitVec 32)
  | fbase (v : BitVec 4)
  | pkr (v : W64)
  | xp (n : BitVec 3) (v : W64)
  | rot (rbs : BitVec 5) (rbp : BitVec 3)
  | csr (n : BitVec 12) (v : W64)
deriving DecidableEq, Repr

/-- A fixed-latency result under way (R243): delivered in cycle `due`, with its FSTAT flags (R274). -/
structure Delivery where
  due   : Nat
  w     : Write
  flags : BitVec 5
deriving DecidableEq, Repr

/-- What the bytes that an operation gathers become: given writes, a scalar of `size` bytes, a line, or
the valid elements of a tile of the shape read at issue (13 R304, R307). -/
inductive LoadForm where
  | given (ws : List Write)
  /-- The writes of a `kvld` (R309). -/
  | kv (ws : List Write)
  /-- The writes of a receive, whose flit has been popped (16 R390, 18 R425). -/
  | popped (ws : List Write)
  | scalar (r : RegName) (size : Nat) (sx : Bool)
  | line (n : BitVec 5)
  | tile (n : BitVec 4) (shape : BitVec 32)
deriving DecidableEq, Repr

/-- A part of the gathered bytes that a peer has yet to answer. -/
structure Await where
  seq    : BitVec 16
  member : BitVec 9
  pos    : Nat
  n      : Nat
deriving DecidableEq, Repr

/-- An M-slot or X-slot operation issued and not delivered (R298, R352). `due` is the delivery cycle,
used once nothing is awaited. `dropped` holds the registers whose delivery R299 discards. `pre` tells
an operation issued before the last mark (R430). -/
structure Pend where
  due     : Nat
  waits   : List Await
  raw     : List Byte
  form    : LoadForm
  flags   : BitVec 5
  poison  : Bool
  dropped : List RegName
  mslot   : Bool
  pre     : Bool
deriving DecidableEq, Repr

/-- Which storage an address reaches after resolution (01 R16, R21): a device cell by its physical
address, the host bus, a peer member's offset, or a register of control space. -/
inductive Space where
  | dev | host | peer (m : BitVec 9) | ctrl
deriving DecidableEq, Repr

/-- A run of bytes held for a store (R429), or moved by one part of an access. -/
structure Run where
  space : Space
  /-- A cell's address; of the host, the bus address through HABASE as it stood at issue (01 R41). -/
  addr  : Nat
  va    : W64
  bytes : List Byte
  /-- The package's own member identifier at issue, none where it had no valid one (01 R36). -/
  own   : Option (BitVec 9)
  /-- Cycle of issue, by which the refusals of one access are told (03 R80). -/
  issue : Nat
  /-- A loopback store (01 R25): its pieces are those of peer memory. -/
  loop  : Bool
deriving DecidableEq, Repr

/-- The entries of the gated store buffer: one M-slot store operation each (R429). -/
structure HeldStore where
  runs : List Run
deriving DecidableEq, Repr

/-! ### Context -/

/-- The registers a restart checkpoint holds (R430). -/
structure Arch where
  s       : Vector W64 64
  hs      : Vector W64 16
  p       : BitVec 16
  hp      : BitVec 8
  a       : Vector W64 16
  d       : Vector (BitVec 32) 16
  lc      : Vector W64 4
  rbs     : BitVec 5
  rbp     : BitVec 3
  fbase   : BitVec 4
  ft      : Vector (BitVec 32) 16
  ts      : Vector (BitVec 32) 16
  xp      : Vector W64 8
  pkr     : W64
  stickyM : Option (BitVec 32)
  stickyC : Option (BitVec 32)
  /-- VA of the next bundle. -/
  pc      : W64
  /-- Issues of that bundle still due, minus 1, when it was interrupted between repeats (R239). -/
  due     : Option (BitVec 6)
deriving DecidableEq, Repr

/-- A restart checkpoint (R430). -/
structure Checkpoint where
  arch     : Arch
  inflight : List Delivery
deriving DecidableEq, Repr

/-- What a context waits for when its next bundle cannot issue (R198). -/
inductive BlockCause where
  | pending | halt | receive | boarding | barrier | notice | blockTable | mark
  /-- An access through a buffer whose `pub` by this context is not performed yet (13 R323). -/
  | publish
  /-- `cwait` of one operation, or of every one (15 R379). -/
  | copy (h : Option (BitVec 16))
  /-- A full stream queue or engine queue (15 R353), `xwait` (R369), and an `xrep` that waits for a report (R365). -/
  | streamQueue | engineQueue | xwait | report
deriving DecidableEq, Repr

/-- The context states of R198; a frozen core is told by `Core.frozenUntil`. `saving` waits for
answers still outside before its image is written (R425). -/
inductive CtxStatus where
  | idle | ready | running | blocked (why : BlockCause) | saving
deriving DecidableEq, Repr

/-- A trap cause with what it writes (R296, R91, R422). -/
structure TrapRec where
  cause : BitVec 8
  arg   : BitVec 16
  fva   : W64
  finfo : W64
deriving DecidableEq, Repr

/-- A peer refusal or an engine fault that is pending (R423). `issue` is the cycle of issue of a refused access. -/
structure PendFault where
  engine : Bool
  issue  : Nat
  trap   : TrapRec
deriving DecidableEq, Repr

/-- The pending class A causes of R423 and R437: refusals and engine faults in the order in which they arrived, and the
one that a trap under way has taken. -/
structure PendingA where
  linkLost   : Bool
  boardFault : Bool
  xreport    : Bool
  faults     : List PendFault
  taken      : Option PendFault
deriving DecidableEq, Repr

/-- A leaf cached for a range of pages (R85): first 64 KiB page number, pages, first leaf. -/
structure Extent where
  page  : Nat
  pages : Nat
  leaf  : BitVec 64
  range : BitVec 4
deriving DecidableEq, Repr

/-- A declared operand range (R182). -/
structure OpRange where
  va  : W64
  len : Nat
  rd  : Bool
  wr  : Bool
deriving DecidableEq, Repr

/-- A cached translation (R88). `big` marks a 512 MiB leaf; `page` is the first 64 KiB page number. -/
structure TlbEntry where
  asid : Fin 64
  page : Nat
  big  : Bool
  leaf : BitVec 64
deriving DecidableEq, Repr

/-- A level-1 or level-2 entry of the walk cache (R88): the identifier, the level, the virtual address bits
above the entry's reach, and the table that the entry names. -/
structure TableEntry where
  asid  : Fin 64
  level : Nat
  top   : Nat
  table : Nat
deriving DecidableEq, Repr

/-- The first uncorrectable error of the last cycle in which a die met one (02 R61): the cycle, its record, OVF
before it, and whether the cycle had more. -/
structure LastError where
  cycle : Nat
  kind  : BitVec 3
  src   : BitVec 3
  core  : BitVec 4
  rdie  : BitVec 3
  addr  : W64
  ovf   : Bool
  more  : Bool
deriving DecidableEq, Repr

/-- A completion notice (R177): its operation, its tag, and its status once fired. -/
structure Notice where
  handle : BitVec 16
  tag    : BitVec 16
  fired  : Option (BitVec 3)
  /-- Cycle in which it fired (R178). -/
  at_    : Nat
deriving DecidableEq, Repr

/-- A barrier wait under way (R175, R176); `bar` is its object's address, none after a resume until the
wait is evaluated again. -/
structure Wait where
  bar        : Option Nat
  phase      : Bool
  g0         : BitVec 32
  limit      : Option W64
  registered : Bool
  result     : Option (BitVec 2)
  /-- It has met poison at its home (02 R56). -/
  bad        : Bool
  /-- The status scalar, named when the wait is saved (18 R440). -/
  reg        : BitVec 6
  bank       : Bool
deriving DecidableEq, Repr

/-- A block-table request that the context's bundle waits for (13 R311): its number and its status
scalar, by physical number or, with `bank`, by number in the handler bank. -/
structure KvWait where
  num  : BitVec 15
  reg  : BitVec 6
  bank : Bool
deriving DecidableEq, Repr

/-- A `board` that waits: its segment, its status as first decided, and the status with which it ends once
it is settled (R129, R371). -/
structure BoardWait where
  segid  : BitVec 16
  status : BitVec 3
  done   : Option (BitVec 3)
  /-- The segment was faulted: the `board` takes BOARDFAULT (R127, R128). -/
  fault  : Bool
deriving DecidableEq, Repr

/-- A release posted by `unboard`, with what it awaits: stream operations by GTIME of issue, and engine operations by
handle (R372). -/
structure Unboard where
  seg     : BitVec 16
  streams : List Nat
  ops     : List (BitVec 16)
deriving DecidableEq, Repr

/-- Where an `xdot` writes (R358). -/
inductive StreamDst where
  | tile (n : BitVec 4) | accum (va : W64)
deriving DecidableEq, Repr

/-- A window that has begun (R207): the values of its 64 receivers as FP32 codes and its report, or why
the operation stops at it (R362). -/
inductive WindowOut where
  | ran (vals : List (BitVec 32)) (report : BitVec 32)
  | fault (t : TrapRec)
  | revoked
deriving DecidableEq, Repr

/-- A stream operation outstanding (R353). -/
structure StreamOp where
  /-- 0 `xdot`, 1 `xdots`, 2 `xbcast`, 3 `xcal`. -/
  kind    : BitVec 2
  geom    : W64
  src     : W64
  srck    : Bool
  /-- N of N-of-32. -/
  sparse  : Nat
  dst     : StreamDst
  /-- Shape of a tile destination at issue. -/
  shape   : BitVec 32
  acc     : Bool
  g       : Nat
  ft      : BitVec 32
  pkr     : W64
  issue   : Nat
  /-- GTIME at which it leaves the stream queue: after a calibration that runs at its issue (09 R224). -/
  opens   : Nat
  /-- Requests to peers that precede its pieces, by member and sequence (R354). -/
  after   : List (BitVec 9 × BitVec 16)
  /-- First cycle of window `first`, and the next window whose result is due. -/
  start   : Nat
  first   : Nat
  next    : Nat
  /-- Windows that overlap an earlier operation's (R361). -/
  late    : List Nat
  /-- Windows begun and without a result yet, oldest first. -/
  begun   : List WindowOut
  /-- Running sums of the receivers, FP32 codes; none before the first result. -/
  sums    : List (BitVec 32)
  /-- Receivers whose running sum in the accumulator is poisoned (02 R56). -/
  spoilt  : BitVec 64
  /-- Boarding slot and capture identity of an SRCK = 1 source. -/
  slot    : BitVec 3
  bsid    : W64
  /-- Stopped at a revoked hold and waiting for the next publish (R362); an `xcal` that waits (R367). -/
  waiting : Bool
  /-- The tile delivery was discarded (R361). -/
  dropped : Bool
  /-- Its region has been rolled back: it runs on, and delivers, records and reports no fault (18 R431). -/
  void    : Bool
  /-- A save stops it at the next window boundary (R362). -/
  halting : Bool
  /-- Windows of an `xbcast` still to start, and whether some were not sent (R364). -/
  lanes   : Nat
  partialSent : Bool
deriving DecidableEq, Repr

/-- A context's first unacknowledged sequence at a link loss (R392). -/
structure LinkRec where
  /-- Channel 0-31, or 32 + port. -/
  num    : Nat
  seq    : BitVec 16
  member : BitVec 9
deriving DecidableEq, Repr

/-- A timed operation that has met its bundle and has not issued: its channel and stamp, the cycle in which
it was ready, and its slot time (R389). -/
structure SlotWait where
  ch    : Fin 32
  stamp : W64
  ready : Nat
  /-- GTIME of its slot time; the flit may arrive until GUARD cycles later (R382). -/
  slot  : Nat
  /-- A receive that has met its slot time and waits for its flit. -/
  flit  : Bool
deriving DecidableEq, Repr

/-- A hardware context (08 R187, R198; 12 R297). -/
structure Ctx where
  arch     : Arch
  tiles    : Vector (BitVec 32768) 16
  lines    : Vector (BitVec 2048) 32
  masks    : Vector (BitVec 4096) 8
  cause    : W64
  fva      : W64
  finfo    : W64
  fstat    : BitVec 5
  sbctl    : W64
  wid      : W64
  widcfg   : W64
  xctl     : BitVec 7
  sticky   : BitVec 6
  rovf     : Bool
  drops    : BitVec 16
  xpr      : BitVec 18
  iuvec    : W64
  uiret    : W64
  inh      : Bool
  lost     : Bool
  /-- Sticky states put aside at handler entry (R179). -/
  keepM    : Option (BitVec 32)
  keepC    : Option (BitVec 32)
  mrql     : W64
  mrqr     : W64
  mrqi     : W64
  pin      : Bool
  pinStart : Nat
  pinOvr   : Bool
  persist  : Bool
  quantum  : Nat
  /-- The quantum ends at the present bundle's boundary (12 R289). -/
  yields   : Bool
  status   : CtxStatus
  asid     : Fin 64
  task     : Option (Fin 1024)
  extents  : List Extent
  ranges   : List OpRange
  inflight : List Delivery
  /-- Results in flight before the bundle that issues (10 R249). -/
  opened   : Nat
  pend     : List Pend
  held     : List HeldStore
  ckpt     : Checkpoint
  /-- VA of the bundle after the one that issues, or the target of its transfer (12 R285). -/
  npc      : W64
  /-- The bundle that issues has transferred control (10 R238). -/
  jumped   : Bool
  /-- Issues due at that target, minus 1, where `uiret` gives them (07 R180). -/
  nextDue  : Option (BitVec 6)
  /-- A SYS fence issued and not complete (13 R319). -/
  fencing  : Bool
  /-- A mark is due at the next boundary (R427, R428). -/
  markDue  : Bool
  readT    : BitVec 16
  readV    : BitVec 32
  readK    : BitVec 8
  confT    : BitVec 16
  confV    : BitVec 32
  confK    : BitVec 8
  notices  : List Notice
  handles  : BitVec 16
  statuses : List (BitVec 16 × BitVec 3)
  streams  : List StreamOp
  xwaited  : Option (BitVec 3)
  reports  : List (BitVec 32)
  links    : List LinkRec
  slotWait : Option SlotWait
  wait     : Option Wait
  kvReq    : Option KvWait
  boarding : Option BoardWait
  /-- The same of the bundle that a notice handler put aside (07 R178). -/
  keepWait  : Option Wait
  keepKv    : Option KvWait
  keepBoard : Option BoardWait
  /-- Registers whose delivery the blocked bundle waits for (R198). -/
  waitRegs : List RegName
  /-- Segments whose release waits for the stream operations that read them (R372). -/
  unboards : List Unboard
  pendingA : PendingA
  trapDue  : Option TrapRec
  /-- A class R fault of a stream operation, taken at the next boundary (R362). -/
  streamFault : Option TrapRec
  /-- A save rolls the region back once its streams have stopped (R441). -/
  rollDue  : Bool
  /-- The latches of R426, given relative to the first resumed issue. -/
  latches  : List Delivery
  /-- Registers that such a latch of a receive keeps pending (16 R390). -/
  latchPend : List RegName
  /-- Registers whose latch holds poisoned data (02 R56). -/
  latchBad : List RegName
  poison   : List RegName
  /-- The watchdog count (R204): the cycle from which it runs on, whether it runs, and what it was then. -/
  wdStart  : Nat
  wdRuns   : Bool
  wdHeld   : Nat
  /-- The bundle in hand has been blocked, so that its issue is no progress (R204). -/
  wasBlocked : Bool
deriving DecidableEq, Repr

/-! ### Core -/

/-- A flit in a receive queue (R387). -/
structure ChFlit where
  seq     : BitVec 16
  stamp   : W64
  arrived : Nat
  /-- Its payload came poisoned (R394). -/
  poison  : Bool
  payload : BitVec 2048
deriving DecidableEq, Repr

/-- One of the 32 channels of a core (R386-R388). -/
structure Channel where
  desc  : BitVec 64
  seqTx : BitVec 16
  seqRx : BitVec 16
  lost  : Bool
  skew  : Bool
  drop  : BitVec 8
  disc  : BitVec 8
  queue : List ChFlit
deriving DecidableEq, Repr

structure Core where
  ctxs        : Vector Ctx 4
  running     : Option (Fin 4)
  /-- The context that gave up the core last (R199). -/
  lastRan     : Fin 4
  /-- First cycle at which the next bundle may issue (R238). -/
  nextIssue   : Nat
  vaFree      : Nat
  vbFree      : Nat
  frozenUntil : Nat
  /-- Cycle and weight of the issues of the last 64 cc (R434). -/
  weights     : List (Nat × Nat)
  deferred    : Nat
  clim        : BitVec 16
  /-- Cycle of the last write of CLIM, and the value before it (19 R456). -/
  climAt      : Nat
  climOld     : BitVec 16
  frzEcc      : BitVec 24
  frzGov      : BitVec 24
  frzDefer    : BitVec 16
  l1tlb       : List TlbEntry
  dirty       : BitVec 16384
  /-- The dirty map before cycle `dirtyAt`, and its bits that were set in that cycle (02 R66). -/
  dirtyOld    : BitVec 16384
  dirtyNew    : BitVec 16384
  dirtyAt     : Nat
  channels    : Vector Channel 32
  calValid    : Bool
  calTstep    : Bool
  calFail     : Bool
  calTemp     : BitVec 10
  calAt       : Nat
  /-- A calibration has succeeded since reset. -/
  calSeen     : Bool
  /-- End of the calibration under way. -/
  calEnd      : Option Nat
  calcfg      : W64
  xdeskDelay  : Vector (BitVec 8) 8
  /-- The last writes of each DELAY, newest first: GTIME, and the value before it (R227). -/
  xdeskPast   : Vector (List (Nat × BitVec 8)) 8
  xdeskResid  : Vector (BitVec 8) 8
deriving DecidableEq, Repr

/-! ### Die -/

/-- A task's place in the table of R419, R420. -/
inductive TaskState where
  | free | dispatching | dfault | resident | saving | saved | suspended | ending
deriving DecidableEq, Repr

/-- A task that waits for a context: a saved one, or the next of a queue's launch (R415). -/
inductive Cand where
  | saved (n : Nat) | queue (q : Fin 64)
deriving DecidableEq, Repr

/-- A hold that a save or a capture has moved to PARKED, or has released (05 R126, R134). -/
structure HoldRec where
  slot     : Nat
  released : Bool
  bsid     : W64
deriving DecidableEq, Repr

/-- One entry of the die's task table (R416, R419). `desc` is the descriptor's 32 words (R182). -/
structure Task where
  state     : TaskState
  core      : Fin 16
  ctx       : Fin 4
  queue     : Fin 64
  cause     : BitVec 8
  wid       : W64
  desc      : List W64
  descVa    : W64
  ft        : List (BitVec 32)
  asid      : Fin 64
  /-- Order of dispatch (R417) and order of saving (R415). -/
  seq       : Nat
  hasImage  : Bool
  noResume  : Bool
  /-- SUSPEND was asked while the save was under way (R418). -/
  suspendTo : Bool
  /-- The candidate for whose sake the task is saved (R417). -/
  saveFor   : Option Cand
  /-- The completion action is performed and waits for a peer's acknowledgement (R185). -/
  acted     : Bool
  /-- Kept while saved and merged at resume (R311, R441). -/
  handles   : BitVec 16
  statuses  : List (BitVec 16 × BitVec 3)
  xwaited   : Option (BitVec 3)
  /-- Sticky states put aside at a handler entry, kept while the task is saved (log 27). -/
  keepM     : Option (BitVec 32)
  keepC     : Option (BitVec 32)
  /-- Its pending refusals and engine faults, of which the image holds the first alone (18 R423, R437). -/
  faults    : List PendFault
  /-- Registers that latches of its image keep pending (16 R390). -/
  latchPend : List RegName
  /-- Registers of its image whose data is poisoned, and those whose latch is, which the image cannot tell (02 R56, log
  103). -/
  poison    : List RegName
  latchBad  : List RegName
  /-- Cycles in which its engine operations ended while it was saved, by handle (07 R178). -/
  doneAt    : List (BitVec 16 × Nat)
  /-- The holds that its last save or capture moved to PARKED, which END releases (R419, log 84). -/
  parked    : List HoldRec
  /-- Its watchdog count, which stands still while it is saved (08 R204); 0 where the watchdog fired (log 54). -/
  wdCount   : Nat
deriving DecidableEq, Repr

/-- Where the launch in progress on a queue stands (R413). -/
inductive LaunchStage where
  | dependency | boarding | heldFault | eligible
deriving DecidableEq, Repr

structure Launch where
  stage   : LaunchStage
  desc    : List W64
  descVa  : W64
  ft      : List (BitVec 32)
  next    : Nat
  count   : Nat
  live    : Nat
  /-- A missed-layer wait has been counted (R413). -/
  missed  : Bool
  /-- The last dependency read faulted; the cycle of the next one (R413). -/
  depFail : Bool
  depAt   : Nat
deriving DecidableEq, Repr

structure Queue where
  qbase  : W64
  en     : Bool
  err    : Bool
  fault  : Bool
  asid   : Fin 64
  slog   : BitVec 4
  head   : BitVec 32
  tail   : BitVec 32
  qseqb  : W64
  /-- Reads of a mismatched sequence word so far, and the cycle of the next one (R448). -/
  seqTry : Nat
  seqAt  : Nat
  launch : Option Launch
deriving DecidableEq, Repr

/-- The boarding-slot states of R128, in code order. -/
inductive SlotState where
  | empty | filling | boarded | dwell | faulted
deriving DecidableEq, Repr

structure BSlot where
  state   : SlotState
  segid   : BitVec 16
  mgen    : BitVec 8
  fmt     : BitVec 4
  parked  : BitVec 16
  hold    : BitVec 64
  bsid    : W64
  /-- DWELL limit and length of the segment, tiles good so far, next tile of the ring. -/
  dwell   : BitVec 16
  len     : Nat
  /-- First byte of the die's share (R117). -/
  src     : Nat
  got     : Nat
  next    : Nat
  /-- Tiles to repair, the engine at the first of them, attempts made at it (R127). -/
  repairs : List Nat
  repairOn : Option (Fin 4)
  tries   : Nat
  failed  : Bool
  dwellAt : Nat
  /-- SEL and PGEN of the slot's descriptor, which the boarding unit rewrites whole (07 R163, R168). -/
  pbSel   : Bool
  pbGen   : BitVec 32
deriving DecidableEq, Repr

/-- The kinds of engine operation (R374, R406). -/
inductive EngineKind where
  | cpy | cpy2 | gath | scat | cpyp | kvmig | cred | cbc | cag | cbar
deriving DecidableEq, Repr

/-- A publishable buffer latched by an engine operation (R165). -/
structure Latch where
  die  : Fin 8
  idx  : BitVec 12
  sel  : BitVec 1
  pgen : BitVec 32
deriving DecidableEq, Repr

/-- An engine operation outstanding, in issue order on its die. -/
structure EngineOp where
  id      : CtxId
  task    : Option (Fin 1024)
  handle  : BitVec 16
  kind    : EngineKind
  dst     : W64
  src     : W64
  /-- The operand of sS, and the companion register (R376). -/
  len     : W64
  comp    : W64
  pub     : Bool
  asid    : Fin 64
  pkr     : W64
  /-- Requests to peers that precede it, by member and sequence (R153). -/
  after   : List (BitVec 9 × BitVec 16)
  engine  : Option (Fin 4)
  latches : List Latch
  /-- Bytes moved so far, and the index of the row in hand with its poison. -/
  pos     : Nat
  index   : Option (W64 × Bool)
  /-- What a peer was asked for: 0 nothing, 1 an index, 2 source bytes; the answers so far. -/
  asked   : Nat
  asks    : List Await
  raw     : List Byte
  /-- Poisoned answers: place and length in `raw`. -/
  rawBad  : List (Nat × Nat)
  /-- Pieces that a peer refused: VA, bytes and poison. They are performed first when the operation goes on (R377). -/
  redo    : List (W64 × List Byte × Bool)
  /-- First cycle of its next step. -/
  at_     : Nat
  held    : Bool
  poison  : Bool
  /-- A peer write lost its link (R377). -/
  failed  : Bool
  /-- A `kvmig` under way (R113), or a collective whose instance has started, by its number (R407). -/
  started : Bool
  inst    : Nat
  /-- The task has ended: the status is discarded (R377). -/
  orphan  : Bool
deriving DecidableEq, Repr

structure CopyEngine where
  en    : Bool
  hw    : Bool
  done  : BitVec 32
  bytes : W64
deriving DecidableEq, Repr

/-- A `kvapp` or `kvfree` handed to the block-table unit (R311). -/
structure KvReq where
  num     : BitVec 15
  id      : CtxId
  task    : Option (Fin 1024)
  append  : Bool
  list    : W64
  asid    : Fin 64
  pkr     : W64
  data    : BitVec 32768
  /-- Place of the list's header and cycle of hand-over, which order the requests on one list (04 R110). -/
  home    : Space × Nat
  order   : Nat
  /-- A copy-out under way: its token and its block; and one whose fresh block has its slot, which waits to produce the
  release of `owed`: its token and the fresh block (R108). -/
  copying : Option (Nat × Nat)
  placed  : Option (Nat × Nat)
  /-- A `kvfree` under way: its slots, the block whose release is owed, blocks released, and whether a slot
  was bad (R112). -/
  begun   : Bool
  slots   : List Nat
  owed    : Option Nat
  freed   : Nat
  bad     : Bool
  /-- Its status, and whether the request met poison. -/
  status  : Option W64
  poison  : Bool
deriving DecidableEq, Repr

/-- An invalidation under way (R93). -/
structure TlbInv where
  kind  : BitVec 2
  asid  : Fin 64
  bcast : Bool
  /-- The 64 KiB page of kind 0, from TLBINVVA at the write. -/
  page  : Nat
deriving DecidableEq, Repr

/-- A broadcast accepted by a modulator bank (R363, R364): its tile and patterns as read at issue. -/
structure Broadcast where
  id      : CtxId
  issue   : Nat
  /-- Stamp of window 0, cycles of a window, wavelengths, windows. -/
  start   : Nat
  step    : Nat
  w       : Nat
  nwin    : Nat
  lanes   : List (Fin 8)
  pattern : W64
  tile    : BitVec 32768
  shape   : BitVec 32
  ft      : BitVec 32
  /-- Lane windows not sent, and the windows started so far. -/
  unsent  : List (Fin 8 × Nat)
  begun   : Nat
deriving DecidableEq, Repr

structure Die where
  cores    : Vector Core 16
  habase   : W64
  asroot   : Vector W64 64
  merrV    : Bool
  merrOvf  : Bool
  merrKind : BitVec 3
  merrSrc  : BitVec 3
  merrCore : BitVec 4
  merrDie  : BitVec 3
  merrCnt  : BitVec 16
  merra    : W64
  merrLast : Option LastError
  ecccnt   : W64
  mscrub   : W64
  l2tlb    : List TlbEntry
  walks    : List TableEntry
  tlbinvva : W64
  tlbErr   : Bool
  tlbInv   : Option TlbInv
  kvbase   : W64
  kvcfg    : W64
  kvfrb    : W64
  kvfrHead : BitVec 32
  kvfrTail : BitVec 32
  kvrlb    : W64
  kvrlHead : BitVec 32
  kvrlTail : BitVec 32
  kvErr    : Bool
  kvEmpty  : Bool
  kvFull   : Bool
  kvCows   : BitVec 32
  kvMigs   : BitVec 16
  kvReqs   : List KvReq
  kvNext   : BitVec 15
  kvEmptyEpisode : Bool
  kvFullEpisode  : Bool
  pbtab    : W64
  pbcfg    : W64
  pbErr    : Bool
  pubcnt   : BitVec 32
  bscfg    : W64
  slots    : Vector BSlot 8
  bscap    : W64
  mlcnt    : W64
  rprcnt   : W64
  rpfcnt   : W64
  rvkcnt   : W64
  engines  : Vector CopyEngine 4
  engOps   : List EngineOp
  queues   : Vector Queue 64
  schedErr : Bool
  schedEn  : Bool
  deppoll  : BitVec 24
  pinmax   : BitVec 24
  wdEn     : Bool
  wdLimit  : BitVec 32
  /-- Cycle of the last write of WDCFG, and EN and LIMIT before it (R205). -/
  wdAt     : Nat
  wdOld    : Bool × BitVec 32
  svbase   : W64
  svcfg    : BitVec 5
  tasks    : List (Nat × Task)
  taskSeq  : Nat
  /-- First cycle of the next dispatch (R415). -/
  dispatchAt : Nat
  /-- First cycle in which a victim is looked for after a refused save (log 99). -/
  saveAt   : Nat
  /-- Queue served last at each level (R415). -/
  rr       : Vector (Fin 64) 8
  waitTab  : List (Nat × CtxId)
  eqbase   : W64
  eqEn     : Bool
  eqSlog   : BitVec 4
  eqVec    : BitVec 3
  eqDrops  : BitVec 16
  eqHead   : BitVec 32
  eqTail   : BitVec 32
  mbDone   : Bool
  mbErr    : Bool
  mbSeq    : BitVec 16
  mbReq    : BitVec 2048
  mbResp   : BitVec 4096
  bank     : List Broadcast
deriving DecidableEq, Repr

/-! ### Joist -/

/-- A segment entry of the manifest in force (R117). -/
structure Segment where
  segid  : BitVec 16
  dmask  : BitVec 8
  fmt    : BitVec 4
  shared : Bool
  dwell  : BitVec 16
  len    : Nat
  src    : List Nat
deriving DecidableEq, Repr

structure Manifest where
  mgen : BitVec 8
  segs : List Segment
deriving DecidableEq, Repr

/-- The lane states of R402, in code order. -/
inductive LaneState where
  | active | weak | pending | swapping | spared | failed | idle | carrying
deriving DecidableEq, Repr

structure PortLane where
  state  : LaneState
  margin : BitVec 16
  corr   : BitVec 16
  map    : BitVec 6
  /-- Successive telemetry periods below SOFT, or at or above it, for R402. -/
  run    : Nat
deriving DecidableEq, Repr

/-- Where a request to a peer stands: waiting at its die, in its virtual egress queue, or sent on a
port (R397, R398). -/
inductive PeerPlace where
  | atDie | queued | sent (q : Fin 16)
deriving DecidableEq, Repr

/-- A memory request to a peer that is not acknowledged (R398, R399). `read` tells one that returns
data; `engine` names the engine operation whose piece it is; `dead` tells that the task has ended. -/
structure PeerReq where
  id     : CtxId
  seq    : BitVec 16
  member : BitVec 9
  place  : PeerPlace
  va     : W64
  /-- Identifier that translated its access. -/
  asid   : Fin 64
  acc    : AccKind
  /-- Cycle of issue of its access. -/
  issue  : Nat
  read   : Bool
  engine : Option (BitVec 16)
  dead   : Bool
  /-- The barrier to which an arrival goes once the update is acknowledged (06 R156). -/
  arrive : Option Nat
  flit   : Flit
deriving DecidableEq, Repr

/-- A flit sent and not acknowledged (R395); of a channel's send, the context, its task and the channel. -/
structure Sent where
  flit : Flit
  chan : Option (CtxId × Option (Fin 1024) × Fin 32)
deriving DecidableEq, Repr

structure Port where
  en       : Bool
  untimed  : Bool
  linkto   : BitVec 16
  training : Bool
  trained  : Bool
  up       : Bool
  degraded : Bool
  badf     : BitVec 16
  nocirc   : BitVec 16
  lost     : BitVec 16
  member   : BitVec 9
  circ     : Bool
  lat      : BitVec 16
  gap      : W64
  gapp     : W64
  /-- GTIME at which a swap was asked for; the gap agreed; the lanes of the swaps pending with their spares (R402, R403). -/
  swapAsked : Option Nat
  gapAgreed : Option Nat
  swaps    : List (Fin 34 × Fin 34)
  /-- Cycle in which the lanes of the swap fell quiet (R402). -/
  swapAt   : Nat
  /-- The gap that this end has last proposed or answered with (R403). -/
  gapOffer : Option Nat
  /-- First cycle after a swap taken at once (R402). -/
  heldUntil : Nat
  soft     : BitVec 16
  hard     : BitVec 16
  lpwr     : BitVec 8
  /-- The arbitration cycles of a pending request and a pending reclaim (R404). -/
  askMore  : Option Nat
  askLess  : Option Nat
  /-- First arbitration cycle in which light may be arbitrated again. -/
  lightAt  : Nat
  lanes    : Vector PortLane 34
  /-- Flits received that failed, by link sequence, with the failures in a row; and the link sequence of the last flit
  accepted, which the port acknowledges (R395). -/
  fails    : List (BitVec 32 × Nat)
  rxSeq    : BitVec 32
  /-- The flits sent and not acknowledged, the link sequence of the last one, and the cycle of the last acknowledgement
  (R395). -/
  replay   : List Sent
  txSeq    : BitVec 32
  lastAck  : Nat
  /-- Cycle of the next telemetry flit (R401). -/
  telemetryAt : Nat
  /-- PSEQIN by 8m + d (R398). -/
  pseqin   : List (Nat × BitVec 16)
deriving DecidableEq, Repr

/-- A comb or the spare (R228), state codes 0-5. -/
structure Comb where
  state  : BitVec 3
  forC   : BitVec 3
  power  : BitVec 16
  swaps  : BitVec 16
deriving DecidableEq, Repr

/-- A swap of lanes under way (R228): the comb, to the spare or back, commanded, end cycle. -/
structure CombSwap where
  comb      : Fin 4
  toSpare   : Bool
  commanded : Bool
  ends      : Nat
deriving DecidableEq, Repr

/-- A lane register with its last accepted writes, newest first: the GTIME of each and the register as it stood
before it (R212). -/
structure Lane where
  reg  : W64
  past : List (Nat × W64)
deriving DecidableEq, Repr

/-- A collective group (R405): word 0, the 192 rank bits, and the collectives accepted of each rank (R407). -/
structure Group where
  word0  : W64
  ranks  : BitVec 192
  counts : Vector Nat 16
deriving DecidableEq, Repr

/-- A timed flit on its way within the package (R386, R390). -/
structure Flying where
  due     : Nat
  die     : Fin 8
  core    : Fin 16
  ch      : Fin 32
  seq     : BitVec 16
  stamp   : W64
  payload : BitVec 2048
deriving DecidableEq, Repr

/-- One timing exchange with the master: local send, master receive, master send, local receive (16 R383). -/
structure Exchange where
  t1 : W64
  t2 : W64
  t3 : W64
  t4 : W64
deriving DecidableEq, Repr

/-- A timing flit on its way: its sequence and the GTIME at which it left (R383). -/
structure Asked where
  seq : BitVec 16
  t1  : W64
deriving DecidableEq, Repr

structure Joist where
  gtGuard   : BitVec 9
  /-- Cycle of the last write of GUARD, and the value before it (R382). -/
  gtGuardAt : Nat
  gtGuardOld : BitVec 9
  gtMaster  : BitVec 9
  gtSlotw   : BitVec 8
  gtOff     : BitVec 32
  gtSkew    : BitVec 32
  gtBusy    : Bool
  /-- The die of the request under way, and the cycle of the last request (R295, R383). -/
  gtDie     : Fin 8
  gtAsked   : Option (Nat × W64)
  gtAligned : Bool
  gtAlarm   : Bool
  gtLastMaster : BitVec 9
  gtGen     : BitVec 32
  /-- Cycles for which GTIME is still held, cycles it was held, and cycles it was stepped forward (R383). -/
  gtHold    : Nat
  /-- The sequence of the last timing flit; of the alignment under way, the exchanges still to begin, those begun and those
  recorded (R383). -/
  gtSeq     : BitVec 16
  gtLeft    : Nat
  gtSent    : List Asked
  gtExch    : List Exchange
  /-- The cycle of the next skew measurement, and the one under way (R384). -/
  skewAt    : Nat
  skewSent  : Option Asked
  gtBehind  : Nat
  gtAhead   : Nat
  member    : BitVec 9
  mvalid    : Bool
  lanes     : Vector Lane 8
  ctRefused : Bool
  ctLane    : BitVec 3
  ctWho     : BitVec 5
  ctFloor   : BitVec 16
  ctExtFloor : BitVec 16
  combEn    : Bool
  combAuto  : Bool
  combLoss  : BitVec 8
  combs     : Vector Comb 5
  /-- The comb whose lanes the spare has. -/
  combFor   : Option (Fin 4)
  combSwap  : Option CombSwap
  /-- First cycle of the next step of the laser power loop (19 R457). -/
  laserAt   : Nat
  /-- Cycle and die of the last register write that the Joist received (01 R30). -/
  wroteAt   : Nat
  wroteBy   : Fin 8
  rmanV     : Bool
  rmanBase  : W64
  rmannxV   : Bool
  rmannxBase : W64
  seg       : BitVec 16
  lap       : BitVec 48
  run       : Bool
  auto      : Bool
  speed     : BitVec 7
  minspd    : BitVec 7
  maxspd    : BitVec 7
  dwelling  : Bool
  dwelled   : Bool
  stopped   : Bool
  merr      : Bool
  /-- The segment of RPOS.SEG is being injected; false before it starts or while a dwell holds it. -/
  injecting : Bool
  /-- Cycle at which the ring may send its next tile (R120). -/
  tileAt    : Nat
  manifest  : Option Manifest
  /-- The tile of a shared share that some die has taken and another has not: its index, its bytes, and whether they were
  poisoned; a share is read once (R119). -/
  wire      : Option (Nat × List Byte × Bool)
  veqcfg    : W64
  /-- Entries in each virtual egress queue, first and one past last (R397). -/
  veq       : List (Nat × (Nat × Nat))
  groups    : Vector Group 16
  ports     : Vector Port 16
  peerReqs  : List PeerReq
  /-- Flits that answer a peer and wait at the die, with the peer. -/
  replies   : List (BitVec 9 × Flit)
  /-- Last sequence used on each channel of memory traffic, by 8m + d (R398). -/
  peerSeq   : List (Nat × BitVec 16)
  flying    : List Flying
deriving DecidableEq, Repr

/-! ### Package -/

/-- The boot states of R449 and R450, in code order. -/
inductive BootState where
  | reset | rom | selftest | ready | safe
deriving DecidableEq, Repr

/-- Who moves next: a hardware event of the opcode table, or a core that issues. -/
inductive Turn where
  | event (i : Instr)
  | core (d : Fin 8) (c : Fin 16)
deriving DecidableEq, Repr

/-- A trap taken during the present step, for the bundle that met it (R421). -/
structure Taken where
  trap   : TrapRec
  /-- 0 class I, 1 class C, 2 class A, 3 class R. -/
  cls    : BitVec 2
deriving DecidableEq, Repr

/-- A mailbox command that waits for the security unit (R449). -/
structure MbCmd where
  die : Fin 8
  op  : BitVec 8
  arg : BitVec 8
  seq : BitVec 16
  /-- Cycle of its write. -/
  at_ : Nat
deriving DecidableEq, Repr

structure State where
  /-- Core-clock cycles since reset was released. -/
  cycle   : Nat
  boot    : BootState
  /-- The self-test stage under way, and the failing stage in SAFE (R451). -/
  stage   : BitVec 8
  /-- The failure record (R451): die, unit, detail, GTIME. -/
  failDie : BitVec 3
  failUnit : BitVec 5
  failDetail : BitVec 48
  failTime : W64
  /-- Commands accepted and not finished, in arrival order. -/
  mbQueue : List MbCmd
  meas0   : BitVec 512
  meas1   : BitVec 512
  ideLink : Bool
  ideSel  : Bool
  dies    : Vector Die 8
  joist   : Joist
  mem     : Memory
  /-- First addresses of the poisoned protection units, rising (R56). -/
  poison  : List Nat
  /-- Units that the scrubber poisoned in cycle `scrubAt`, after the writes of that cycle (R59). -/
  scrubbed : List Nat
  scrubAt : Nat
  host    : Memory
  /-- Host-aperture addresses, of 64 bytes, whose next completion at a die is poisoned (02 R56). -/
  hostBad : List (Fin 8 × Nat)
  /-- GTIME of the last phase flip of each barrier (06 R157). -/
  flips   : List (Nat × Nat)
  msixTab : List (Nat × BitVec 128)
  msixPba : BitVec 64
  cur     : CtxId
  agenda  : List Turn
  free    : Nat
  taken   : Option Taken
  /-- The present bundle stalls until its core's next issue (R389). -/
  stalled : Bool
  /-- Held stores have been handed over for a piece of the present bundle that follows them (R151, R428). -/
  early   : Bool
deriving DecidableEq, Repr

/-! ### Reset -/

/-- FINFO after reset: RANGE = 15, every other field 0 (R91). -/
def finfoReset : W64 := 0xF000#64

/-- The registers of a context as R186 sets them and, before any dispatch, after reset (log 1). -/
def Arch.reset : Arch where
  s := Vector.replicate 64 0
  hs := Vector.replicate 16 0
  p := 1
  hp := 0
  a := Vector.replicate 16 0
  d := Vector.replicate 16 0
  lc := Vector.replicate 4 0
  rbs := 0
  rbp := 0
  fbase := 0
  ft := Vector.replicate 16 0
  ts := Vector.replicate 16 0
  xp := Vector.replicate 8 0
  pkr := 0
  stickyM := none
  stickyC := none
  pc := 0
  due := none

def PendingA.none : PendingA := ⟨false, false, false, [], Option.none⟩

def Ctx.reset : Ctx where
  arch := Arch.reset
  tiles := Vector.replicate 16 0
  lines := Vector.replicate 32 0
  masks := Vector.replicate 8 0
  cause := 0
  fva := 0
  finfo := finfoReset
  fstat := 0
  sbctl := 0
  wid := 0
  widcfg := 0
  xctl := 0
  sticky := 0
  rovf := false
  drops := 0
  xpr := 0
  iuvec := 0
  uiret := 0
  inh := false
  lost := false
  keepM := none
  keepC := none
  mrql := 0
  mrqr := 0
  mrqi := 0
  pin := false
  pinStart := 0
  pinOvr := false
  persist := false
  quantum := 4096
  yields := false
  status := .idle
  asid := 0
  task := none
  extents := []
  ranges := []
  inflight := []
  opened := 0
  pend := []
  held := []
  ckpt := ⟨Arch.reset, []⟩
  npc := 0
  jumped := false
  nextDue := none
  fencing := false
  markDue := false
  readT := 0
  readV := 0
  readK := 0
  confT := 0
  confV := 0
  confK := 0
  notices := []
  handles := 0
  statuses := []
  streams := []
  xwaited := none
  reports := []
  links := []
  slotWait := none
  wait := none
  kvReq := none
  boarding := none
  keepWait := none
  keepKv := none
  keepBoard := none
  waitRegs := []
  unboards := []
  pendingA := PendingA.none
  trapDue := none
  streamFault := none
  rollDue := false
  latches := []
  latchPend := []
  latchBad := []
  poison := []
  wdStart := 0
  wdRuns := false
  wdHeld := 0
  wasBlocked := false

/-- A channel after reset (R386): MEMBER 0x1FF, LAT 40. -/
def Channel.reset : Channel where
  desc := 0x0000002800001FF0#64
  seqTx := 0
  seqRx := 0
  lost := false
  skew := false
  drop := 0
  disc := 0
  queue := []

def Core.reset : Core where
  ctxs := Vector.replicate 4 Ctx.reset
  running := none
  lastRan := 3
  nextIssue := 0
  vaFree := 0
  vbFree := 0
  frozenUntil := 0
  weights := []
  deferred := 0
  clim := 640
  climAt := 0
  climOld := 640
  frzEcc := 0
  frzGov := 0
  frzDefer := 0
  l1tlb := []
  dirty := 0
  dirtyOld := 0
  dirtyNew := 0
  dirtyAt := 0
  channels := Vector.replicate 32 Channel.reset
  calValid := false
  calTstep := false
  calFail := false
  calTemp := 0
  calAt := 0
  calSeen := false
  calEnd := none
  calcfg := 0x0000000840000000#64
  xdeskDelay := Vector.replicate 8 0
  xdeskPast := Vector.replicate 8 []
  xdeskResid := Vector.replicate 8 0

def BSlot.reset : BSlot where
  state := .empty
  segid := 0
  mgen := 0
  fmt := 0
  parked := 0
  hold := 0
  bsid := 0
  dwell := 0
  len := 0
  src := 0
  got := 0
  next := 0
  repairs := []
  repairOn := none
  tries := 0
  failed := false
  dwellAt := 0
  pbSel := false
  pbGen := 0

def Queue.reset : Queue where
  qbase := 0
  en := false
  err := false
  fault := false
  asid := 0
  slog := 0
  head := 0
  tail := 0
  qseqb := 0
  seqTry := 0
  seqAt := 0
  launch := none

def Die.reset : Die where
  cores := Vector.replicate 16 Core.reset
  habase := 0
  asroot := Vector.replicate 64 0
  merrV := false
  merrOvf := false
  merrKind := 0
  merrSrc := 0
  merrCore := 0
  merrDie := 0
  merrCnt := 0
  merra := 0
  merrLast := none
  ecccnt := 0
  mscrub := 0x1801#64
  l2tlb := []
  walks := []
  tlbinvva := 0
  tlbErr := false
  tlbInv := none
  kvbase := 0
  kvcfg := 0x0000000840000000#64
  kvfrb := 0
  kvfrHead := 0
  kvfrTail := 0
  kvrlb := 0
  kvrlHead := 0
  kvrlTail := 0
  kvErr := false
  kvEmpty := false
  kvFull := false
  kvCows := 0
  kvMigs := 0
  kvReqs := []
  kvNext := 0
  kvEmptyEpisode := false
  kvFullEpisode := false
  pbtab := 0
  pbcfg := 0
  pbErr := false
  pubcnt := 0
  bscfg := 0x80#64
  slots := Vector.replicate 8 BSlot.reset
  bscap := 0
  mlcnt := 0
  rprcnt := 0
  rpfcnt := 0
  rvkcnt := 0
  engines := Vector.replicate 4 ⟨true, false, 0, 0⟩
  engOps := []
  queues := Vector.replicate 64 Queue.reset
  schedErr := false
  schedEn := true
  deppoll := 4096
  pinmax := 65536
  wdEn := true
  wdLimit := 0x100000
  wdAt := 0
  wdOld := (true, 0x100000)
  svbase := 0
  svcfg := 20
  tasks := []
  taskSeq := 0
  dispatchAt := 0
  saveAt := 0
  rr := Vector.replicate 8 63
  waitTab := []
  eqbase := 0
  eqEn := false
  eqSlog := 7
  eqVec := 0
  eqDrops := 0
  eqHead := 0
  eqTail := 0
  mbDone := false
  mbErr := false
  mbSeq := 0
  mbReq := 0
  mbResp := 0
  bank := []

def PortLane.reset (l : Nat) : PortLane where
  state := if l < 32 then .active else .idle
  margin := 0
  corr := 0
  map := if l < 32 then BitVec.ofNat 6 l else 63
  run := 0

def Port.reset : Port where
  en := false
  untimed := true
  linkto := 196
  training := false
  trained := false
  up := false
  degraded := false
  badf := 0
  nocirc := 0
  lost := 0
  member := 0x1FF
  circ := false
  lat := 0
  gap := 0
  gapp := 0x0000010000000000#64
  swapAsked := none
  gapAgreed := none
  swaps := []
  swapAt := 0
  gapOffer := none
  heldUntil := 0
  soft := 30
  hard := 10
  lpwr := 0
  askMore := none
  askLess := none
  lightAt := 0
  lanes := ⟨((List.range 34).map PortLane.reset).toArray, rfl⟩
  fails := []
  rxSeq := 0
  replay := []
  txSeq := 0
  lastAck := 0
  telemetryAt := 0
  pseqin := []

def Joist.reset : Joist where
  gtGuard := 32
  gtGuardAt := 0
  gtGuardOld := 32
  gtMaster := 0x1FF
  gtSlotw := 4
  gtOff := 0
  gtSkew := 0
  gtBusy := false
  gtDie := 0
  gtAsked := none
  gtAligned := false
  gtAlarm := false
  gtLastMaster := 0x1FF
  gtGen := 0
  gtHold := 0
  gtSeq := 0
  gtLeft := 0
  gtSent := []
  gtExch := []
  skewAt := 0
  skewSent := none
  gtBehind := 0
  gtAhead := 0
  member := 0x1FF
  mvalid := false
  lanes := Vector.replicate 8 ⟨0, []⟩
  ctRefused := false
  ctLane := 0
  ctWho := 0
  ctFloor := 0xFFB0
  ctExtFloor := 0xFFB0
  combEn := false
  combAuto := true
  combLoss := 30
  combs := Vector.replicate 5 ⟨0, 0, 0, 0⟩
  combFor := none
  combSwap := none
  laserAt := 0
  wroteAt := 0
  wroteBy := 0
  rmanV := false
  rmanBase := 0
  rmannxV := false
  rmannxBase := 0
  seg := 0
  lap := 0
  run := false
  auto := true
  speed := 64
  minspd := 8
  maxspd := 64
  dwelling := false
  dwelled := false
  stopped := true
  merr := false
  injecting := false
  tileAt := 0
  manifest := none
  wire := none
  veqcfg := 0x0080000000000000#64
  veq := []
  groups := Vector.replicate 16 ⟨0, 0, Vector.replicate 16 0⟩
  ports := Vector.replicate 16 Port.reset
  peerReqs := []
  replies := []
  peerSeq := []
  flying := []

/-- The package right after reset: every field at the value the manual states, boot state RESET, and
nothing listed in memory. -/
def State.reset : State where
  cycle := 0
  boot := .reset
  stage := 0
  failDie := 0
  failUnit := 0
  failDetail := 0
  failTime := 0
  mbQueue := []
  meas0 := 0
  meas1 := 0
  ideLink := false
  ideSel := false
  dies := Vector.replicate 8 Die.reset
  joist := Joist.reset
  mem := []
  poison := []
  scrubbed := []
  scrubAt := 0
  host := []
  hostBad := []
  flips := []
  msixTab := []
  msixPba := 0
  cur := ⟨0, 0, 0⟩
  agenda := []
  free := 0
  taken := none
  stalled := false
  early := false

end Sys2Proof.Machine
end

