-- ==== Sys2Proof/Machine/Access.lean ====
section
/-! DEFINITION. Reading and updating the parts of the state, the register names of a context with
their rotation and handler bank (08 R187, R188, 07 R179), and the delivery of register writes
(10 R243, R244; 13 R298, R299). -/

namespace Sys2Proof.Machine

/-! ### Parts of the state -/

def State.die (s : State) (d : Fin 8) : Die := vget s.dies d
def State.updDie (s : State) (d : Fin 8) (f : Die → Die) : State := { s with dies := vupd s.dies d f }
def State.core (s : State) (d : Fin 8) (c : Fin 16) : Core := vget (s.die d).cores c
def State.updCore (s : State) (d : Fin 8) (c : Fin 16) (f : Core → Core) : State :=
  s.updDie d fun x => { x with cores := vupd x.cores c f }
def State.ctxOf (s : State) (id : CtxId) : Ctx := vget (s.core id.die id.core).ctxs id.ctx
def State.updCtx (s : State) (id : CtxId) (f : Ctx → Ctx) : State :=
  s.updCore id.die id.core fun c => { c with ctxs := vupd c.ctxs id.ctx f }

/-- The context that issues. -/
def State.cx (s : State) : Ctx := s.ctxOf s.cur
def State.updCx (s : State) (f : Ctx → Ctx) : State := s.updCtx s.cur f
def State.myDie (s : State) : Die := s.die s.cur.die
def State.myCore (s : State) : Core := s.core s.cur.die s.cur.core
def State.updMyDie (s : State) (f : Die → Die) : State := s.updDie s.cur.die f
def State.updMyCore (s : State) (f : Core → Core) : State := s.updCore s.cur.die s.cur.core f
def State.updJoist (s : State) (f : Joist → Joist) : State := { s with joist := f s.joist }

/-- A progress event: the watchdog count of a context returns to 0 (08 R204). -/
def Ctx.progress (c : Ctx) (now : Nat) : Ctx := { c with wdStart := now, wdHeld := 0 }
/-- The count stands while the context is ready or saved, and runs while it is running or blocked. -/
def Ctx.wdStop (c : Ctx) (now : Nat) : Ctx :=
  if c.wdRuns then { c with wdHeld := c.wdHeld + (now - c.wdStart), wdRuns := false } else c
def Ctx.wdGo (c : Ctx) (now : Nat) : Ctx := if c.wdRuns then c else { c with wdStart := now, wdRuns := true }
def Ctx.wdCount (c : Ctx) (now : Nat) : Nat := c.wdHeld + (if c.wdRuns then now - c.wdStart else 0)

/-- The first cycle from now on in which a context's core is not frozen: its watchdog count runs from there (08 R204). -/
def State.wdTime (s : State) (id : CtxId) : Nat := Nat.max s.cycle (s.core id.die id.core).frozenUntil

/-- Every context of the package. -/
def allCtxs : List CtxId :=
  (fins 8).flatMap fun d => (fins 16).flatMap fun c => (fins 4).map fun x => ⟨d, c, x⟩

/-- The contexts of one core. -/
def coreCtxs (d : Fin 8) (c : Fin 16) : List CtxId := (fins 4).map fun x => ⟨d, c, x⟩

/-- The contexts of one die. -/
def dieCtxs (d : Fin 8) : List CtxId := (fins 16).flatMap fun c => coreCtxs d c

def Ctx.updArch (c : Ctx) (f : Arch → Arch) : Ctx := { c with arch := f c.arch }

/-- GTIME (16 R381, R383): the cycles since reset, with the steps and holds of the alignments. -/
def State.gtime (s : State) : Nat := s.cycle + s.joist.gtAhead - s.joist.gtBehind

/-- The clock goes on to a cycle; GTIME stands while it is held. -/
def State.advance (s : State) (t : Nat) : State :=
  let n := t - s.cycle
  let h := Nat.min n s.joist.gtHold
  { s with
    cycle := s.cycle + n
    joist := { s.joist with gtHold := s.joist.gtHold - h, gtBehind := s.joist.gtBehind + h } }

/-- GTIME as the 64-bit count of R381. -/
def State.gtime64 (s : State) : W64 := BitVec.ofNat 64 s.gtime

/-! ### Register names -/

/-- The physical scalar of a logical one (R188). -/
def physS (a : Arch) (n : BitVec 6) : BitVec 6 :=
  if n.toNat < 32 then n else BitVec.ofNat 6 (32 + (n.toNat - 32 + a.rbs.toNat) % 32)

/-- The physical predicate of a logical one (R188). -/
def physP (a : Arch) (n : BitVec 4) : BitVec 4 :=
  if n.toNat < 8 then n else BitVec.ofNat 4 (8 + (n.toNat - 8 + a.rbp.toNat) % 8)

/-- The scalar that a field names, in the handler bank inside a notice handler (R179). -/
def Ctx.nameS (c : Ctx) (n : BitVec 6) : RegName :=
  if c.inh ∧ n ≠ 0 ∧ n.toNat < 16 then .hs (n.setWidth 4) else .s (physS c.arch n)

/-- The predicate that a field names. -/
def Ctx.nameP (c : Ctx) (n : BitVec 4) : RegName :=
  if c.inh ∧ n ≠ 0 ∧ n.toNat < 8 then .hp (n.setWidth 3) else .p (physP c.arch n)

/-- A scalar; s0 reads 0 (R187). -/
def Ctx.rS (c : Ctx) (n : BitVec 6) : W64 :=
  match c.nameS n with
  | .hs m => vget c.arch.hs m.toFin
  | .s m => if m = 0 then 0 else vget c.arch.s m.toFin
  | _ => 0

/-- A predicate; p0 reads true (R187). -/
def Ctx.rP (c : Ctx) (n : BitVec 4) : Bool :=
  match c.nameP n with
  | .hp m => c.arch.hp.getLsbD m.toNat
  | .p m => if m = 0 then true else c.arch.p.getLsbD m.toNat
  | _ => false

def Ctx.rA (c : Ctx) (n : BitVec 4) : W64 := vget c.arch.a n.toFin
def Ctx.rD (c : Ctx) (n : BitVec 4) : BitVec 32 := vget c.arch.d n.toFin
def Ctx.rT (c : Ctx) (n : BitVec 4) : BitVec 32768 := vget c.tiles n.toFin
def Ctx.rV (c : Ctx) (n : BitVec 5) : BitVec 2048 := vget c.lines n.toFin
def Ctx.rK (c : Ctx) (n : BitVec 3) : BitVec 4096 := vget c.masks n.toFin
def Ctx.rTS (c : Ctx) (n : BitVec 4) : BitVec 32 := vget c.arch.ts n.toFin
def Ctx.rLC (c : Ctx) (n : BitVec 2) : W64 := vget c.arch.lc n.toFin
def Ctx.rXP (c : Ctx) (n : BitVec 3) : W64 := vget c.arch.xp n.toFin
def Ctx.rFT (c : Ctx) (n : BitVec 4) : BitVec 32 := vget c.arch.ft n.toFin

def State.rS (s : State) (n : BitVec 6) : W64 := s.cx.rS n
def State.rP (s : State) (n : BitVec 4) : Bool := s.cx.rP n
def State.rA (s : State) (n : BitVec 4) : W64 := s.cx.rA n

/-- The current format entry, FT[(FBASE + lc0 + j) mod 16] (R197, R291). -/
def Ctx.ftIndex (c : Ctx) (j : Nat) : BitVec 4 :=
  BitVec.ofNat 4 (c.arch.fbase.toNat + (c.rLC 0).toNat + j)

def Ctx.entry (c : Ctx) : BitVec 32 := c.rFT (c.ftIndex 0)

/-- Bytes of an element of a tile format (R191). -/
def elemSize (fmt : Nat) : Nat :=
  match fmt with
  | 1 => 4 | 4 => 4 | 2 => 2 | 3 => 2 | 5 => 2 | _ => 1

/-! ### Writes of registers -/

/-- The register that a write names. -/
def Write.reg : Write → RegName
  | .s n _ => .s n | .hs n _ => .hs n | .p n _ => .p n | .hp n _ => .hp n | .a n _ => .a n
  | .d n _ => .d n | .t n _ _ => .t n | .v n _ _ => .v n | .k n _ _ => .k n | .ts n _ => .ts n
  | .lc n _ => .lc n | .ft n _ => .ft n | .fbase _ => .fbase | .pkr _ => .pkr | .xp n _ => .xp n
  | .rot _ _ => .rot | .csr n _ => .csr n

/-- A write of the scalar that a field names. -/
def Ctx.wS (c : Ctx) (n : BitVec 6) (v : W64) : Write :=
  match c.nameS n with
  | .hs m => .hs m v
  | .s m => .s m v
  | _ => .s 0 v

/-- A write of the predicate that a field names. -/
def Ctx.wP (c : Ctx) (n : BitVec 4) (b : Bool) : Write :=
  match c.nameP n with
  | .hp m => .hp m b
  | .p m => .p m b
  | _ => .p 0 b

/-- Bit n of a word set to a value. -/
def setBit {w : Nat} (x : BitVec w) (n : Nat) (b : Bool) : BitVec w :=
  if b then x ||| BitVec.twoPow w n else x &&& ~~~BitVec.twoPow w n

/-- The bits that a mask selects, from a new value. -/
def merge {w : Nat} (old data mask : BitVec w) : BitVec w := (old &&& ~~~mask) ||| (data &&& mask)

def shapeDirty : Nat := 30

/-- `csrw` delivered: each field by its access code (12 R294; R203, R273, R247, 09 R223, 07 R180, 02 R67); LC0 to LC3 are written as loop counters. -/
def Ctx.csrWrite (c : Ctx) (n : Nat) (v : W64) : Ctx :=
  match n with
  | 0x000 => { c with pinOvr := c.pinOvr && !bit v 10 }
  | 0x005 => { c with fstat := c.fstat &&& ~~~(field v 0 5) }
  | 0x006 => { c with sbctl := setField (setField c.sbctl 0 1 (bitsOf v 0 1)) 32 16
                        (bitsOf (field c.sbctl 32 16 &&& ~~~(field v 32 16)) 0 16) }
  | 0x050 => { c with xctl := field v 0 7 }
  | 0x051 => { c with sticky := c.sticky &&& ~~~(field v 0 6), rovf := c.rovf && !bit v 6, drops := field v 16 16 }
  | 0x060 => { c with iuvec := v &&& ~~~2#64 }
  | 0x061 => { c with uiret := v &&& 0x3FFFFFFFFFFFFFFC#64 }
  | 0x062 => { c with lost := c.lost && !bit v 9 }
  | 0x070 => { c with mrql := v }
  | 0x071 => { c with mrqr := v }
  | 0x072 => { c with mrqi := v }
  | _ => c

/-- One register write takes place. Writes to s0 and p0 are discarded (R187); a tile, line or mask
write with its read-since-mark bit set sets the conflict bit (18 R432); a tile write of at least one
element sets DIRTY (R195); a shape write keeps DIRTY (R192). -/
def Write.apply (w : Write) (c : Ctx) : Ctx :=
  match w with
  | .s i x => if i = 0 then c else c.updArch fun a => { a with s := vset a.s i.toFin x }
  | .hs i x => if i = 0 then c else c.updArch fun a => { a with hs := vset a.hs i.toFin x }
  | .p i x => if i = 0 then c else c.updArch fun a => { a with p := setBit a.p i.toNat x }
  | .hp i x => if i = 0 then c else c.updArch fun a => { a with hp := setBit a.hp i.toNat x }
  | .a i x => c.updArch fun a => { a with a := vset a.a i.toFin x }
  | .d i x => c.updArch fun a => { a with d := vset a.d i.toFin x }
  | .t i data mask =>
    if mask = 0 then c
    else
      { c with
        tiles := vset c.tiles i.toFin (merge (vget c.tiles i.toFin) data mask)
        arch := { c.arch with ts := vset c.arch.ts i.toFin (setBit (vget c.arch.ts i.toFin) shapeDirty true) }
        confT := if c.readT.getLsbD i.toNat then setBit c.confT i.toNat true else c.confT }
  | .v i data mask =>
    { c with
      lines := vset c.lines i.toFin (merge (vget c.lines i.toFin) data mask)
      confV := if c.readV.getLsbD i.toNat then setBit c.confV i.toNat true else c.confV }
  | .k i data mask =>
    { c with
      masks := vset c.masks i.toFin (merge (vget c.masks i.toFin) data mask)
      confK := if c.readK.getLsbD i.toNat then setBit c.confK i.toNat true else c.confK }
  | .ts i x =>
    c.updArch fun a =>
      { a with ts := vset a.ts i.toFin (merge x (vget a.ts i.toFin) (BitVec.twoPow 32 shapeDirty)) }
  | .lc i x => c.updArch fun a => { a with lc := vset a.lc i.toFin x }
  | .ft i x => c.updArch fun a => { a with ft := vset a.ft i.toFin x }
  | .fbase x => c.updArch fun a => { a with fbase := x }
  | .pkr x => c.updArch fun a => { a with pkr := x }
  | .xp i x => c.updArch fun a => { a with xp := vset a.xp i.toFin x }
  | .rot rbs rbp => c.updArch fun a => { a with rbs := rbs, rbp := rbp }
  | .csr i x => c.csrWrite i.toNat x

/-- s0 and p0, whose writes are discarded (08 R187). -/
def RegName.discards : RegName → Bool
  | .s n => n == 0
  | .p n => n == 0
  | _ => false

/-- Whether a write replaces its register whole, so that it clears the register's poison (R56); of a tile all 4,096
bytes, whatever its shape (log 83). -/
def Write.whole : Write → Bool
  | .t _ _ mask => mask == BitVec.allOnes _
  | .v _ _ mask => mask == BitVec.allOnes _
  | .k _ _ mask => mask == BitVec.allOnes _
  | _ => true

/-- A delivery: the write, its flags, and the poison it carries or clears. -/
def Ctx.land (c : Ctx) (w : Write) (flags : BitVec 5) (poisoned : Bool) : Ctx :=
  let c := w.apply c
  { c with
    fstat := c.fstat ||| flags
    poison :=
      if w.reg.discards then c.poison
      else if poisoned then (if c.poison.contains w.reg then c.poison else c.poison ++ [w.reg])
      else if w.whole then c.poison.filter (· != w.reg) else c.poison }

/-! ### Deliveries in time -/

/-- One delivery that has fallen due: its cycle, whether it is a control-register write (those act
first in their cycle, so that a flag set in the same cycle stays set, R274), and its effect. -/
structure Due where
  at_    : Nat
  late   : Nat
  w      : Write
  flags  : BitVec 5
  poison : Bool

def Due.before (a b : Due) : Bool := a.at_ < b.at_ || (a.at_ == b.at_ && a.late < b.late)

/-- Insertion that keeps the order of equals. -/
def Due.insert (x : Due) : List Due → List Due
  | [] => [x]
  | y :: ys => if x.before y then x :: y :: ys else y :: Due.insert x ys

def sortDues (l : List Due) : List Due := l.foldl (fun acc x => x.insert acc) []

def Write.isCsr : Write → Bool
  | .csr _ _ => true
  | _ => false

def Delivery.toDue (x : Delivery) : Due := ⟨x.due, b2n (!x.w.isCsr), x.w, x.flags, false⟩

/-- A write of bytes to the valid elements of a tile of a shape, in row order (R192, R307). -/
def tileWrite (n : BitVec 4) (shape : BitVec 32) (raw : List Byte) : Write :=
  let cols := bitsOf shape 6 6 + 1
  let vr := bitsOf shape 12 7
  let vc := bitsOf shape 19 7
  let sz := elemSize (bitsOf shape 26 4)
  let rowBits := 8 * cols * sz
  let runBits := 8 * vc * sz
  let x := leNat raw
  let rows := List.range vr
  .t n (BitVec.ofNat 32768 (rows.foldl (fun acc i => acc + x / 2 ^ (i * runBits) % 2 ^ runBits * 2 ^ (i * rowBits)) 0))
    (BitVec.ofNat 32768 (rows.foldl (fun acc i => acc + (2 ^ runBits - 1) * 2 ^ (i * rowBits)) 0))

/-- A write of a named scalar. -/
def RegName.write (r : RegName) (v : W64) : Write :=
  match r with
  | .hs m => .hs m v
  | .s m => .s m v
  | _ => .s 0 v

/-- A write of a whole register of the files to which decoupled operations deliver. -/
def RegName.whole (r : RegName) : Write :=
  match r with
  | .v n => .v n 0 (BitVec.allOnes 2048)
  | .k n => .k n 0 (BitVec.allOnes 4096)
  | .t n => .t n 0 (BitVec.allOnes 32768)
  | .p n => .p n false
  | .hp n => .hp n false
  | r => r.write 0

/-- The writes that gathered bytes become. -/
def LoadForm.writes (f : LoadForm) (raw : List Byte) : List Write :=
  match f with
  | .given ws => ws
  | .kv ws => ws
  | .popped ws => ws
  | .scalar r size sx =>
    let v := leNat (raw.take size)
    [r.write (if sx then BitVec.ofInt 64 (signedNat v (8 * size)) else BitVec.ofNat 64 v)]
  | .line n => [.v n (BitVec.ofNat 2048 (leNat raw)) (BitVec.allOnes 2048)]
  | .tile n shape => [tileWrite n shape raw]

/-- The registers that an operation will write. -/
def LoadForm.regs : LoadForm → List RegName
  | .given ws => ws.map Write.reg
  | .kv ws => ws.map Write.reg
  | .popped ws => ws.map Write.reg
  | .scalar r _ _ => [r]
  | .line n => [.v n]
  | .tile n _ => [.t n]

/-- The registers that an operation still delivers to. -/
def Pend.regs (p : Pend) : List RegName := p.form.regs.filter fun r => !p.dropped.contains r && !r.discards
def Pend.writes (p : Pend) : List Write := (p.form.writes p.raw).filter fun w => !p.dropped.contains w.reg

/-- Whether a write of a decoupled operation carries its poison; the status of a receive does not. -/
def Pend.spoils (p : Pend) (w : Write) : Bool :=
  p.poison && (match p.form, w with
    | .popped _, .s _ _ => false
    | .popped _, .hs _ _ => false
    | _, _ => true)

/-- The writes of a decoupled operation, in one delivery; its flags travel with the first. -/
def Pend.dues (p : Pend) : List Due :=
  match p.writes with
  | [] => []
  | w :: ws => ⟨p.due, 1, w, p.flags, p.spoils w⟩ :: ws.map fun w => ⟨p.due, 1, w, 0, p.spoils w⟩

/-- Whether a decoupled operation is delivered at or before a cycle. -/
def Pend.ready (now : Nat) (p : Pend) : Bool := p.waits.isEmpty && decide (p.due ≤ now)

/-- The registers of a checkpoint take the delivery of an operation issued before the mark (R430). -/
def Ctx.landCkpt (c : Ctx) (p : Pend) : Ctx :=
  if p.pre then
    let x := p.writes.foldl (fun x w => w.apply x) { c with arch := c.ckpt.arch }
    { c with ckpt := { c.ckpt with arch := { x.arch with ts := c.ckpt.arch.ts } } }
  else c

/-- Everything due at or before a cycle is delivered, in the order of the cycles and, within one
cycle, of the program (R244). -/
def Ctx.settle (c : Ctx) (now : Nat) : Ctx :=
  let fixed := (c.inflight.filter fun x => x.due ≤ now).map Delivery.toDue
  let done := c.pend.filter (Pend.ready now)
  let c := done.foldl Ctx.landCkpt { c with
    inflight := c.inflight.filter fun x => !decide (x.due ≤ now)
    pend := c.pend.filter fun p => !p.ready now }
  (sortDues (fixed ++ done.flatMap Pend.dues)).foldl (fun c x => c.land x.w x.flags x.poison) c

/-- What is due of the fixed-latency results is delivered; a hardware event that reads or sets what a `csrw` of an
earlier cycle wrote comes after it (12 R294). -/
def Ctx.settleFixed (c : Ctx) (now : Nat) : Ctx :=
  let x := Ctx.settle { c with pend := [] } now
  { x with pend := c.pend }

/-- What is left of an earlier slot's write once a later slot of the same bundle writes the register (10 R249). -/
def Write.under (old new : Write) : Option Write :=
  if old.reg ≠ new.reg then some old
  else match old, new with
    | .t n data mask, .t _ _ m => some (.t n data (mask &&& ~~~m))
    | .v n data mask, .v _ _ m => some (.v n data (mask &&& ~~~m))
    | .k n data mask, .k _ _ m => some (.k n data (mask &&& ~~~m))
    | _, _ => none

/-- A result of an earlier slot of the bundle gives way to later writes; its flags stay. -/
def Delivery.under (x : Delivery) (ws : List Write) : Delivery :=
  ws.foldl (fun x w => match x.w.under w with
    | some v => { x with w := v }
    | none => { x with w := .s 0 0 }) x

/-- The results of the bundle that issues give way to later writes; those of earlier bundles land in the order of
their cycles (R244). -/
def Ctx.giveWay (c : Ctx) (ws : List Write) : Ctx :=
  { c with inflight := c.inflight.take c.opened ++ (c.inflight.drop c.opened).map fun x => x.under ws }

/-- A later write of a register discards the delivery to it of every operation still pending (R299). -/
def Ctx.discardPending (c : Ctx) (rs : List RegName) : Ctx :=
  { c with
    pend := c.pend.map fun p => { p with dropped := p.dropped ++ rs.filter fun r => p.regs.contains r }
    streams := c.streams.map fun o =>
      match o.dst with
      | .tile n => if rs.contains (.t n) then { o with dropped := true } else o
      | .accum _ => o }

/-- A fixed-latency result, `lat` cycles after the present one (R243). -/
def Ctx.deliver (c : Ctx) (now lat : Nat) (w : Write) (flags : BitVec 5) : Ctx :=
  let c := (c.discardPending [w.reg]).giveWay [w]
  { c with inflight := c.inflight ++ [⟨now + lat, w, flags⟩] }

/-- A decoupled operation with its destinations (R298, R352). -/
def Ctx.addPend (c : Ctx) (p : Pend) : Ctx :=
  let c := (c.discardPending p.regs).giveWay (p.regs.map RegName.whole)
  { c with pend := c.pend ++ [p] }

def State.deliver (s : State) (lat : Nat) (w : Write) (flags : BitVec 5) : State :=
  s.updCx fun c => c.deliver s.cycle lat w flags

/-- A scalar result of the issuing context. -/
def State.putS (s : State) (n : BitVec 6) (lat : Nat) (v : W64) : State := s.deliver lat (s.cx.wS n v) 0

/-- A predicate result. -/
def State.putP (s : State) (n : BitVec 4) (lat : Nat) (b : Bool) : State := s.deliver lat (s.cx.wP n b) 0

/-- A scalar that an X-slot operation delivers (R352). -/
def State.pendS (s : State) (n : BitVec 6) (lat : Nat) (v : W64) : State :=
  s.updCx fun c => c.addPend ⟨s.cycle + lat, [], [], .given [c.wS n v], 0, false, [], false, false⟩

/-- Whether a register waits for a decoupled delivery (R298); one that will be discarded counts until it comes
(R299), and so does the latch of a receive. -/
def Ctx.isPending (c : Ctx) (r : RegName) : Bool :=
  c.latchPend.contains r ||
  (c.pend.any fun p => p.form.regs.contains r && !r.discards) ||
  c.streams.any fun o => decide (o.kind.toNat ≤ 1) && (match o.dst with | .tile n => r == .t n | .accum _ => false)

end Sys2Proof.Machine
end

