-- ==== Sys2Proof/Machine/Csr.lean ====
section
/-! DEFINITION. The control registers that `csrr` reads (12 R297), each put together from the fields
the state holds. -/

namespace Sys2Proof.Machine

/-- CTXSTAT (08 R203). -/
def Ctx.ctxstat (c : Ctx) (id : CtxId) : W64 :=
  BitVec.ofNat 64 (id.ctx.val + 4 * id.core.val + 0x40 * id.die.val + 0x200 * b2n c.pin + 0x400 * b2n c.pinOvr +
    0x800 * b2n c.persist + 0x10000 * c.quantum + 2 ^ 32 * c.arch.rbs.toNat + 2 ^ 37 * c.arch.rbp.toNat)

/-- XSTAT (09 R223). -/
def Ctx.xstat (c : Ctx) : W64 :=
  BitVec.ofNat 64 (c.sticky.toNat + 0x40 * b2n c.rovf + 0x100 * c.reports.length + 0x10000 * c.drops.toNat)

/-- UISTAT (07 R180); PEND counts to 8, as its field does (log 86). -/
def Ctx.uistat (c : Ctx) : W64 :=
  BitVec.ofNat 64 ((c.notices.filter fun n => n.fired.isNone).length +
    0x10 * Nat.min (c.notices.filter fun n => n.fired.isSome).length 8 + 0x100 * b2n c.inh + 0x200 * b2n c.lost)

/-- CAPID (01 R34). -/
def capid : W64 := 0x4C014B59
/-- MATOM (01 R37). -/
def matom : W64 := 0x333556
/-- MSIZE (01 R38). -/
def msize : W64 := 0x4880404010
/-- TCAP (01 R39). -/
def tcap : W64 := 0x0180200010403437

/-- DIEID of a die (01 R35). -/
def State.dieid (s : State) (d : Fin 8) : W64 :=
  BitVec.ofNat 64 (d.val + 0x10 * s.joist.member.toNat + 0x2000 * b2n s.joist.mvalid)

/-- XCALST of a core (09 R225): AGE counts from the last completed calibration and saturates. -/
def Core.xcalst (c : Core) (now : Nat) : W64 :=
  BitVec.ofNat 64 (b2n c.calValid + 2 * b2n c.calTstep + 4 * b2n c.calFail + 0x100 * c.calTemp.toNat +
    2 ^ 32 * (if c.calSeen then Nat.min (now - c.calAt) 0xFFFFFFFF else 0))

/-- GTSTAT (12 R295). -/
def Joist.gtstat (j : Joist) : W64 :=
  BitVec.ofNat 64 (b2n j.gtBusy + 2 * b2n j.gtAligned + 4 * b2n j.gtAlarm + 0x10000 * j.gtLastMaster.toNat +
    2 ^ 32 * j.gtGen.toNat)

/-- The registers of a context's own, by their number of R297; unassigned numbers read 0 (18 R437). -/
def Ctx.csr (c : Ctx) (id : CtxId) (k : Nat) : W64 :=
  match k with
  | 0x000 => c.ctxstat id
  | 0x001 => c.cause
  | 0x002 => c.fva
  | 0x003 => c.finfo
  | 0x004 => c.arch.pkr
  | 0x005 => c.fstat.setWidth 64
  | 0x006 => c.sbctl
  | 0x007 => c.wid
  | 0x018 => c.arch.fbase.setWidth 64
  | 0x050 => c.xctl.setWidth 64
  | 0x051 => c.xstat
  | 0x052 => c.xpr.setWidth 64
  | 0x060 => c.iuvec
  | 0x061 => c.uiret
  | 0x062 => c.uistat
  | 0x070 => c.mrql
  | 0x071 => c.mrqr
  | 0x072 => c.mrqi
  | _ =>
    if 0x10 ≤ k ∧ k < 0x14 then c.rLC (BitVec.ofNat 2 k)
    else if 0x20 ≤ k ∧ k < 0x30 then (c.rFT (BitVec.ofNat 4 k)).setWidth 64
    else if 0x30 ≤ k ∧ k < 0x40 then (c.rTS (BitVec.ofNat 4 k)).setWidth 64
    else if 0x40 ≤ k ∧ k < 0x48 then c.rXP (BitVec.ofNat 3 k)
    else 0

/-- `csrr`: the registers from 0x100 on are those of the die or the core, read live. -/
def State.csrRead (s : State) (k : BitVec 12) : W64 :=
  match k.toNat with
  | 0x100 => capid
  | 0x101 => s.dieid s.cur.die
  | 0x102 => matom
  | 0x103 => msize
  | 0x104 => tcap
  | 0x108 => s.myCore.xcalst s.cycle
  | 0x110 => s.joist.gtstat
  | n => s.cx.csr s.cur n

end Sys2Proof.Machine
end

