-- ==== Sys2Proof/Machine/Mem.lean ====
section
/-! DEFINITION. Memory: the canonical list of bytes, the physical address map (01 R16-R24), protection
units and poison (02 R56, R57), the dirty maps (R64), and reads and writes of storage at its home. -/

namespace Sys2Proof.Machine

/-! ### Bytes by address -/

/-- What an unlisted address reads as (R451 for HBM4 and LPDDR6; log 2 for scratchpad and host). -/
def unlisted : Byte := 0

/-- Whether the list is in its one form: addresses strictly rising, and no entry equal to `unlisted`. -/
def memWf : Memory → Bool
  | [] => true
  | [c] => c.2 != unlisted
  | c :: d :: rest => c.2 != unlisted && decide (c.1 < d.1) && memWf (d :: rest)

/-- The byte at an address. -/
def memByte : Memory → Nat → Byte
  | [], _ => unlisted
  | c :: rest, a => if c.1 = a then c.2 else memByte rest a

/-- The n bytes from an address on, of a list whose entries all lie at or above it. -/
def readFrom : Nat → Memory → Nat → List Byte
  | 0, _, _ => []
  | n + 1, [], a => unlisted :: readFrom n [] (a + 1)
  | n + 1, c :: rest, a => if c.1 = a then c.2 :: readFrom n rest (a + 1) else unlisted :: readFrom n (c :: rest) (a + 1)

/-- The n bytes from an address on. -/
def memRead (m : Memory) (a n : Nat) : List Byte := readFrom n (m.dropWhile fun c => decide (c.1 < a)) a

/-- The cells of a run of bytes, without those equal to `unlisted`. -/
def cellsOf : Nat → List Byte → Memory
  | _, [] => []
  | a, b :: bs => if b = unlisted then cellsOf (a + 1) bs else (a, b) :: cellsOf (a + 1) bs

/-- A run of bytes written at an address. -/
def memWrite (m : Memory) (a : Nat) (bs : List Byte) : Memory :=
  (m.takeWhile fun c => decide (c.1 < a)) ++ cellsOf a bs ++ (m.dropWhile fun c => decide (c.1 < a + bs.length))

/-! ### The physical address map (R16) -/

inductive Region where
  | spad | hbm | window | lpddr | ctrl | host | peer | hole
deriving DecidableEq, Repr

def region (pa : Nat) : Region :=
  if pa < 0x0000200000000 then .spad
  else if pa < 0x0010000000000 then .hole
  else if pa < 0x0018000000000 then .hbm
  else if pa < 0x0020000000000 then .window
  else if pa < 0x0030000000000 then .lpddr
  else if pa < 0x003FF00000000 then .hole
  else if pa < 0x0040000000000 then .ctrl
  else if pa < 0x0080000000000 then .host
  else if pa < 0x8000000000000 then .hole
  else if pa < 0x10000000000000 then .peer
  else .hole

/-- Storage of the package with its own cells. -/
def isDev (pa : Nat) : Bool :=
  match region pa with
  | .spad => true | .hbm => true | .lpddr => true | _ => false

/-- Scratchpad or the HBM4 direct window (R33, R69). -/
def spadOrHbm (pa : Nat) : Bool :=
  match region pa with
  | .spad => true | .hbm => true | _ => false

/-- The die whose storage a cell is (R18, R19, R22). -/
def homeDie (pa : Nat) : Fin 8 :=
  match region pa with
  | .spad => Fin.ofNat 8 (pa / 0x40000000)
  | .hbm => Fin.ofNat 8 ((pa - 0x0010000000000) / 0x1000000000)
  | .lpddr => Fin.ofNat 8 ((pa - 0x0020000000000) / 0x2000000000)
  | _ => 0

/-- The core whose slice a scratchpad cell is (R18). -/
def homeCore (pa : Nat) : Fin 16 := Fin.ofNat 16 (pa / 0x4000000)

def hbmBase : Nat := 0x0010000000000
def windowBase : Nat := 0x0018000000000
def lpddrBase : Nat := 0x0020000000000
def ctrlBase : Nat := 0x003FF00000000
def hostBase : Nat := 0x0040000000000
def peerBase : Nat := 0x8000000000000

/-- The host bus address of a host-aperture address of a die (R23). -/
def State.hostAddr (s : State) (d : Fin 8) (pa : Nat) : Nat := ((s.die d).habase.toNat + (pa - hostBase)) % 2 ^ 64

/-- The interleave hash (03 R75). -/
def interleave (pa plc n home : Nat) : Nat :=
  let g := if plc = 1 then 4096 else 65536
  let wo := pa - windowBase
  let x := wo / g
  let h := (x ^^^ (x >>> n) ^^^ (x >>> (2 * n))) % 2 ^ n
  hbmBase + (home + h) * 0x1000000000 + (x >>> n) * g + wo % g

/-! ### Protection units (R53, R56, R57) -/

/-- Size of the protection unit of a cell. -/
def unitSize (pa : Nat) : Nat := if pa < 0x0000200000000 then 8 else 32

/-- First addresses of the units that n bytes touch. -/
def unitsOf (pa n : Nat) : List Nat :=
  let u := unitSize pa
  let first := pa / u
  if n = 0 then [] else (List.range ((pa + n - 1) / u - first + 1)).map fun k => (first + k) * u

/-- Rising insertion without repeats. -/
def insertNat (x : Nat) : List Nat → List Nat
  | [] => [x]
  | y :: ys => if x < y then x :: y :: ys else if x = y then y :: ys else y :: insertNat x ys

/-- Whether any of n bytes is poisoned. -/
def State.poisoned (s : State) (pa n : Nat) : Bool :=
  let u := unitSize pa
  s.poison.any fun p => p < pa + n && pa < p + u && unitSize p == u

/-- The poisoned units that n bytes touch, lowest first. -/
def State.badUnits (s : State) (pa n : Nat) : List Nat :=
  s.poison.filter fun p => p < pa + n && pa < p + unitSize pa && unitSize p == unitSize pa

/-- Poison after a write of n good bytes: a unit written whole is clear (R57), but for the units in `keep`. -/
def clearPoison (l keep : List Nat) (pa n : Nat) : List Nat :=
  l.filter fun p => !(decide (pa ≤ p) && decide (p + unitSize p ≤ pa + n)) || keep.contains p

/-! ### Reads and writes at the home -/

/-- Dirty bits of a slice set and cleared in a cycle: a bit set in a cycle stays set whatever that cycle's clears
(R66). -/
def Core.touchDirty (k : Core) (now : Nat) (set clear : BitVec 16384) : Core :=
  let old := if k.dirtyAt = now then k.dirtyOld else k.dirty
  let new := (if k.dirtyAt = now then k.dirtyNew else 0) ||| set
  { k with dirty := ((k.dirty ||| set) &&& ~~~clear) ||| new, dirtyOld := old, dirtyNew := new, dirtyAt := now }

/-- The dirty map as it reads: after the writes and clears of earlier cycles (R66). -/
def Core.dirtyRead (k : Core) (now : Nat) : BitVec 16384 := if k.dirtyAt = now then k.dirtyOld else k.dirty

/-- The dirty bits of the 4 KiB regions of a slice that n bytes touch (R64). -/
def State.markDirty (s : State) (pa n : Nat) : State :=
  if pa < 0x0000200000000 ∧ n ≠ 0 then
    let first := pa / 4096
    (List.range ((pa + n - 1) / 4096 - first + 1)).foldl
      (fun s k =>
        let r := first + k
        s.updCore (Fin.ofNat 8 (r / 2 ^ 18)) (Fin.ofNat 16 (r / 2 ^ 14)) fun c =>
          c.touchDirty s.cycle (BitVec.twoPow 16384 (r % 2 ^ 14)) 0)
      s
  else s

/-- Units that the scrubber has poisoned in this cycle: a write of the cycle came before (R59). -/
def State.keptPoison (s : State) : List Nat := if s.scrubAt = s.cycle then s.scrubbed else []

/-- A write of bytes to storage of the package, performed at its home. -/
def State.devWrite (s : State) (pa : Nat) (bs : List Byte) : State :=
  ({ s with mem := memWrite s.mem pa bs, poison := clearPoison s.poison s.keptPoison pa bs.length }).markDirty pa bs.length

/-- A write of poisoned bytes: every unit it touches becomes poisoned whole (R56). -/
def State.devWritePoison (s : State) (pa : Nat) (bs : List Byte) : State :=
  let s := s.devWrite pa bs
  { s with poison := (unitsOf pa bs.length).foldl (fun l u => insertNat u l) s.poison }

def State.devRead (s : State) (pa n : Nat) : List Byte := memRead s.mem pa n
def State.dev64 (s : State) (pa : Nat) : W64 := w64 (s.devRead pa 8)
def State.hostRead (s : State) (a n : Nat) : List Byte := memRead s.host a n
def State.hostWrite (s : State) (a : Nat) (bs : List Byte) : State := { s with host := memWrite s.host a bs }

/-- Bytes of storage copied with their poison: every unit that receives a poisoned byte is poisoned whole (R56). -/
def State.copyStorage (s : State) (src dst n : Nat) : State :=
  let bad := s.badUnits src n
  let s := s.devWrite dst (s.devRead src n)
  bad.foldl (fun s u =>
    let a := Nat.max u src
    let b := Nat.min (u + unitSize u) (src + n)
    { s with poison := (unitsOf (dst + (a - src)) (b - a)).foldl (fun l u => insertNat u l) s.poison }) s

/-! ### Events to the host (19 R445, R446) -/

/-- The context or task that an event names in word 0. -/
structure EvSrc where
  core : Nat
  ctx  : Nat
  task : Nat
deriving DecidableEq, Repr

def noSrc : EvSrc := ⟨0, 0, 0⟩

def CtxId.src (id : CtxId) (task : Nat) : EvSrc := ⟨id.core, id.ctx, task⟩

/-- An MSI-X table entry; an entry never written is masked, as PCIe has it after reset (log 21). -/
def State.msixEntry (s : State) (n : Nat) : BitVec 128 := (alookup n s.msixTab).getD (BitVec.ofNat 128 (2 ^ 96))

/-- An MSI-X message: a write of the entry's data to its address, or its pending bit when masked. -/
def State.sendMsix (s : State) (n : Nat) : State :=
  let e := s.msixEntry n
  if bit e 96 then { s with msixPba := setBit s.msixPba n true }
  else s.hostWrite (bitsOf e 0 64) (leBytes 4 (bitsOf e 64 32))

/-- One event record: dropped and counted, or written before TAIL advances and the message is sent. -/
def State.postEvent (s : State) (d : Fin 8) (code : Nat) (src : EvSrc) (w1 w2 : Nat) : State :=
  let x := s.die d
  let slog := Nat.max 7 x.eqSlog.toNat
  let used := (x.eqTail - x.eqHead).toNat
  if !x.eqEn || used = 2 ^ slog then s.updDie d fun x => { x with eqDrops := satAdd x.eqDrops 1 }
  else
    let pass := x.eqTail.toNat / 2 ^ slog
    let w0 := code + d.val * 2 ^ 8 + src.core * 2 ^ 11 + src.ctx * 2 ^ 15 + src.task * 2 ^ 17 +
      (if pass % 2 = 0 then 2 ^ 63 else 0)
    let addr := x.eqbase.toNat + 32 * (x.eqTail.toNat % 2 ^ slog)
    let s := s.hostWrite addr (leBytes 8 w0 ++ leBytes 8 w1 ++ leBytes 8 w2 ++ leBytes 8 s.gtime)
    let s := s.updDie d fun x => { x with eqTail := x.eqTail + 1 }
    s.sendMsix (8 * d.val + x.eqVec.toNat)

/-- An event that every die posts. -/
def State.postAll (s : State) (code w1 w2 : Nat) : State :=
  (fins 8).foldl (fun s d => s.postEvent d code noSrc w1 w2) s

/-! ### Pieces (R51; 01 R37) -/

/-- Single-copy-atomic size of a cell of a memory kind, MATOM (01 R37). -/
def atomSize (sp : Space) (a : Nat) : Nat := match sp with
  | .dev => if region a = .spad then 64 else 32
  | _ => 8

/-- The pieces of n bytes at an address whose memory has atoms of a size (02 R51): start and length of each. -/
def piecesOf (atom : Nat) : Nat → Nat → Nat → List (Nat × Nat)
  | 0, _, _ => []
  | fuel + 1, a, n =>
    if n = 0 then []
    else
      let k := Nat.min n (atom - a % atom)
      (a, k) :: piecesOf atom fuel (a + k) (n - k)

/-- Bytes at an address cut into pieces of an atom's size. -/
def cutPieces (atom a : Nat) (bs : List Byte) : List (Nat × List Byte) :=
  (piecesOf atom (bs.length / atom + 2) a bs.length).map fun x => (x.1, (bs.drop (x.1 - a)).take x.2)

/-- Bytes written piece by piece, each performed alone, in order. -/
def State.writePieces (s : State) (atom a : Nat) (bs : List Byte) : State :=
  (cutPieces atom a bs).foldl (fun s x => s.devWrite x.1 x.2) s

/-! ### Error records (R58, R60, R61) -/

/-- MERRS of a die as a word. -/
def Die.merrs (x : Die) : W64 :=
  BitVec.ofNat 64 (b2n x.merrV + 2 * b2n x.merrOvf + 4 * x.merrKind.toNat + 0x20 * x.merrSrc.toNat +
    0x100 * x.merrCore.toNat + 0x1000 * x.merrDie.toNat + 0x10000 * x.merrCnt.toNat)

/-- The record of an error. -/
def Die.holdError (x : Die) (e : LastError) : Die :=
  { x with merrV := true, merrKind := e.kind, merrSrc := e.src, merrCore := e.core, merrDie := e.rdie, merra := e.addr }

/-- A write of MERRS. The errors of the same cycle are recorded after the write (R61). -/
def Die.merrsWrite (x : Die) (now : Nat) (v : W64) : Die :=
  let y := { x with merrV := x.merrV && !bit v 0, merrOvf := x.merrOvf && !bit v 1 }
  match x.merrLast with
  | some e =>
    if e.cycle = now ∧ bit v 0 then { y.holdError e with merrOvf := (e.ovf && !bit v 1) || e.more } else y
  | none => y

/-- An uncorrectable error recorded by a die, with its event. -/
def State.recordError (s : State) (d : Fin 8) (kind src core rdie addr : Nat) : State :=
  let e : LastError := ⟨s.cycle, BitVec.ofNat 3 kind, BitVec.ofNat 3 src, BitVec.ofNat 4 core, BitVec.ofNat 3 rdie,
    BitVec.ofNat 64 (addr / 32 * 32), (s.die d).merrOvf, false⟩
  let s := s.updDie d fun x =>
    let last := match x.merrLast with
      | some y => if y.cycle = s.cycle then { y with more := true } else e
      | none => e
    let x := { x with merrCnt := satAdd x.merrCnt 1, merrLast := some last }
    if x.merrV then { x with merrOvf := true } else x.holdError e
  s.postEvent d 0x10 noSrc (s.die d).merrs.toNat (s.die d).merra.toNat

/-- MERRS.KIND of a cell. -/
def errKind (pa : Nat) : Nat :=
  match region pa with
  | .spad => 0 | .hbm => 1 | .lpddr => 2 | .host => 3 | _ => 4

/-- An uncorrectable error at a cell of the package, met by a core of a die or by another agent of it
(SRC as R60 has it for an agent of the owning die; log 100 for the agents that R60 does not name). -/
def State.recordAt (s : State) (pa src : Nat) (die : Fin 8) (core : Nat) : State :=
  let home := homeDie pa
  if home = die then s.recordError home (errKind pa) src (if src = 0 ∨ src = 1 ∨ src = 4 then core else 0) 0 pa
  else s.recordError home (errKind pa) 6 core die pa

/-- Poisoned units that an agent has met are recorded, each as an error of its own (R58, R60). -/
def State.recordBad (s : State) (units : List Nat) (src : Nat) (die : Fin 8) (core : Nat) : State :=
  units.foldl (fun s u => s.recordAt u src die core) s

/-- Every poisoned unit that n bytes touch is recorded. -/
def State.recordUnits (s : State) (pa n src : Nat) (die : Fin 8) (core : Nat) : State :=
  s.recordBad (s.badUnits pa n) src die core

/-- Bytes at a physical address that a register of a die names: storage, or host memory through its window. A place that is
neither has cells of its own (log 105). -/
def State.paRead (s : State) (d : Fin 8) (pa n : Nat) : List Byte :=
  if region pa = .host then s.hostRead (s.hostAddr d pa) n else s.devRead pa n
def State.paWrite (s : State) (d : Fin 8) (pa : Nat) (bs : List Byte) : State :=
  if region pa = .host then s.hostWrite (s.hostAddr d pa) bs else s.devWrite pa bs

/-- Whether the next completion of a read of n bytes at a host-aperture address of a die is poisoned. -/
def State.hostPoisoned (s : State) (d : Fin 8) (pa n : Nat) : Bool :=
  s.hostBad.any fun x => x.1 == d && decide (x.2 < pa + n ∧ pa < x.2 + 64)

/-- A poisoned completion arrives: recorded by the receiving die with KIND 3 and the aperture address (R58). The
device keeps no poison state for host memory. -/
def State.hostArrive (s : State) (d : Fin 8) (pa n src core : Nat) : State :=
  let hit (x : Fin 8 × Nat) : Bool := x.1 == d && decide (x.2 < pa + n ∧ pa < x.2 + 64)
  (s.hostBad.filter hit).foldl (fun s x => s.recordError d 3 src core 0 (Nat.max x.2 pa))
    { s with hostBad := s.hostBad.filter fun x => !hit x }

end Sys2Proof.Machine
end

