-- ==== Sys2Proof/WellFormed.lean ====
section
/-! DEFINITION. Which instructions are well formed: the limits that the scanner checks of one slot
word (10 R248, R254) with the reserved values of each instruction's entry. Limits between the slots
of a bundle are the scanner's, in Machine/Scan.lean. -/

namespace Sys2Proof

/-- The numbers `csrr` accepts (12 R297). -/
def csrReadable (k : BitVec 12) : Bool :=
  let n := k.toNat
  n ≤ 0x7 || (0x10 ≤ n && n ≤ 0x13) || n == 0x18 || (0x20 ≤ n && n ≤ 0x47) || (0x50 ≤ n && n ≤ 0x52) ||
  (0x60 ≤ n && n ≤ 0x62) || (0x70 ≤ n && n ≤ 0x72) || (0x100 ≤ n && n ≤ 0x104) || n == 0x108 || n == 0x110

/-- The numbers `csrw` accepts (12 R294, R297). -/
def csrWritable (k : BitVec 12) : Bool :=
  let n := k.toNat
  n == 0x0 || n == 0x5 || n == 0x6 || (0x10 ≤ n && n ≤ 0x13) || n == 0x50 || n == 0x51 ||
  (0x60 ≤ n && n ≤ 0x62) || (0x70 ≤ n && n ≤ 0x72)

/-- A mask named in a tile field (14 R328): bits 2:0 when M = 1, and zero when M = 0. -/
def maskOk (m : BitVec 1) (c : BitVec 4) : Bool := if m = 1 then c < 8 else c = 0

/-- Every operand within the limits of its entry. Hardware events have no encoding and no limits. -/
def Instr.wf : Instr → Bool
  | .add _ _ _ _ => true
  | .sub _ _ _ _ => true
  | .mul _ _ _ _ => true
  | .mulh _ _ _ _ f => decide (f ≤ 2)
  | .div _ _ _ _ f => decide (f ≤ 1)
  | .rem _ _ _ _ f => decide (f ≤ 1)
  | .and _ _ _ _ => true
  | .or _ _ _ _ => true
  | .xor _ _ _ _ => true
  | .andn _ _ _ _ => true
  | .shl _ _ _ _ => true
  | .shr _ _ _ _ => true
  | .sra _ _ _ _ => true
  | .min _ _ _ _ f => decide (f ≤ 1)
  | .max _ _ _ _ f => decide (f ≤ 1)
  | .sel _ _ _ _ _ => true
  | .addi _ _ _ _ => true
  | .andi _ _ _ _ => true
  | .ori _ _ _ _ => true
  | .xori _ _ _ _ => true
  | .shli _ _ _ i => decide (i < 64)
  | .shri _ _ _ i => decide (i < 64)
  | .srai _ _ _ i => decide (i < 64)
  | .movi _ _ _ => true
  | .movh _ _ _ => true
  | .clz _ _ _ => true
  | .ctz _ _ _ => true
  | .popc _ _ _ => true
  | .sext _ _ _ w => decide (w < 64)
  | .zext _ _ _ w => decide (w < 64)
  | .cmp _ _ _ _ c => decide (c < 7)
  | .cmpi _ _ _ _ c => decide (c < 7)
  | .lea _ _ _ _ _ => true
  | .amov _ _ _ => true
  | .agetA _ _ _ => true
  | .agetD _ _ _ => true
  | .dset _ _ _ => true
  | .aadd _ _ _ _ => true
  | .pand _ _ _ _ => true
  | .por _ _ _ _ => true
  | .pxor _ _ _ _ => true
  | .pnot _ _ _ => true
  | .pmov _ _ _ => true
  | .psetConst _ _ _ => true
  | .psetScalar _ _ _ => true
  | .psetBit _ _ _ _ => true
  | .br _ _ _ _ => true
  | .jmp _ _ _ => true
  | .call _ _ _ => true
  | .ret _ _ => true
  | .loop _ _ _ => true
  | .mloop _ _ => true
  | .lexit _ _ _ => true
  | .pin _ => true
  | .unpin _ => true
  | .yield _ => true
  | .halt _ => true
  | .trap _ _ => true
  | .csrr _ _ k => csrReadable k
  | .csrw _ _ k => csrWritable k
  | .widf _ _ k => decide (k ≤ 5)
  | .gtime _ _ => true
  | .realign _ _ => true
  | .tshapeImm _ _ _ _ f => decide (f ≠ 0)
  | .tshapeReg _ _ _ => true
  | .tvalid _ _ _ _ => true
  | .ftsetAbs _ _ _ => true
  | .ftsetCur _ _ _ => true
  | .fbaseImm _ _ => true
  | .fbaseReg _ _ => true
  | .pkset _ _ => true
  | .pksetKey _ _ _ _ => true
  | .xpset _ _ _ => true
  | .beat _ => true
  | .uiret _ => true
  | .ld _ _ _ m _ s z x => decide (m ≠ 3) && decide (m = 2 ∨ x = 0) && decide (z ≠ 3 ∨ s = 0)
  | .st _ _ _ m _ _ x => decide (m ≠ 3) && decide (m = 2 ∨ x = 0)
  | .lld _ _ _ m _ x => decide (m ≠ 3) && decide (m = 2 ∨ x = 0)
  | .lst _ _ _ m _ x => decide (m ≠ 3) && decide (m = 2 ∨ x = 0)
  | .pref _ _ m z x => decide (m ≠ 3) && decide (m = 2 ∨ x = 0) && decide (m = 2 ∨ z = 0)
  | .tld _ _ q _ m _ f => decide (q ≤ 1) && decide (m ≤ 1) && decide (f ≤ 1)
  | .tst _ _ q _ m _ f => decide (q ≤ 1) && decide (m ≤ 1) && decide (f ≤ 1)
  | .tldg _ _ _ _ m _ f => decide (m ≤ 1) && decide (f ≤ 1)
  | .tsts _ _ _ _ m _ f => decide (m ≤ 1) && decide (f ≤ 1)
  | .kvld _ _ q _ _ _ => decide (q ≤ 1)
  | .kvapp _ _ _ _ => true
  | .kvfree _ _ _ => true
  | .amo _ _ _ _ _ _ _ => true
  | .cas _ _ _ _ _ _ => true
  | .famo _ _ _ _ _ o => decide (o ≤ 2)
  | .red _ _ _ _ _ o => decide (o ≠ 1)
  | .fred _ _ _ _ o => decide (o ≤ 2)
  | .redb _ _ _ _ _ o _ => decide (o ≠ 1)
  | .fredb _ _ _ _ o _ => decide (o ≤ 2)
  | .fence _ k s => decide (k ≤ 4) && decide (k ≠ 4 ∨ s = 1)
  | .barinit _ _ _ => true
  | .arrive _ _ _ => true
  | .bwait _ _ _ => true
  | .btwait _ _ _ _ => true
  | .pub _ _ _ => true
  | .tadd _ _ _ _ c r _ m => decide (r ≤ 4) && maskOk m c
  | .tsub _ _ _ _ c r _ m => decide (r ≤ 4) && maskOk m c
  | .tmul _ _ _ _ c r _ m => decide (r ≤ 4) && maskOk m c
  | .tmin _ _ _ _ c r _ m => decide (r ≤ 4) && maskOk m c
  | .tmax _ _ _ _ c r _ m => decide (r ≤ 4) && maskOk m c
  | .tfma _ _ _ _ _ r _ => decide (r ≤ 4)
  | .tfms _ _ _ _ _ r _ => decide (r ≤ 4)
  | .tabs _ _ _ c r _ m => decide (r ≤ 4) && maskOk m c
  | .tneg _ _ _ c r _ m => decide (r ≤ 4) && maskOk m c
  | .tcpy _ _ _ c m => maskOk m c
  | .tscale _ _ _ _ c r _ m => decide (r ≤ 4) && maskOk m c
  | .tclamp _ _ _ _ _ r _ => decide (r ≤ 4)
  | .tcmp _ _ _ _ c k m => maskOk m c && decide (k ≤ 6)
  | .tsel _ _ _ _ c => decide (c < 8)
  | .tcvt _ _ _ c r _ m => decide (r ≤ 4) && maskOk m c
  | .tbcast _ _ _ c r _ m => decide (r ≤ 4) && maskOk m c
  | .tiadd _ _ _ _ _ _ k m => decide (m = 1 ∨ k = 0)
  | .tisub _ _ _ _ _ _ k m => decide (m = 1 ∨ k = 0)
  | .timul _ _ _ _ _ _ k m => decide (m = 1 ∨ k = 0)
  | .tand _ _ _ _ _ k m => decide (m = 1 ∨ k = 0)
  | .tor _ _ _ _ _ k m => decide (m = 1 ∨ k = 0)
  | .txor _ _ _ _ _ k m => decide (m = 1 ∨ k = 0)
  | .tshl _ _ _ _ _ k m => decide (m = 1 ∨ k = 0)
  | .tshr _ _ _ _ _ k m => decide (m = 1 ∨ k = 0)
  | .trget _ _ _ _ _ => true
  | .trput _ _ _ _ _ => true
  | .tcget _ _ _ _ _ => true
  | .tcput _ _ _ _ _ => true
  | .ttr _ _ _ => true
  | .tbrow _ _ _ => true
  | .tbcol _ _ _ => true
  | .tzero _ _ _ => true
  | .tredr _ _ _ k o r _ m => decide (r ≤ 4) && decide (m = 1 ∨ k = 0) && decide (o ≤ 7)
  | .tredc _ _ _ k o r _ m => decide (r ≤ 4) && decide (m = 1 ∨ k = 0) && decide (o ≤ 7)
  | .tred _ _ _ k o r _ m => decide (r ≤ 4) && decide (m = 1 ∨ k = 0) && decide (o ≤ 7)
  | .tscan _ _ _ k o r _ m => decide (r ≤ 4) && decide (m = 1 ∨ k = 0) && decide (o ≤ 6)
  | .tdot _ _ _ _ r _ _ => decide (r ≤ 4)
  | .tdots _ _ _ _ _ r _ _ => decide (r ≤ 4)
  | .tsprs _ _ _ _ n => decide (n ≤ 2)
  | .trcpa _ _ _ c r _ m => decide (r ≤ 4) && maskOk m c
  | .trsqa _ _ _ c r _ m => decide (r ≤ 4) && maskOk m c
  | .trcpr _ _ _ _ c r _ m => decide (r ≤ 4) && maskOk m c
  | .trsqr _ _ _ _ c r _ m => decide (r ≤ 4) && maskOk m c
  | .texp2 _ _ _ c r _ m => decide (r ≤ 4) && maskOk m c
  | .tlog2 _ _ _ c r _ m => decide (r ≤ 4) && maskOk m c
  | .ttanh _ _ _ c r _ m => decide (r ≤ 4) && maskOk m c
  | .tsigm _ _ _ c r _ m => decide (r ≤ 4) && maskOk m c
  | .twelf _ _ _ c r _ m => decide (r ≤ 4) && maskOk m c
  | .twmrg _ _ _ _ c r _ m => decide (r ≤ 4) && maskOk m c
  | .kand _ _ _ _ => true
  | .kor _ _ _ _ => true
  | .kxor _ _ _ _ => true
  | .knot _ _ _ => true
  | .kcnt _ _ _ => true
  | .xdot _ _ _ s t _ _ d => decide (d = 0 ∨ t = 0 ∧ s ≤ 62)
  | .xdots _ _ _ s t _ _ d n => decide (n ≤ 2) && decide (d = 0 ∨ t = 0 ∧ s ≤ 62)
  | .xbcast _ _ _ _ _ => true
  | .xrep _ _ _ => true
  | .xrange _ _ _ => true
  | .xcal _ => true
  | .xdesk _ _ _ => true
  | .xwait _ _ => true
  | .xprog _ _ => true
  | .xprogClear _ => true
  | .board _ _ _ _ => true
  | .unboard _ _ _ => true
  | .rpos _ _ => true
  | .rposStat _ _ _ => true
  | .rposId _ _ _ => true
  | .cpy _ _ _ _ _ _ => true
  | .cpy2 _ _ _ _ _ _ => true
  | .gath _ _ _ _ _ _ => true
  | .scat _ _ _ _ _ _ => true
  | .cpyp _ _ _ _ _ _ => true
  | .kvmig _ _ _ _ => true
  | .cwait _ _ _ => true
  | .cwaitAll _ _ => true
  | .cnote _ _ _ => true
  | .cred _ _ _ _ _ _ => true
  | .cbc _ _ _ _ _ _ => true
  | .cag _ _ _ _ _ _ => true
  | .cbar _ _ _ => true
  | .send _ _ _ _ _ _ => true
  | .recv _ _ _ _ _ _ => true
  | .recva _ _ _ _ _ _ => true
  | .recvm _ _ _ _ _ _ => true
  | .lstat _ v c _ => decide (v ≤ 2) && decide (v ≠ 2 ∨ c ≤ 15)
  | .nop _ _ _ _ => true
  | .registerWrite _ _ _ => true
  | .dieidWrite _ => true
  | .dtclr _ _ _ => true
  | .qkick _ _ _ => true
  | .qcfgWrite _ _ _ => true
  | .tlbinvPage _ _ _ => true
  | .tlbinvAsid _ _ _ => true
  | .tlbinvAll _ _ => true
  | .tlbinvDone _ => true
  | .pageWalk _ _ => true
  | .codeScan _ _ => true
  | .loadDelivery _ => true
  | .piecePerform _ _ => true
  | .pubPerform _ _ _ _ => true
  | .barrierArrival _ => true
  | .barrierPoll _ => true
  | .btwaitTimeout _ => true
  | .regionCommit _ => true
  | .correctableError _ _ _ => true
  | .freezeEnd _ _ => true
  | .scrubRead _ _ => true
  | .kvfrposWrite _ _ => true
  | .kvrlposWrite _ _ => true
  | .kvRequestDone _ => true
  | .kvmigComplete _ _ => true
  | .pbtabWrite _ _ => true
  | .pbcfgWrite _ _ => true
  | .engineOperationComplete _ _ => true
  | .enginePieceFault _ _ => true
  | .noticeEntry _ => true
  | .contextSwitch _ _ => true
  | .quantumExpiry _ _ => true
  | .pinmaxExpiry _ => true
  | .watchdog _ => true
  | .trapDelivery _ => true
  | .peerRefused _ _ => true
  | .descriptorFetch _ _ => true
  | .sequenceRetry _ _ => true
  | .dependencyPoll _ _ => true
  | .taskDispatch _ => true
  | .preemptionSave _ => true
  | .completionAction _ _ => true
  | .suspend _ _ => true
  | .resume _ _ => true
  | .endTask _ _ => true
  | .endq _ _ => true
  | .scfgWrite _ _ => true
  | .ringTileArrival _ _ => true
  | .tileRepairDone _ _ => true
  | .segmentBoundary => true
  | .dwellLimit _ => true
  | .ringStart _ => true
  | .ringStop _ => true
  | .bscfgWrite _ _ => true
  | .laneLight _ _ => true
  | .laneUnlight _ _ => true
  | .modulatorWindowStart _ => true
  | .windowResult _ => true
  | .xcalComplete _ _ _ _ => true
  | .combFailure _ => true
  | .combSwap _ => true
  | .combReturn _ => true
  | .combSwapComplete => true
  | .alignmentComplete _ => true
  | .skewMeasurement _ => true
  | .portEnable _ _ => true
  | .portDisable _ _ => true
  | .linkTrained _ _ _ => true
  | .telemetrySend _ => true
  | .telemetryFlit _ _ _ _ => true
  | .flitReceive _ _ _ => true
  | .channelFlitArrival _ _ _ _ _ _ => true
  | .peerRequest _ _ => true
  | .peerResponse _ _ _ _ => true
  | .acknowledgement _ _ => true
  | .ackTimeout _ => true
  | .lossOfLight _ _ => true
  | .gapNegotiation _ _ => true
  | .laneSwapGap _ => true
  | .spareTrainingDone _ _ => true
  | .lightArbitration _ => true
  | .reclaim _ => true
  | .slotGuardExpiry _ => true
  | .collectiveInstanceStart _ => true
  | .hostInboundWrite _ _ _ _ _ => true
  | .hostAtomicop _ _ _ _ _ => true
  | .attest _ _ => true
  | .extend _ _ => true
  | .cert _ _ _ => true
  | .resetRelease _ _ => true
  | .selftestStageDone _ _ _ _ => true
  | .pcieFundamentalReset => true
  | .smbusReset => true
  | .windowFirstSymbol _ => true
  | .kvcfgWrite _ _ _ => true
  | .combcfgWrite _ => true
  | .combLocked _ => true
  | .laserPowerLoop _ => true
  | .ideKm _ _ => true

end Sys2Proof
end

