-- ==== Sys2Proof/Decode.lean ====
section
/-! DEFINITION. The decoder and the encoder of slot words and bundle headers (10 R233, R234, R251-R254).
`decodeSlot` is the strict reading that the scanner admits; `decodeRun` is the reading of the run-time
decoder, with the fates of R249 for a word that no scan has passed. -/

namespace Sys2Proof

/-- The units a code word is read for: the slot kinds of R251 (VA and VB share one map), or a header. -/
inductive CodeUnit where
  | s | m | v | x | c | header
deriving DecidableEq, Repr

/-- The code word a slot's unit reads. -/
def Slot.unit : Slot → CodeUnit
  | .s => .s | .m => .m | .va => .v | .vb => .v | .x => .x | .c => .c

/-- Bits lo to lo + n - 1 of a word. -/
def fld (w : BitVec 32) (lo n : Nat) : BitVec n := BitVec.ofNat n (w.toNat / 2 ^ lo)

/-- GROUP of a slot word (R234). -/
def slotGroup (w : BitVec 32) : Nat := w.toNat / 0x20000000

/-- INDEX of a slot word (R234). -/
def slotIndex (w : BitVec 32) : Nat := w.toNat / 0x2000000 % 16

/-- One bit of a word. -/
def bitAt (w : BitVec 32) (n : Nat) : Bool := w.toNat / 2 ^ n % 2 == 1

/-- FL of an M group 3 word: 2 is `rel`; 0 and the reserved 1 and 3 are plain (13 R316, R249). -/
def redFl (w : BitVec 32) : BitVec 1 := if fld w 8 2 = 2 then 1 else 0

/-- S slot, group 0 (R251). -/
def rawS0 (w : BitVec 32) : Option Instr :=
  match slotIndex w with
  | 0 => some (.add (fld w 0 4) (fld w 4 6) (fld w 10 6) (fld w 16 6))
  | 1 => some (.sub (fld w 0 4) (fld w 4 6) (fld w 10 6) (fld w 16 6))
  | 2 => some (.mul (fld w 0 4) (fld w 4 6) (fld w 10 6) (fld w 16 6))
  | 3 => some (.mulh (fld w 0 4) (fld w 4 6) (fld w 10 6) (fld w 16 6) (fld w 22 3))
  | 4 => some (.div (fld w 0 4) (fld w 4 6) (fld w 10 6) (fld w 16 6) (fld w 22 3))
  | 5 => some (.rem (fld w 0 4) (fld w 4 6) (fld w 10 6) (fld w 16 6) (fld w 22 3))
  | 6 => some (.and (fld w 0 4) (fld w 4 6) (fld w 10 6) (fld w 16 6))
  | 7 => some (.or (fld w 0 4) (fld w 4 6) (fld w 10 6) (fld w 16 6))
  | 8 => some (.xor (fld w 0 4) (fld w 4 6) (fld w 10 6) (fld w 16 6))
  | 9 => some (.andn (fld w 0 4) (fld w 4 6) (fld w 10 6) (fld w 16 6))
  | 10 => some (.shl (fld w 0 4) (fld w 4 6) (fld w 10 6) (fld w 16 6))
  | 11 => some (.shr (fld w 0 4) (fld w 4 6) (fld w 10 6) (fld w 16 6))
  | 12 => some (.sra (fld w 0 4) (fld w 4 6) (fld w 10 6) (fld w 16 6))
  | 13 => some (.min (fld w 0 4) (fld w 4 6) (fld w 10 6) (fld w 16 6) (fld w 22 3))
  | 14 => some (.max (fld w 0 4) (fld w 4 6) (fld w 10 6) (fld w 16 6) (fld w 22 3))
  | 15 => some (.sel (fld w 0 4) (fld w 4 6) (fld w 10 6) (fld w 16 6) (fld w 22 3))
  | _ => none

/-- S slot, group 1 (R251). -/
def rawS1 (w : BitVec 32) : Option Instr :=
  match slotIndex w with
  | 0 => some (.addi (fld w 0 4) (fld w 4 6) (fld w 10 6) (fld w 16 9))
  | 1 => some (.andi (fld w 0 4) (fld w 4 6) (fld w 10 6) (fld w 16 9))
  | 2 => some (.ori (fld w 0 4) (fld w 4 6) (fld w 10 6) (fld w 16 9))
  | 3 => some (.xori (fld w 0 4) (fld w 4 6) (fld w 10 6) (fld w 16 9))
  | 4 => some (.shli (fld w 0 4) (fld w 4 6) (fld w 10 6) (fld w 16 9))
  | 5 => some (.shri (fld w 0 4) (fld w 4 6) (fld w 10 6) (fld w 16 9))
  | 6 => some (.srai (fld w 0 4) (fld w 4 6) (fld w 10 6) (fld w 16 9))
  | 7 => some (.movi (fld w 0 4) (fld w 4 6) (fld w 10 15))
  | 8 => some (.movh (fld w 0 4) (fld w 4 6) (fld w 10 15))
  | 9 => some (.clz (fld w 0 4) (fld w 4 6) (fld w 10 6))
  | 10 => some (.ctz (fld w 0 4) (fld w 4 6) (fld w 10 6))
  | 11 => some (.popc (fld w 0 4) (fld w 4 6) (fld w 10 6))
  | 12 => some (.sext (fld w 0 4) (fld w 4 6) (fld w 10 6) (fld w 16 9))
  | 13 => some (.zext (fld w 0 4) (fld w 4 6) (fld w 10 6) (fld w 16 9))
  | 14 => some (.cmp (fld w 0 4) (fld w 4 4) (fld w 10 6) (fld w 16 6) (fld w 22 3))
  | 15 => some (.cmpi (fld w 0 4) (fld w 4 4) (fld w 10 6) (fld w 16 6) (fld w 22 3))
  | _ => none

/-- S slot, group 2 (R251). -/
def rawS2 (w : BitVec 32) : Option Instr :=
  match slotIndex w with
  | 0 => some (.lea (fld w 0 4) (fld w 4 4) (fld w 10 4) (fld w 16 6) (fld w 22 3))
  | 1 => some (.amov (fld w 0 4) (fld w 4 4) (fld w 10 6))
  | 2 => if fld w 22 3 = 1 then some (.agetD (fld w 0 4) (fld w 4 6) (fld w 10 4)) else some (.agetA (fld w 0 4) (fld w 4 6) (fld w 10 4))
  | 3 => some (.dset (fld w 0 4) (fld w 4 4) (fld w 10 6))
  | 4 => some (.aadd (fld w 0 4) (fld w 4 4) (fld w 10 4) (fld w 16 9))
  | 5 => some (.pand (fld w 0 4) (fld w 4 4) (fld w 10 4) (fld w 16 4))
  | 6 => some (.por (fld w 0 4) (fld w 4 4) (fld w 10 4) (fld w 16 4))
  | 7 => some (.pxor (fld w 0 4) (fld w 4 4) (fld w 10 4) (fld w 16 4))
  | 8 => some (.pnot (fld w 0 4) (fld w 4 4) (fld w 10 4))
  | 9 => some (.pmov (fld w 0 4) (fld w 4 4) (fld w 10 4))
  | 10 => if fld w 22 3 = 2 then some (.psetScalar (fld w 0 4) (fld w 4 4) (fld w 10 6)) else if fld w 22 3 = 3 then some (.psetBit (fld w 0 4) (fld w 4 4) (fld w 10 6) (fld w 16 6)) else some (.psetConst (fld w 0 4) (fld w 4 4) ((if fld w 22 3 = 1 then 1 else 0)))
  | _ => none

/-- S slot, group 3 (R251). -/
def rawS3 (w : BitVec 32) : Option Instr :=
  match slotIndex w with
  | 0 => some (.br (fld w 0 4) (fld w 4 4) (fld w 8 1) (fld w 9 16))
  | 1 => some (.jmp (fld w 0 4) (fld w 4 4) (fld w 9 16))
  | 2 => some (.call (fld w 0 4) (fld w 4 5) (fld w 9 16))
  | 3 => some (.ret (fld w 0 4) (fld w 4 5))
  | 4 => some (.loop (fld w 0 4) (fld w 4 2) (fld w 9 16))
  | 5 => some (.mloop (fld w 0 4) (fld w 9 16))
  | 6 => some (.lexit (fld w 0 4) (fld w 4 2) (fld w 9 16))
  | 7 => some (.pin (fld w 0 4))
  | 8 => some (.unpin (fld w 0 4))
  | 9 => some (.yield (fld w 0 4))
  | 10 => some (.halt (fld w 0 4))
  | 11 => some (.trap (fld w 0 4) (fld w 9 16))
  | _ => none

/-- S slot, group 4 (R251). -/
def rawS4 (w : BitVec 32) : Option Instr :=
  match slotIndex w with
  | 0 => some (.csrr (fld w 0 4) (fld w 4 6) (fld w 10 12))
  | 1 => some (.csrw (fld w 0 4) (fld w 4 6) (fld w 10 12))
  | 2 => some (.widf (fld w 0 4) (fld w 4 6) (fld w 10 3))
  | 3 => some (.gtime (fld w 0 4) (fld w 4 6))
  | 4 => some (.realign (fld w 0 4) (fld w 4 6))
  | 5 => if fld w 22 3 = 0 then some (.tshapeReg (fld w 0 4) (fld w 4 4) (fld w 10 6)) else some (.tshapeImm (fld w 0 4) (fld w 4 4) (fld w 10 6) (fld w 16 6) (fld w 22 3))
  | 6 => some (.tvalid (fld w 0 4) (fld w 4 4) (fld w 10 6) (fld w 16 6))
  | 7 => if fld w 22 3 = 1 then some (.ftsetCur (fld w 0 4) (fld w 4 6) (fld w 10 4)) else some (.ftsetAbs (fld w 0 4) (fld w 4 6) (fld w 10 4))
  | 8 => if fld w 22 3 = 1 then some (.fbaseReg (fld w 0 4) (fld w 4 6)) else some (.fbaseImm (fld w 0 4) (fld w 10 4))
  | 9 => if fld w 22 3 = 1 then some (.pksetKey (fld w 0 4) (fld w 10 5) (fld w 15 1) (fld w 16 1)) else some (.pkset (fld w 0 4) (fld w 4 6))
  | 10 => some (.xpset (fld w 0 4) (fld w 4 6) (fld w 10 3))
  | 11 => some (.beat (fld w 0 4))
  | 12 => some (.uiret (fld w 0 4))
  | _ => none

/-- The operation that GROUP and INDEX name in a S slot, each field read through the bits of its file;
reserved bits are not looked at. -/
def rawS (w : BitVec 32) : Option Instr :=
  match slotGroup w with
  | 0 => rawS0 w
  | 1 => rawS1 w
  | 2 => rawS2 w
  | 3 => rawS3 w
  | 4 => rawS4 w
  | _ => none

/-- M slot, group 0 (R251). -/
def rawM0 (w : BitVec 32) : Option Instr :=
  match slotIndex w with
  | 0 => some (.ld (fld w 0 4) (fld w 4 6) (fld w 10 4) (fld w 14 2) (fld w 16 1) (fld w 17 1) (fld w 18 2) (fld w 20 5))
  | 1 => some (.st (fld w 0 4) (fld w 4 6) (fld w 10 4) (fld w 14 2) (fld w 16 1) (fld w 18 2) (fld w 20 5))
  | 2 => some (.lld (fld w 0 4) (fld w 4 5) (fld w 10 4) (fld w 14 2) (fld w 16 1) (fld w 20 5))
  | 3 => some (.lst (fld w 0 4) (fld w 4 5) (fld w 10 4) (fld w 14 2) (fld w 16 1) (fld w 20 5))
  | 4 => some (.pref (fld w 0 4) (fld w 10 4) (fld w 14 2) (fld w 18 2) (fld w 20 5))
  | _ => none

/-- M slot, group 1 (R251). -/
def rawM1 (w : BitVec 32) : Option Instr :=
  match slotIndex w with
  | 0 => some (.tld (fld w 0 4) (fld w 4 4) (fld w 8 2) (fld w 10 4) (fld w 14 2) (fld w 16 6) (fld w 22 3))
  | 1 => some (.tst (fld w 0 4) (fld w 4 4) (fld w 8 2) (fld w 10 4) (fld w 14 2) (fld w 16 6) (fld w 22 3))
  | 2 => some (.tldg (fld w 0 4) (fld w 4 4) (fld w 8 2) (fld w 10 4) (fld w 14 2) (fld w 16 5) (fld w 22 3))
  | 3 => some (.tsts (fld w 0 4) (fld w 4 4) (fld w 8 2) (fld w 10 4) (fld w 14 2) (fld w 16 5) (fld w 22 3))
  | 4 => some (.kvld (fld w 0 4) (fld w 4 4) (fld w 8 2) (fld w 10 4) (fld w 16 6) (fld w 22 3))
  | 5 => some (.kvapp (fld w 0 4) (fld w 4 4) (fld w 10 4) (fld w 16 6))
  | 6 => some (.kvfree (fld w 0 4) (fld w 10 4) (fld w 16 6))
  | _ => none

/-- M slot, group 2 (R251). -/
def rawM2 (w : BitVec 32) : Option Instr :=
  match slotIndex w with
  | 0 => some (.amo (fld w 0 4) (fld w 4 6) (fld w 10 4) (fld w 14 2) (fld w 16 5) (fld w 21 1) (fld w 22 3))
  | 1 => some (.cas (fld w 0 4) (fld w 4 6) (fld w 10 4) (fld w 14 2) (fld w 16 5) (fld w 21 1))
  | 2 => some (.famo (fld w 0 4) (fld w 4 6) (fld w 10 4) (fld w 14 2) (fld w 16 5) (fld w 22 3))
  | _ => none

/-- M slot, group 3 (R251). -/
def rawM3 (w : BitVec 32) : Option Instr :=
  match slotIndex w with
  | 0 => some (.red (fld w 0 4) (fld w 4 4) (redFl w) (fld w 10 6) (fld w 16 1) (fld w 17 3))
  | 1 => some (.fred (fld w 0 4) (fld w 4 4) (redFl w) (fld w 10 6) (fld w 17 3))
  | 2 => some (.redb (fld w 0 4) (fld w 4 4) (redFl w) (fld w 10 6) (fld w 16 1) (fld w 17 3) (fld w 20 4))
  | 3 => some (.fredb (fld w 0 4) (fld w 4 4) (redFl w) (fld w 10 6) (fld w 17 3) (fld w 20 4))
  | _ => none

/-- M slot, group 4 (R251). -/
def rawM4 (w : BitVec 32) : Option Instr :=
  match slotIndex w with
  | 0 => some (.fence (fld w 0 4) (fld w 20 3) (fld w 23 1))
  | 1 => some (.barinit (fld w 0 4) (fld w 10 4) (fld w 14 6))
  | 2 => some (.arrive (fld w 0 4) (fld w 4 6) (fld w 10 4))
  | 3 => some (.bwait (fld w 0 4) (fld w 4 6) (fld w 10 4))
  | 4 => some (.btwait (fld w 0 4) (fld w 4 6) (fld w 10 4) (fld w 14 6))
  | 5 => some (.pub (fld w 0 4) (fld w 4 6) (fld w 10 4))
  | _ => none

/-- The operation that GROUP and INDEX name in a M slot, each field read through the bits of its file;
reserved bits are not looked at. -/
def rawM (w : BitVec 32) : Option Instr :=
  match slotGroup w with
  | 0 => rawM0 w
  | 1 => rawM1 w
  | 2 => rawM2 w
  | 3 => rawM3 w
  | 4 => rawM4 w
  | _ => none

/-- VA and VB slot, group 0 (R251). -/
def rawV0 (w : BitVec 32) : Option Instr :=
  match slotIndex w with
  | 0 => some (.tadd (fld w 0 4) (fld w 4 4) (fld w 8 4) (fld w 12 4) (fld w 16 4) (fld w 20 3) (fld w 23 1) (fld w 24 1))
  | 1 => some (.tsub (fld w 0 4) (fld w 4 4) (fld w 8 4) (fld w 12 4) (fld w 16 4) (fld w 20 3) (fld w 23 1) (fld w 24 1))
  | 2 => some (.tmul (fld w 0 4) (fld w 4 4) (fld w 8 4) (fld w 12 4) (fld w 16 4) (fld w 20 3) (fld w 23 1) (fld w 24 1))
  | 3 => some (.tmin (fld w 0 4) (fld w 4 4) (fld w 8 4) (fld w 12 4) (fld w 16 4) (fld w 20 3) (fld w 23 1) (fld w 24 1))
  | 4 => some (.tmax (fld w 0 4) (fld w 4 4) (fld w 8 4) (fld w 12 4) (fld w 16 4) (fld w 20 3) (fld w 23 1) (fld w 24 1))
  | 5 => some (.tfma (fld w 0 4) (fld w 4 4) (fld w 8 4) (fld w 12 4) (fld w 16 4) (fld w 20 3) (fld w 23 1))
  | 6 => some (.tfms (fld w 0 4) (fld w 4 4) (fld w 8 4) (fld w 12 4) (fld w 16 4) (fld w 20 3) (fld w 23 1))
  | 7 => some (.tabs (fld w 0 4) (fld w 4 4) (fld w 8 4) (fld w 16 4) (fld w 20 3) (fld w 23 1) (fld w 24 1))
  | 8 => some (.tneg (fld w 0 4) (fld w 4 4) (fld w 8 4) (fld w 16 4) (fld w 20 3) (fld w 23 1) (fld w 24 1))
  | 9 => some (.tcpy (fld w 0 4) (fld w 4 4) (fld w 8 4) (fld w 16 4) (fld w 24 1))
  | 10 => some (.tscale (fld w 0 4) (fld w 4 4) (fld w 8 4) (fld w 12 4) (fld w 16 4) (fld w 20 3) (fld w 23 1) (fld w 24 1))
  | 11 => some (.tclamp (fld w 0 4) (fld w 4 4) (fld w 8 4) (fld w 12 4) (fld w 16 4) (fld w 20 3) (fld w 23 1))
  | 12 => some (.tcmp (fld w 0 4) (fld w 4 3) (fld w 8 4) (fld w 12 4) (fld w 16 4) (fld w 20 3) (fld w 24 1))
  | 13 => some (.tsel (fld w 0 4) (fld w 4 4) (fld w 8 4) (fld w 12 4) (fld w 16 4))
  | 14 => some (.tcvt (fld w 0 4) (fld w 4 4) (fld w 8 4) (fld w 16 4) (fld w 20 3) (fld w 23 1) (fld w 24 1))
  | 15 => some (.tbcast (fld w 0 4) (fld w 4 4) (fld w 8 4) (fld w 16 4) (fld w 20 3) (fld w 23 1) (fld w 24 1))
  | _ => none

/-- VA and VB slot, group 1 (R251). -/
def rawV1 (w : BitVec 32) : Option Instr :=
  match slotIndex w with
  | 0 => some (.tiadd (fld w 0 4) (fld w 4 4) (fld w 8 4) (fld w 12 4) (fld w 16 1) (fld w 17 1) (fld w 18 3) (fld w 21 1))
  | 1 => some (.tisub (fld w 0 4) (fld w 4 4) (fld w 8 4) (fld w 12 4) (fld w 16 1) (fld w 17 1) (fld w 18 3) (fld w 21 1))
  | 2 => some (.timul (fld w 0 4) (fld w 4 4) (fld w 8 4) (fld w 12 4) (fld w 16 1) (fld w 17 1) (fld w 18 3) (fld w 21 1))
  | 3 => some (.tand (fld w 0 4) (fld w 4 4) (fld w 8 4) (fld w 12 4) (fld w 17 1) (fld w 18 3) (fld w 21 1))
  | 4 => some (.tor (fld w 0 4) (fld w 4 4) (fld w 8 4) (fld w 12 4) (fld w 17 1) (fld w 18 3) (fld w 21 1))
  | 5 => some (.txor (fld w 0 4) (fld w 4 4) (fld w 8 4) (fld w 12 4) (fld w 17 1) (fld w 18 3) (fld w 21 1))
  | 6 => some (.tshl (fld w 0 4) (fld w 4 4) (fld w 8 4) (fld w 12 4) (fld w 17 1) (fld w 18 3) (fld w 21 1))
  | 7 => some (.tshr (fld w 0 4) (fld w 4 4) (fld w 8 4) (fld w 12 4) (fld w 17 1) (fld w 18 3) (fld w 21 1))
  | _ => none

/-- VA and VB slot, group 2 (R251). -/
def rawV2 (w : BitVec 32) : Option Instr :=
  match slotIndex w with
  | 0 => some (.trget (fld w 0 4) (fld w 4 4) (fld w 8 5) (fld w 13 6) (fld w 19 6))
  | 1 => some (.trput (fld w 0 4) (fld w 4 4) (fld w 8 5) (fld w 13 6) (fld w 19 6))
  | 2 => some (.tcget (fld w 0 4) (fld w 4 4) (fld w 8 5) (fld w 13 6) (fld w 19 6))
  | 3 => some (.tcput (fld w 0 4) (fld w 4 4) (fld w 8 5) (fld w 13 6) (fld w 19 6))
  | 4 => some (.ttr (fld w 0 4) (fld w 4 4) (fld w 8 4))
  | 5 => some (.tbrow (fld w 0 4) (fld w 4 4) (fld w 8 5))
  | 6 => some (.tbcol (fld w 0 4) (fld w 4 4) (fld w 8 5))
  | 7 => some (.tzero (fld w 0 4) (fld w 4 4) (fld w 13 6))
  | _ => none

/-- VA and VB slot, group 3 (R251). -/
def rawV3 (w : BitVec 32) : Option Instr :=
  match slotIndex w with
  | 0 => some (.tredr (fld w 0 4) (fld w 4 4) (fld w 8 4) (fld w 12 3) (fld w 15 4) (fld w 19 3) (fld w 22 1) (fld w 23 1))
  | 1 => some (.tredc (fld w 0 4) (fld w 4 4) (fld w 8 4) (fld w 12 3) (fld w 15 4) (fld w 19 3) (fld w 22 1) (fld w 23 1))
  | 2 => some (.tred (fld w 0 4) (fld w 4 4) (fld w 8 4) (fld w 12 3) (fld w 15 4) (fld w 19 3) (fld w 22 1) (fld w 23 1))
  | 3 => some (.tscan (fld w 0 4) (fld w 4 4) (fld w 8 4) (fld w 12 3) (fld w 15 4) (fld w 19 3) (fld w 22 1) (fld w 23 1))
  | _ => none

/-- VA and VB slot, group 4 (R251). -/
def rawV4 (w : BitVec 32) : Option Instr :=
  match slotIndex w with
  | 0 => some (.tdot (fld w 0 4) (fld w 4 4) (fld w 8 4) (fld w 12 4) (fld w 20 3) (fld w 23 1) (fld w 24 1))
  | 1 => some (.tdots (fld w 0 4) (fld w 4 4) (fld w 8 4) (fld w 12 4) (fld w 16 4) (fld w 20 3) (fld w 23 1) (fld w 24 1))
  | 2 => some (.tsprs (fld w 0 4) (fld w 4 4) (fld w 8 4) (fld w 12 4) (fld w 20 2))
  | _ => none

/-- VA and VB slot, group 5 (R251). -/
def rawV5 (w : BitVec 32) : Option Instr :=
  match slotIndex w with
  | 0 => some (.trcpa (fld w 0 4) (fld w 4 4) (fld w 8 4) (fld w 16 4) (fld w 20 3) (fld w 23 1) (fld w 24 1))
  | 1 => some (.trsqa (fld w 0 4) (fld w 4 4) (fld w 8 4) (fld w 16 4) (fld w 20 3) (fld w 23 1) (fld w 24 1))
  | 2 => some (.trcpr (fld w 0 4) (fld w 4 4) (fld w 8 4) (fld w 12 4) (fld w 16 4) (fld w 20 3) (fld w 23 1) (fld w 24 1))
  | 3 => some (.trsqr (fld w 0 4) (fld w 4 4) (fld w 8 4) (fld w 12 4) (fld w 16 4) (fld w 20 3) (fld w 23 1) (fld w 24 1))
  | 4 => some (.texp2 (fld w 0 4) (fld w 4 4) (fld w 8 4) (fld w 16 4) (fld w 20 3) (fld w 23 1) (fld w 24 1))
  | 5 => some (.tlog2 (fld w 0 4) (fld w 4 4) (fld w 8 4) (fld w 16 4) (fld w 20 3) (fld w 23 1) (fld w 24 1))
  | 6 => some (.ttanh (fld w 0 4) (fld w 4 4) (fld w 8 4) (fld w 16 4) (fld w 20 3) (fld w 23 1) (fld w 24 1))
  | 7 => some (.tsigm (fld w 0 4) (fld w 4 4) (fld w 8 4) (fld w 16 4) (fld w 20 3) (fld w 23 1) (fld w 24 1))
  | 8 => some (.twelf (fld w 0 4) (fld w 4 4) (fld w 8 4) (fld w 16 4) (fld w 20 3) (fld w 23 1) (fld w 24 1))
  | 9 => some (.twmrg (fld w 0 4) (fld w 4 4) (fld w 8 4) (fld w 12 4) (fld w 16 4) (fld w 20 3) (fld w 23 1) (fld w 24 1))
  | _ => none

/-- VA and VB slot, group 6 (R251). -/
def rawV6 (w : BitVec 32) : Option Instr :=
  match slotIndex w with
  | 0 => some (.kand (fld w 0 4) (fld w 4 3) (fld w 7 3) (fld w 10 3))
  | 1 => some (.kor (fld w 0 4) (fld w 4 3) (fld w 7 3) (fld w 10 3))
  | 2 => some (.kxor (fld w 0 4) (fld w 4 3) (fld w 7 3) (fld w 10 3))
  | 3 => some (.knot (fld w 0 4) (fld w 4 3) (fld w 7 3))
  | 4 => some (.kcnt (fld w 0 4) (fld w 7 3) (fld w 13 6))
  | _ => none

/-- The operation that GROUP and INDEX name in a VA and VB slot, each field read through the bits of its file;
reserved bits are not looked at. -/
def rawV (w : BitVec 32) : Option Instr :=
  match slotGroup w with
  | 0 => rawV0 w
  | 1 => rawV1 w
  | 2 => rawV2 w
  | 3 => rawV3 w
  | 4 => rawV4 w
  | 5 => rawV5 w
  | 6 => rawV6 w
  | _ => none

/-- X slot, group 0 (R251). -/
def rawX0 (w : BitVec 32) : Option Instr :=
  match slotIndex w with
  | 0 => some (.xdot (fld w 0 4) (fld w 4 3) (fld w 7 3) (fld w 10 6) (fld w 16 4) (fld w 20 1) (fld w 21 1) (fld w 22 1))
  | 1 => some (.xdots (fld w 0 4) (fld w 4 3) (fld w 7 3) (fld w 10 6) (fld w 16 4) (fld w 20 1) (fld w 21 1) (fld w 22 1) (fld w 23 2))
  | 2 => some (.xbcast (fld w 0 4) (fld w 4 3) (fld w 7 3) (fld w 10 6) (fld w 16 4))
  | 3 => some (.xrep (fld w 0 4) (fld w 10 6) (fld w 20 1))
  | 4 => some (.xrange (fld w 0 4) (fld w 4 3) (fld w 10 6))
  | 5 => some (.xcal (fld w 0 4))
  | 6 => some (.xdesk (fld w 0 4) (fld w 4 3) (fld w 10 6))
  | 7 => some (.xwait (fld w 0 4) (fld w 10 6))
  | 8 => if bitAt w 20 then some (.xprogClear (fld w 0 4)) else some (.xprog (fld w 0 4) (fld w 10 6))
  | _ => none

/-- X slot, group 1 (R251). -/
def rawX1 (w : BitVec 32) : Option Instr :=
  match slotIndex w with
  | 0 => some (.board (fld w 0 4) (fld w 4 6) (fld w 10 6) (fld w 16 1))
  | 1 => some (.unboard (fld w 0 4) (fld w 4 6) (fld w 10 6))
  | 2 => if fld w 16 9 = 1 then some (.rposStat (fld w 0 4) (fld w 4 6) (fld w 10 6)) else if fld w 16 9 = 2 then some (.rposId (fld w 0 4) (fld w 4 6) (fld w 10 6)) else some (.rpos (fld w 0 4) (fld w 4 6))
  | _ => none

/-- X slot, group 2 (R251). -/
def rawX2 (w : BitVec 32) : Option Instr :=
  match slotIndex w with
  | 0 => some (.cpy (fld w 0 4) (fld w 4 3) (fld w 7 3) (fld w 10 6) (fld w 16 6) (fld w 22 1))
  | 1 => some (.cpy2 (fld w 0 4) (fld w 4 3) (fld w 7 3) (fld w 10 6) (fld w 16 6) (fld w 22 1))
  | 2 => some (.gath (fld w 0 4) (fld w 4 3) (fld w 7 3) (fld w 10 6) (fld w 16 6) (fld w 22 1))
  | 3 => some (.scat (fld w 0 4) (fld w 4 3) (fld w 7 3) (fld w 10 6) (fld w 16 6) (fld w 22 1))
  | 4 => some (.cpyp (fld w 0 4) (fld w 4 3) (fld w 7 3) (fld w 10 6) (fld w 16 6) (fld w 22 1))
  | 5 => some (.kvmig (fld w 0 4) (fld w 4 3) (fld w 10 6) (fld w 16 6))
  | 6 => if bitAt w 22 then some (.cwaitAll (fld w 0 4) (fld w 16 6)) else some (.cwait (fld w 0 4) (fld w 10 6) (fld w 16 6))
  | 7 => some (.cnote (fld w 0 4) (fld w 10 6) (fld w 16 6))
  | _ => none

/-- X slot, group 3 (R251). -/
def rawX3 (w : BitVec 32) : Option Instr :=
  match slotIndex w with
  | 0 => some (.cred (fld w 0 4) (fld w 4 3) (fld w 7 3) (fld w 10 6) (fld w 16 6) (fld w 22 1))
  | 1 => some (.cbc (fld w 0 4) (fld w 4 3) (fld w 7 3) (fld w 10 6) (fld w 16 6) (fld w 22 1))
  | 2 => some (.cag (fld w 0 4) (fld w 4 3) (fld w 7 3) (fld w 10 6) (fld w 16 6) (fld w 22 1))
  | 3 => some (.cbar (fld w 0 4) (fld w 10 6) (fld w 16 6))
  | _ => none

/-- The operation that GROUP and INDEX name in a X slot, each field read through the bits of its file;
reserved bits are not looked at. -/
def rawX (w : BitVec 32) : Option Instr :=
  match slotGroup w with
  | 0 => rawX0 w
  | 1 => rawX1 w
  | 2 => rawX2 w
  | 3 => rawX3 w
  | _ => none

/-- C slot, group 0 (R251). -/
def rawC0 (w : BitVec 32) : Option Instr :=
  match slotIndex w with
  | 0 => some (.send (fld w 0 4) (fld w 4 5) (fld w 9 5) (fld w 14 4) (fld w 18 1) (fld w 19 6))
  | 1 => some (.recv (fld w 0 4) (fld w 4 5) (fld w 9 5) (fld w 14 4) (fld w 18 1) (fld w 19 6))
  | 2 => some (.recva (fld w 0 4) (fld w 4 5) (fld w 9 5) (fld w 14 4) (fld w 18 1) (fld w 19 6))
  | 3 => some (.recvm (fld w 0 4) (fld w 4 5) (fld w 9 5) (fld w 14 4) (fld w 18 1) (fld w 19 6))
  | 4 => some (.lstat (fld w 0 4) (fld w 4 5) (fld w 9 5) (fld w 19 6))
  | _ => none

/-- The operation that GROUP and INDEX name in a C slot, each field read through the bits of its file;
reserved bits are not looked at. -/
def rawC (w : BitVec 32) : Option Instr :=
  match slotGroup w with
  | 0 => rawC0 w
  | _ => none

/-- The header word as the empty bundle (R235). -/
def rawHeader (w : BitVec 32) : Option Instr :=
  if fld w 28 4 = 15 ∧ fld w 22 6 = 0 then some (.nop (fld w 4 6) (fld w 10 1) (fld w 11 5) (fld w 16 6)) else none

def rawWord : CodeUnit → BitVec 32 → Option Instr
  | .s => rawS | .m => rawM | .v => rawV | .x => rawX | .c => rawC | .header => rawHeader

/-! ### The encoder -/

/-- The unit whose code word an instruction is; none for a hardware event. -/
def Instr.codeUnit : Instr → Option CodeUnit
  | .add _ _ _ _ => some .s
  | .sub _ _ _ _ => some .s
  | .mul _ _ _ _ => some .s
  | .mulh _ _ _ _ _ => some .s
  | .div _ _ _ _ _ => some .s
  | .rem _ _ _ _ _ => some .s
  | .and _ _ _ _ => some .s
  | .or _ _ _ _ => some .s
  | .xor _ _ _ _ => some .s
  | .andn _ _ _ _ => some .s
  | .shl _ _ _ _ => some .s
  | .shr _ _ _ _ => some .s
  | .sra _ _ _ _ => some .s
  | .min _ _ _ _ _ => some .s
  | .max _ _ _ _ _ => some .s
  | .sel _ _ _ _ _ => some .s
  | .addi _ _ _ _ => some .s
  | .andi _ _ _ _ => some .s
  | .ori _ _ _ _ => some .s
  | .xori _ _ _ _ => some .s
  | .shli _ _ _ _ => some .s
  | .shri _ _ _ _ => some .s
  | .srai _ _ _ _ => some .s
  | .movi _ _ _ => some .s
  | .movh _ _ _ => some .s
  | .clz _ _ _ => some .s
  | .ctz _ _ _ => some .s
  | .popc _ _ _ => some .s
  | .sext _ _ _ _ => some .s
  | .zext _ _ _ _ => some .s
  | .cmp _ _ _ _ _ => some .s
  | .cmpi _ _ _ _ _ => some .s
  | .lea _ _ _ _ _ => some .s
  | .amov _ _ _ => some .s
  | .agetA _ _ _ => some .s
  | .agetD _ _ _ => some .s
  | .dset _ _ _ => some .s
  | .aadd _ _ _ _ => some .s
  | .pand _ _ _ _ => some .s
  | .por _ _ _ _ => some .s
  | .pxor _ _ _ _ => some .s
  | .pnot _ _ _ => some .s
  | .pmov _ _ _ => some .s
  | .psetConst _ _ _ => some .s
  | .psetScalar _ _ _ => some .s
  | .psetBit _ _ _ _ => some .s
  | .br _ _ _ _ => some .s
  | .jmp _ _ _ => some .s
  | .call _ _ _ => some .s
  | .ret _ _ => some .s
  | .loop _ _ _ => some .s
  | .mloop _ _ => some .s
  | .lexit _ _ _ => some .s
  | .pin _ => some .s
  | .unpin _ => some .s
  | .yield _ => some .s
  | .halt _ => some .s
  | .trap _ _ => some .s
  | .csrr _ _ _ => some .s
  | .csrw _ _ _ => some .s
  | .widf _ _ _ => some .s
  | .gtime _ _ => some .s
  | .realign _ _ => some .s
  | .tshapeImm _ _ _ _ _ => some .s
  | .tshapeReg _ _ _ => some .s
  | .tvalid _ _ _ _ => some .s
  | .ftsetAbs _ _ _ => some .s
  | .ftsetCur _ _ _ => some .s
  | .fbaseImm _ _ => some .s
  | .fbaseReg _ _ => some .s
  | .pkset _ _ => some .s
  | .pksetKey _ _ _ _ => some .s
  | .xpset _ _ _ => some .s
  | .beat _ => some .s
  | .uiret _ => some .s
  | .ld _ _ _ _ _ _ _ _ => some .m
  | .st _ _ _ _ _ _ _ => some .m
  | .lld _ _ _ _ _ _ => some .m
  | .lst _ _ _ _ _ _ => some .m
  | .pref _ _ _ _ _ => some .m
  | .tld _ _ _ _ _ _ _ => some .m
  | .tst _ _ _ _ _ _ _ => some .m
  | .tldg _ _ _ _ _ _ _ => some .m
  | .tsts _ _ _ _ _ _ _ => some .m
  | .kvld _ _ _ _ _ _ => some .m
  | .kvapp _ _ _ _ => some .m
  | .kvfree _ _ _ => some .m
  | .amo _ _ _ _ _ _ _ => some .m
  | .cas _ _ _ _ _ _ => some .m
  | .famo _ _ _ _ _ _ => some .m
  | .red _ _ _ _ _ _ => some .m
  | .fred _ _ _ _ _ => some .m
  | .redb _ _ _ _ _ _ _ => some .m
  | .fredb _ _ _ _ _ _ => some .m
  | .fence _ _ _ => some .m
  | .barinit _ _ _ => some .m
  | .arrive _ _ _ => some .m
  | .bwait _ _ _ => some .m
  | .btwait _ _ _ _ => some .m
  | .pub _ _ _ => some .m
  | .tadd _ _ _ _ _ _ _ _ => some .v
  | .tsub _ _ _ _ _ _ _ _ => some .v
  | .tmul _ _ _ _ _ _ _ _ => some .v
  | .tmin _ _ _ _ _ _ _ _ => some .v
  | .tmax _ _ _ _ _ _ _ _ => some .v
  | .tfma _ _ _ _ _ _ _ => some .v
  | .tfms _ _ _ _ _ _ _ => some .v
  | .tabs _ _ _ _ _ _ _ => some .v
  | .tneg _ _ _ _ _ _ _ => some .v
  | .tcpy _ _ _ _ _ => some .v
  | .tscale _ _ _ _ _ _ _ _ => some .v
  | .tclamp _ _ _ _ _ _ _ => some .v
  | .tcmp _ _ _ _ _ _ _ => some .v
  | .tsel _ _ _ _ _ => some .v
  | .tcvt _ _ _ _ _ _ _ => some .v
  | .tbcast _ _ _ _ _ _ _ => some .v
  | .tiadd _ _ _ _ _ _ _ _ => some .v
  | .tisub _ _ _ _ _ _ _ _ => some .v
  | .timul _ _ _ _ _ _ _ _ => some .v
  | .tand _ _ _ _ _ _ _ => some .v
  | .tor _ _ _ _ _ _ _ => some .v
  | .txor _ _ _ _ _ _ _ => some .v
  | .tshl _ _ _ _ _ _ _ => some .v
  | .tshr _ _ _ _ _ _ _ => some .v
  | .trget _ _ _ _ _ => some .v
  | .trput _ _ _ _ _ => some .v
  | .tcget _ _ _ _ _ => some .v
  | .tcput _ _ _ _ _ => some .v
  | .ttr _ _ _ => some .v
  | .tbrow _ _ _ => some .v
  | .tbcol _ _ _ => some .v
  | .tzero _ _ _ => some .v
  | .tredr _ _ _ _ _ _ _ _ => some .v
  | .tredc _ _ _ _ _ _ _ _ => some .v
  | .tred _ _ _ _ _ _ _ _ => some .v
  | .tscan _ _ _ _ _ _ _ _ => some .v
  | .tdot _ _ _ _ _ _ _ => some .v
  | .tdots _ _ _ _ _ _ _ _ => some .v
  | .tsprs _ _ _ _ _ => some .v
  | .trcpa _ _ _ _ _ _ _ => some .v
  | .trsqa _ _ _ _ _ _ _ => some .v
  | .trcpr _ _ _ _ _ _ _ _ => some .v
  | .trsqr _ _ _ _ _ _ _ _ => some .v
  | .texp2 _ _ _ _ _ _ _ => some .v
  | .tlog2 _ _ _ _ _ _ _ => some .v
  | .ttanh _ _ _ _ _ _ _ => some .v
  | .tsigm _ _ _ _ _ _ _ => some .v
  | .twelf _ _ _ _ _ _ _ => some .v
  | .twmrg _ _ _ _ _ _ _ _ => some .v
  | .kand _ _ _ _ => some .v
  | .kor _ _ _ _ => some .v
  | .kxor _ _ _ _ => some .v
  | .knot _ _ _ => some .v
  | .kcnt _ _ _ => some .v
  | .xdot _ _ _ _ _ _ _ _ => some .x
  | .xdots _ _ _ _ _ _ _ _ _ => some .x
  | .xbcast _ _ _ _ _ => some .x
  | .xrep _ _ _ => some .x
  | .xrange _ _ _ => some .x
  | .xcal _ => some .x
  | .xdesk _ _ _ => some .x
  | .xwait _ _ => some .x
  | .xprog _ _ => some .x
  | .xprogClear _ => some .x
  | .board _ _ _ _ => some .x
  | .unboard _ _ _ => some .x
  | .rpos _ _ => some .x
  | .rposStat _ _ _ => some .x
  | .rposId _ _ _ => some .x
  | .cpy _ _ _ _ _ _ => some .x
  | .cpy2 _ _ _ _ _ _ => some .x
  | .gath _ _ _ _ _ _ => some .x
  | .scat _ _ _ _ _ _ => some .x
  | .cpyp _ _ _ _ _ _ => some .x
  | .kvmig _ _ _ _ => some .x
  | .cwait _ _ _ => some .x
  | .cwaitAll _ _ => some .x
  | .cnote _ _ _ => some .x
  | .cred _ _ _ _ _ _ => some .x
  | .cbc _ _ _ _ _ _ => some .x
  | .cag _ _ _ _ _ _ => some .x
  | .cbar _ _ _ => some .x
  | .send _ _ _ _ _ _ => some .c
  | .recv _ _ _ _ _ _ => some .c
  | .recva _ _ _ _ _ _ => some .c
  | .recvm _ _ _ _ _ _ => some .c
  | .lstat _ _ _ _ => some .c
  | .nop _ _ _ _ => some .header
  | _ => none

/-- The code word of an instruction (R233, R234, R253); none for a hardware event. -/
def encode : Instr → Option (BitVec 32)
  | .add g d a b => some (BitVec.ofNat 32 (0x00000000 + g.toNat + d.toNat * 16 + a.toNat * 0x400 + b.toNat * 0x10000))
  | .sub g d a b => some (BitVec.ofNat 32 (0x02000000 + g.toNat + d.toNat * 16 + a.toNat * 0x400 + b.toNat * 0x10000))
  | .mul g d a b => some (BitVec.ofNat 32 (0x04000000 + g.toNat + d.toNat * 16 + a.toNat * 0x400 + b.toNat * 0x10000))
  | .mulh g d a b f => some (BitVec.ofNat 32 (0x06000000 + g.toNat + d.toNat * 16 + a.toNat * 0x400 + b.toNat * 0x10000 + f.toNat * 0x400000))
  | .div g d a b f => some (BitVec.ofNat 32 (0x08000000 + g.toNat + d.toNat * 16 + a.toNat * 0x400 + b.toNat * 0x10000 + f.toNat * 0x400000))
  | .rem g d a b f => some (BitVec.ofNat 32 (0x0A000000 + g.toNat + d.toNat * 16 + a.toNat * 0x400 + b.toNat * 0x10000 + f.toNat * 0x400000))
  | .and g d a b => some (BitVec.ofNat 32 (0x0C000000 + g.toNat + d.toNat * 16 + a.toNat * 0x400 + b.toNat * 0x10000))
  | .or g d a b => some (BitVec.ofNat 32 (0x0E000000 + g.toNat + d.toNat * 16 + a.toNat * 0x400 + b.toNat * 0x10000))
  | .xor g d a b => some (BitVec.ofNat 32 (0x10000000 + g.toNat + d.toNat * 16 + a.toNat * 0x400 + b.toNat * 0x10000))
  | .andn g d a b => some (BitVec.ofNat 32 (0x12000000 + g.toNat + d.toNat * 16 + a.toNat * 0x400 + b.toNat * 0x10000))
  | .shl g d a b => some (BitVec.ofNat 32 (0x14000000 + g.toNat + d.toNat * 16 + a.toNat * 0x400 + b.toNat * 0x10000))
  | .shr g d a b => some (BitVec.ofNat 32 (0x16000000 + g.toNat + d.toNat * 16 + a.toNat * 0x400 + b.toNat * 0x10000))
  | .sra g d a b => some (BitVec.ofNat 32 (0x18000000 + g.toNat + d.toNat * 16 + a.toNat * 0x400 + b.toNat * 0x10000))
  | .min g d a b f => some (BitVec.ofNat 32 (0x1A000000 + g.toNat + d.toNat * 16 + a.toNat * 0x400 + b.toNat * 0x10000 + f.toNat * 0x400000))
  | .max g d a b f => some (BitVec.ofNat 32 (0x1C000000 + g.toNat + d.toNat * 16 + a.toNat * 0x400 + b.toNat * 0x10000 + f.toNat * 0x400000))
  | .sel g d a b p => some (BitVec.ofNat 32 (0x1E000000 + g.toNat + d.toNat * 16 + a.toNat * 0x400 + b.toNat * 0x10000 + p.toNat * 0x400000))
  | .addi g d a i => some (BitVec.ofNat 32 (0x20000000 + g.toNat + d.toNat * 16 + a.toNat * 0x400 + i.toNat * 0x10000))
  | .andi g d a i => some (BitVec.ofNat 32 (0x22000000 + g.toNat + d.toNat * 16 + a.toNat * 0x400 + i.toNat * 0x10000))
  | .ori g d a i => some (BitVec.ofNat 32 (0x24000000 + g.toNat + d.toNat * 16 + a.toNat * 0x400 + i.toNat * 0x10000))
  | .xori g d a i => some (BitVec.ofNat 32 (0x26000000 + g.toNat + d.toNat * 16 + a.toNat * 0x400 + i.toNat * 0x10000))
  | .shli g d a i => some (BitVec.ofNat 32 (0x28000000 + g.toNat + d.toNat * 16 + a.toNat * 0x400 + i.toNat * 0x10000))
  | .shri g d a i => some (BitVec.ofNat 32 (0x2A000000 + g.toNat + d.toNat * 16 + a.toNat * 0x400 + i.toNat * 0x10000))
  | .srai g d a i => some (BitVec.ofNat 32 (0x2C000000 + g.toNat + d.toNat * 16 + a.toNat * 0x400 + i.toNat * 0x10000))
  | .movi g d i => some (BitVec.ofNat 32 (0x2E000000 + g.toNat + d.toNat * 16 + i.toNat * 0x400))
  | .movh g d i => some (BitVec.ofNat 32 (0x30000000 + g.toNat + d.toNat * 16 + i.toNat * 0x400))
  | .clz g d a => some (BitVec.ofNat 32 (0x32000000 + g.toNat + d.toNat * 16 + a.toNat * 0x400))
  | .ctz g d a => some (BitVec.ofNat 32 (0x34000000 + g.toNat + d.toNat * 16 + a.toNat * 0x400))
  | .popc g d a => some (BitVec.ofNat 32 (0x36000000 + g.toNat + d.toNat * 16 + a.toNat * 0x400))
  | .sext g d a w => some (BitVec.ofNat 32 (0x38000000 + g.toNat + d.toNat * 16 + a.toNat * 0x400 + w.toNat * 0x10000))
  | .zext g d a w => some (BitVec.ofNat 32 (0x3A000000 + g.toNat + d.toNat * 16 + a.toNat * 0x400 + w.toNat * 0x10000))
  | .cmp g p a b c => some (BitVec.ofNat 32 (0x3C000000 + g.toNat + p.toNat * 16 + a.toNat * 0x400 + b.toNat * 0x10000 + c.toNat * 0x400000))
  | .cmpi g p a i c => some (BitVec.ofNat 32 (0x3E000000 + g.toNat + p.toNat * 16 + a.toNat * 0x400 + i.toNat * 0x10000 + c.toNat * 0x400000))
  | .lea g d a b h => some (BitVec.ofNat 32 (0x40000000 + g.toNat + d.toNat * 16 + a.toNat * 0x400 + b.toNat * 0x10000 + h.toNat * 0x400000))
  | .amov g d a => some (BitVec.ofNat 32 (0x42000000 + g.toNat + d.toNat * 16 + a.toNat * 0x400))
  | .agetA g d a => some (BitVec.ofNat 32 (0x44000000 + g.toNat + d.toNat * 16 + a.toNat * 0x400))
  | .agetD g d a => some (BitVec.ofNat 32 (0x44400000 + g.toNat + d.toNat * 16 + a.toNat * 0x400))
  | .dset g d a => some (BitVec.ofNat 32 (0x46000000 + g.toNat + d.toNat * 16 + a.toNat * 0x400))
  | .aadd g d a i => some (BitVec.ofNat 32 (0x48000000 + g.toNat + d.toNat * 16 + a.toNat * 0x400 + i.toNat * 0x10000))
  | .pand g d a b => some (BitVec.ofNat 32 (0x4A000000 + g.toNat + d.toNat * 16 + a.toNat * 0x400 + b.toNat * 0x10000))
  | .por g d a b => some (BitVec.ofNat 32 (0x4C000000 + g.toNat + d.toNat * 16 + a.toNat * 0x400 + b.toNat * 0x10000))
  | .pxor g d a b => some (BitVec.ofNat 32 (0x4E000000 + g.toNat + d.toNat * 16 + a.toNat * 0x400 + b.toNat * 0x10000))
  | .pnot g d a => some (BitVec.ofNat 32 (0x50000000 + g.toNat + d.toNat * 16 + a.toNat * 0x400))
  | .pmov g d a => some (BitVec.ofNat 32 (0x52000000 + g.toNat + d.toNat * 16 + a.toNat * 0x400))
  | .psetConst g d v => some (BitVec.ofNat 32 (0x54000000 + g.toNat + d.toNat * 16 + v.toNat * 0x400000))
  | .psetScalar g d a => some (BitVec.ofNat 32 (0x54800000 + g.toNat + d.toNat * 16 + a.toNat * 0x400))
  | .psetBit g d a n => some (BitVec.ofNat 32 (0x54C00000 + g.toNat + d.toNat * 16 + a.toNat * 0x400 + n.toNat * 0x10000))
  | .br g p n o => some (BitVec.ofNat 32 (0x60000000 + g.toNat + p.toNat * 16 + n.toNat * 256 + o.toNat * 512))
  | .jmp g a o => some (BitVec.ofNat 32 (0x62000000 + g.toNat + a.toNat * 16 + o.toNat * 512))
  | .call g l o => some (BitVec.ofNat 32 (0x64000000 + g.toNat + l.toNat * 16 + o.toNat * 512))
  | .ret g l => some (BitVec.ofNat 32 (0x66000000 + g.toNat + l.toNat * 16))
  | .loop g n o => some (BitVec.ofNat 32 (0x68000000 + g.toNat + n.toNat * 16 + o.toNat * 512))
  | .mloop g o => some (BitVec.ofNat 32 (0x6A000000 + g.toNat + o.toNat * 512))
  | .lexit g n o => some (BitVec.ofNat 32 (0x6C000000 + g.toNat + n.toNat * 16 + o.toNat * 512))
  | .pin g => some (BitVec.ofNat 32 (0x6E000000 + g.toNat))
  | .unpin g => some (BitVec.ofNat 32 (0x70000000 + g.toNat))
  | .yield g => some (BitVec.ofNat 32 (0x72000000 + g.toNat))
  | .halt g => some (BitVec.ofNat 32 (0x74000000 + g.toNat))
  | .trap g k => some (BitVec.ofNat 32 (0x76000000 + g.toNat + k.toNat * 512))
  | .csrr g d k => some (BitVec.ofNat 32 (0x80000000 + g.toNat + d.toNat * 16 + k.toNat * 0x400))
  | .csrw g d k => some (BitVec.ofNat 32 (0x82000000 + g.toNat + d.toNat * 16 + k.toNat * 0x400))
  | .widf g d k => some (BitVec.ofNat 32 (0x84000000 + g.toNat + d.toNat * 16 + k.toNat * 0x400))
  | .gtime g d => some (BitVec.ofNat 32 (0x86000000 + g.toNat + d.toNat * 16))
  | .realign g d => some (BitVec.ofNat 32 (0x88000000 + g.toNat + d.toNat * 16))
  | .tshapeImm g t r c f => some (BitVec.ofNat 32 (0x8A000000 + g.toNat + t.toNat * 16 + r.toNat * 0x400 + c.toNat * 0x10000 + f.toNat * 0x400000))
  | .tshapeReg g t n => some (BitVec.ofNat 32 (0x8A000000 + g.toNat + t.toNat * 16 + n.toNat * 0x400))
  | .tvalid g t r c => some (BitVec.ofNat 32 (0x8C000000 + g.toNat + t.toNat * 16 + r.toNat * 0x400 + c.toNat * 0x10000))
  | .ftsetAbs g d n => some (BitVec.ofNat 32 (0x8E000000 + g.toNat + d.toNat * 16 + n.toNat * 0x400))
  | .ftsetCur g d n => some (BitVec.ofNat 32 (0x8E400000 + g.toNat + d.toNat * 16 + n.toNat * 0x400))
  | .fbaseImm g n => some (BitVec.ofNat 32 (0x90000000 + g.toNat + n.toNat * 0x400))
  | .fbaseReg g d => some (BitVec.ofNat 32 (0x90400000 + g.toNat + d.toNat * 16))
  | .pkset g d => some (BitVec.ofNat 32 (0x92000000 + g.toNat + d.toNat * 16))
  | .pksetKey g k r w => some (BitVec.ofNat 32 (0x92400000 + g.toNat + k.toNat * 0x400 + r.toNat * 0x8000 + w.toNat * 0x10000))
  | .xpset g d n => some (BitVec.ofNat 32 (0x94000000 + g.toNat + d.toNat * 16 + n.toNat * 0x400))
  | .beat g => some (BitVec.ofNat 32 (0x96000000 + g.toNat))
  | .uiret g => some (BitVec.ofNat 32 (0x98000000 + g.toNat))
  | .ld g d r m f s z x => some (BitVec.ofNat 32 (0x00000000 + g.toNat + d.toNat * 16 + r.toNat * 0x400 + m.toNat * 0x4000 + f.toNat * 0x10000 + s.toNat * 0x20000 + z.toNat * 0x40000 + x.toNat * 0x100000))
  | .st g d r m f z x => some (BitVec.ofNat 32 (0x02000000 + g.toNat + d.toNat * 16 + r.toNat * 0x400 + m.toNat * 0x4000 + f.toNat * 0x10000 + z.toNat * 0x40000 + x.toNat * 0x100000))
  | .lld g d r m f x => some (BitVec.ofNat 32 (0x04000000 + g.toNat + d.toNat * 16 + r.toNat * 0x400 + m.toNat * 0x4000 + f.toNat * 0x10000 + x.toNat * 0x100000))
  | .lst g d r m f x => some (BitVec.ofNat 32 (0x06000000 + g.toNat + d.toNat * 16 + r.toNat * 0x400 + m.toNat * 0x4000 + f.toNat * 0x10000 + x.toNat * 0x100000))
  | .pref g r m z x => some (BitVec.ofNat 32 (0x08000000 + g.toNat + r.toNat * 0x400 + m.toNat * 0x4000 + z.toNat * 0x40000 + x.toNat * 0x100000))
  | .tld g t q r m s f => some (BitVec.ofNat 32 (0x20000000 + g.toNat + t.toNat * 16 + q.toNat * 256 + r.toNat * 0x400 + m.toNat * 0x4000 + s.toNat * 0x10000 + f.toNat * 0x400000))
  | .tst g t q r m s f => some (BitVec.ofNat 32 (0x22000000 + g.toNat + t.toNat * 16 + q.toNat * 256 + r.toNat * 0x400 + m.toNat * 0x4000 + s.toNat * 0x10000 + f.toNat * 0x400000))
  | .tldg g t q r m s f => some (BitVec.ofNat 32 (0x24000000 + g.toNat + t.toNat * 16 + q.toNat * 256 + r.toNat * 0x400 + m.toNat * 0x4000 + s.toNat * 0x10000 + f.toNat * 0x400000))
  | .tsts g t q r m s f => some (BitVec.ofNat 32 (0x26000000 + g.toNat + t.toNat * 16 + q.toNat * 256 + r.toNat * 0x400 + m.toNat * 0x4000 + s.toNat * 0x10000 + f.toNat * 0x400000))
  | .kvld g t q r s c => some (BitVec.ofNat 32 (0x28000000 + g.toNat + t.toNat * 16 + q.toNat * 256 + r.toNat * 0x400 + s.toNat * 0x10000 + c.toNat * 0x400000))
  | .kvapp g t r s => some (BitVec.ofNat 32 (0x2A000000 + g.toNat + t.toNat * 16 + r.toNat * 0x400 + s.toNat * 0x10000))
  | .kvfree g r s => some (BitVec.ofNat 32 (0x2C000000 + g.toNat + r.toNat * 0x400 + s.toNat * 0x10000))
  | .amo g d r f b z o => some (BitVec.ofNat 32 (0x40000000 + g.toNat + d.toNat * 16 + r.toNat * 0x400 + f.toNat * 0x4000 + b.toNat * 0x10000 + z.toNat * 0x200000 + o.toNat * 0x400000))
  | .cas g d r f b z => some (BitVec.ofNat 32 (0x42000000 + g.toNat + d.toNat * 16 + r.toNat * 0x400 + f.toNat * 0x4000 + b.toNat * 0x10000 + z.toNat * 0x200000))
  | .famo g d r f b o => some (BitVec.ofNat 32 (0x44000000 + g.toNat + d.toNat * 16 + r.toNat * 0x400 + f.toNat * 0x4000 + b.toNat * 0x10000 + o.toNat * 0x400000))
  | .red g r f b z o => some (BitVec.ofNat 32 (0x60000000 + g.toNat + r.toNat * 16 + f.toNat * 512 + b.toNat * 0x400 + z.toNat * 0x10000 + o.toNat * 0x20000))
  | .fred g r f b o => some (BitVec.ofNat 32 (0x62000000 + g.toNat + r.toNat * 16 + f.toNat * 512 + b.toNat * 0x400 + o.toNat * 0x20000))
  | .redb g r f b z o q => some (BitVec.ofNat 32 (0x64000000 + g.toNat + r.toNat * 16 + f.toNat * 512 + b.toNat * 0x400 + z.toNat * 0x10000 + o.toNat * 0x20000 + q.toNat * 0x100000))
  | .fredb g r f b o q => some (BitVec.ofNat 32 (0x66000000 + g.toNat + r.toNat * 16 + f.toNat * 512 + b.toNat * 0x400 + o.toNat * 0x20000 + q.toNat * 0x100000))
  | .fence g k s => some (BitVec.ofNat 32 (0x80000000 + g.toNat + k.toNat * 0x100000 + s.toNat * 0x800000))
  | .barinit g r b => some (BitVec.ofNat 32 (0x82000000 + g.toNat + r.toNat * 0x400 + b.toNat * 0x4000))
  | .arrive g d r => some (BitVec.ofNat 32 (0x84000000 + g.toNat + d.toNat * 16 + r.toNat * 0x400))
  | .bwait g d r => some (BitVec.ofNat 32 (0x86000000 + g.toNat + d.toNat * 16 + r.toNat * 0x400))
  | .btwait g d r b => some (BitVec.ofNat 32 (0x88000000 + g.toNat + d.toNat * 16 + r.toNat * 0x400 + b.toNat * 0x4000))
  | .pub g d r => some (BitVec.ofNat 32 (0x8A000000 + g.toNat + d.toNat * 16 + r.toNat * 0x400))
  | .tadd g d a b c r s m => some (BitVec.ofNat 32 (0x00000000 + g.toNat + d.toNat * 16 + a.toNat * 256 + b.toNat * 0x1000 + c.toNat * 0x10000 + r.toNat * 0x100000 + s.toNat * 0x800000 + m.toNat * 0x1000000))
  | .tsub g d a b c r s m => some (BitVec.ofNat 32 (0x02000000 + g.toNat + d.toNat * 16 + a.toNat * 256 + b.toNat * 0x1000 + c.toNat * 0x10000 + r.toNat * 0x100000 + s.toNat * 0x800000 + m.toNat * 0x1000000))
  | .tmul g d a b c r s m => some (BitVec.ofNat 32 (0x04000000 + g.toNat + d.toNat * 16 + a.toNat * 256 + b.toNat * 0x1000 + c.toNat * 0x10000 + r.toNat * 0x100000 + s.toNat * 0x800000 + m.toNat * 0x1000000))
  | .tmin g d a b c r s m => some (BitVec.ofNat 32 (0x06000000 + g.toNat + d.toNat * 16 + a.toNat * 256 + b.toNat * 0x1000 + c.toNat * 0x10000 + r.toNat * 0x100000 + s.toNat * 0x800000 + m.toNat * 0x1000000))
  | .tmax g d a b c r s m => some (BitVec.ofNat 32 (0x08000000 + g.toNat + d.toNat * 16 + a.toNat * 256 + b.toNat * 0x1000 + c.toNat * 0x10000 + r.toNat * 0x100000 + s.toNat * 0x800000 + m.toNat * 0x1000000))
  | .tfma g d a b c r s => some (BitVec.ofNat 32 (0x0A000000 + g.toNat + d.toNat * 16 + a.toNat * 256 + b.toNat * 0x1000 + c.toNat * 0x10000 + r.toNat * 0x100000 + s.toNat * 0x800000))
  | .tfms g d a b c r s => some (BitVec.ofNat 32 (0x0C000000 + g.toNat + d.toNat * 16 + a.toNat * 256 + b.toNat * 0x1000 + c.toNat * 0x10000 + r.toNat * 0x100000 + s.toNat * 0x800000))
  | .tabs g d a c r s m => some (BitVec.ofNat 32 (0x0E000000 + g.toNat + d.toNat * 16 + a.toNat * 256 + c.toNat * 0x10000 + r.toNat * 0x100000 + s.toNat * 0x800000 + m.toNat * 0x1000000))
  | .tneg g d a c r s m => some (BitVec.ofNat 32 (0x10000000 + g.toNat + d.toNat * 16 + a.toNat * 256 + c.toNat * 0x10000 + r.toNat * 0x100000 + s.toNat * 0x800000 + m.toNat * 0x1000000))
  | .tcpy g d a c m => some (BitVec.ofNat 32 (0x12000000 + g.toNat + d.toNat * 16 + a.toNat * 256 + c.toNat * 0x10000 + m.toNat * 0x1000000))
  | .tscale g d a b c r s m => some (BitVec.ofNat 32 (0x14000000 + g.toNat + d.toNat * 16 + a.toNat * 256 + b.toNat * 0x1000 + c.toNat * 0x10000 + r.toNat * 0x100000 + s.toNat * 0x800000 + m.toNat * 0x1000000))
  | .tclamp g d a b c r s => some (BitVec.ofNat 32 (0x16000000 + g.toNat + d.toNat * 16 + a.toNat * 256 + b.toNat * 0x1000 + c.toNat * 0x10000 + r.toNat * 0x100000 + s.toNat * 0x800000))
  | .tcmp g d a b c k m => some (BitVec.ofNat 32 (0x18000000 + g.toNat + d.toNat * 16 + a.toNat * 256 + b.toNat * 0x1000 + c.toNat * 0x10000 + k.toNat * 0x100000 + m.toNat * 0x1000000))
  | .tsel g d a b c => some (BitVec.ofNat 32 (0x1A000000 + g.toNat + d.toNat * 16 + a.toNat * 256 + b.toNat * 0x1000 + c.toNat * 0x10000))
  | .tcvt g d a c r s m => some (BitVec.ofNat 32 (0x1C000000 + g.toNat + d.toNat * 16 + a.toNat * 256 + c.toNat * 0x10000 + r.toNat * 0x100000 + s.toNat * 0x800000 + m.toNat * 0x1000000))
  | .tbcast g d a c r s m => some (BitVec.ofNat 32 (0x1E000000 + g.toNat + d.toNat * 16 + a.toNat * 256 + c.toNat * 0x10000 + r.toNat * 0x100000 + s.toNat * 0x800000 + m.toNat * 0x1000000))
  | .tiadd g d a b s u k m => some (BitVec.ofNat 32 (0x20000000 + g.toNat + d.toNat * 16 + a.toNat * 256 + b.toNat * 0x1000 + s.toNat * 0x10000 + u.toNat * 0x20000 + k.toNat * 0x40000 + m.toNat * 0x200000))
  | .tisub g d a b s u k m => some (BitVec.ofNat 32 (0x22000000 + g.toNat + d.toNat * 16 + a.toNat * 256 + b.toNat * 0x1000 + s.toNat * 0x10000 + u.toNat * 0x20000 + k.toNat * 0x40000 + m.toNat * 0x200000))
  | .timul g d a b s u k m => some (BitVec.ofNat 32 (0x24000000 + g.toNat + d.toNat * 16 + a.toNat * 256 + b.toNat * 0x1000 + s.toNat * 0x10000 + u.toNat * 0x20000 + k.toNat * 0x40000 + m.toNat * 0x200000))
  | .tand g d a b u k m => some (BitVec.ofNat 32 (0x26000000 + g.toNat + d.toNat * 16 + a.toNat * 256 + b.toNat * 0x1000 + u.toNat * 0x20000 + k.toNat * 0x40000 + m.toNat * 0x200000))
  | .tor g d a b u k m => some (BitVec.ofNat 32 (0x28000000 + g.toNat + d.toNat * 16 + a.toNat * 256 + b.toNat * 0x1000 + u.toNat * 0x20000 + k.toNat * 0x40000 + m.toNat * 0x200000))
  | .txor g d a b u k m => some (BitVec.ofNat 32 (0x2A000000 + g.toNat + d.toNat * 16 + a.toNat * 256 + b.toNat * 0x1000 + u.toNat * 0x20000 + k.toNat * 0x40000 + m.toNat * 0x200000))
  | .tshl g d a b u k m => some (BitVec.ofNat 32 (0x2C000000 + g.toNat + d.toNat * 16 + a.toNat * 256 + b.toNat * 0x1000 + u.toNat * 0x20000 + k.toNat * 0x40000 + m.toNat * 0x200000))
  | .tshr g d a b u k m => some (BitVec.ofNat 32 (0x2E000000 + g.toNat + d.toNat * 16 + a.toNat * 256 + b.toNat * 0x1000 + u.toNat * 0x20000 + k.toNat * 0x40000 + m.toNat * 0x200000))
  | .trget g t v s i => some (BitVec.ofNat 32 (0x40000000 + g.toNat + t.toNat * 16 + v.toNat * 256 + s.toNat * 0x2000 + i.toNat * 0x80000))
  | .trput g t v s i => some (BitVec.ofNat 32 (0x42000000 + g.toNat + t.toNat * 16 + v.toNat * 256 + s.toNat * 0x2000 + i.toNat * 0x80000))
  | .tcget g t v s i => some (BitVec.ofNat 32 (0x44000000 + g.toNat + t.toNat * 16 + v.toNat * 256 + s.toNat * 0x2000 + i.toNat * 0x80000))
  | .tcput g t v s i => some (BitVec.ofNat 32 (0x46000000 + g.toNat + t.toNat * 16 + v.toNat * 256 + s.toNat * 0x2000 + i.toNat * 0x80000))
  | .ttr g t a => some (BitVec.ofNat 32 (0x48000000 + g.toNat + t.toNat * 16 + a.toNat * 256))
  | .tbrow g t v => some (BitVec.ofNat 32 (0x4A000000 + g.toNat + t.toNat * 16 + v.toNat * 256))
  | .tbcol g t v => some (BitVec.ofNat 32 (0x4C000000 + g.toNat + t.toNat * 16 + v.toNat * 256))
  | .tzero g t s => some (BitVec.ofNat 32 (0x4E000000 + g.toNat + t.toNat * 16 + s.toNat * 0x2000))
  | .tredr g d a k o r s m => some (BitVec.ofNat 32 (0x60000000 + g.toNat + d.toNat * 16 + a.toNat * 256 + k.toNat * 0x1000 + o.toNat * 0x8000 + r.toNat * 0x80000 + s.toNat * 0x400000 + m.toNat * 0x800000))
  | .tredc g d a k o r s m => some (BitVec.ofNat 32 (0x62000000 + g.toNat + d.toNat * 16 + a.toNat * 256 + k.toNat * 0x1000 + o.toNat * 0x8000 + r.toNat * 0x80000 + s.toNat * 0x400000 + m.toNat * 0x800000))
  | .tred g d a k o r s m => some (BitVec.ofNat 32 (0x64000000 + g.toNat + d.toNat * 16 + a.toNat * 256 + k.toNat * 0x1000 + o.toNat * 0x8000 + r.toNat * 0x80000 + s.toNat * 0x400000 + m.toNat * 0x800000))
  | .tscan g d a k o r s m => some (BitVec.ofNat 32 (0x66000000 + g.toNat + d.toNat * 16 + a.toNat * 256 + k.toNat * 0x1000 + o.toNat * 0x8000 + r.toNat * 0x80000 + s.toNat * 0x400000 + m.toNat * 0x800000))
  | .tdot g d a b r s x => some (BitVec.ofNat 32 (0x80000000 + g.toNat + d.toNat * 16 + a.toNat * 256 + b.toNat * 0x1000 + r.toNat * 0x100000 + s.toNat * 0x800000 + x.toNat * 0x1000000))
  | .tdots g d a b c r s x => some (BitVec.ofNat 32 (0x82000000 + g.toNat + d.toNat * 16 + a.toNat * 256 + b.toNat * 0x1000 + c.toNat * 0x10000 + r.toNat * 0x100000 + s.toNat * 0x800000 + x.toNat * 0x1000000))
  | .tsprs g d a b n => some (BitVec.ofNat 32 (0x84000000 + g.toNat + d.toNat * 16 + a.toNat * 256 + b.toNat * 0x1000 + n.toNat * 0x100000))
  | .trcpa g d a c r s m => some (BitVec.ofNat 32 (0xA0000000 + g.toNat + d.toNat * 16 + a.toNat * 256 + c.toNat * 0x10000 + r.toNat * 0x100000 + s.toNat * 0x800000 + m.toNat * 0x1000000))
  | .trsqa g d a c r s m => some (BitVec.ofNat 32 (0xA2000000 + g.toNat + d.toNat * 16 + a.toNat * 256 + c.toNat * 0x10000 + r.toNat * 0x100000 + s.toNat * 0x800000 + m.toNat * 0x1000000))
  | .trcpr g d a b c r s m => some (BitVec.ofNat 32 (0xA4000000 + g.toNat + d.toNat * 16 + a.toNat * 256 + b.toNat * 0x1000 + c.toNat * 0x10000 + r.toNat * 0x100000 + s.toNat * 0x800000 + m.toNat * 0x1000000))
  | .trsqr g d a b c r s m => some (BitVec.ofNat 32 (0xA6000000 + g.toNat + d.toNat * 16 + a.toNat * 256 + b.toNat * 0x1000 + c.toNat * 0x10000 + r.toNat * 0x100000 + s.toNat * 0x800000 + m.toNat * 0x1000000))
  | .texp2 g d a c r s m => some (BitVec.ofNat 32 (0xA8000000 + g.toNat + d.toNat * 16 + a.toNat * 256 + c.toNat * 0x10000 + r.toNat * 0x100000 + s.toNat * 0x800000 + m.toNat * 0x1000000))
  | .tlog2 g d a c r s m => some (BitVec.ofNat 32 (0xAA000000 + g.toNat + d.toNat * 16 + a.toNat * 256 + c.toNat * 0x10000 + r.toNat * 0x100000 + s.toNat * 0x800000 + m.toNat * 0x1000000))
  | .ttanh g d a c r s m => some (BitVec.ofNat 32 (0xAC000000 + g.toNat + d.toNat * 16 + a.toNat * 256 + c.toNat * 0x10000 + r.toNat * 0x100000 + s.toNat * 0x800000 + m.toNat * 0x1000000))
  | .tsigm g d a c r s m => some (BitVec.ofNat 32 (0xAE000000 + g.toNat + d.toNat * 16 + a.toNat * 256 + c.toNat * 0x10000 + r.toNat * 0x100000 + s.toNat * 0x800000 + m.toNat * 0x1000000))
  | .twelf g d a c r s m => some (BitVec.ofNat 32 (0xB0000000 + g.toNat + d.toNat * 16 + a.toNat * 256 + c.toNat * 0x10000 + r.toNat * 0x100000 + s.toNat * 0x800000 + m.toNat * 0x1000000))
  | .twmrg g d a b c r s m => some (BitVec.ofNat 32 (0xB2000000 + g.toNat + d.toNat * 16 + a.toNat * 256 + b.toNat * 0x1000 + c.toNat * 0x10000 + r.toNat * 0x100000 + s.toNat * 0x800000 + m.toNat * 0x1000000))
  | .kand g d a b => some (BitVec.ofNat 32 (0xC0000000 + g.toNat + d.toNat * 16 + a.toNat * 128 + b.toNat * 0x400))
  | .kor g d a b => some (BitVec.ofNat 32 (0xC2000000 + g.toNat + d.toNat * 16 + a.toNat * 128 + b.toNat * 0x400))
  | .kxor g d a b => some (BitVec.ofNat 32 (0xC4000000 + g.toNat + d.toNat * 16 + a.toNat * 128 + b.toNat * 0x400))
  | .knot g d a => some (BitVec.ofNat 32 (0xC6000000 + g.toNat + d.toNat * 16 + a.toNat * 128))
  | .kcnt g a d => some (BitVec.ofNat 32 (0xC8000000 + g.toNat + a.toNat * 128 + d.toNat * 0x2000))
  | .xdot g a b s t c k d => some (BitVec.ofNat 32 (0x00000000 + g.toNat + a.toNat * 16 + b.toNat * 128 + s.toNat * 0x400 + t.toNat * 0x10000 + c.toNat * 0x100000 + k.toNat * 0x200000 + d.toNat * 0x400000))
  | .xdots g a b s t c k d n => some (BitVec.ofNat 32 (0x02000000 + g.toNat + a.toNat * 16 + b.toNat * 128 + s.toNat * 0x400 + t.toNat * 0x10000 + c.toNat * 0x100000 + k.toNat * 0x200000 + d.toNat * 0x400000 + n.toNat * 0x800000))
  | .xbcast g a b s t => some (BitVec.ofNat 32 (0x04000000 + g.toNat + a.toNat * 16 + b.toNat * 128 + s.toNat * 0x400 + t.toNat * 0x10000))
  | .xrep g s w => some (BitVec.ofNat 32 (0x06000000 + g.toNat + s.toNat * 0x400 + w.toNat * 0x100000))
  | .xrange g a s => some (BitVec.ofNat 32 (0x08000000 + g.toNat + a.toNat * 16 + s.toNat * 0x400))
  | .xcal g => some (BitVec.ofNat 32 (0x0A000000 + g.toNat))
  | .xdesk g l s => some (BitVec.ofNat 32 (0x0C000000 + g.toNat + l.toNat * 16 + s.toNat * 0x400))
  | .xwait g s => some (BitVec.ofNat 32 (0x0E000000 + g.toNat + s.toNat * 0x400))
  | .xprog g s => some (BitVec.ofNat 32 (0x10000000 + g.toNat + s.toNat * 0x400))
  | .xprogClear g => some (BitVec.ofNat 32 (0x10100000 + g.toNat))
  | .board g d s t => some (BitVec.ofNat 32 (0x20000000 + g.toNat + d.toNat * 16 + s.toNat * 0x400 + t.toNat * 0x10000))
  | .unboard g d s => some (BitVec.ofNat 32 (0x22000000 + g.toNat + d.toNat * 16 + s.toNat * 0x400))
  | .rpos g d => some (BitVec.ofNat 32 (0x24000000 + g.toNat + d.toNat * 16))
  | .rposStat g d s => some (BitVec.ofNat 32 (0x24010000 + g.toNat + d.toNat * 16 + s.toNat * 0x400))
  | .rposId g d s => some (BitVec.ofNat 32 (0x24020000 + g.toNat + d.toNat * 16 + s.toNat * 0x400))
  | .cpy g a b s d p => some (BitVec.ofNat 32 (0x40000000 + g.toNat + a.toNat * 16 + b.toNat * 128 + s.toNat * 0x400 + d.toNat * 0x10000 + p.toNat * 0x400000))
  | .cpy2 g a b s d p => some (BitVec.ofNat 32 (0x42000000 + g.toNat + a.toNat * 16 + b.toNat * 128 + s.toNat * 0x400 + d.toNat * 0x10000 + p.toNat * 0x400000))
  | .gath g a b s d p => some (BitVec.ofNat 32 (0x44000000 + g.toNat + a.toNat * 16 + b.toNat * 128 + s.toNat * 0x400 + d.toNat * 0x10000 + p.toNat * 0x400000))
  | .scat g a b s d p => some (BitVec.ofNat 32 (0x46000000 + g.toNat + a.toNat * 16 + b.toNat * 128 + s.toNat * 0x400 + d.toNat * 0x10000 + p.toNat * 0x400000))
  | .cpyp g a b s d p => some (BitVec.ofNat 32 (0x48000000 + g.toNat + a.toNat * 16 + b.toNat * 128 + s.toNat * 0x400 + d.toNat * 0x10000 + p.toNat * 0x400000))
  | .kvmig g a s d => some (BitVec.ofNat 32 (0x4A000000 + g.toNat + a.toNat * 16 + s.toNat * 0x400 + d.toNat * 0x10000))
  | .cwait g s d => some (BitVec.ofNat 32 (0x4C000000 + g.toNat + s.toNat * 0x400 + d.toNat * 0x10000))
  | .cwaitAll g d => some (BitVec.ofNat 32 (0x4C400000 + g.toNat + d.toNat * 0x10000))
  | .cnote g s d => some (BitVec.ofNat 32 (0x4E000000 + g.toNat + s.toNat * 0x400 + d.toNat * 0x10000))
  | .cred g a b s d p => some (BitVec.ofNat 32 (0x60000000 + g.toNat + a.toNat * 16 + b.toNat * 128 + s.toNat * 0x400 + d.toNat * 0x10000 + p.toNat * 0x400000))
  | .cbc g a b s d p => some (BitVec.ofNat 32 (0x62000000 + g.toNat + a.toNat * 16 + b.toNat * 128 + s.toNat * 0x400 + d.toNat * 0x10000 + p.toNat * 0x400000))
  | .cag g a b s d p => some (BitVec.ofNat 32 (0x64000000 + g.toNat + a.toNat * 16 + b.toNat * 128 + s.toNat * 0x400 + d.toNat * 0x10000 + p.toNat * 0x400000))
  | .cbar g s d => some (BitVec.ofNat 32 (0x66000000 + g.toNat + s.toNat * 0x400 + d.toNat * 0x10000))
  | .send g v c r m s => some (BitVec.ofNat 32 (0x00000000 + g.toNat + v.toNat * 16 + c.toNat * 512 + r.toNat * 0x4000 + m.toNat * 0x40000 + s.toNat * 0x80000))
  | .recv g v c r m s => some (BitVec.ofNat 32 (0x02000000 + g.toNat + v.toNat * 16 + c.toNat * 512 + r.toNat * 0x4000 + m.toNat * 0x40000 + s.toNat * 0x80000))
  | .recva g v c r m s => some (BitVec.ofNat 32 (0x04000000 + g.toNat + v.toNat * 16 + c.toNat * 512 + r.toNat * 0x4000 + m.toNat * 0x40000 + s.toNat * 0x80000))
  | .recvm g v c r m s => some (BitVec.ofNat 32 (0x06000000 + g.toNat + v.toNat * 16 + c.toNat * 512 + r.toNat * 0x4000 + m.toNat * 0x40000 + s.toNat * 0x80000))
  | .lstat g v c s => some (BitVec.ofNat 32 (0x08000000 + g.toNat + v.toNat * 16 + c.toNat * 512 + s.toNat * 0x80000))
  | .nop c m t r => some (BitVec.ofNat 32 (0xF0000000 + c.toNat * 16 + m.toNat * 0x400 + t.toNat * 0x800 + r.toNat * 0x10000))
  | _ => none

/-! ### Strict and run-time decoding -/

/-- The instruction of a word that the scanner's checks of one word admit: every limit of its entry
holds, and every other bit is as the encoding has it (R248, R252). -/
def decodeSlot (u : CodeUnit) (w : BitVec 32) : Option Instr :=
  match rawWord u w with
  | some i => if i.wf ∧ encode i = some w then some i else none
  | none => none

/-- A reserved value of a variant field acts as 0 (R249). -/
def cap {n : Nat} (k : Nat) (x : BitVec n) : BitVec n := if x.toNat ≤ k then x else 0

/-- The mask register of a tile field through its low bits; nothing when M = 0. -/
def maskField (m : BitVec 1) (c : BitVec 4) : BitVec 4 := if m = 1 then c &&& 7 else 0

/-- The fates of R249 for reserved values and unused fields (log 19 for those R249 does not name). -/
def Instr.fate : Instr → Instr
  | .mulh g d a b f => .mulh g d a b (cap 2 f)
  | .div g d a b f => .div g d a b (cap 1 f)
  | .rem g d a b f => .rem g d a b (cap 1 f)
  | .min g d a b f => .min g d a b (cap 1 f)
  | .max g d a b f => .max g d a b (cap 1 f)
  | .shli g d a i => .shli g d a (cap 63 i)
  | .shri g d a i => .shri g d a (cap 63 i)
  | .srai g d a i => .srai g d a (cap 63 i)
  | .sext g d a w => .sext g d a (cap 63 w)
  | .zext g d a w => .zext g d a (cap 63 w)
  | .cmp g p a b c => .cmp g p a b (cap 6 c)
  | .cmpi g p a i c => .cmpi g p a i (cap 6 c)
  | .csrr g d k => .csrr g d (if csrReadable k then k else 0)
  | .csrw g d k => .csrw g d (if csrWritable k then k else 0)
  | .widf g d k => .widf g d (cap 5 k)
  | .ld g d r m f s z x => .ld g d r (cap 2 m) f (if z = 3 then 0 else s) z (if m = 2 then x else 0)
  | .st g d r m f z x => .st g d r (cap 2 m) f z (if m = 2 then x else 0)
  | .lld g d r m f x => .lld g d r (cap 2 m) f (if m = 2 then x else 0)
  | .lst g d r m f x => .lst g d r (cap 2 m) f (if m = 2 then x else 0)
  | .pref g r m z x => .pref g r (cap 2 m) (if m = 2 then z else 0) (if m = 2 then x else 0)
  | .tld g t q r m s f => .tld g t (cap 1 q) r (cap 1 m) s (cap 1 f)
  | .tst g t q r m s f => .tst g t (cap 1 q) r (cap 1 m) s (cap 1 f)
  | .tldg g t q r m s f => .tldg g t q r (cap 1 m) s (cap 1 f)
  | .tsts g t q r m s f => .tsts g t q r (cap 1 m) s (cap 1 f)
  | .kvld g t q r s c => .kvld g t (cap 1 q) r s c
  | .famo g d r f b o => .famo g d r f b (cap 2 o)
  | .red g r f b z o => .red g r f b z (if o = 1 then 0 else o)
  | .fred g r f b o => .fred g r f b (cap 2 o)
  | .redb g r f b z o q => .redb g r f b z (if o = 1 then 0 else o) q
  | .fredb g r f b o q => .fredb g r f b (cap 2 o) q
  | .fence g k s => .fence g (cap 4 k) (if k = 4 then 1 else s)
  | .tadd g d a b c r s m => .tadd g d a b (maskField m c) (cap 4 r) s m
  | .tsub g d a b c r s m => .tsub g d a b (maskField m c) (cap 4 r) s m
  | .tmul g d a b c r s m => .tmul g d a b (maskField m c) (cap 4 r) s m
  | .tmin g d a b c r s m => .tmin g d a b (maskField m c) (cap 4 r) s m
  | .tmax g d a b c r s m => .tmax g d a b (maskField m c) (cap 4 r) s m
  | .tfma g d a b c r s => .tfma g d a b c (cap 4 r) s
  | .tfms g d a b c r s => .tfms g d a b c (cap 4 r) s
  | .tabs g d a c r s m => .tabs g d a (maskField m c) (cap 4 r) s m
  | .tneg g d a c r s m => .tneg g d a (maskField m c) (cap 4 r) s m
  | .tcpy g d a c m => .tcpy g d a (maskField m c) m
  | .tscale g d a b c r s m => .tscale g d a b (maskField m c) (cap 4 r) s m
  | .tclamp g d a b c r s => .tclamp g d a b c (cap 4 r) s
  | .tcmp g d a b c k m => .tcmp g d a b (maskField m c) (cap 6 k) m
  | .tsel g d a b c => .tsel g d a b (c &&& 7)
  | .tcvt g d a c r s m => .tcvt g d a (maskField m c) (cap 4 r) s m
  | .tbcast g d a c r s m => .tbcast g d a (maskField m c) (cap 4 r) s m
  | .tiadd g d a b s u k m => .tiadd g d a b s u (if m = 1 then k else 0) m
  | .tisub g d a b s u k m => .tisub g d a b s u (if m = 1 then k else 0) m
  | .timul g d a b s u k m => .timul g d a b s u (if m = 1 then k else 0) m
  | .tand g d a b u k m => .tand g d a b u (if m = 1 then k else 0) m
  | .tor g d a b u k m => .tor g d a b u (if m = 1 then k else 0) m
  | .txor g d a b u k m => .txor g d a b u (if m = 1 then k else 0) m
  | .tshl g d a b u k m => .tshl g d a b u (if m = 1 then k else 0) m
  | .tshr g d a b u k m => .tshr g d a b u (if m = 1 then k else 0) m
  | .tredr g d a k o r s m => .tredr g d a (if m = 1 then k else 0) (cap 7 o) (cap 4 r) s m
  | .tredc g d a k o r s m => .tredc g d a (if m = 1 then k else 0) (cap 7 o) (cap 4 r) s m
  | .tred g d a k o r s m => .tred g d a (if m = 1 then k else 0) (cap 7 o) (cap 4 r) s m
  | .tscan g d a k o r s m => .tscan g d a (if m = 1 then k else 0) (cap 6 o) (cap 4 r) s m
  | .tdot g d a b r s x => .tdot g d a b (cap 4 r) s x
  | .tdots g d a b c r s x => .tdots g d a b c (cap 4 r) s x
  | .tsprs g d a b n => .tsprs g d a b (cap 2 n)
  | .trcpa g d a c r s m => .trcpa g d a (maskField m c) (cap 4 r) s m
  | .trsqa g d a c r s m => .trsqa g d a (maskField m c) (cap 4 r) s m
  | .trcpr g d a b c r s m => .trcpr g d a b (maskField m c) (cap 4 r) s m
  | .trsqr g d a b c r s m => .trsqr g d a b (maskField m c) (cap 4 r) s m
  | .texp2 g d a c r s m => .texp2 g d a (maskField m c) (cap 4 r) s m
  | .tlog2 g d a c r s m => .tlog2 g d a (maskField m c) (cap 4 r) s m
  | .ttanh g d a c r s m => .ttanh g d a (maskField m c) (cap 4 r) s m
  | .tsigm g d a c r s m => .tsigm g d a (maskField m c) (cap 4 r) s m
  | .twelf g d a c r s m => .twelf g d a (maskField m c) (cap 4 r) s m
  | .twmrg g d a b c r s m => .twmrg g d a b (maskField m c) (cap 4 r) s m
  | .xdot g a b s t c k d => .xdot g a b (if d = 1 ∧ s = 63 then 62 else s) (if d = 1 then 0 else t) c k d
  | .xdots g a b s t c k d n => .xdots g a b (if d = 1 ∧ s = 63 then 62 else s) (if d = 1 then 0 else t) c k d (cap 2 n)
  | .lstat g v c s => .lstat g (cap 2 v) (if v = 2 then c &&& 15 else c) s
  | i => i

/-- What issues for a slot word at run time: nothing for an unassigned group and index (R249). -/
def decodeRun (u : CodeUnit) (w : BitVec 32) : Option Instr := (rawWord u w).map Instr.fate

/-! ### Headers -/

/-- A bundle header (R233). `slots` has S in bit 0 up to C in bit 5, as `clr` has. -/
structure Header where
  clr   : BitVec 6
  mark  : Bool
  stall : BitVec 5
  rep   : BitVec 6
  slots : BitVec 6
deriving DecidableEq, Repr

def Header.slotBit : Slot → Nat
  | .s => 0 | .m => 1 | .va => 2 | .vb => 3 | .x => 4 | .c => 5

def Header.has (h : Header) (sl : Slot) : Bool := h.slots.getLsbD (Header.slotBit sl)

/-- A word whose tag names a header, at run time (R249, R250); ZERO is ignored. -/
def decodeHeader (w : BitVec 32) : Option Header :=
  if fld w 28 4 = 15 then
    some ⟨fld w 4 6, bitAt w 10, fld w 11 5, fld w 16 6, fld w 22 6⟩
  else none

/-- The slots of a bundle in the order of R235. -/
def allSlots : List Slot := [.s, .m, .va, .vb, .x, .c]

def Header.present (h : Header) : List Slot := allSlots.filter h.has

/-- Bytes of the bundle (R235). -/
def Header.size (h : Header) : Nat := 4 * (1 + h.present.length)

/-! ### Bytes -/

/-- Little-endian words of a run of bytes (00 R6). -/
def wordsOf : List Byte → List (BitVec 32)
  | a :: b :: c :: d :: rest =>
    BitVec.ofNat 32 (a.toNat + b.toNat * 0x100 + c.toNat * 0x10000 + d.toNat * 0x1000000) :: wordsOf rest
  | _ => []

/-- The four bytes of a code word, lowest first. -/
def bytesOfWord (w : BitVec 32) : List Byte :=
  [w.setWidth 8, (w >>> 8).setWidth 8, (w >>> 16).setWidth 8, (w >>> 24).setWidth 8]

/-- What a run of bytes at a header holds: the header, and the slot words that follow it with their
slots; none where no header stands. -/
def decodeBundle (bs : List Byte) : Option (Header × List (Slot × BitVec 32)) :=
  match wordsOf bs with
  | [] => none
  | h :: rest =>
    match decodeHeader h with
    | none => none
    | some hd => if rest.length < hd.present.length then none else some (hd, hd.present.zip rest)

/-! ### The opcode table's words -/

/-- The first unit, in the order header, S, M, VA and VB, X, C, for which the word is an instruction,
and that instruction. A slot word does not name its slot (R251), so this order is the model's choice
(log 6). -/
def decodeAny (w : BitVec 32) : Option (CodeUnit × Instr) :=
  [CodeUnit.header, .s, .m, .v, .x, .c].findSome? fun u => (decodeSlot u w).map fun i => (u, i)

/-- The instruction read from `w` as the opcode table numbers its bits: the first word of the code,
little-endian. -/
def decodeTableWord (_nbits w : Nat) : Option Instr :=
  match wordsOf (bytesOfWord (BitVec.ofNat 32 w)) with
  | x :: _ => (decodeAny x).map Prod.snd
  | [] => none

end Sys2Proof
end

