-- ==== Sys2Proof/Machine/Operands.lean ====
section
/-! DEFINITION. The operand forms: the guard of a slot word, the registers it reads and writes by the
files of SBCTL (10 R247, R253, R254), and its operation class. -/

namespace Sys2Proof.Machine

/-- How fields name scalars and predicates: logically for the scanner, physically for a context. -/
structure Names where
  s : BitVec 6 → RegName
  p : BitVec 4 → RegName

def logical : Names := ⟨.s, .p⟩
def Ctx.names (c : Ctx) : Names := ⟨c.nameS, c.nameP⟩

/-- A stepping form reads the step register and writes the address register (R254). -/
def stepped {w : Nat} (m : BitVec w) (r : BitVec 4) : List RegName := if m = 1 then [.d r] else []
def advanced {w : Nat} (m : BitVec w) (r : BitVec 4) : List RegName := if m = 1 then [.a r] else []
/-- The mask named in a tile field, when M = 1. -/
def maskIn (m : BitVec 1) (c : BitVec 4) : List RegName := if m = 1 then [.k (c.setWidth 3)] else []
def maskK (m : BitVec 1) (k : BitVec 3) : List RegName := if m = 1 then [.k k] else []

end Sys2Proof.Machine

namespace Sys2Proof
open Machine

/-- The registers that an operation reads, its guard apart. -/
def Instr.reads (n : Names) : Instr → List RegName
  | .add _ _ a b | .sub _ _ a b | .mul _ _ a b | .mulh _ _ a b _ | .div _ _ a b _ | .rem _ _ a b _
  | .and _ _ a b | .or _ _ a b | .xor _ _ a b | .andn _ _ a b | .shl _ _ a b | .shr _ _ a b | .sra _ _ a b
  | .min _ _ a b _ | .max _ _ a b _ | .cmp _ _ a b _ => [n.s a, n.s b]
  | .sel _ _ a b p => [n.s a, n.s b, n.p (p.setWidth 4)]
  | .addi _ _ a _ | .andi _ _ a _ | .ori _ _ a _ | .xori _ _ a _ | .shli _ _ a _ | .shri _ _ a _ | .srai _ _ a _
  | .clz _ _ a | .ctz _ _ a | .popc _ _ a | .sext _ _ a _ | .zext _ _ a _ | .cmpi _ _ a _ _ => [n.s a]
  | .movh _ d _ => [n.s d]
  | .lea _ _ a b _ => [.a a, n.s b]
  | .amov _ _ a | .dset _ _ a | .psetScalar _ _ a | .psetBit _ _ a _ => [n.s a]
  | .agetA _ _ a | .aadd _ _ a _ | .jmp _ a _ => [.a a]
  | .agetD _ _ a => [.d a]
  | .pand _ _ a b | .por _ _ a b | .pxor _ _ a b => [n.p a, n.p b]
  | .pnot _ _ a | .pmov _ _ a => [n.p a]
  | .br _ p _ _ => [n.p p]
  | .ret _ l => [n.s (l.setWidth 6)]
  | .csrw _ d _ | .ftsetAbs _ d _ | .ftsetCur _ d _ | .fbaseReg _ d | .pkset _ d | .xpset _ d _ => [n.s d]
  | .tshapeReg _ _ m => [n.s m]
  | .tvalid _ _ r c => [n.s r, n.s c]
  | .ld _ _ r m _ _ _ _ | .lld _ _ r m _ _ | .pref _ r m _ _ => .a r :: stepped m r
  | .st _ d r m _ _ _ => n.s d :: .a r :: stepped m r
  | .lst _ d r m _ _ => .v d :: .a r :: stepped m r
  | .tld _ _ _ r m s _ => n.s s :: .a r :: stepped m r
  | .tst _ t _ r m s _ => .t t :: n.s s :: .a r :: stepped m r
  | .tldg _ _ _ r m s _ => .v s :: .a r :: stepped m r
  | .tsts _ t _ r m s _ => .t t :: .v s :: .a r :: stepped m r
  | .kvld _ _ _ r s _ => [.a r, n.s s]
  | .kvapp _ t r _ => [.t t, .a r]
  | .kvfree _ r _ | .arrive _ _ r | .pub _ _ r => [.a r]
  | .amo _ _ r _ b _ _ | .famo _ _ r _ b _ => [.a r, n.s (b.setWidth 6)]
  | .cas _ d r _ b _ => [n.s d, .a r, n.s (b.setWidth 6)]
  | .red _ r _ b _ _ | .fred _ r _ b _ | .barinit _ r b => [.a r, n.s b]
  | .redb _ r _ b _ _ q | .fredb _ r _ b _ q => [.a r, n.s b, .a q]
  | .bwait _ d r => [n.s d, .a r]
  | .btwait _ d r b => [n.s d, .a r, n.s b]
  | .tadd _ _ a b c _ _ m | .tsub _ _ a b c _ _ m | .tmul _ _ a b c _ _ m | .tmin _ _ a b c _ _ m
  | .tmax _ _ a b c _ _ m | .tscale _ _ a b c _ _ m | .tcmp _ _ a b c _ m | .trcpr _ _ a b c _ _ m
  | .trsqr _ _ a b c _ _ m | .twmrg _ _ a b c _ _ m => .t a :: .t b :: maskIn m c
  | .tfma _ _ a b c _ _ | .tfms _ _ a b c _ _ | .tclamp _ _ a b c _ _ => [.t a, .t b, .t c]
  | .tabs _ _ a c _ _ m | .tneg _ _ a c _ _ m | .tcpy _ _ a c m | .tcvt _ _ a c _ _ m | .tbcast _ _ a c _ _ m
  | .trcpa _ _ a c _ _ m | .trsqa _ _ a c _ _ m | .texp2 _ _ a c _ _ m | .tlog2 _ _ a c _ _ m
  | .ttanh _ _ a c _ _ m | .tsigm _ _ a c _ _ m => .t a :: maskIn m c
  | .twelf _ d a c _ _ m => .t d :: .t a :: maskIn m c
  | .tsel _ _ a b c => [.t a, .t b, .k (c.setWidth 3)]
  | .tiadd _ _ a b _ _ k m | .tisub _ _ a b _ _ k m | .timul _ _ a b _ _ k m => .t a :: .t b :: maskK m k
  | .tand _ _ a b _ k m | .tor _ _ a b _ k m | .txor _ _ a b _ k m | .tshl _ _ a b _ k m | .tshr _ _ a b _ k m =>
    .t a :: .t b :: maskK m k
  | .trget _ t _ s _ | .tcget _ t _ s _ => [.t t, n.s s]
  | .trput _ _ v s _ | .tcput _ _ v s _ => [.v v, n.s s]
  | .ttr _ _ a => [.t a]
  | .tbrow _ _ v | .tbcol _ _ v => [.v v]
  | .tzero _ _ s => [n.s s]
  | .tredr _ _ a k _ _ _ m | .tredc _ _ a k _ _ _ m | .tred _ _ a k _ _ _ m | .tscan _ _ a k _ _ _ m => .t a :: maskK m k
  | .tdot _ d a b _ _ x => .t a :: .t b :: (if x = 1 then [.t d] else [])
  | .tdots _ d a b c _ _ x => .t a :: .t b :: .t c :: (if x = 1 then [.t d] else [])
  | .tsprs _ _ a b _ => [.t a, .t b]
  | .kand _ _ a b | .kor _ _ a b | .kxor _ _ a b => [.k a, .k b]
  | .knot _ _ a | .kcnt _ a _ => [.k a]
  | .xdot _ _ _ s t c _ d | .xdots _ _ _ s t c _ d _ =>
    n.s s :: (if d = 1 then [n.s (s + 1)] else if c = 1 then [.t t] else [])
  | .xbcast _ _ _ s t => [n.s s, .t t]
  | .xdesk _ _ s | .xprog _ s | .board _ _ s _ | .unboard _ _ s | .rposStat _ _ s | .rposId _ _ s => [n.s s]
  | .cpy _ _ _ s _ _ | .cpy2 _ _ _ s _ _ | .gath _ _ _ s _ _ | .scat _ _ _ s _ _ | .cpyp _ _ _ s _ _
  | .kvmig _ _ s _ | .cwait _ s _ | .cred _ _ _ s _ _ | .cbc _ _ _ s _ _ | .cag _ _ _ s _ _ | .cbar _ s _ => [n.s s]
  | .cnote _ s d => [n.s s, n.s d]
  | .send _ v _ r m _ | .recva _ v _ r m _ | .recvm _ v _ r m _ => .v v :: .a r :: stepped m r
  | .recv _ _ _ r m _ => .a r :: stepped m r
  | _ => []

/-- The registers of those files that an operation writes. -/
def Instr.writes (n : Names) : Instr → List RegName
  | .add _ d _ _ | .sub _ d _ _ | .mul _ d _ _ | .mulh _ d _ _ _ | .div _ d _ _ _ | .rem _ d _ _ _
  | .and _ d _ _ | .or _ d _ _ | .xor _ d _ _ | .andn _ d _ _ | .shl _ d _ _ | .shr _ d _ _ | .sra _ d _ _
  | .min _ d _ _ _ | .max _ d _ _ _ | .sel _ d _ _ _
  | .addi _ d _ _ | .andi _ d _ _ | .ori _ d _ _ | .xori _ d _ _ | .shli _ d _ _ | .shri _ d _ _ | .srai _ d _ _
  | .movi _ d _ | .movh _ d _ | .clz _ d _ | .ctz _ d _ | .popc _ d _ | .sext _ d _ _ | .zext _ d _ _
  | .agetA _ d _ | .agetD _ d _ | .csrr _ d _ | .widf _ d _ | .gtime _ d | .realign _ d => [n.s d]
  | .cmp _ p _ _ _ | .cmpi _ p _ _ _ => [n.p p]
  | .pand _ d _ _ | .por _ d _ _ | .pxor _ d _ _ | .pnot _ d _ | .pmov _ d _ | .psetConst _ d _ | .psetScalar _ d _
  | .psetBit _ d _ _ => [n.p d]
  | .lea _ d _ _ _ | .amov _ d _ | .aadd _ d _ _ => [.a d]
  | .dset _ d _ => [.d d]
  | .call _ l _ => [n.s (l.setWidth 6)]
  | .ld _ d r m _ _ _ _ => n.s d :: advanced m r
  | .lld _ d r m _ _ => .v d :: advanced m r
  | .st _ _ r m _ _ _ | .lst _ _ r m _ _ | .pref _ r m _ _ | .tst _ _ _ r m _ _ | .tsts _ _ _ r m _ _ => advanced m r
  | .tld _ t _ r m _ _ | .tldg _ t _ r m _ _ => .t t :: advanced m r
  | .kvld _ t _ _ s _ => [.t t, n.s s]
  | .kvapp _ _ _ s | .kvfree _ _ s => [n.s s]
  | .amo _ d _ _ _ _ _ | .cas _ d _ _ _ _ | .famo _ d _ _ _ _ | .arrive _ d _ | .bwait _ d _ | .btwait _ d _ _
  | .pub _ d _ => [n.s d]
  | .tadd _ d _ _ _ _ _ _ | .tsub _ d _ _ _ _ _ _ | .tmul _ d _ _ _ _ _ _ | .tmin _ d _ _ _ _ _ _
  | .tmax _ d _ _ _ _ _ _ | .tscale _ d _ _ _ _ _ _ | .trcpr _ d _ _ _ _ _ _ | .trsqr _ d _ _ _ _ _ _
  | .twmrg _ d _ _ _ _ _ _ | .tfma _ d _ _ _ _ _ | .tfms _ d _ _ _ _ _ | .tclamp _ d _ _ _ _ _
  | .tabs _ d _ _ _ _ _ | .tneg _ d _ _ _ _ _ | .tcpy _ d _ _ _ | .tcvt _ d _ _ _ _ _ | .tbcast _ d _ _ _ _ _
  | .trcpa _ d _ _ _ _ _ | .trsqa _ d _ _ _ _ _ | .texp2 _ d _ _ _ _ _ | .tlog2 _ d _ _ _ _ _
  | .ttanh _ d _ _ _ _ _ | .tsigm _ d _ _ _ _ _ | .twelf _ d _ _ _ _ _ | .tsel _ d _ _ _
  | .tiadd _ d _ _ _ _ _ _ | .tisub _ d _ _ _ _ _ _ | .timul _ d _ _ _ _ _ _
  | .tand _ d _ _ _ _ _ | .tor _ d _ _ _ _ _ | .txor _ d _ _ _ _ _ | .tshl _ d _ _ _ _ _ | .tshr _ d _ _ _ _ _
  | .trput _ d _ _ _ | .tcput _ d _ _ _ | .ttr _ d _ | .tbrow _ d _ | .tbcol _ d _ | .tzero _ d _
  | .tredr _ d _ _ _ _ _ _ | .tredc _ d _ _ _ _ _ _ | .tred _ d _ _ _ _ _ _ | .tscan _ d _ _ _ _ _ _
  | .tdot _ d _ _ _ _ _ | .tdots _ d _ _ _ _ _ _ | .tsprs _ d _ _ _ => [.t d]
  | .tcmp _ d _ _ _ _ _ | .kand _ d _ _ | .kor _ d _ _ | .kxor _ d _ _ | .knot _ d _ => [.k d]
  | .trget _ _ v _ _ | .tcget _ _ v _ _ => [.v v]
  | .kcnt _ _ d => [n.s d]
  | .xdot _ _ _ _ t _ _ d | .xdots _ _ _ _ t _ _ d _ => if d = 0 then [.t t] else []
  | .xrep _ s _ | .xrange _ _ s | .xwait _ s => [n.s s]
  | .board _ d _ _ | .unboard _ d _ | .rpos _ d | .rposStat _ d _ | .rposId _ d _ => [n.s d]
  | .cpy _ _ _ _ d _ | .cpy2 _ _ _ _ d _ | .gath _ _ _ _ d _ | .scat _ _ _ _ d _ | .cpyp _ _ _ _ d _
  | .kvmig _ _ _ d | .cwait _ _ d | .cwaitAll _ d | .cred _ _ _ _ d _ | .cbc _ _ _ _ d _ | .cag _ _ _ _ d _
  | .cbar _ _ d => [n.s d]
  | .send _ _ _ r m s => n.s s :: advanced m r
  | .recv _ v _ r m s | .recva _ v _ r m s | .recvm _ v _ r m s => .v v :: n.s s :: advanced m r
  | .lstat _ _ _ s => [n.s s]
  | _ => []

/-- The tile operands of a vector operation, whose shapes fix its occupancy (R243) and which must be
configured (R194). -/
def Instr.tileOps (i : Instr) : List (BitVec 4) :=
  (i.reads logical ++ i.writes logical).filterMap fun r => match r with | .t n => some n | _ => none

/-- The address register that a present slot writes, an advance apart (R242). -/
def Instr.writesAddr : Instr → Option (BitVec 4)
  | .lea _ d _ _ _ | .amov _ d _ | .aadd _ d _ _ => some d
  | _ => none

/-- The guard of a slot word; a header has none. -/
def Instr.guard (i : Instr) : BitVec 4 :=
  match encode i with
  | some w => fld w 0 4
  | none => 0

/-- The operations that set the sticky state of their slot (R240). -/
def Instr.steppable : Instr → Bool
  | .tld .. | .tst .. | .lld .. | .lst .. | .tldg .. | .tsts .. | .send .. | .recv .. | .recva .. | .recvm .. => true
  | _ => false

/-- Group 3 of the S slot and `uiret`, which no repeated bundle holds (R239). -/
def Instr.noRepeat : Instr → Bool
  | .br .. | .jmp .. | .call .. | .ret .. | .loop .. | .mloop .. | .lexit .. | .pin .. | .unpin .. | .yield ..
  | .halt .. | .trap .. | .uiret .. => true
  | _ => false

/-- The current weight of an issued operation (19 R456). -/
def Instr.weight : Instr → Nat
  | .div .. | .rem .. => 2
  | i =>
    match i.codeUnit with
    | some .s => 1
    | some .m =>
      match i with
      | .tld .. | .tst .. | .tldg .. | .tsts .. | .kvld .. | .kvapp .. | .kvfree .. => 4
      | _ => 2
    | some .v =>
      match encode i with
      | some w =>
        match i with
        | .tdot .. | .tdots .. => 8
        | .tsprs .. => 2
        | _ => if slotGroup w = 3 ∨ slotGroup w = 5 then 4 else if slotGroup w ≤ 1 then 3 else 2
      | none => 0
    | some .x => 2
    | some .c => 2
    | _ => 0

/-- The operations before which an implicit mark stands (18 R427). -/
def Instr.implicitMark : Instr → Bool
  | .amo .. | .cas .. | .famo .. | .red .. | .fred .. | .redb .. | .fredb .. | .barinit .. | .arrive .. | .pub ..
  | .kvapp .. | .kvfree .. | .halt .. | .cpy .. | .cpy2 .. | .gath .. | .scat .. | .cpyp .. | .kvmig .. | .cnote ..
  | .cred .. | .cbc .. | .cag .. | .cbar .. => true
  | .fence _ k _ => k == 4
  | _ => false

/-- The latency class of a fixed-latency operation (10 R243; 12 R276; 14): cycles to its result. -/
def Instr.latency : Instr → Nat
  | .mul .. | .mulh .. => 3
  | .div .. | .rem .. => 24
  | .tmul .. | .timul .. => 5
  | .tfma .. | .tfms .. => 6
  | .tredr .. | .tredc .. | .tred .. | .tscan .. => 7
  | .trcpa .. | .trsqa .. | .texp2 .. | .tlog2 .. | .ttanh .. | .tsigm .. => 8
  | .trcpr .. | .trsqr .. => 6
  | .tdot .. | .tdots .. => 12
  | .twelf .. | .twmrg .. => 9
  | i => if i.codeUnit = some .v then 4 else 1

/-- Cycles from issue to the delivery of a result whose cycle the manual states: every S, VA and VB result, and the
scalars and lines of X and C operations that do not depend on another agent (15 R365, R366, R374; 16 R387, R390, R392). -/
def Instr.stated (i : Instr) : Option Nat :=
  match i with
  | .xrep .. | .xrange .. | .xwait .. | .cpy .. | .cpy2 .. | .gath .. | .scat .. | .cpyp .. | .kvmig .. | .cwait ..
  | .cwaitAll .. | .cred .. | .cbc .. | .cag .. | .cbar .. | .send .. | .recv .. | .lstat .. => some 1
  | .recva .. | .recvm .. => some 4
  | _ => if i.codeUnit = some .s ∨ i.codeUnit = some .v then some i.latency else none

/-- The M-slot operations that stay outstanding after their bundle has issued (13 R300). -/
def Instr.lasting : Instr → Bool
  | .ld .. | .lld .. | .tld .. | .tldg .. | .kvld .. | .amo .. | .cas .. | .famo .. | .red .. | .fred .. | .redb ..
  | .fredb .. | .barinit .. | .arrive .. | .pub .. => true
  | _ => false

/-- The operations that hand a request to the block-table unit (13 R311). -/
def Instr.hands : Instr → Bool
  | .kvapp .. | .kvfree .. => true
  | _ => false

/-- Cycles for which an operation occupies its unit (10 R243): the largest full size of its tiles. -/
def Instr.occ (c : Machine.Ctx) (i : Instr) : Nat :=
  let full (n : BitVec 4) : Nat :=
    let ts := c.rTS n
    ceilDiv ((bitsOf ts 0 6 + 1) * (bitsOf ts 6 6 + 1) * elemSize (bitsOf ts 26 4)) 256
  (i.tileOps.map full).foldl Nat.max 1

/-- A re-issue whose advance a present slot's write of the address register displaces (10 R242). -/
def Instr.noAdvance (a : BitVec 4) : Instr → Instr
  | .lld g d r m f x => .lld g d r (if m = 1 ∧ r = a then 0 else m) f x
  | .lst g d r m f x => .lst g d r (if m = 1 ∧ r = a then 0 else m) f x
  | .tld g t q r m s f => .tld g t q r (if m = 1 ∧ r = a then 0 else m) s f
  | .tst g t q r m s f => .tst g t q r (if m = 1 ∧ r = a then 0 else m) s f
  | .tldg g t q r m s f => .tldg g t q r (if m = 1 ∧ r = a then 0 else m) s f
  | .tsts g t q r m s f => .tsts g t q r (if m = 1 ∧ r = a then 0 else m) s f
  | .send g v c r m s => .send g v c r (if r = a then 0 else m) s
  | .recv g v c r m s => .recv g v c r (if r = a then 0 else m) s
  | .recva g v c r m s => .recva g v c r (if r = a then 0 else m) s
  | .recvm g v c r m s => .recvm g v c r (if r = a then 0 else m) s
  | i => i

/-- The operations that act at their bundle's boundary and so after its other slots. -/
def Instr.atBoundary : Instr → Bool
  | .pin .. | .unpin .. | .yield .. | .halt .. | .trap .. | .uiret .. => true
  | _ => false

end Sys2Proof
end

