-- ==== Sys2Proof/Machine/Scan.lean ====
section
/-! DEFINITION. The code scanner (10 R248): the checks of a 64 KiB page of code, in offset order. -/

namespace Sys2Proof.Machine

/-- Bits that a group's layout reserves (R253). -/
def reservedBits (u : CodeUnit) (w : BitVec 32) : BitVec 32 :=
  match u, slotGroup w with
  | .m, 3 => 0x01000000
  | .m, 4 => 0x01000000
  | .v, 1 => 0x01C00000
  | .v, 3 => 0x01000000
  | .v, 6 => 0x01F80000
  | _, _ => 0

/-- High bits of register fields that name a smaller file (R254; 12 R275). -/
def registerBits : Instr → BitVec 32
  | .cmp .. | .cmpi .. | .amov .. | .dset .. | .psetConst .. | .psetScalar .. | .psetBit .. | .tshapeImm .. | .tshapeReg ..
  | .tvalid .. => 0x00000300
  | .lea .. | .aadd .. | .pnot .. | .pmov .. => 0x0000C300
  | .pand .. | .por .. | .pxor .. => 0x0030C300
  | .agetA .. | .agetD .. => 0x0000C000
  | .lld .. | .lst .. => 0x00000200
  | .tldg .. | .tsts .. => 0x00200000
  | .tcmp .. => 0x00000080
  | .ttr .. => 0x00001000
  | .loop .. | .lexit .. => 0x000001C0
  | .jmp .. => 0x00000100
  | .xpset .. => 0x003FE000
  | _ => 0

/-- Fields that the instruction's own entry holds to one value (R281, R303, R308, R314, R316). -/
def entryBits : Instr → BitVec 32
  | .kvld .. | .kvapp .. | .kvfree .. => 0x0000C000
  | .st .. => 0x00020000
  | .lld .. | .lst .. => 0x000E0000
  | .pref .. => 0x000303F0
  | .clz .. | .ctz .. | .popc .. => 0x01FF0000
  | .famo .. => 0x00200000
  | .fred .. | .fredb .. => 0x00010000
  | _ => 0

/-- The variant field of the groups that give each operation one (R278). -/
def variantBits (u : CodeUnit) (w : BitVec 32) (i : Instr) : BitVec 32 :=
  entryBits i ||| match u, slotGroup w with
  | .s, 0 => 0x01C00000
  | .s, 2 => 0x01C00000
  | .s, 4 => 0x01C00000
  | .m, 3 => 0x00000300
  | .x, 1 => match i with | .rpos .. | .rposStat .. | .rposId .. => 0x01FF0000 | _ => 0
  | _, _ => 0

end Sys2Proof.Machine

namespace Sys2Proof
open Machine

/-- An instruction with the fields that its form does not use set to zero. -/
def Instr.dropUnused : Instr → Instr
  | .ld g d r m f s z x => .ld g d r m f s z (if m = 2 then x else 0)
  | .st g d r m f z x => .st g d r m f z (if m = 2 then x else 0)
  | .lld g d r m f x => .lld g d r m f (if m = 2 then x else 0)
  | .lst g d r m f x => .lst g d r m f (if m = 2 then x else 0)
  | .pref g r m z x => .pref g r m z (if m = 2 then x else 0)
  | .xdot g a b s t c k d => .xdot g a b s (if d = 1 then 0 else t) c k d
  | .xdots g a b s t c k d n => .xdots g a b s (if d = 1 then 0 else t) c k d n
  | .tadd g d a b c r s m => .tadd g d a b (if m = 1 then c else 0) r s m
  | .tsub g d a b c r s m => .tsub g d a b (if m = 1 then c else 0) r s m
  | .tmul g d a b c r s m => .tmul g d a b (if m = 1 then c else 0) r s m
  | .tmin g d a b c r s m => .tmin g d a b (if m = 1 then c else 0) r s m
  | .tmax g d a b c r s m => .tmax g d a b (if m = 1 then c else 0) r s m
  | .tabs g d a c r s m => .tabs g d a (if m = 1 then c else 0) r s m
  | .tneg g d a c r s m => .tneg g d a (if m = 1 then c else 0) r s m
  | .tcpy g d a c m => .tcpy g d a (if m = 1 then c else 0) m
  | .tscale g d a b c r s m => .tscale g d a b (if m = 1 then c else 0) r s m
  | .tcmp g d a b c k m => .tcmp g d a b (if m = 1 then c else 0) k m
  | .tcvt g d a c r s m => .tcvt g d a (if m = 1 then c else 0) r s m
  | .tbcast g d a c r s m => .tbcast g d a (if m = 1 then c else 0) r s m
  | .tiadd g d a b s u k m => .tiadd g d a b s u (if m = 1 then k else 0) m
  | .tisub g d a b s u k m => .tisub g d a b s u (if m = 1 then k else 0) m
  | .timul g d a b s u k m => .timul g d a b s u (if m = 1 then k else 0) m
  | .tand g d a b u k m => .tand g d a b u (if m = 1 then k else 0) m
  | .tor g d a b u k m => .tor g d a b u (if m = 1 then k else 0) m
  | .txor g d a b u k m => .txor g d a b u (if m = 1 then k else 0) m
  | .tshl g d a b u k m => .tshl g d a b u (if m = 1 then k else 0) m
  | .tshr g d a b u k m => .tshr g d a b u (if m = 1 then k else 0) m
  | .tredr g d a k o r s m => .tredr g d a (if m = 1 then k else 0) o r s m
  | .tredc g d a k o r s m => .tredc g d a (if m = 1 then k else 0) o r s m
  | .tred g d a k o r s m => .tred g d a (if m = 1 then k else 0) o r s m
  | .tscan g d a k o r s m => .tscan g d a (if m = 1 then k else 0) o r s m
  | .trcpa g d a c r s m => .trcpa g d a (if m = 1 then c else 0) r s m
  | .trsqa g d a c r s m => .trsqa g d a (if m = 1 then c else 0) r s m
  | .trcpr g d a b c r s m => .trcpr g d a b (if m = 1 then c else 0) r s m
  | .trsqr g d a b c r s m => .trsqr g d a b (if m = 1 then c else 0) r s m
  | .texp2 g d a c r s m => .texp2 g d a (if m = 1 then c else 0) r s m
  | .tlog2 g d a c r s m => .tlog2 g d a (if m = 1 then c else 0) r s m
  | .ttanh g d a c r s m => .ttanh g d a (if m = 1 then c else 0) r s m
  | .tsigm g d a c r s m => .tsigm g d a (if m = 1 then c else 0) r s m
  | .twelf g d a c r s m => .twelf g d a (if m = 1 then c else 0) r s m
  | .twmrg g d a b c r s m => .twmrg g d a b (if m = 1 then c else 0) r s m
  | i => i

/-- A mask named in a tile field with bit 3 set (R254). -/
def Instr.maskHigh : Instr → Bool
  | .tadd _ _ _ _ c _ _ m | .tsub _ _ _ _ c _ _ m | .tmul _ _ _ _ c _ _ m | .tmin _ _ _ _ c _ _ m
  | .tmax _ _ _ _ c _ _ m | .tscale _ _ _ _ c _ _ m | .tcmp _ _ _ _ c _ m | .trcpr _ _ _ _ c _ _ m
  | .trsqr _ _ _ _ c _ _ m | .twmrg _ _ _ _ c _ _ m => m == 1 && bit c 3
  | .tabs _ _ _ c _ _ m | .tneg _ _ _ c _ _ m | .tcpy _ _ _ c m | .tcvt _ _ _ c _ _ m | .tbcast _ _ _ c _ _ m
  | .trcpa _ _ _ c _ _ m | .trsqa _ _ _ c _ _ m | .texp2 _ _ _ c _ _ m | .tlog2 _ _ _ c _ _ m
  | .ttanh _ _ _ c _ _ m | .tsigm _ _ _ c _ _ m | .twelf _ _ _ c _ _ m => m == 1 && bit c 3
  | .tsel _ _ _ _ c => bit c 3
  | _ => false

end Sys2Proof

namespace Sys2Proof.Machine

/-- The check of R248 that one slot word fails, numbered in the table's row order. -/
def wordCheck (u : CodeUnit) (w : BitVec 32) : Option Nat :=
  match rawWord u w with
  | none => some 2
  | some i =>
    let extra := w ^^^ (encode i).getD w
    if extra &&& reservedBits u w ≠ 0 then some 3
    else if extra &&& registerBits i ≠ 0 ∨ i.maskHigh then some 4
    else if !i.dropUnused.wf ∨ extra &&& variantBits u w i ≠ 0 then some 5
    else if extra ≠ 0 ∨ !i.wf then some 6
    else none

/-- The slot words of a bundle: the first that fails, by its place, with its check. `done` holds the
registers that earlier slots write. -/
def slotsCheck (rep : Bool) : Nat → List (Slot × BitVec 32) → List RegName → Option (Nat × Nat)
  | _, [], _ => none
  | k, (sl, w) :: rest, done =>
    match wordCheck sl.unit w with
    | some c => some (k, c)
    | none =>
      match rawWord sl.unit w with
      | none => some (k, 2)
      | some i =>
        let ws := (Instr.writes logical i).filter fun r => !r.discards
        if ws.any fun r => done.contains r then some (k, 7)
        else if rep && i.noRepeat then some (k, 8)
        else slotsCheck rep (k + 1) rest (ws ++ done)

/-- The bundles of a page from one word on: byte offset of the failing word and the check. -/
def scanFrom : Nat → Nat → List (BitVec 32) → Option (Nat × Nat)
  | 0, _, _ => none
  | _ + 1, _, [] => none
  | fuel + 1, off, w :: rest =>
    match decodeHeader w with
    | none => some (off, 0)
    | some h =>
      if fld w 0 4 ≠ 0 then some (off, 1)
      else
        let n := h.present.length
        if rest.length < n then some (off, 0)
        else
          match slotsCheck (h.rep != 0) 1 (h.present.zip rest) [] with
          | some (k, c) => some (off + 4 * k, c)
          | none => scanFrom fuel (off + 4 * (n + 1)) (rest.drop n)

/-- The scan of a page of code. -/
def scanPage (ws : List (BitVec 32)) : Option (Nat × Nat) := scanFrom (ws.length + 1) 0 ws

end Sys2Proof.Machine
end

