-- ==== Sys2Proof/Machine/Xlate.lean ====
section
/-! DEFINITION. Translation and protection (03): the walk, the leaf and map checks, publishable
buffers, the rights, and the caches of translations. -/

namespace Sys2Proof.Machine

/-! ### Faults of an access -/

/-- Why a part of an access fails: a cause with its kind and level (R91), poisoned units met by the walker or
by a resolution (R70, R162), a page that the scanner rejects (R82), or a publish that it has to wait for
(13 R323). -/
inductive XFault where
  | trap (cause kind level : Nat)
  | poison (units : List Nat)
  | scan (frame off check : Nat)
  | waits
deriving DecidableEq, Repr

end Sys2Proof.Machine

namespace Sys2Proof

/-- Cause codes of R422. -/
def cTARGET : Nat := 0x01
def cSTALLCHK : Nat := 0x02
def cUNCONF : Nat := 0x03
def cSHAPE : Nat := 0x04
def cPAGE : Nat := 0x05
def cPROT : Nat := 0x06
def cRATOM : Nat := 0x07
def cALIGN : Nat := 0x08
def cSLOTLATE : Nat := 0x09
def cSLOTMISS : Nat := 0x0A
def cLINKLOST : Nat := 0x0B
def cBOARDFAULT : Nat := 0x0C
def cXREPORT : Nat := 0x0D
def cWATCHDOG : Nat := 0x0E
def cSOFTTRAP : Nat := 0x0F
def cECCUNC : Nat := 0x10
def cRESTARTOVF : Nat := 0x11
def cIDEMP : Nat := 0x12
def cSCAN : Nat := 0x13

def AccKind.code : AccKind → Nat
  | .load => 0 | .store => 1 | .rmw => 2 | .reduction => 3 | .fetch => 4 | .engRead => 5 | .engWrite => 6 | .dispatch => 7

end Sys2Proof

namespace Sys2Proof.Machine

/-! ### Who asks -/

/-- An access as the checks of R80 see it. -/
structure Req where
  die     : Fin 8
  core    : Option (Fin 16)
  asid    : Fin 64
  pkr     : W64
  /-- Firmware in identifier 0, or a read with its rights (17 R412). -/
  fw      : Bool
  acc     : AccKind
  rd      : Bool
  wr      : Bool
  /-- Size of an atomic or reduction, and whether the host takes its operation. -/
  atom    : Option (Nat × Bool)
  /-- An integer reduction that adds. -/
  add     : Bool
  /-- The address is that of a barrier object (07 R173). -/
  barrier : Bool
  extents : List Extent

def Ctx.req (c : Ctx) (id : CtxId) (acc : AccKind) (rd wr : Bool) : Req :=
  ⟨id.die, some id.core, c.asid, c.arch.pkr, false, acc, rd, wr, none, false, false, c.extents⟩

/-- Where a byte of an access lies, with the leaf that translated it. -/
structure Loc where
  space : Space
  addr  : Nat
  leaf  : W64
  /-- PA of the leaf entry whose D is to be set before a write (R73). -/
  setD  : Option Nat
deriving DecidableEq, Repr

/-! ### Fields of a leaf (R71) -/

def lfW (e : W64) : Bool := bit e 1
def lfX (e : W64) : Bool := bit e 2
def lfK (e : W64) : Bool := bit e 3
def lfOrd (e : W64) : Nat := bitsOf e 4 2
def lfD (e : W64) : Bool := bit e 8
def lfPlc (e : W64) : Nat := bitsOf e 9 2
def lfNlog (e : W64) : Nat := bitsOf e 11 2
def lfHome (e : W64) : Nat := bitsOf e 13 3
def lfFrame (e : W64) : Nat := bitsOf e 16 36
def lfKey (e : W64) : Nat := bitsOf e 52 5
def lfRap (e : W64) : Bool := bit e 57
def lfPbuf (e : W64) : Bool := bit e 58

/-- Canonical virtual addresses (01 R31). -/
def canonical (va : W64) : Bool := bitsOf va 55 9 == (if bit va 54 then 511 else 0)

/-- The bad-entry conditions of R72. -/
def badLeaf (e : W64) (big : Bool) : Bool :=
  let frame := lfFrame e * 65536
  bitsOf e 59 4 != 0 || lfOrd e == 3 || lfPlc e == 3 ||
  (lfPlc e != 0 && lfHome e % 2 ^ lfNlog e != 0) ||
  (big && lfFrame e % 2 ^ 13 != 0) ||
  (lfPbuf e && (big || lfPlc e != 0 || lfX e)) ||
  (lfPbuf e && bitsOf e 47 5 != 0) ||
  (lfX e && lfW e) ||
  (lfX e && !lfPbuf e &&
    !(match region frame with | .spad => true | .hbm => true | .window => true | _ => false))

/-- The map checks of R17, R20, R22, R24 and the window limit of R77: the fault kind, where one fails. A peer frame
of a member above 319 under a leaf with PLC ≠ 00 reports "frame outside map" first: the rules do not order R24
against the placement (log 82). -/
def mapFault (e : W64) (big : Bool) : Option Nat :=
  if lfPbuf e then none
  else
    let pa := lfFrame e * 65536
    let r := region pa
    let size := if big then 0x20000000 else 0x10000
    if r = .hole then some 4
    else if r = .peer ∧ (pa - peerBase) / 2 ^ 42 > 319 then some 4
    else if lfPlc e = 0 then (if r = .window then some 5 else none)
    else if r ≠ .window then some 5
    else if pa - windowBase + size > 2 ^ lfNlog e * 0x1000000000 then some 5
    else none

/-- A leaf found by a walk: its entry, its value, and whether it maps 512 MiB. -/
structure Walked where
  entry : Nat
  leaf  : W64
  big   : Bool
  /-- The table entries passed on the way. -/
  tables : List TableEntry
deriving DecidableEq, Repr

/-- The index of a virtual address at a level (R68). -/
def vaIndex (va : W64) (lvl : Nat) : Nat := bitsOf va (42 - 13 * (lvl - 1)) 13

/-- The bits of a virtual address above the reach of an entry of a level. -/
def vaTop (va : W64) (lvl : Nat) : Nat := bitsOf va (42 - 13 * (lvl - 1)) (13 * lvl)

/-- Levels 1 to 3 of the walk of R70, from the table at `t`. -/
def walkFrom (s : State) (asid : Fin 64) (va : W64) (seen : List TableEntry) : Nat → Nat → Nat → Except XFault Walked
  | 0, _, _ => .error (.trap cPAGE 3 3)
  | fuel + 1, lvl, t =>
    let a := t + 8 * vaIndex va lvl
    if s.poisoned a 8 then .error (.poison (s.badUnits a 8))
    else
      let e := s.dev64 a
      if !bit e 0 then .error (.trap cPAGE 2 lvl)
      else if bit e 63 then
        if lvl = 3 ∨ bitsOf e 1 15 ≠ 0 ∨ bitsOf e 52 11 ≠ 0 ∨ !spadOrHbm (lfFrame e * 65536) then .error (.trap cPAGE 3 lvl)
        else walkFrom s asid va (⟨asid, lvl, vaTop va lvl, lfFrame e * 65536⟩ :: seen) fuel (lvl + 1) (lfFrame e * 65536)
      else if lvl = 1 then .error (.trap cPAGE 3 lvl)
      else
        let big := decide (lvl = 2)
        if badLeaf e big then .error (.trap cPAGE 3 lvl)
        else
          match mapFault e big with
          | some k => .error (.trap cPAGE k lvl)
          | none => .ok ⟨a, e, big, seen⟩

/-- Level and table with which a walk goes on from the walk cache: past a cached level-2 or level-1 entry (R88). -/
def Die.walkStart (x : Die) (asid : Fin 64) (va : W64) (root : Nat) : Nat × Nat :=
  let at_ (lvl : Nat) : Option TableEntry := x.walks.find? fun e => e.asid == asid && e.level == lvl && e.top == vaTop va lvl
  match at_ 2, at_ 1 with
  | some e, _ => (3, e.table)
  | none, some e => (2, e.table)
  | none, none => (1, root)

/-- The walk of R70 with the root checks of R33. -/
def walk (s : State) (die : Fin 8) (asid : Fin 64) (va : W64) : Except XFault Walked :=
  if !canonical va then .error (.trap cPAGE 0 0)
  else
    let root := vget (s.die die).asroot asid
    if !bit root 0 then .error (.trap cPAGE 1 0)
    else if !spadOrHbm (lfFrame root * 65536) then .error (.trap cPAGE 4 1)
    else
      let x := (s.die die).walkStart asid va (lfFrame root * 65536)
      walkFrom s asid va [] 3 x.1 x.2

/-! ### Caches of translations (R87, R88) -/

/-- Number of the 64 KiB page of a virtual address, and of the 512 MiB page that holds it. -/
def vpage (va : W64) : Nat := va.toNat / 65536

def TlbEntry.covers (e : TlbEntry) (asid : Fin 64) (p : Nat) : Bool :=
  e.asid == asid && (if e.big then e.page / 8192 == p / 8192 else e.page == p)

/-- A new entry replaces the one for its page and, in a full table, the oldest (log 14). -/
def tlbInsert (cap : Nat) (e : TlbEntry) (l : List TlbEntry) : List TlbEntry :=
  e :: (l.filter fun x => !(x.asid == e.asid && x.page == e.page && x.big == e.big)).take (cap - 1)

/-- The set of the L2 TLB that takes an entry: its page number by its own size, modulo the 1,024 sets (log 14). -/
def TlbEntry.set (e : TlbEntry) : Nat := (if e.big then e.page / 8192 else e.page) % 1024

/-- A new entry of the L2 TLB replaces the one for its page and, in a full set of 8 ways, the oldest (log 14). -/
def tlbInsertSet (e : TlbEntry) (l : List TlbEntry) : List TlbEntry :=
  let l := l.filter fun x => !(x.asid == e.asid && x.page == e.page && x.big == e.big)
  match (l.filter fun x => x.set == e.set)[7]? with
  | some x => e :: l.erase x
  | none => e :: l

/-- The walk cache of 64 entries after a walk; the oldest give way (log 14). -/
def cacheTables (ts l : List TableEntry) : List TableEntry := (ts ++ l.filter fun x => !ts.contains x).take 64

/-- The leaf an extent gives a page: its frame counts on from the first page's (R85). -/
def Extent.leafAt (x : Extent) (p : Nat) : W64 := setField x.leaf 16 36 (lfFrame x.leaf + (p - x.page))

def State.cachedLeaf (s : State) (r : Req) (va : W64) : Option (W64 × Bool) :=
  let p := vpage va
  match r.extents.find? fun x => decide (x.page ≤ p) && decide (p < x.page + x.pages) with
  | some x => some (x.leafAt p, false)
  | none =>
    let l1 := match r.core with | some c => (s.core r.die c).l1tlb | none => []
    match l1.find? fun e => e.covers r.asid p with
    | some e => some (e.leaf, e.big)
    | none => ((s.die r.die).l2tlb.find? fun e => e.covers r.asid p).map fun e => (e.leaf, e.big)

/-- A leaf that the L2 TLB holds becomes cached in the core's L1 TLB (R88). -/
def State.fillL1 (s : State) (r : Req) (va : W64) : State :=
  let p := vpage va
  if r.extents.any fun x => decide (x.page ≤ p) && decide (p < x.page + x.pages) then s
  else match r.core with
    | none => s
    | some c =>
      if (s.core r.die c).l1tlb.any fun e => e.covers r.asid p then s
      else match (s.die r.die).l2tlb.find? fun e => e.covers r.asid p with
        | some e => s.updCore r.die c fun k => { k with l1tlb := tlbInsert 384 e k.l1tlb }
        | none => s


/-- A leaf becomes cached in both levels (R88). -/
def State.install (s : State) (r : Req) (va : W64) (leaf : W64) (big : Bool) : State :=
  let page := if big then vpage va / 8192 * 8192 else vpage va
  let e : TlbEntry := ⟨r.asid, page, big, leaf⟩
  let s := s.updDie r.die fun d => { d with l2tlb := tlbInsertSet e d.l2tlb }
  match r.core with
  | some c => s.updCore r.die c fun k => { k with l1tlb := tlbInsert 384 e k.l1tlb }
  | none => s

/-- Whether the die's caches hold the leaf of a page. -/
def State.installed (s : State) (r : Req) (va : W64) : Bool :=
  (s.die r.die).l2tlb.any fun e => e.covers r.asid (vpage va)

/-! ### The scanner's reading of a page (10 R248, 03 R82) -/

/-- Physical address of byte k of a 64 KiB part, through the leaf's placement. -/
def placed (e : W64) (pa : Nat) : Nat := if lfPlc e = 0 then pa else interleave pa (lfPlc e) (lfNlog e) (lfHome e)

/-- The 64 KiB of a frame, in runs of 4 KiB, each through the placement. -/
def State.frameBytes (s : State) (e : W64) (frame : Nat) : List Byte :=
  (List.range 16).flatMap fun k => s.devRead (placed e (frame * 65536 + 4096 * k)) 4096

/-- The poisoned units of a frame, through the placement. -/
def State.frameBad (s : State) (e : W64) (frame : Nat) : List Nat :=
  if s.poison.isEmpty then []
  else (List.range 16).flatMap fun k => s.badUnits (placed e (frame * 65536 + 4096 * k)) 4096

/-- Scan of every 64 KiB part of a leaf: the frame, offset and check of the first that fails. A part with a poisoned unit
is not read as ordinary data: it is a poisoned walker read (log 101). -/
def State.scanLeaf (s : State) (e : W64) (big : Bool) : Option XFault :=
  (List.range (if big then 8192 else 1)).findSome? fun k =>
    match s.frameBad e (lfFrame e + k) with
    | [] => (scanPage (wordsOf (s.frameBytes e (lfFrame e + k)))).map fun x => .scan (lfFrame e + k) x.1 x.2
    | us => some (.poison us)

/-! ### Walk and install -/

/-- A leaf that the core's L1 TLB holds becomes cached in the L2 TLB too, as `pref` has it (13 R305); an X leaf is
scanned again at that install (R82). Answers why nothing is installed, if so. -/
def State.fillL2 (s : State) (r : Req) (va : W64) : State × Option XFault :=
  let p := vpage va
  if (r.extents.any fun x => decide (x.page ≤ p) && decide (p < x.page + x.pages)) ||
      (s.die r.die).l2tlb.any fun e => e.covers r.asid p then (s, none)
  else match r.core.bind fun c => (s.core r.die c).l1tlb.find? fun e => e.covers r.asid p with
    | some e =>
      match (if lfX e.leaf then s.scanLeaf e.leaf e.big else none) with
      | some f => (s, some f)
      | none => (s.updDie r.die fun d => { d with l2tlb := tlbInsertSet e d.l2tlb }, none)
    | none => (s, none)

/-- The leaf of a page by a walk that sets A and installs it; a leaf with X = 1 is installed only when the scanner
accepts its page. -/
def State.walkLeaf (s : State) (r : Req) (va : W64) : State × Except XFault (W64 × Bool × Option Nat) :=
  match walk s r.die r.asid va with
  | .error f => (s, .error f)
  | .ok w =>
    match (if lfX w.leaf then s.scanLeaf w.leaf w.big else none) with
    | some f => (s, .error f)
    | none =>
      let leaf := w.leaf ||| 0x80#64
      let s := if bit w.leaf 7 then s else s.devWrite w.entry (leBytes 8 leaf.toNat)
      let s := s.updDie r.die fun d => { d with walks := cacheTables w.tables d.walks }
      (s.install r va leaf w.big, .ok (leaf, w.big, if r.wr && !lfD leaf then some w.entry else none))

/-- The leaf of an access: from the caches, or by a walk. -/
def State.findLeaf (s : State) (r : Req) (va : W64) : State × Except XFault (W64 × Bool × Option Nat) :=
  if !canonical va then (s, .error (.trap cPAGE 0 0))
  else
    match s.cachedLeaf r va with
    | some (l, b) => (s.fillL1 r va, .ok (l, b, none))
    | none => s.walkLeaf r va

/-- A failed check with the level of its walk; 0 where the leaf came from a cache (R91). -/
def XFault.atLevel (f : XFault) (n : Nat) : XFault :=
  match f with
  | .trap c k _ => .trap c k n
  | f => f

/-! ### Publishable buffers (07 R161, R162) -/

/-- Fields of a descriptor. -/
def pbV (d : Nat) : Bool := d % 2 == 1
def pbSel (d : Nat) : Nat := d / 2 % 2
def pbOwn (d : Nat) : Nat := d / 4 % 4
def pbGen (d : Nat) : Nat := d / 2 ^ 32 % 2 ^ 32
def pbMode (d s : Nat) : Nat := d / 2 ^ (64 + 128 * s) % 2
def pbBase (d s : Nat) : Nat := d / 2 ^ (80 + 128 * s) % 2 ^ 36
def pbLen (d s : Nat) : Nat := d / 2 ^ (128 + 128 * s) % 2 ^ 17

def Die.npb (x : Die) : Nat := Nat.min 4096 (bitsOf x.pbcfg 4 13)
def Die.pbEn (x : Die) : Bool := bit x.pbcfg 0
def Die.pbAddr (x : Die) (idx : Nat) : Nat := bitsOf x.pbtab 6 46 * 64 + 64 * idx

def State.pbDesc (s : State) (d : Fin 8) (idx : Nat) : Nat := leNat (s.devRead ((s.die d).pbAddr idx) 64)

/-- The frame of a page of a buffer through one of its sets (R162); `sel` none reads the active set. A frame list is
read where its address lies, be that no place for one (log 92). -/
def State.pbResolve (s : State) (hd : Fin 8) (idx pg : Nat) (sel : Option Nat) : Except XFault Nat :=
  let x := s.die hd
  if !x.pbEn || idx ≥ x.npb then .error (.trap cPAGE 3 3)
  else if s.poisoned (x.pbAddr idx) 64 then .error (.poison (s.badUnits (x.pbAddr idx) 64))
  else
    let d := s.pbDesc hd idx
    if !pbV d || pbOwn d == 3 || d / 16 % 2 ^ 28 != 0 then .error (.trap cPAGE 3 3)
    else
      let t := sel.getD (pbSel d)
      if pg ≥ pbLen d t then .error (.trap cPAGE 3 3)
      else
        let la := pbBase d t * 65536 + 8 * pg
        if pbMode d t = 1 ∧ s.poisoned la 8 then .error (.poison (s.badUnits la 8))
        else
          let w := s.dev64 la
          if pbMode d t = 1 ∧ (bitsOf w 0 16 ≠ 0 ∨ bitsOf w 52 12 ≠ 0) then .error (.trap cPAGE 3 3)
          else
            let f := (if pbMode d t = 0 then pbBase d t + pg else lfFrame w) * 65536
            if isDev f then .ok f else .error (.trap cPAGE 4 3)

/-- The buffer a PBUF leaf names: die, index, page (R78). -/
def pbRef (e : W64) : Fin 8 × Nat × Nat := (Fin.ofNat 8 (bitsOf e 16 3), bitsOf e 19 12, bitsOf e 31 16)

/-- Where the byte at a virtual address lies through a leaf. `sel` is the set of a latched buffer. -/
def State.locate (s : State) (leaf : W64) (big : Bool) (va : W64) (setD : Option Nat) (sel : Option Nat) : Except XFault Loc :=
  if lfPbuf leaf then
    let (hd, idx, pg) := pbRef leaf
    match s.pbResolve hd idx pg sel with
    | .error f => .error f
    | .ok f => .ok ⟨.dev, f + va.toNat % 65536, leaf, setD⟩
  else
    let pa := lfFrame leaf * 65536 + va.toNat % (if big then 0x20000000 else 0x10000)
    match region pa with
    | .ctrl => .ok ⟨.ctrl, pa, leaf, setD⟩
    | .host => .ok ⟨.host, pa, leaf, setD⟩
    | .peer => .ok ⟨.peer (BitVec.ofNat 9 ((pa - peerBase) / 2 ^ 42)), (pa - peerBase) % 2 ^ 42, leaf, setD⟩
    | .window => .ok ⟨.dev, placed leaf pa, leaf, setD⟩
    | _ => .ok ⟨.dev, pa, leaf, setD⟩

/-! ### Rights (R80 steps 4 to 9, R81, R83) -/

def denied (pkr : W64) (key : Nat) (write : Bool) : Bool := bit pkr (2 * key + b2n write)

/-- The first of steps 4 to 9 that fails, for n bytes at a place. Step 7 gives no order to an access whose key is denied
both ways: the read is told first (log 102). A reduction that the host does not take raises RATOM,
and a 4-byte integer add ALIGN (13 R316, log 80); of the returning atomics a 4-byte one raises ALIGN (13 R315). -/
def rightsFault (r : Req) (l : Loc) (n : Nat) : Option XFault :=
  let e := l.leaf
  let isPeer := match l.space with | .peer _ => true | _ => false
  if (lfK e && !r.fw) || (l.space == .ctrl && !lfK e) then some (.trap cPROT 7 0)
  else if r.acc == .fetch && !lfX e then some (.trap cPROT 8 0)
  else if r.wr && !lfW e then some (.trap cPROT 6 0)
  else if r.rd && r.acc != .fetch && !r.fw && denied r.pkr (lfKey e) false then some (.trap cPROT 9 0)
  else if r.wr && !r.fw && denied r.pkr (lfKey e) true then some (.trap cPROT 10 0)
  else match r.atom with
    | some (size, hostOk) =>
      if isPeer && !lfRap e then some (.trap cRATOM 12 0)
      else if r.acc == .reduction && l.space == .host && !hostOk && !(r.add && size == 4) then some (.trap cRATOM 12 0)
      else if l.space == .host && size != 8 then some (.trap cALIGN 13 0)
      else if l.space == .host && !hostOk then some (.trap cRATOM 12 0)
      else if l.space == .ctrl then some (.trap cALIGN 13 0)
      else none
    | none =>
      if l.space == .ctrl && !((n == 4 || n == 8) && l.addr % n == 0) then some (.trap cALIGN 13 0) else none

/-- The checks of a part once its leaf is known: the place, the barrier's and steps 4 to 9, a failure with the level of
the walk. -/
def State.checkLeaf (s : State) (r : Req) (va : W64) (n : Nat) (sel : Option Nat) (leaf : W64) (big : Bool)
    (setD : Option Nat) (level : Nat) : Except XFault Loc :=
  match s.locate leaf big va setD sel with
  | .error f => .error f
  | .ok l =>
    if r.barrier && !(l.space == .dev && decide (region l.addr = .spad) && l.addr % 64 == 0) then
      .error (.trap cALIGN 13 level)
    else
      match rightsFault r l n with
      | some f => .error (f.atLevel level)
      | none => .ok l

/-- The checks of a part whose page is walked. -/
def State.checkWalked (s : State) (r : Req) (va : W64) (n : Nat) (sel : Option Nat) : State × Except XFault Loc :=
  match s.walkLeaf r va with
  | (s, .error f) => (s, .error f)
  | (s, .ok (leaf, big, setD)) => (s, s.checkLeaf r va n sel leaf big setD (if big then 2 else 3))

/-- Every check of R80 for one part of an access: n bytes of one page at a virtual address. A write through a cached
leaf with D = 0 that passes its checks walks again, for D is to be set (R73). -/
def State.checkPart (s : State) (r : Req) (va : W64) (n : Nat) (sel : Option Nat) : State × Except XFault Loc :=
  if !canonical va then (s, .error (.trap cPAGE 0 0))
  else if (match r.atom with | some (size, _) => decide (va.toNat % size ≠ 0) | none => false) then
    (s, .error (.trap cALIGN 13 0))
  else
    match s.cachedLeaf r va with
    | none => s.checkWalked r va n sel
    | some (leaf, big) =>
      let t := s.fillL1 r va
      match t.checkLeaf r va n sel leaf big none 0 with
      | .error f => (t, .error f)
      | .ok l => if r.wr && !lfD leaf then s.checkWalked r va n sel else (t, .ok l)

/-! ### Whole accesses (R74, R92) -/

/-- A run of virtual bytes of an access. -/
structure VRun where
  va : W64
  n  : Nat
deriving DecidableEq, Repr

/-- A run cut at every 4 KiB boundary, so that each part lies in one page and one granule. -/
def cutRun : Nat → W64 → Nat → List VRun
  | 0, _, _ => []
  | fuel + 1, va, n =>
    if n = 0 then []
    else
      let k := Nat.min n (4096 - va.toNat % 4096)
      ⟨va, k⟩ :: cutRun fuel (va + BitVec.ofNat 64 k) (n - k)

def VRun.parts (v : VRun) : List VRun := cutRun (v.n / 4096 + 2) v.va v.n

/-- A checked part. -/
structure Part where
  va  : W64
  n   : Nat
  loc : Loc
deriving DecidableEq, Repr

/-- The fault of a part, with its address. -/
structure PartFault where
  va    : W64
  fault : XFault
deriving DecidableEq, Repr

def lowerFault (a : Option PartFault) (b : PartFault) : PartFault :=
  match a with
  | none => b
  | some x => if b.va.toNat < x.va.toNat then b else x

/-- Every part checked before any is performed; the fault of the lowest-addressed faulting part (R92). -/
def State.checkAll (r : Req) (sel : Option Nat) : List VRun → State → List Part → Option PartFault → State × Except PartFault (List Part)
  | [], s, acc, none => (s, .ok acc.reverse)
  | [], s, _, some f => (s, .error f)
  | v :: vs, s, acc, bad =>
    match s.checkPart r v.va v.n sel with
    | (s, .ok l) => State.checkAll r sel vs s (⟨v.va, v.n, l⟩ :: acc) bad
    | (s, .error f) => State.checkAll r sel vs s acc (some (lowerFault bad ⟨v.va, f⟩))

def State.checkAccess (s : State) (r : Req) (vs : List VRun) : State × Except PartFault (List Part) :=
  State.checkAll r none (vs.flatMap VRun.parts) s [] none

/-- D is set before the first write through a leaf (R73), in its entry and in the caches. -/
def State.setDirtyLeaf (s : State) (r : Req) (p : Part) : State :=
  match p.loc.setD with
  | none => s
  | some entry =>
    let leaf := s.dev64 entry ||| 0x180#64
    let s := s.devWrite entry (leBytes 8 leaf.toNat)
    let up (e : TlbEntry) : TlbEntry := if e.covers r.asid (vpage p.va) then { e with leaf := leaf } else e
    let s := s.updDie r.die fun d => { d with l2tlb := d.l2tlb.map up }
    match r.core with
    | some c => s.updCore r.die c fun k => { k with l1tlb := k.l1tlb.map up }
    | none => s

def State.setDirtyLeaves (s : State) (r : Req) (ps : List Part) : State :=
  if r.wr then ps.foldl (fun s p => s.setDirtyLeaf r p) s else s

end Sys2Proof.Machine
end

