-- ==== Sys2Proof/Machine/Image.lean ====
section
/-! DEFINITION. The context image of 18 R436 to R440: its coding, its writing and its reading. -/

namespace Sys2Proof.Machine

/-! ### Coded data (R439) -/

/-- How many leading words of a list equal w, at most k. -/
def sameRun (w : W64) : Nat → List W64 → Nat
  | 0, _ => 0
  | _, [] => 0
  | k + 1, x :: xs => if x = w then sameRun w k xs + 1 else 0

/-- Words that a literal run takes after its first, at most k: it ends before two equal words. -/
def literalRun : Nat → List W64 → Nat
  | 0, _ => 0
  | _, [] => 0
  | _, [_] => 1
  | k + 1, x :: y :: rest => if x = y then 0 else literalRun k (y :: rest) + 1

def wordBytes (ws : List W64) : List Byte := ws.flatMap fun w => leBytes 8 w.toNat

/-- The encoder of R439; `fuel` is at least the number of words. -/
def encodeRuns : Nat → List W64 → List Byte
  | 0, _ => []
  | _, [] => []
  | fuel + 1, w :: rest =>
    let r := 1 + sameRun w 63 rest
    if r ≥ 2 then
      if w = 0 then BitVec.ofNat 8 (0x40 + r - 1) :: encodeRuns fuel (rest.drop (r - 1))
      else BitVec.ofNat 8 (0x80 + r - 1) :: (leBytes 8 w.toNat ++ encodeRuns fuel (rest.drop (r - 1)))
    else
      let n := literalRun 63 rest
      BitVec.ofNat 8 n :: (wordBytes (w :: rest.take n) ++ encodeRuns fuel (rest.drop n))

def encodeWords (ws : List W64) : List Byte := encodeRuns ws.length ws

/-- The words that coded data stands for. -/
def decodeRuns : Nat → List Byte → List W64
  | 0, _ => []
  | _, [] => []
  | fuel + 1, b :: rest =>
    let n := b.toNat % 64 + 1
    match b.toNat / 64 with
    | 0 => dwords n (rest.take (8 * n)) ++ decodeRuns fuel (rest.drop (8 * n))
    | 1 => List.replicate n 0 ++ decodeRuns fuel rest
    | _ => List.replicate n (w64 (rest.take 8)) ++ decodeRuns fuel (rest.drop 8)

def decodeWords (bs : List Byte) : List W64 := decodeRuns bs.length bs

/-- A register of w bits from words, lowest first. -/
def ofWords (w : Nat) (ws : List W64) : BitVec w := BitVec.ofNat w (leNat (wordBytes ws))

def toWords {w : Nat} (x : BitVec w) : List W64 := dwords (w / 64) (bytesOf x (w / 8))

/-! ### Byte masks of the latched writes (R440) -/

def packBits : List Bool → Nat
  | [] => 0
  | b :: bs => b2n b + 2 * packBits bs

/-- One bit per byte of a mask that selects whole bytes. -/
def byteMask {w : Nat} (m : BitVec w) : Nat := packBits ((List.range (w / 8)).map fun k => m.getLsbD (8 * k))

/-- The bits of the bytes that a byte mask selects. -/
def spreadMask (w : Nat) (m : Nat) : BitVec w :=
  BitVec.ofNat w (leNat ((List.range (w / 8)).map fun k => if m / 2 ^ k % 2 = 1 then 0xFF#8 else 0#8))

/-! ### Records (R440) -/

structure RecHead where
  kind  : Nat
  num   : Nat
  file  : Nat
  delay : Nat
  arg   : Nat
deriving DecidableEq, Repr

/-- A record: its header with the length of its coded data, and the data padded to 16 bytes. -/
def recordBytes (h : RecHead) (ws : List W64) : List Byte :=
  let code := encodeWords ws
  let pad := (16 - code.length % 16) % 16
  leBytes 16 (h.kind + h.num * 2 ^ 8 + h.file * 2 ^ 16 + h.delay % 2 ^ 12 * 2 ^ 20 + h.arg * 2 ^ 32 + code.length * 2 ^ 64) ++
    code ++ List.replicate pad 0

/-- A shadow latch of a result due k cycles after the boundary; none for a file that is never latched. -/
def latchRecord (k : Nat) (x : Delivery) : Option (List Byte) :=
  let fl := x.flags.toNat
  match x.w with
  | .s n v => some (recordBytes ⟨3, n.toNat, 0, k, fl⟩ [v])
  | .hs n v => some (recordBytes ⟨3, n.toNat, 0, k, fl + 32⟩ [v])
  | .t n d m => some (recordBytes ⟨3, n.toNat, 4, k, fl⟩ (toWords d ++ dwords 64 (leBytes 512 (byteMask m))))
  | .v n d m => some (recordBytes ⟨3, n.toNat, 5, k, fl⟩ (toWords d ++ dwords 4 (leBytes 32 (byteMask m))))
  | .k n d m => some (recordBytes ⟨3, n.toNat, 6, k, fl⟩ (toWords d ++ toWords m))
  | _ => none

/-- The frame that a page of a virtual range reaches, when it is scratchpad (R440). -/
def State.spadFrame (s : State) (d : Fin 8) (asid : Fin 64) (va : W64) : Option Nat :=
  match walk s d asid va with
  | .error _ => none
  | .ok w =>
    match s.locate w.leaf w.big (va &&& ~~~0xFFFF#64) none none with
    | .ok l => if l.space == .dev && decide (l.addr < 0x0000200000000) then some l.addr else none
    | .error _ => none

/-- The pages of a declared range. -/
def OpRange.pages (x : OpRange) : List W64 :=
  (List.range ((x.va.toNat % 65536 + x.len + 65535) / 65536)).map fun k => (x.va &&& ~~~0xFFFF#64) + BitVec.ofNat 64 (65536 * k)

/-- The dirty regions of the slice that a declared writable range overlaps (R440). -/
def State.saveRegions (s : State) (id : CtxId) : List Nat :=
  let c := s.ctxOf id
  let dirty := (s.core id.die id.core).dirty
  if dirty = 0 then []
  else
    let first := id.die.val * 2 ^ 18 + id.core.val * 2 ^ 14
    let touched := (c.ranges.filter fun x => x.wr && decide (x.len ≠ 0)).flatMap fun x =>
      x.pages.flatMap fun p =>
        match s.spadFrame id.die c.asid p with
        | none => []
        | some f => (List.range 16).filterMap fun k =>
            let lo := p.toNat + 4096 * k
            if lo + 4096 ≤ x.va.toNat ∨ x.va.toNat + x.len ≤ lo then none else some (f / 4096 + k)
    (List.range (2 ^ 14)).filter fun r => dirty.getLsbD r && touched.contains (first + r)

/-- PA of a region of a slice. -/
def regionPa (d : Fin 8) (c : Fin 16) (r : Nat) : Nat := d.val * 0x40000000 + c.val * 0x4000000 + 4096 * r

/-- Word of a link record, as `lstat` shows it (R392; log 24). -/
def LinkRec.word (x : LinkRec) : W64 := BitVec.ofNat 64 (x.seq.toNat + x.member.toNat * 0x10000 + 2 ^ 63)

/-- The record of a block-table request, and that of the g0 of a wait (R440); ARG bit 6 tells what a notice handler
has put aside (log 23). -/
def KvWait.record (q : KvWait) (aside : Bool) : List Byte :=
  leBytes 16 (3 + q.reg.toNat * 2 ^ 8 + (0x80000000 + q.num.toNat * 2 ^ 16 + 32 * b2n q.bank + 64 * b2n aside) * 2 ^ 32)
def Wait.record (w : Wait) (aside : Bool) : List Byte :=
  recordBytes ⟨3, w.reg.toNat, 0, 0, 0x40000000 + 32 * b2n w.bank + 64 * b2n aside⟩ [w.g0.setWidth 64]

/-- Every record but END, in the order of their kinds. -/
def State.imageRecords (s : State) (id : CtxId) (b : Nat) : List (List Byte) :=
  let c := s.ctxOf id
  ((fins 32).filterMap fun n => if vget c.lines n = 0 then none else some (recordBytes ⟨1, n, 0, 0, 0⟩ (toWords (vget c.lines n)))) ++
  ((fins 8).filterMap fun n => if vget c.masks n = 0 then none else some (recordBytes ⟨2, n, 0, 0, 0⟩ (toWords (vget c.masks n)))) ++
  (c.inflight.filterMap fun x => latchRecord (x.due - b) x) ++
  (c.latches.filterMap fun x => latchRecord x.due x) ++
  (c.keepKv.toList.map fun q => q.record true) ++ (c.kvReq.toList.map fun q => q.record false) ++
  (c.keepWait.toList.map fun w => w.record true) ++ (c.wait.toList.map fun w => w.record false) ++
  ((s.saveRegions id).map fun r =>
    recordBytes ⟨4, 0, 0, 0, r⟩ (dwords 512 (s.devRead (regionPa id.die id.core r) 4096))) ++
  (c.links.map fun x => recordBytes ⟨5, x.num, 0, 0, 0⟩ [x.word])

/-- The END record. -/
def endRecord : List Byte := leBytes 16 15

/-! ### The fixed part (R437, R438) -/

/-- The repeat field of the header of a context's next bundle: its issues, minus 1, before it has begun; 63 where
the word cannot be fetched as a header (log 23). -/
def State.repAt (s : State) (id : CtxId) : Nat :=
  let c := s.ctxOf id
  match (s.checkPart (c.req id .fetch true false) c.arch.pc 4 none).2 with
  | .error _ => 63
  | .ok l =>
    match (wordsOf (s.devRead l.addr 4)).head?.bind decodeHeader with
    | some h => h.rep.toNat
    | none => 63

/-- The resume point in UIRET layout: the issues of the bundle still due, minus 1 (R180). -/
def State.resumePoint (s : State) (id : CtxId) : W64 :=
  let a := (s.ctxOf id).arch
  setField (setField 0 0 56 (a.pc.toNat % 2 ^ 56 / 4 * 4)) 56 6 (match a.due with | some n => n.toNat | none => s.repAt id)

/-- The VA that a UIRET word names. -/
def uiretVa (w : W64) : W64 := BitVec.ofInt 64 (signedNat (bitsOf w 0 56 / 4 * 4) 55)

def stickyWord (x : Option (BitVec 32)) : Nat := match x with | none => 0 | some w => w.toNat + 2 ^ 32

def HoldRec.bytes (h : HoldRec) : List Byte := leBytes 16 (h.slot + 0x40 * b2n h.released + 0x80 + 2 ^ 64 * h.bsid.toNat)

/-- The number of a context in its die, 4c + x. -/
def CtxId.bitNo (id : CtxId) : Nat := 4 * id.core.val + id.ctx.val

/-- The boarding holds of a context (05 R126). -/
def State.holdsOf (s : State) (id : CtxId) : List HoldRec :=
  (fins 8).filterMap fun k =>
    let b := vget (s.die id.die).slots k
    if b.hold.getLsbD (CtxId.bitNo id) then some ⟨k, false, b.bsid⟩ else none

def Notice.bytes (n : Notice) : List Byte :=
  leBytes 16 (n.handle.toNat + 2 ^ 16 * n.tag.toNat + 2 ^ 32 * b2n n.fired.isNone + 2 ^ 33 * b2n n.fired.isSome +
    2 ^ 34 * (match n.fired with | some st => st.toNat | none => 0))

/-- A notice in its place among pending ones, behind those of its cycle. -/
def Notice.place : List Notice → Notice → List Notice
  | [], n => [n]
  | m :: ms, n => if n.at_ < m.at_ then n :: m :: ms else m :: Notice.place ms n

/-- The notices fired and not delivered, in the order of their cycles and, within one, as they were armed (R178). -/
def Ctx.pendingNotices (c : Ctx) : List Notice := (c.notices.filter fun n => n.fired.isSome).foldl Notice.place []

/-- Bytes padded with zeros to a length. -/
def padTo (n : Nat) (bs : List Byte) : List Byte := (bs ++ List.replicate (n - bs.length) 0).take n

/-- The pending class A causes of the resume block. -/
def PendingA.word (p : PendingA) : Nat :=
  b2n p.linkLost + 2 * b2n (p.faults.any fun f => !f.engine) + 4 * b2n (p.faults.any PendFault.engine) +
    8 * b2n p.boardFault + 16 * b2n p.xreport

/-- FVA and FINFO of the earliest pending refusal or engine fault. -/
def PendingA.fva (p : PendingA) : W64 := match p.faults with | f :: _ => f.trap.fva | [] => 0
def PendingA.finfo (p : PendingA) : W64 := match p.faults with | f :: _ => f.trap.finfo | [] => 0

/-- Bytes 0x40 to 0x9FF of an image. -/
def State.imageRegs (s : State) (id : CtxId) (holds : List HoldRec) : List Byte :=
  let c := s.ctxOf id
  let a := c.arch
  (List.range 128).flatMap (fun k => leBytes 8 (c.csr id k).toNat) ++
  (fins 64).flatMap (fun n => leBytes 8 (vget a.s n).toNat) ++
  padTo 128 ((fins 16).tail.flatMap fun n => leBytes 8 (vget a.hs n).toNat) ++
  (fins 16).flatMap (fun n => leBytes 8 (vget a.a n).toNat) ++
  (fins 16).flatMap (fun n => leBytes 4 (vget a.d n).toNat) ++
  leBytes 8 (a.p.toNat + 2 ^ 16 * (a.hp.toNat / 2)) ++
  leBytes 8 (stickyWord a.stickyM) ++
  leBytes 8 (stickyWord a.stickyC) ++
  leBytes 8 (s.resumePoint id).toNat ++
  leBytes 8 (b2n c.pin + 2 * b2n (c.pin && decide ((s.core id.die id.core).deferred ≠ 0))) ++
  leBytes 8 c.pendingA.word ++
  leBytes 8 c.pendingA.fva.toNat ++
  leBytes 8 c.pendingA.finfo.toNat ++
  padTo 128 (holds.flatMap HoldRec.bytes) ++
  padTo 128 (((c.notices.filter fun n => n.fired.isNone) ++ c.pendingNotices).flatMap Notice.bytes) ++
  padTo 256 (c.reports.flatMap fun r => leBytes 4 r.toNat) ++
  List.replicate 64 0

/-- A tile's slot: HELD and CLEN, then the coded data. -/
def tileSlot (x : BitVec 32768) : List Byte :=
  let code := encodeWords (toWords x)
  padTo 64 (leBytes 4 (1 + code.length * 2 ^ 16)) ++ code

/-! ### Save areas (R436) -/

def Die.areaLog (d : Die) : Nat := Nat.min 26 (Nat.max 17 d.svcfg.toNat)
def Die.areaBase (d : Die) (n : Nat) : Nat := d.svbase.toNat + n * 2 ^ d.areaLog
/-- Whether SVBASE names storage that may hold images. -/
def Die.areaOk (d : Die) : Bool := spadOrHbm d.svbase.toNat

/-- An image before it is written: where its parts lie in the area. -/
structure Image where
  chunks : List (Nat × List Byte)
  recs   : List (Nat × Nat)
  length : Nat

/-- The records one after the other from an offset, with their ends. -/
def layRecords : Nat → List (List Byte) → List (Nat × List Byte)
  | _, [] => []
  | off, r :: rest => (off, r) :: layRecords (off + r.length) rest

def State.image (s : State) (id : CtxId) (b : Nat) (holds : List HoldRec) : Image :=
  let c := s.ctxOf id
  let recs := layRecords 0x11200 (s.imageRecords id b ++ [endRecord])
  let tiles := (fins 16).filterMap fun n =>
    if (vget c.arch.ts n).getLsbD shapeDirty then some (0xA00 + 4224 * n.val, tileSlot (vget c.tiles n)) else none
  { chunks := (0x40, s.imageRegs id holds) :: tiles ++ recs
    recs := recs.map fun x => (x.1, x.1 + x.2.length)
    length := 0x11200 + ((s.imageRecords id b ++ [endRecord]).map List.length).foldl (· + ·) 0 }

def Image.fits (i : Image) (d : Die) : Bool := decide (i.length ≤ 2 ^ d.areaLog)

/-- The header of R438. -/
def imageHeader (kind : Nat) (noResume trunc : Bool) (id : CtxId) (length nrec time : Nat) : List Byte :=
  leBytes 64 (0x4B535631 + 2 ^ 32 + kind * 2 ^ 40 + b2n noResume * 2 ^ 42 + b2n trunc * 2 ^ 43 + id.die.val * 2 ^ 44 +
    id.core.val * 2 ^ 47 + id.ctx.val * 2 ^ 51 + length * 2 ^ 64 + nrec * 2 ^ 96 + time % 2 ^ 64 * 2 ^ 128)

/-- An image written into the area of a task, cut at the area's end. -/
def State.writeImage (s : State) (id : CtxId) (n kind : Nat) (noResume : Bool) (i : Image) : State :=
  let d := s.die id.die
  let base := d.areaBase n
  let size := 2 ^ d.areaLog
  let trunc := !i.fits d
  let nrec := (i.recs.filter fun r => decide (r.2 ≤ size)).length
  let put (s : State) (c : Nat × List Byte) : State :=
    if c.1 < size then s.devWrite (base + c.1) (c.2.take (size - c.1)) else s
  let fitting := i.chunks.filter fun c => !(trunc && c.2 == endRecord && decide (size < c.1 + 16))
  fitting.foldl put
    (s.devWrite base (imageHeader kind (noResume || trunc) trunc id (Nat.min i.length size) nrec s.gtime))

/-- DIRTY of every tile cleared by a save (R440). -/
def Ctx.clearDirty (c : Ctx) : Ctx :=
  c.updArch fun a => { a with ts := vmapAll a.ts fun _ x => setBit x shapeDirty false }

/-! ### Reading an image (R442) -/

/-- The fixed parts that a resume reads. -/
def State.imageWord (s : State) (base off : Nat) : W64 := s.dev64 (base + off)

def readSticky (w : W64) : Option (BitVec 32) := if bit w 32 then some (field w 0 32) else none

/-- A record of an image as it is read: where it lies, its header, and the length of its coded data. -/
structure RecAt where
  pa   : Nat
  head : RecHead
  clen : Nat

/-- The records of an image and where they end; a poisoned header ends them (02 R56). -/
def State.findRecords (s : State) : Nat → Nat → List RecAt × Nat
  | 0, pa => ([], pa)
  | fuel + 1, pa =>
    let h := leNat (s.devRead pa 16)
    let kind := h % 16
    if kind = 15 ∨ kind = 0 ∨ s.poisoned pa 16 then ([], pa)
    else
      let clen := h / 2 ^ 64 % 2 ^ 32
      let r : RecAt := ⟨pa, ⟨kind, h / 2 ^ 8 % 256, h / 2 ^ 16 % 16, h / 2 ^ 20 % 4096, h / 2 ^ 32 % 2 ^ 32⟩, clen⟩
      let x := s.findRecords fuel (pa + 16 + (clen + 15) / 16 * 16)
      (r :: x.1, x.2)

/-- The records of the image at a base. -/
def State.recordsOf (s : State) (base : Nat) : List RecAt × Nat := s.findRecords 65536 (base + 0x11200)

/-- Whether the data of a record has met poison. -/
def State.recBad (s : State) (x : RecAt) : Bool := s.poisoned (x.pa + 16) x.clen

/-- The records of an image: header fields and data words. -/
def State.readRecords (s : State) (base : Nat) : List (RecHead × List W64) :=
  (s.recordsOf base).1.map fun x => (x.head, decodeWords (s.devRead (x.pa + 16) x.clen))

/-- The delivery that a latch record stands for, relative to the first resumed issue. -/
def RecHead.latch (h : RecHead) (ws : List W64) : Option Delivery :=
  let fl := BitVec.ofNat 5 h.arg
  let w : Option Write :=
    match h.file with
    | 0 => some (if h.arg / 32 % 2 = 1 then .hs (BitVec.ofNat 4 h.num) (wordAt ws 0) else .s (BitVec.ofNat 6 h.num) (wordAt ws 0))
    | 4 => some (.t (BitVec.ofNat 4 h.num) (ofWords 32768 (ws.take 512)) (spreadMask 32768 (leNat (wordBytes (ws.drop 512)))))
    | 5 => some (.v (BitVec.ofNat 5 h.num) (ofWords 2048 (ws.take 32)) (spreadMask 2048 (leNat (wordBytes (ws.drop 32)))))
    | 6 => some (.k (BitVec.ofNat 3 h.num) (ofWords 4096 (ws.take 64)) (ofWords 4096 (ws.drop 64)))
    | _ => none
  w.map fun w => ⟨h.delay, w, fl⟩

/-- One record put into a context (the slice regions apart). -/
def Ctx.takeRecord (c : Ctx) (x : RecHead × List W64) : Ctx :=
  let h := x.1
  match h.kind with
  | 1 => { c with lines := vset c.lines (Fin.ofNat 32 h.num) (ofWords 2048 x.2) }
  | 2 => { c with masks := vset c.masks (Fin.ofNat 8 h.num) (ofWords 4096 x.2) }
  | 3 =>
    if h.arg / 2 ^ 31 = 1 then
      let q : KvWait := ⟨BitVec.ofNat 15 (h.arg / 2 ^ 16), BitVec.ofNat 6 h.num, h.arg / 32 % 2 == 1⟩
      if h.arg / 64 % 2 = 1 then { c with keepKv := some q } else { c with kvReq := some q }
    else if h.arg / 2 ^ 30 = 1 then
      let w : Wait := ⟨none, false, (wordAt x.2 0).setWidth 32, none, false, none, false, BitVec.ofNat 6 h.num, h.arg / 32 % 2 == 1⟩
      if h.arg / 64 % 2 = 1 then { c with keepWait := some w } else { c with wait := some w }
    else { c with latches := c.latches ++ (h.latch x.2).toList }
  | 5 =>
    let w := wordAt x.2 0
    { c with links := c.links ++ [⟨h.num, field w 0 16, field w 16 9⟩] }
  | _ => c

/-- A tile as its slot in the area restores it. -/
def State.readTile (s : State) (base n : Nat) : BitVec 32768 :=
  let at_ := base + 0xA00 + 4224 * n
  let h := leNat (s.devRead at_ 4)
  if h % 2 = 1 then ofWords 32768 (decodeWords (s.devRead (at_ + 64) (h / 2 ^ 16))) else 0

/-- The notices of an image: 8 entries. -/
def State.readNotices (s : State) (base : Nat) : List Notice :=
  (List.range 8).filterMap fun k =>
    let w := s.dev64 (base + 0x840 + 16 * k)
    if bit w 32 then some ⟨field w 0 16, field w 16 16, none, 0⟩
    else if bit w 33 then some ⟨field w 0 16, field w 16 16, some (field w 34 3), 0⟩
    else none

/-- The cause that a fault kind belongs to (03 R91). -/
def causeOfKind (k : Nat) : Nat := if k ≤ 5 then cPAGE else if k ≤ 11 then cPROT else if k = 12 then cRATOM else cALIGN

/-- The refusals and engine faults that an image tells of: one of each kind that is pending, the earliest with its
address. A peer refusal is told by its fault kind (log 103). -/
def readFaults (refusal engine : Bool) (fva finfo : W64) : List PendFault :=
  let t : TrapRec := ⟨BitVec.ofNat 8 (causeOfKind (bitsOf finfo 0 4)), 0, fva, finfo⟩
  let r : List PendFault := if refusal then [⟨false, 0, t⟩] else []
  let e : List PendFault := if engine then [⟨true, 0, t⟩] else []
  if bitsOf finfo 0 4 = 11 then r ++ e else e ++ r

/-- The pending causes of a resumed task: those that the task table has kept where the image's words are theirs, else
what the image tells (R423, R437, log 103). -/
def PendingA.restored (p : PendingA) (kept : List PendFault) : PendingA :=
  let q : PendingA := { p with faults := kept }
  if q.word = p.word ∧ q.fva = p.fva ∧ q.finfo = p.finfo then q else p

/-- The context that an image holds, records included. -/
def State.readContext (s : State) (base : Nat) : Ctx :=
  let csr (k : Nat) : W64 := s.dev64 (base + 0x40 + 8 * k)
  let w (off : Nat) : W64 := s.dev64 (base + off)
  let point := w 0x798
  let xs := csr 0x51
  let ui := csr 0x62
  let pa := w 0x7A8
  let a : Arch :=
    { Arch.reset with
      s := vmapAll Arch.reset.s fun n _ => w (0x440 + 8 * n.val)
      hs := vmapAll Arch.reset.hs fun n _ => if n = 0 then 0 else w (0x640 + 8 * (n.val - 1))
      p := field (w 0x780) 0 16
      hp := BitVec.ofNat 8 (2 * bitsOf (w 0x780) 16 7)
      a := vmapAll Arch.reset.a fun n _ => w (0x6C0 + 8 * n.val)
      d := vmapAll Arch.reset.d fun n _ => BitVec.ofNat 32 (leNat (s.devRead (base + 0x740 + 4 * n.val) 4))
      lc := vmapAll Arch.reset.lc fun n _ => csr (0x10 + n.val)
      rbs := field (csr 0) 32 5
      rbp := field (csr 0) 37 3
      fbase := field (csr 0x18) 0 4
      ft := vmapAll Arch.reset.ft fun n _ => field (csr (0x20 + n.val)) 0 32
      ts := vmapAll Arch.reset.ts fun n _ => setBit (field (csr (0x30 + n.val)) 0 32) shapeDirty false
      xp := vmapAll Arch.reset.xp fun n _ => csr (0x40 + n.val)
      pkr := csr 4
      stickyM := readSticky (w 0x788)
      stickyC := readSticky (w 0x790)
      pc := uiretVa point
      due := some (field point 56 6) }
  let c : Ctx :=
    { Ctx.reset with
      arch := a
      tiles := vmapAll Ctx.reset.tiles fun n _ => s.readTile base n.val
      cause := csr 1, fva := csr 2, finfo := csr 3
      fstat := field (csr 5) 0 5
      sbctl := csr 6
      wid := csr 7
      xctl := field (csr 0x50) 0 7
      sticky := field xs 0 6, rovf := bit xs 6, drops := field xs 16 16
      xpr := field (csr 0x52) 0 18
      iuvec := csr 0x60, uiret := csr 0x61
      inh := bit ui 8, lost := bit ui 9
      mrql := csr 0x70, mrqr := csr 0x71, mrqi := csr 0x72
      pin := bit (w 0x7A0) 0
      pinOvr := bit (csr 0) 10
      persist := bit (csr 0) 11
      notices := s.readNotices base
      reports := (List.range (bitsOf xs 8 7)).map fun k => BitVec.ofNat 32 (leNat (s.devRead (base + 0x8C0 + 4 * k) 4))
      pendingA := ⟨bit pa 0, bit pa 3, bit pa 4, readFaults (bit pa 1) (bit pa 2) (w 0x7B0) (w 0x7B8), none⟩
      status := .ready }
  ((s.readRecords base).foldl (fun c r => c.takeRecord r) c)

/-- The holds that an image records. -/
def State.readHolds (s : State) (base : Nat) : List HoldRec :=
  (List.range 8).filterMap fun k =>
    let w := s.dev64 (base + 0x7C0 + 16 * k)
    if bit w 7 then some ⟨bitsOf w 0 3, bit w 6, s.dev64 (base + 0x7C8 + 16 * k)⟩ else none

/-- The slice regions of an image written back into the slice it names, which marks them dirty (R442); a region whose
record has met poison is written poisoned (02 R56). -/
def State.restoreRegions (s : State) (base : Nat) : State :=
  let h := s.dev64 base
  let d := Fin.ofNat 8 (bitsOf h 44 3)
  let c := Fin.ofNat 16 (bitsOf h 47 4)
  ((s.recordsOf base).1.filter fun x => x.head.kind == 4).foldl
    (fun s x =>
      let bs := wordBytes ((decodeWords (s.devRead (x.pa + 16) x.clen)).take 512)
      let a := regionPa d c x.head.arg
      if s.recBad x then s.devWritePoison a bs else s.devWrite a bs) s

/-! ### Poison in an image (02 R56, R58; log 103) -/

/-- Whether a record tells a register's data, or a slice region's: its poison stays with those. -/
def RecHead.carries (h : RecHead) : Bool :=
  h.kind == 1 || h.kind == 2 || h.kind == 4 || (h.kind == 3 && decide (h.arg < 2 ^ 30))

/-- The parts of an image that a resume must know whole: the header, the control registers, the resume block, the holds,
the notices, the reports, the headers of the tile slots and of the records, and the records without register data. -/
def State.imageControl (s : State) (base : Nat) : List (Nat × Nat) :=
  [(base, 0x440), (base + 0x780, 0x240)] ++ ((List.range 16).map fun n => (base + 0xA00 + 4224 * n, 4)) ++
  ((s.recordsOf base).1.filter fun x => !x.head.carries).map (fun x => (x.pa + 16, x.clen)) ++ [((s.recordsOf base).2, 16)]

/-- The coded data of a tile slot. -/
def State.tileData (s : State) (base n : Nat) : Nat × Nat :=
  let at_ := base + 0xA00 + 4224 * n
  let h := leNat (s.devRead at_ 4)
  (at_ + 64, if h % 2 = 1 then h / 2 ^ 16 else 0)

/-- The parts of an image that hold registers and slice regions. -/
def State.imageData (s : State) (base : Nat) : List (Nat × Nat) :=
  [(base + 0x440, 0x340)] ++ (List.range 16).map (s.tileData base) ++
  ((s.recordsOf base).1.filter fun x => x.head.carries).map fun x => (x.pa + 16, x.clen)

/-- The poisoned units of some parts. -/
def State.partsBad (s : State) (ps : List (Nat × Nat)) : List Nat :=
  if s.poison.isEmpty then [] else dedupNat (ps.flatMap fun p => s.badUnits p.1 p.2)
where
  dedupNat (l : List Nat) : List Nat := l.foldl (fun acc u => insertNat u acc) []

/-- The registers whose words an image holds poisoned. -/
def State.imagePoison (s : State) (base : Nat) : List RegName :=
  let bad (off n : Nat) : Bool := s.poisoned (base + off) n
  ((fins 64).filter (fun n => n != 0 && bad (0x440 + 8 * n.val) 8)).map (fun n => RegName.s (BitVec.ofFin n)) ++
  ((fins 16).tail.filter (fun n => bad (0x640 + 8 * (n.val - 1)) 8)).map (fun n => RegName.hs (BitVec.ofFin n)) ++
  ((fins 16).filter (fun n => bad (0x6C0 + 8 * n.val) 8)).map (fun n => RegName.a (BitVec.ofFin n)) ++
  ((fins 16).filter (fun n => bad (0x740 + 4 * n.val) 4)).map (fun n => RegName.d (BitVec.ofFin n)) ++
  ((fins 16).filter (fun n => s.poisoned (s.tileData base n.val).1 (s.tileData base n.val).2)).map (fun n => RegName.t (BitVec.ofFin n)) ++
  (s.recordsOf base).1.filterMap fun x =>
    if !s.recBad x then none
    else match x.head.kind with
      | 1 => some (.v (BitVec.ofNat 5 x.head.num))
      | 2 => some (.k (BitVec.ofNat 3 x.head.num))
      | _ => none

/-- The registers whose latch an image holds poisoned. -/
def State.imageLatchBad (s : State) (base : Nat) : List RegName :=
  (s.recordsOf base).1.filterMap fun x =>
    if x.head.kind = 3 ∧ x.head.carries ∧ s.recBad x then (x.head.latch []).map fun d => d.w.reg else none

end Sys2Proof.Machine
end

