-- ==== Sys2Proof/Machine/Num.lean ====
section
/-! DEFINITION. Exact values, the element formats, and the one rounding that delivers every digital
result (11). A value is a signed rational, so that intermediate results are exact; formats round it
with `roundFmt`. -/

namespace Sys2Proof.Machine

/-- An exact value: NaN, an infinity, or a signed rational num / den with den ≥ 1 (a zero keeps its sign). -/
inductive Val where
  | nan
  | inf (neg : Bool)
  | fin (neg : Bool) (num den : Nat)
deriving DecidableEq, Repr

/-- A result with whether the operation was invalid: a NaN made from inputs that hold none (R273). -/
abbrev Res := Val × Bool

def Val.zero : Val := .fin false 0 1
def Val.negZero : Val := .fin true 0 1
def Val.one : Val := .fin false 1 1
def Val.ofNat (n : Nat) : Val := .fin false n 1
def Val.ofInt (i : Int) : Val := .fin (decide (i < 0)) i.natAbs 1

/-- m × 2^e. -/
def Val.scaled (neg : Bool) (m : Nat) (e : Int) : Val :=
  if 0 ≤ e then .fin neg (m * 2 ^ e.toNat) 1 else .fin neg m (2 ^ (-e).toNat)

def Val.isNaN : Val → Bool
  | .nan => true
  | _ => false

def Val.isInf : Val → Bool
  | .inf _ => true
  | _ => false

def Val.isZero : Val → Bool
  | .fin _ n _ => n == 0
  | _ => false

def Val.neg : Val → Val
  | .nan => .nan
  | .inf s => .inf !s
  | .fin s n d => .fin (!s) n d

def Val.abs : Val → Val
  | .nan => .nan
  | .inf _ => .inf false
  | .fin _ n d => .fin false n d

/-- Whether the sign of a value that is no NaN is negative; a zero answers by its own sign. -/
def Val.sign : Val → Bool
  | .nan => false
  | .inf s => s
  | .fin s _ _ => s

/-! ### Rounding modes -/

/-- The rounding modes of R266; codes 5 to 7 act as RNE. -/
inductive RMode where
  | rne | rtz | rup | rdn | rna
deriving DecidableEq, Repr

def RMode.ofCode : Nat → RMode
  | 1 => .rtz | 2 => .rup | 3 => .rdn | 4 => .rna | _ => .rne

/-- round_mode of ±num / den, as a magnitude (R266). -/
def roundMag (mode : RMode) (neg : Bool) (num den : Nat) : Nat :=
  let q := num / den
  let r := num % den
  let up : Bool := match mode with
    | .rne => decide (2 * r > den) || (decide (2 * r = den) && decide (q % 2 = 1))
    | .rtz => false
    | .rup => !neg && decide (r > 0)
    | .rdn => neg && decide (r > 0)
    | .rna => decide (2 * r ≥ den)
  if up then q + 1 else q

/-- round_mode(y) of a finite value (R266). -/
def roundInt (mode : RMode) (neg : Bool) (num den : Nat) : Int :=
  let m := roundMag mode neg num den
  if neg then -(m : Int) else m

/-- floor(log2(num / den)) for num, den ≥ 1: exp_of of 09. -/
def expOf (num den : Nat) : Int :=
  let e : Int := (Nat.log2 num : Int) - Nat.log2 den
  let ge : Bool := if 0 ≤ e then decide (num ≥ den * 2 ^ e.toNat) else decide (num * 2 ^ (-e).toNat ≥ den)
  if ge then e else e - 1

/-! ### Arithmetic on exact values -/

/-- Exact sum; the sign of a zero sum of two values is IEEE 754's for the mode (log 16). -/
def vadd (mode : RMode) : Val → Val → Res
  | .nan, _ => (.nan, false)
  | _, .nan => (.nan, false)
  | .inf a, .inf b => if a = b then (.inf a, false) else (.nan, true)
  | .inf a, _ => (.inf a, false)
  | _, .inf b => (.inf b, false)
  | .fin a n d, .fin b m e =>
    let g := Nat.gcd d e
    let x := n * (e / g)
    let y := m * (d / g)
    let den := d * (e / g)
    if a = b then (.fin a (x + y) den, false)
    else if x > y then (.fin a (x - y) den, false)
    else if y > x then (.fin b (y - x) den, false)
    else (.fin (decide (mode = .rdn)) 0 1, false)

def vsub (mode : RMode) (a b : Val) : Res := vadd mode a b.neg

/-- Exact product. -/
def vmul : Val → Val → Res
  | .nan, _ => (.nan, false)
  | _, .nan => (.nan, false)
  | .inf a, .inf b => (.inf (a != b), false)
  | .inf a, .fin b n _ => if n = 0 then (.nan, true) else (.inf (a != b), false)
  | .fin a n _, .inf b => if n = 0 then (.nan, true) else (.inf (a != b), false)
  | .fin a n d, .fin b m e => (.fin (a != b) (n * m) (d * e), false)

/-- Exact quotient, by IEEE 754 on special values. -/
def vdiv : Val → Val → Res
  | .nan, _ => (.nan, false)
  | _, .nan => (.nan, false)
  | .inf _, .inf _ => (.nan, true)
  | .inf a, .fin b _ _ => (.inf (a != b), false)
  | .fin a _ _, .inf b => (.fin (a != b) 0 1, false)
  | .fin a n d, .fin b m e =>
    if m = 0 then (if n = 0 then (.nan, true) else (.inf (a != b), false))
    else (.fin (a != b) (n * e) (d * m), false)

/-- a < b in the order of values; false when either is NaN; zeros are equal. -/
def vlt : Val → Val → Bool
  | .nan, _ => false
  | _, .nan => false
  | .inf a, .inf b => a && !b
  | .inf a, _ => a
  | _, .inf b => !b
  | .fin a n d, .fin b m e =>
    let x : Int := if a then -(n * e : Nat) else (n * e : Nat)
    let y : Int := if b then -(m * d : Nat) else (m * d : Nat)
    decide (x < y)

/-- Equality of values; false when either is NaN; zeros are equal. -/
def veq (a b : Val) : Bool := !a.isNaN && !b.isNaN && !vlt a b && !vlt b a

/-- fmin of R314: −0 is less than +0; the default NaN if either is NaN. -/
def vmin (a b : Val) : Val :=
  if a.isNaN || b.isNaN then .nan
  else if vlt a b then a else if vlt b a then b else if a.sign then a else b

/-- fmax of R314. -/
def vmax (a b : Val) : Val :=
  if a.isNaN || b.isNaN then .nan
  else if vlt a b then b else if vlt b a then a else if a.sign then b else a

/-! ### Formats -/

/-- A floating-point format (R261, R262). `shift` widens a code that is rounded to fewer bits of
precision than its format holds (R346). -/
structure FloatFmt where
  p     : Nat
  bias  : Nat
  sgn   : Bool
  inf   : Bool
  /-- FP32, FP16 and BF16: with −0 and a sign on infinities and zeros. -/
  wide  : Bool
  width : Nat
  shift : Nat
deriving DecidableEq, Repr

/-- An element format (R260). -/
inductive Fmt where
  | flt (f : FloatFmt)
  | int (w : Nat)
deriving DecidableEq, Repr

def fp32 : FloatFmt := ⟨24, 127, true, true, true, 32, 0⟩
def fp16 : FloatFmt := ⟨11, 15, true, true, true, 16, 0⟩
def bf16 : FloatFmt := ⟨8, 127, true, true, true, 16, 0⟩
/-- FP32 rounded to 12 bits of precision (R346). -/
def fp32Apx : FloatFmt := ⟨12, 127, true, true, true, 32, 12⟩

/-- The binary8 format of a format entry (R262, R265, R196). -/
def b8Of (entry : BitVec 32) : FloatFmt :=
  let p := Nat.min 7 (bitsOf entry 0 3 + 1)
  let sgn := bit entry 3
  ⟨p, if sgn then 2 ^ (7 - p) else 2 ^ (8 - p), sgn, bit entry 4, false, 8, 0⟩

/-- Rounding mode and saturation of a format entry (R196). -/
def entryMode (entry : BitVec 32) : RMode := RMode.ofCode (bitsOf entry 5 3)
def entrySat (entry : BitVec 32) : Bool := bit entry 8

/-- The format of a tile code under a format entry (R190, R260). -/
def fmtOf (code : Nat) (entry : BitVec 32) : Fmt :=
  match code with
  | 1 => .flt fp32 | 2 => .flt fp16 | 3 => .flt bf16 | 4 => .int 32 | 5 => .int 16 | 6 => .int 8
  | _ => .flt (b8Of entry)

namespace FloatFmt

/-- The bit that holds the sign. -/
def signBit (f : FloatFmt) : Nat := f.width - 1 - f.shift

def nanCode (f : FloatFmt) : Nat :=
  if f.wide then (2 ^ (f.signBit - (f.p - 1)) - 1) * 2 ^ (f.p - 1) + 2 ^ (f.p - 2)
  else if f.sgn then 0x80 else 0xFF

/-- Magnitude code of +∞ where the format holds it. -/
def infCode (f : FloatFmt) : Nat :=
  if f.wide then (2 ^ (f.signBit - (f.p - 1)) - 1) * 2 ^ (f.p - 1) else if f.sgn then 0x7F else 0xFE

/-- Magnitude code of the largest finite value. -/
def maxCode (f : FloatFmt) : Nat :=
  if f.wide then f.infCode - 1 else if f.sgn then (if f.inf then 0x7E else 0x7F) else (if f.inf then 0xFD else 0xFE)

def emin (f : FloatFmt) : Int := 1 - (f.bias : Int)

/-- A code from its sign and magnitude. -/
def signed (f : FloatFmt) (neg : Bool) (mag : Nat) : Nat :=
  (if neg && f.sgn then mag + 2 ^ f.signBit else mag) * 2 ^ f.shift

/-- ±∞, or NaN where the format holds none (R268). -/
def infOrNaN (f : FloatFmt) (neg : Bool) : Nat := if f.inf then f.signed neg f.infCode else f.nanCode * 2 ^ f.shift

/-- The value of a code (R261, R263). -/
def value (f : FloatFmt) (code : Nat) : Val :=
  let c := code / 2 ^ f.shift
  let m := if f.sgn then c % 2 ^ f.signBit else c
  let neg := f.sgn && decide (c / 2 ^ f.signBit % 2 = 1)
  if (!f.wide && c == f.nanCode) || (f.wide && m > f.infCode) then .nan
  else if f.inf && m == f.infCode then .inf neg
  else
    let e := m / 2 ^ (f.p - 1)
    let t := m % 2 ^ (f.p - 1)
    let sh : Int := -(f.bias : Int) - ((f.p : Int) - 1)
    if e = 0 then Val.scaled neg t (1 + sh) else Val.scaled neg (2 ^ (f.p - 1) + t) (e + sh)

/-- overflow_code of R268, with its flags. -/
def overflow (f : FloatFmt) (neg : Bool) (mode : RMode) (sat infinite : Bool) : Nat × Flags :=
  let max := f.signed neg f.maxCode
  if infinite then (if sat then max else f.infOrNaN neg, infiniteFlags sat)
  else
    let toInf : Bool := match mode with
      | .rne => true | .rna => true | .rtz => false | .rup => !neg | .rdn => neg
    (if sat || !toInf then max else f.infOrNaN neg, overflowFlags sat)

/-- round_fmt of R267, with the flags of R273. -/
def round (f : FloatFmt) (mode : RMode) (sat : Bool) : Val → Nat × Flags
  | .nan => (f.nanCode * 2 ^ f.shift, 0)
  | .inf neg =>
    if neg && !f.sgn then (if sat then (0, fNV ||| fSATF) else (f.nanCode, fNV))
    else f.overflow neg mode sat true
  | .fin neg num den =>
    if num = 0 then (if f.wide then f.signed neg 0 else 0, 0)
    else
      let e := max (expOf num den) f.emin
      let k := e - ((f.p : Int) - 1)
      let n := if 0 ≤ k then num else num * 2 ^ (-k).toNat
      let d := if 0 ≤ k then den * 2 ^ k.toNat else den
      let m := roundMag mode neg n d
      let inexact := decide (n % d ≠ 0)
      let below := decide (expOf num den < f.emin)
      if neg && !f.sgn then
        if m = 0 then (0, roundFlags true below)
        else if sat then (0, fNV ||| fNX ||| fSATF) else (f.nanCode, fNV ||| fNX)
      else
        let mag := ((e - f.emin).toNat) * 2 ^ (f.p - 1) + m
        if m ≠ 0 ∧ mag > f.maxCode then f.overflow neg mode sat false
        else if m = 0 then (if f.wide then f.signed neg 0 else 0, roundFlags inexact below)
        else (f.signed neg mag, roundFlags inexact below)

end FloatFmt

/-- The largest and least value of an integer format. -/
def intMax (w : Nat) : Int := 2 ^ (w - 1) - 1
def intMin (w : Nat) : Int := -(2 ^ (w - 1))

/-- Conversion into an integer format (R270), with its flags: NV for NaN and infinities, SATF for a
clamp, NX where the delivered number differs from a finite x. -/
def roundToInt (w : Nat) (mode : RMode) : Val → Nat × Flags
  | .nan => (0, fNV)
  | .inf neg => ((BitVec.ofInt w (if neg then intMin w else intMax w)).toNat, fNV)
  | .fin neg num den =>
    let r := roundInt mode neg num den
    let c := if r > intMax w then intMax w else if r < intMin w then intMin w else r
    ((BitVec.ofInt w c).toNat, clampFlags (decide (c ≠ r)) ||| flagIf (decide (c ≠ r) || decide (num % den ≠ 0)) fNX)

/-- The value of an element (R326). -/
def Fmt.value : Fmt → Nat → Val
  | .flt f, c => f.value c
  | .int w, c => Val.ofInt (signedNat c w)

/-- Delivery into a format (R267, R270). -/
def Fmt.round (f : Fmt) (mode : RMode) (sat : Bool) (x : Val) : Nat × Flags :=
  match f with
  | .flt g => g.round mode sat x
  | .int w => roundToInt w mode x

def Fmt.isInt : Fmt → Bool
  | .int _ => true
  | .flt _ => false

/-- fp32_rne of an exact value, as a value, with its flags (R267). -/
def fp32Rne (x : Val) : Val × Flags :=
  let r := fp32.round .rne false x
  (fp32.value r.1, r.2)

/-- fp32_rne of an operation's result; an invalid operation adds NV. -/
def rne32 (r : Res) : Val × Flags :=
  let x := fp32Rne r.1
  (x.1, x.2 ||| flagIf r.2 fNV)

/-! ### FP32 at a memory's home -/

/-- fnew of R314 on FP32 codes: 0 fadd, 1 fmin, 2 fmax. -/
def fnew (op : Nat) (old x : Nat) : Nat × Flags :=
  let a := fp32.value old
  let b := fp32.value x
  match op with
  | 1 => (fp32.round .rne false (vmin a b)).1 |> fun c => (c, 0)
  | 2 => (fp32.round .rne false (vmax a b)).1 |> fun c => (c, 0)
  | _ =>
    let r := vadd .rne a b
    let c := fp32.round .rne false r.1
    (c.1, c.2 ||| flagIf r.2 fNV)

end Sys2Proof.Machine
end

