-- ==== Sys2Proof/Machine/Ops.lean ====
section
/-! DEFINITION. The operations that the meanings share: loads, stores and read-modify-writes through
translation (13, 06, 02), peer requests (16), restart regions, taking a trap, its capture, and the
return from a notice handler (18, 07 R179). -/

namespace Sys2Proof.Machine

/-! ### Peer memory (01 R24, R25; 16 R394, R397, R398) -/

/-- Whether a package refuses an access at a peer offset: only its scratchpad, HBM4 direct window and
LPDDR6 are reached (R24). -/
def peerRefuses (off : Nat) : Bool := !isDev off

/-- A flit header (R394). -/
structure FlitHead where
  type   : Nat
  srcm   : Nat
  dstm   : Nat
  sdie   : Nat
  ddie   : Nat
  core   : Nat
  ctx    : Nat
  ch     : Nat
  poison : Bool
  len    : Nat
  seq    : Nat
  arg    : Nat
deriving DecidableEq, Repr

def FlitHead.bits (h : FlitHead) : BitVec 128 :=
  BitVec.ofNat 128 (h.type + h.srcm * 2 ^ 4 + h.dstm * 2 ^ 13 + h.sdie * 2 ^ 22 + h.ddie * 2 ^ 25 + h.core * 2 ^ 28 +
    h.ctx * 2 ^ 32 + h.ch * 2 ^ 34 + b2n h.poison * 2 ^ 39 + h.len * 2 ^ 40 + h.seq * 2 ^ 48 + h.arg * 2 ^ 64)

def readHead (x : BitVec 128) : FlitHead :=
  ⟨bitsOf x 0 4, bitsOf x 4 9, bitsOf x 13 9, bitsOf x 22 3, bitsOf x 25 3, bitsOf x 28 4, bitsOf x 32 2,
    bitsOf x 34 5, bit x 39, bitsOf x 40 6, bitsOf x 48 16, bitsOf x 64 64⟩

def flitBytes (f : Flit) : List Byte := leBytes 16 f.header.toNat ++ leBytes 256 f.payload.toNat

/-- Whether a port is up with a circuit to a member. What was issued under an identifier goes on under it when MEMBER is
written (01 R36). -/
def Joist.circuit (j : Joist) (m : BitVec 9) (q : Fin 16) : Bool :=
  let p := vget j.ports q
  p.up && p.circ && p.member == m

/-- The port with a circuit to a member. -/
def Joist.portTo (j : Joist) (m : BitVec 9) : Option (Fin 16) := (fins 16).find? (j.circuit m)

/-- The port of a die's traffic to a member: the one its unacknowledged pieces left through (R396), else the
lowest with a circuit. -/
def Joist.portOf (j : Joist) (d : Fin 8) (m : BitVec 9) : Option (Fin 16) :=
  match j.peerReqs.findSome? fun r => match r.place with
    | .sent q => if r.id.die = d ∧ r.member = m then some q else none
    | _ => none with
  | some q => if j.circuit m q then some q else none
  | none => j.portTo m

def Joist.veqLog (j : Joist) : Nat :=
  let n := bitsOf j.veqcfg 52 4
  if 4 ≤ n ∧ n ≤ 12 then n else 12

/-- Where entry n of a member's virtual egress queue lies. -/
def Joist.veqAddr (j : Joist) (m n : Nat) : Nat :=
  bitsOf j.veqcfg 16 36 * 65536 + m * 2 ^ j.veqLog * 512 + n % 2 ^ j.veqLog * 512

def Joist.veqOf (j : Joist) (m : BitVec 9) : Nat × Nat := (alookup m.toNat j.veq).getD (0, 0)

/-- Whether a member's queue takes another entry; queues outside HBM4 take none. -/
def Joist.veqRoom (j : Joist) (m : BitVec 9) : Bool :=
  let x := j.veqOf m
  bit j.veqcfg 0 && decide (x.2 - x.1 < 2 ^ j.veqLog) && region (j.veqAddr m.toNat x.2) == .hbm

/-- The replay buffer of a port holds 512 flits (R395). -/
def Joist.replayRoom (j : Joist) (q : Fin 16) : Bool := decide ((vget j.ports q).replay.length < 512)

def Joist.updPort (j : Joist) (q : Fin 16) (f : Port → Port) : Joist := { j with ports := vupd j.ports q f }

/-- A flit put on a port's link. -/
def State.putFlit (s : State) (q : Fin 16) (x : Sent) : State :=
  s.updJoist fun j => j.updPort q fun p =>
    { p with replay := p.replay ++ [x], txSeq := p.txSeq + 1, lastAck := if p.replay.isEmpty then s.cycle else p.lastAck }

/-! ### Quiet gaps (16 R400-R403) -/

/-- The list of quiet gaps of a port holds the one that starts at a GTIME (R400, R403). -/
def Port.gapLen (p : Port) : Nat := if p.untimed then 256 else bitsOf p.gapp 32 16
def Port.gapPeriod (p : Port) : Nat := bitsOf p.gapp 0 32
def Port.gapsOn (p : Port) : Bool := !p.untimed && decide (256 ≤ p.gapLen)

/-- Whether a GTIME lies in a quiet gap of a port: one of its list, or the one agreed. -/
def Port.inGap (p : Port) (t : Nat) : Bool :=
  let listed := p.gapsOn && decide (p.gap.toNat ≤ t) &&
    (let n := t - p.gap.toNat
     if p.gapPeriod = 0 then decide (n < p.gapLen) else decide (n % p.gapPeriod < p.gapLen))
  let agreed := match p.gapAgreed with | some g => decide (g ≤ t ∧ t < g + p.gapLen) | none => false
  listed || agreed

/-- Whether a port loses timed flits now: in a quiet gap, or while a swap taken at once stops its link
(R402, R403). -/
def State.portQuiet (s : State) (q : Fin 16) : Bool :=
  let p := vget s.joist.ports q
  p.inGap s.gtime || decide (s.cycle < p.heldUntil)

/-! ### Memory traffic -/

/-- The next sequence of the channel of memory traffic from a die to a member, and the state after. -/
def State.nextPeerSeq (s : State) (d : Fin 8) (m : BitVec 9) : State × BitVec 16 :=
  let k := 8 * m.toNat + d.val
  let n := (alookup k s.joist.peerSeq).getD 0 + 1
  (s.updJoist fun j => { j with peerSeq := ainsert k n j.peerSeq }, n)

/-- The source die of a flit. -/
def flitDie (f : Flit) : Fin 8 := Fin.ofNat 8 (readHead f.header).sdie

/-- Whether a flit is that of a request. -/
def PeerReq.isFlit (r : PeerReq) (m : BitVec 9) (f : Flit) : Bool := r.member == m && r.flit == f

/-- The place of a request, found by its flit. -/
def State.movePeer (s : State) (m : BitVec 9) (f : Flit) (at_ : PeerPlace) : State :=
  s.updJoist fun j => { j with peerReqs := j.peerReqs.map fun r => if r.isFlit m f then { r with place := at_ } else r }

/-- A flit with POISON set (R394). -/
def poisonFlit (f : Flit) : Flit := { f with header := f.header ||| BitVec.twoPow 128 39 }

/-- The oldest entry of a member's queue leaves on a port (R397). One that is poisoned in its queue leaves with a
poisoned payload, and is recorded (02 R56, R58, log 100). -/
def State.drainVeq (s : State) (m : BitVec 9) : Option State :=
  let (a, b) := s.joist.veqOf m
  let at_ := s.joist.veqAddr m.toNat a
  let bs := s.devRead at_ 272
  let f : Flit := ⟨BitVec.ofNat 128 (leNat (bs.take 16)), BitVec.ofNat 2048 (leNat (bs.drop 16))⟩
  match s.joist.portOf (flitDie f) m with
  | some q =>
    if s.joist.replayRoom q then
      let bad := s.badUnits at_ 272
      let s := (s.recordBad bad 0 (homeDie at_) 0).updJoist fun j => { j with veq := ainsert m.toNat (a + 1, b) j.veq }
      some ((s.movePeer m f (.sent q)).putFlit q ⟨if bad.isEmpty then f else poisonFlit f, none⟩)
    else none
  | none => none

/-- A flit that waits at the die moves on: to a port with a circuit when nothing queued is before it, or to
its member's queue. -/
def State.moveFlit (s : State) (m : BitVec 9) (f : Flit) (sent : PeerPlace → State → State) : Option State :=
  let (a, b) := s.joist.veqOf m
  match s.joist.portOf (flitDie f) m with
  | some q => if a = b ∧ s.joist.replayRoom q then some ((sent (.sent q) s).putFlit q ⟨f, none⟩) else none
  | none =>
    if (s.joist.portTo m).isNone ∧ s.joist.veqRoom m then
      let s := s.devWrite (s.joist.veqAddr m.toNat b) (flitBytes f)
      some (sent .queued (s.updJoist fun j => { j with veq := ainsert m.toNat (a, b + 1) j.veq }))
    else none

/-- One flit for a member moves on: the oldest queued one, else the first that waits at the die. -/
def State.pumpOne (s : State) (m : BitVec 9) : Option State :=
  let (a, b) := s.joist.veqOf m
  match (if a = b then none else s.drainVeq m) with
  | some s => some s
  | none =>
    match s.joist.replies.find? fun x => x.1 == m with
    | some x => s.moveFlit m x.2 fun _ s => s.updJoist fun j => { j with replies := j.replies.erase x }
    | none =>
      match s.joist.peerReqs.find? fun r => r.member == m && r.place == .atDie with
      | some r => s.moveFlit m r.flit fun p s => s.movePeer m r.flit p
      | none => none

/-- Flits for a member move on until none can. -/
def State.pump (m : BitVec 9) : Nat → State → State
  | 0, s => s
  | fuel + 1, s =>
    match s.pumpOne m with
    | some s => State.pump m fuel s
    | none => s

/-- Flits queued or waiting for a member. -/
def Joist.waiting (j : Joist) (m : BitVec 9) : Nat :=
  let x := j.veqOf m
  2 * (j.peerReqs.length + j.replies.length + (x.2 - x.1))

/-- The identity under which an access was issued: the package's own member identifier (01 R36), the cycle, and the
address space that translated it (03 R94). -/
structure Origin where
  own   : Option (BitVec 9)
  issue : Nat
  asid  : Fin 64
deriving DecidableEq, Repr

/-- The package's own member identifier; none where it has no valid one (01 R15). -/
def Joist.own (j : Joist) : Option (BitVec 9) := if j.mvalid then some j.member else none

/-- The identity of an access issued now in an address space. -/
def State.origin (s : State) (asid : Fin 64) : Origin := ⟨s.joist.own, s.cycle, asid⟩

/-- One memory request sent to a peer: TYPE, offset with the enables or the operation in ARG, data. -/
def State.sendPeer (s : State) (id : CtxId) (from_ : Origin) (m : BitVec 9) (type off arg : Nat) (data : List Byte) (poison : Bool)
    (va : W64) (acc : AccKind) (read : Bool) (engine : Option (BitVec 16)) : State × BitVec 16 :=
  let (s, seq) := s.nextPeerSeq id.die m
  let h : FlitHead := ⟨type, (from_.own.getD s.joist.member).toNat, m.toNat, id.die, (homeDie off).val, id.core, id.ctx, 0, poison,
    (off % 8 + data.length + 7) / 8, seq.toNat, off + arg * 2 ^ 48⟩
  let f : Flit := ⟨h.bits, BitVec.ofNat 2048 (leNat data * 2 ^ (8 * (off % 8)))⟩
  let s := s.updJoist fun j => { j with peerReqs := j.peerReqs ++ [⟨id, seq, m, .atDie, va, from_.asid, acc, from_.issue, read, engine, false, none, f⟩] }
  (State.pump m (s.joist.waiting m) s, seq)

/-- Whether a request is one that a context itself waits for. -/
def PeerReq.of (r : PeerReq) (id : CtxId) : Bool := r.id == id && r.engine.isNone && !r.dead

/-- First- and last-piece byte enables of a write (R394), for the 8-byte pieces it covers. -/
def byteEnables (off n : Nat) : Nat :=
  let lo := off % 8
  let hi := (off + n - 1) % 8
  let first := if off / 8 = (off + n - 1) / 8 then 2 ^ (hi + 1) - 2 ^ lo else 256 - 2 ^ lo
  first + 256 * (2 ^ (hi + 1) - 1)

/-- Whether an access to a member is the loopback of R25. -/
def State.isSelf (s : State) (m : BitVec 9) : Bool := s.joist.mvalid && m == s.joist.member
def Origin.isSelf (o : Origin) (m : BitVec 9) : Bool := o.own == some m

/-- A package without a valid member identifier refuses its own peer accesses: LINKLOST comes due (01 R15). -/
def Ctx.noMember (c : Ctx) : Ctx := { c with pendingA := { c.pendingA with linkLost := true } }

/-- FINFO of a fault of a context (03 R91). -/
def finfoOf (c : Ctx) (kind acc level : Nat) (va : W64) : W64 :=
  let range := (indexWhere (fun x : OpRange => decide (x.va.toNat ≤ va.toNat ∧ va.toNat < x.va.toNat + x.len)) c.ranges).getD 15
  BitVec.ofNat 64 (kind + 0x10 * acc + 0x80 * level + 0x1000 * range + 0x10000 * c.asid.val)

/-- A refused part joins the refusals that are pending: those of one access are one, with the lowest-addressed part. -/
def joinRefusal (f : PendFault) : List PendFault → List PendFault
  | [] => [f]
  | g :: gs =>
    if !g.engine ∧ g.issue = f.issue then (if f.trap.fva.toNat < g.trap.fva.toNat then f else g) :: gs
    else g :: joinRefusal f gs

/-- A class A refusal comes due for a context, behind those that have come (03 R80, 18 R423). -/
def Ctx.pendRefusal (c : Ctx) (va : W64) (acc : AccKind) (issue : Nat) : Ctx :=
  let f : PendFault := ⟨false, issue, ⟨BitVec.ofNat 8 cPROT, 0, va, finfoOf c 11 acc.code 0 va⟩⟩
  { c with pendingA := { c.pendingA with faults := joinRefusal f c.pendingA.faults } }

/-- An engine fault comes due for a context. -/
def Ctx.pendEngine (c : Ctx) (t : TrapRec) : Ctx :=
  { c with pendingA := { c.pendingA with faults := c.pendingA.faults ++ [⟨true, 0, t⟩] } }

/-! ### Requests (02 R67) -/

/-- The 64-byte blocks that a part touches, with their home and placement. -/
def Part.blocks (p : Part) : List (Space × Nat × Bool) :=
  (List.range ((p.loc.addr + p.n + 63) / 64 - p.loc.addr / 64)).map fun k =>
    (p.loc.space, p.loc.addr / 64 + k, lfPlc p.loc.leaf != 0 && !lfPbuf p.loc.leaf)

def dedup {α : Type} [BEq α] : List α → List α → List α
  | [], acc => acc.reverse
  | x :: xs, acc => dedup xs (if acc.contains x then acc else x :: acc)

def isLocal (d : Fin 8) (b : Space × Nat × Bool) : Bool := b.1 == .dev && homeDie (64 * b.2.1) == d

/-- The requests of one access are counted. -/
def Ctx.countRequests (c : Ctx) (d : Fin 8) (ps : List Part) : Ctx :=
  let bs := dedup (ps.flatMap Part.blocks) []
  let near := (bs.filter (isLocal d)).length
  { c with
    mrql := c.mrql + BitVec.ofNat 64 near
    mrqr := c.mrqr + BitVec.ofNat 64 (bs.length - near)
    mrqi := c.mrqi + BitVec.ofNat 64 (bs.filter fun b => b.2.2).length }

/-! ### Held stores (18 R429, 06 R151) -/

/-- Bytes of a run laid over bytes read from an address. -/
def overlay (a : Nat) (bs : List Byte) (r : Run) : List Byte :=
  (List.range bs.length).map fun k =>
    if r.addr ≤ a + k ∧ a + k < r.addr + r.bytes.length then r.bytes.getD (a + k - r.addr) 0 else bs.getD k 0

def covers (r : Run) (a : Nat) : Bool := decide (r.addr ≤ a ∧ a < r.addr + r.bytes.length)

/-- The held runs of a context that touch a range of a space, oldest first. -/
def Ctx.heldOver (c : Ctx) (sp : Space) (a n : Nat) : List Run :=
  (c.held.flatMap HeldStore.runs).filter fun r => r.space == sp && decide (r.addr < a + n ∧ a < r.addr + r.bytes.length)

/-- A run cut at 256-byte boundaries: the pieces that one flit carries. -/
def flitRuns : Nat → Nat → List Byte → List (Nat × List Byte)
  | 0, _, _ => []
  | fuel + 1, off, bs =>
    if bs.isEmpty then []
    else
      let k := 256 - off % 256
      (off, bs.take k) :: flitRuns fuel (off + k) (bs.drop k)

/-- A write that a peer performs, as seen at the target, piece by piece (R51, R57, R398). -/
def State.writeAtHome (s : State) (off : Nat) (bs : List Byte) (poison : Bool) : State :=
  if poison then s.devWritePoison off bs else s.writePieces 8 off bs

/-- A run of bytes written to a peer: the loopback performs it at once, a refusal coming back to the
context; another member is sent flits. -/
def State.writePeer (s : State) (id : CtxId) (from_ : Origin) (m : BitVec 9) (off : Nat) (bs : List Byte) (poison : Bool)
    (va : W64) (acc : AccKind) (engine : Option (BitVec 16)) : State :=
  if from_.own.isNone then s.updCtx id Ctx.noMember
  else if from_.isSelf m then
    if peerRefuses off then s.updCtx id fun c => c.pendRefusal va acc from_.issue else s.writeAtHome off bs poison
  else
    (flitRuns (bs.length / 256 + 2) off bs).foldl
      (fun s r => (s.sendPeer id from_ m 1 r.1 (byteEnables r.1 r.2.length) r.2 poison va acc false engine).1) s

/-- Size of the atoms by which a run is cut (01 R37); a loopback's are those of peer memory. -/
def Run.atom (r : Run) : Nat := if r.loop then 8 else atomSize r.space r.addr

/-- A run of bytes with its pieces, each performed alone, in order. -/
def Run.pieces (r : Run) : List (Nat × List Byte) := cutPieces r.atom r.addr r.bytes

/-- A run performed at its home, piece by piece. A store to control space needs firmware's rights, which no task has
(03 R80), so such a run is never held. -/
def State.performRun (s : State) (id : CtxId) (r : Run) : State :=
  match r.space with
  | .dev => r.pieces.foldl (fun s x => s.devWrite x.1 x.2) s
  | .host => r.pieces.foldl (fun s x => s.hostWrite x.1 x.2) s
  | .peer m => s.writePeer id ⟨r.own, r.issue, (s.ctxOf id).asid⟩ m r.addr r.bytes false r.va .store none
  | .ctrl => s

/-- Every held store handed to its home in program order. -/
def State.flushHeld (s : State) (id : CtxId) : State :=
  let runs := (s.ctxOf id).held.flatMap HeldStore.runs
  runs.foldl (fun s r => s.performRun id r) (s.updCtx id fun c => { c with held := [] })

/-- Held stores handed over for a piece that follows them: the boundary is an implicit mark (R428). A bundle whose
operations come to this is a mark, so that within a step the stores have gone home at the boundary before it (log 25). -/
def State.commitEarly (s : State) (id : CtxId) : State :=
  if (s.ctxOf id).held.isEmpty then s
  else { (s.flushHeld id).updCtx id fun c => { c with markDue := true } with early := true }

/-! ### Restart regions (18 R427-R432) -/

/-- The region commits and a new one opens: held stores go home, the checkpoint is taken, and the
read-since-mark and conflict bits clear. -/
def State.mark (s : State) (id : CtxId) : State :=
  (s.flushHeld id).updCtx id fun c =>
    { c with
      ckpt := ⟨c.arch, (c.inflight.map fun x => { x with due := x.due - s.cycle }) ++ c.latches⟩
      pend := c.pend.map fun p => { p with pre := true }
      readT := 0, readV := 0, readK := 0, confT := 0, confV := 0, confK := 0
      markDue := false }

/-- Whether R432 forbids the rollback. -/
def Ctx.conflict (c : Ctx) : Bool := c.confT != 0 || c.confV != 0 || c.confK != 0

/-- The rollback of R431. An `xdot` that runs was issued after the mark: it delivers nothing more. DIRTY bits stay with their tiles, which are not rolled back (log 26); the
results in flight at the mark become latches with the delays they had then. -/
def Ctx.rollback (c : Ctx) : Ctx :=
  let ts := vmapAll c.ckpt.arch.ts fun n x => setBit x shapeDirty ((vget c.arch.ts n).getLsbD shapeDirty)
  { c with
    arch := { c.ckpt.arch with ts := ts }
    inflight := []
    latches := c.ckpt.inflight
    pend := c.pend.filter fun p => p.pre
    streams := c.streams.map fun o => if o.kind.toNat ≤ 1 then { o with void := true } else o
    held := []
    readT := 0, readV := 0, readK := 0, confT := 0, confV := 0, confK := 0
    markDue := false }

/-! ### Checked accesses -/

/-- The buffers through which the pages of an access resolve (03 R79). -/
def State.buffersOf (s : State) (r : Req) (vs : List VRun) : List (Fin 8 × Nat) :=
  (vs.flatMap VRun.parts).filterMap fun v => match (s.findLeaf r v.va).2 with
    | .ok (l, _, _) => if lfPbuf l then some ((pbRef l).1, (pbRef l).2.1) else none
    | .error _ => none

/-- The mark of a publish that waits: an awaited answer of no member. -/
def pubAwait (hd : Fin 8) (idx : Nat) : Await := ⟨BitVec.ofNat 16 (idx + hd.val * 4096), 0x1FF, 0, 8⟩

/-- Whether an operation is a `pub` that waits for earlier pieces or for latched engine operations: it awaits an answer
of no member. -/
def Pend.publishes (p : Pend) : Bool := p.waits.any fun w => w.member == 0x1FF

/-- Whether a context has a publish that waits. -/
def Ctx.publishing (c : Ctx) : Bool := c.pend.any Pend.publishes

/-- Whether a context has a publish of one of some buffers that waits. -/
def Ctx.publishesOne (c : Ctx) (bs : List (Fin 8 × Nat)) : Bool :=
  c.pend.any fun p => bs.any fun b => p.waits.contains (pubAwait b.1 b.2)

/-- Whether a part's piece waits for held stores: strong kind, host or peer (R151). -/
def Part.waitsHeld (p : Part) : Bool := p.loc.space != .dev || lfOrd p.loc.leaf == 0

/-- Every check of an access. Its resolutions through a buffer are strong pieces: they come after the context's held
stores (06 R151, R154) and after its own publish of the buffer, for which the bundle blocks (13 R323); so do the strong,
host and peer pieces of a read, which come after any publish of the context (06 R142, log 104). -/
def State.checkFor (s : State) (id : CtxId) (r : Req) (vs : List VRun) : State × Except PartFault (List Part) :=
  let bs := s.buffersOf r vs
  if (s.ctxOf id).publishesOne bs then (s, .error ⟨0, .waits⟩)
  else
    let x := (if bs.isEmpty then s else s.commitEarly id).checkAccess r vs
    match x.2 with
    | .ok ps => if (s.ctxOf id).publishing && r.rd && ps.any Part.waitsHeld then (s, .error ⟨0, .waits⟩) else x
    | .error _ => x

/-- The checks of an access of a context; when all pass, D is set and the requests are counted. -/
def State.access (s : State) (id : CtxId) (r : Req) (vs : List VRun) : State × Except PartFault (List Part) :=
  match s.checkFor id r vs with
  | (s, .error f) => (s, .error f)
  | (s, .ok ps) =>
    ((s.setDirtyLeaves r ps).updCtx id fun c => c.countRequests id.die ps, .ok ps)

/-- What a read of parts has gathered so far. -/
structure Gather where
  bytes  : List Byte
  poison : Bool
  waits  : List Await
deriving DecidableEq, Repr

/-- Device bytes as a context reads them, its own held stores laid over, and the poisoned units among them: a unit
that a held store covers whole is good (R57, R151). -/
def State.readHeld (s : State) (id : CtxId) (a n : Nat) : List Byte × List Nat :=
  let held := (s.ctxOf id).heldOver .dev a n
  (held.foldl (overlay a) (s.devRead a n),
    (s.badUnits a n).filter fun u => !held.any fun r => decide (r.addr ≤ u ∧ u + unitSize u ≤ r.addr + r.bytes.length))

/-- Poison read through the loopback of 01 R25: recorded by the owner, which names a consumer of its own die by SRC 0 to
5, and, with KIND 4, by the receiving die (02 R58). -/
def State.recordLoop (s : State) (d : Fin 8) (m : BitVec 9) (a n src core : Nat) : State :=
  (s.badUnits a n).foldl (fun s u =>
    (s.recordAt u src d core).recordError d 4 src (if src = 2 then 0 else core) 0 (peerBase + m.toNat * 2 ^ 42 + u)) s

/-- Whether a part lies with another member to which no port has a circuit: what a unit reads of it waits (01 R26, log
30). -/
def State.peerWaits (s : State) (p : Part) : Bool :=
  match p.loc.space with
  | .peer m => s.joist.mvalid && !s.isSelf m && (s.joist.portTo m).isNone
  | _ => false

/-- What another member answers to a unit's read of bytes at an offset: none where it refuses the read (01 R24), else free
bytes (log 30). -/
def State.peerBytes (s : State) (m : BitVec 9) (off n : Nat) : Option (List Byte) :=
  if peerRefuses off || peerRefuses (off + n - 1) then none
  else some ((List.range n).map fun k => Config.peerByte m.toNat (off + k) s.cycle)

/-- One part read for a context's load. -/
def State.readPart (s : State) (id : CtxId) (acc : AccKind) (p : Part) (g : Gather) : State × Gather :=
  let a := p.loc.addr
  match p.loc.space with
  | .dev =>
    let (bs, bad) := s.readHeld id a p.n
    (bad.foldl (fun s u => s.recordAt u 0 id.die id.core) s, ⟨g.bytes ++ bs, g.poison || !bad.isEmpty, g.waits⟩)
  | .host =>
    let bad := s.hostPoisoned id.die a p.n
    let s := if bad then s.hostArrive id.die a p.n 0 id.core else s
    (s, ⟨g.bytes ++ s.hostRead (s.hostAddr id.die a) p.n, g.poison || bad, g.waits⟩)
  | .peer m =>
    if !s.joist.mvalid then (s.updCtx id Ctx.noMember, ⟨g.bytes ++ List.replicate p.n 0, g.poison, g.waits⟩)
    else if s.isSelf m then
      if peerRefuses a then
        (s.updCtx id fun c => c.pendRefusal p.va acc s.cycle, ⟨g.bytes ++ List.replicate p.n 0, g.poison, g.waits⟩)
      else
        let bad := s.poisoned a p.n
        let s := if bad then s.recordLoop id.die m a p.n 0 id.core else s
        (s, ⟨g.bytes ++ s.devRead a p.n, g.poison || bad, g.waits⟩)
    else
      (flitRuns (p.n / 256 + 2) a (List.replicate p.n 0)).foldl
        (fun x r =>
          let (s, seq) := x.1.sendPeer id (x.1.origin (x.1.ctxOf id).asid) m 2 r.1 0 (List.replicate r.2.length 0) false p.va acc true none
          (s, ⟨x.2.bytes ++ r.2, x.2.poison, x.2.waits ++ [⟨seq, m, x.2.bytes.length, r.2.length⟩]⟩))
        (s, g)
  | .ctrl => (s, ⟨g.bytes ++ List.replicate p.n 0, g.poison, g.waits⟩)

/-- The parts of a load read in order. -/
def State.readParts (s : State) (id : CtxId) (acc : AccKind) (ps : List Part) : State × Gather :=
  let s := if ps.any Part.waitsHeld then s.commitEarly id else s
  ps.foldl (fun x p => x.1.readPart id acc p x.2) (s, ⟨[], false, []⟩)

/-- Where a store goes as it is issued: host memory by its bus address (01 R41), and a loopback to a cell of this
package as that cell (01 R25). -/
def State.bind (s : State) (d : Fin 8) (l : Loc) : Space × Nat :=
  match l.space with
  | .host => (.host, s.hostAddr d l.addr)
  | .peer m => if s.isSelf m && !peerRefuses l.addr then (.dev, l.addr) else (.peer m, l.addr)
  | x => (x, l.addr)

/-- The runs that a store of bytes over checked parts makes. -/
def State.storeRuns (s : State) (d : Fin 8) : List Part → List Byte → List Run
  | [], _ => []
  | p :: ps, bs =>
    let x := s.bind d p.loc
    ⟨x.1, x.2, p.va, bs.take p.n, s.joist.own, s.cycle, p.loc.space != x.1⟩ :: s.storeRuns d ps (bs.drop p.n)

/-- The gated store buffer holds one entry for each store operation (R429). -/
def storeLimit : Nat := 64

/-- Mesh hops between two cores (02 R44). -/
def hops (a b : Nat) : Nat := ((a % 4 : Int) - (b % 4 : Int)).natAbs + ((a / 4 : Int) - (b / 4 : Int)).natAbs

/-- Unloaded cycles of a 64-byte load from a place (02 R42). -/
def placeLatency (id : CtxId) (l : Loc) : Nat :=
  match l.space with
  | .dev =>
    let near := decide (homeDie l.addr = id.die)
    match region l.addr with
    | .spad =>
      if !near then 96
      else if homeCore l.addr = id.core then 8
      else 12 + 2 * hops id.core.val (homeCore l.addr).val
    | .hbm => if near then 200 else 280
    | _ => if near then 320 else 400
  | .host => 2000
  | _ => 1200

/-- A load is delivered after the longest of its parts (log 5). -/
def loadLatency (id : CtxId) (ps : List Part) : Nat := (ps.map fun p => placeLatency id p.loc).foldl Nat.max 8

/-! ### Taking a trap (18 R421-R426) -/

/-- A trap's record from the fault of a part (03 R91). KIND and LEVEL of ECCUNC and of a suspension are 0 (log 87). -/
def Ctx.faultRec (c : Ctx) (acc : AccKind) (f : PartFault) : TrapRec :=
  match f.fault with
  | .trap cause kind level => ⟨BitVec.ofNat 8 cause, 0, f.va, finfoOf c kind acc.code level f.va⟩
  | .poison _ => ⟨BitVec.ofNat 8 cECCUNC, 0, f.va, finfoOf c 0 acc.code 0 f.va⟩
  | .scan _ _ _ => ⟨BitVec.ofNat 8 cSCAN, 0, f.va, finfoOf c 0 acc.code 0 f.va⟩
  | .waits => ⟨0, 0, f.va, 0⟩

/-- A cause that carries no address leaves FVA and FINFO as they stand. -/
def Ctx.plainRec (c : Ctx) (cause arg : Nat) : TrapRec := ⟨BitVec.ofNat 8 cause, BitVec.ofNat 16 arg, c.fva, c.finfo⟩

/-- Events a context raises name it and its task. -/
def State.srcOf (s : State) (id : CtxId) : EvSrc :=
  CtxId.src id (match (s.ctxOf id).task with | some n => n.val | none => 0)

/-- What a failed check leaves behind it beside the cause that the access takes: poison that was met is recorded, and the
driver hears of a page that the scanner rejects (02 R58, 03 R70, R82). -/
def State.noteFault (s : State) (id : CtxId) (src core : Nat) (f : XFault) : State :=
  match f with
  | .poison us => s.recordBad us src id.die core
  | .scan frame off check => s.postEvent id.die 0x0D (s.srcOf id) (frame * 65536) (off + check * 65536)
  | .trap _ _ _ => s
  | .waits => s

def State.updTask (s : State) (d : Fin 8) (n : Nat) (f : Task → Task) : State :=
  s.updDie d fun x => { x with tasks := x.tasks.map fun p => if p.1 = n then (p.1, f p.2) else p }

/-- The registration of a wait is dropped: its bit in LWAIT of a barrier of its own die, or its entry of the wait
table. -/
def State.unregister (s : State) (id : CtxId) (w : Option Wait) : State :=
  match w with
  | none => s
  | some w =>
    match w.bar with
    | none => s
    | some pa =>
      if !w.registered then s
      else if homeDie pa = id.die then
        s.devWrite (pa + 16) (leBytes 8 (setBit (s.dev64 (pa + 16)) (CtxId.bitNo id) false).toNat)
      else
        let s := s.updDie id.die fun x => { x with waitTab := x.waitTab.filter fun e => !(e.1 == pa && e.2 == id) }
        if (s.die id.die).waitTab.any fun e => e.1 == pa then s
        else s.devWrite (pa + 9) [setBit ((s.devRead (pa + 9) 1).getD 0 0) id.die.val false]

/-- The waits of a context lose their registrations, that of the bundle put aside by a handler too (07 R176). -/
def State.dropWait (s : State) (id : CtxId) : State := (s.unregister id (s.ctxOf id).wait).unregister id (s.ctxOf id).keepWait

/-- MGEN of the manifest in force. -/
def Joist.mgenNow (j : Joist) : BitVec 8 := match j.manifest with | some m => m.mgen | none => 0

/-- The slot of a die that a context holds with a segment of the manifest in force. -/
def State.heldNow (s : State) (id : CtxId) (seg : Nat) : Option (Fin 8) :=
  (fins 8).find? fun k =>
    let b := vget (s.die id.die).slots k
    b.segid.toNat == seg && b.hold.getLsbD (CtxId.bitNo id) && b.mgen == s.joist.mgenNow

/-- The slot of a die that a context holds with a segment, of an earlier manifest where it holds none of the present one. -/
def State.heldSlot (s : State) (id : CtxId) (seg : Nat) : Option (Fin 8) :=
  match s.heldNow id seg with
  | some k => some k
  | none => (fins 8).find? fun k =>
    let b := vget (s.die id.die).slots k
    b.segid.toNat == seg && b.hold.getLsbD (CtxId.bitNo id)

/-- A hold released (05 R126). -/
def State.dropHold (s : State) (id : CtxId) (k : Fin 8) : State :=
  s.updDie id.die fun x => { x with slots := vupd x.slots k fun b => { b with hold := setBit b.hold (CtxId.bitNo id) false } }

/-- A posted release takes effect. -/
def State.release (s : State) (id : CtxId) (u : Unboard) : State :=
  match s.heldSlot id u.seg.toNat with | some k => s.dropHold id k | none => s

/-- Holds move to PARKED, after the releases that are posted (log 98); one that would pass 0xFFFF is released and
recorded as released (05 R134). -/
def State.parkHolds (s : State) (id : CtxId) : State × List HoldRec :=
  let s := (s.ctxOf id).unboards.foldl (fun s u => s.release id u) (s.updCtx id fun c => { c with unboards := [] })
  (fins 8).foldl
    (fun x k =>
      let b := vget (x.1.die id.die).slots k
      if b.hold.getLsbD (CtxId.bitNo id) then
        let full := b.parked == 0xFFFF#16
        let s := x.1.updDie id.die fun d =>
          { d with slots := vupd d.slots k fun b =>
              { b with hold := setBit b.hold (CtxId.bitNo id) false, parked := if full then b.parked else b.parked + 1 } }
        (s, x.2 ++ [⟨k.val, full, b.bsid⟩])
      else x)
    (s, [])

/-! ### Stream operations and saves (15 R362, R372; 18 R441) -/

/-- Whether an operation is one of the task that runs in a context. -/
def State.owns (s : State) (id : CtxId) (o : EngineOp) : Bool := o.id == id && o.task == (s.ctxOf id).task && !o.orphan

/-- The engine operations outstanding of a context. -/
def State.opsOf (s : State) (id : CtxId) : List EngineOp := (s.die id.die).engOps.filter fun o => s.owns id o

/-- Whether a posted release still awaits an operation that has neither completed nor stopped (R372). -/
def State.unboardWaits (s : State) (id : CtxId) (u : Unboard) : Bool :=
  (u.streams.any fun g => (s.ctxOf id).streams.any fun o => decide (o.kind.toNat ≤ 1) && !o.waiting && o.issue == g) ||
    u.ops.any fun h => (s.opsOf id).any fun o => o.handle == h

/-- The releases that waited for operations which have now completed or stopped (R372). -/
def State.lateUnboards (s : State) (id : CtxId) : State :=
  let us := (s.ctxOf id).unboards
  (us.filter fun u => !s.unboardWaits id u).foldl (fun s u => s.release id u)
    (s.updCtx id fun c => { c with unboards := us.filter (s.unboardWaits id) })

/-- An operation stops at a window, with XPR recorded (R232). -/
def Ctx.stopStream (c : Ctx) (o : StreamOp) : Ctx :=
  if o.void then c
  else { c with xpr := BitVec.ofNat 18 (o.next % 65536 + 65536 + 131072 * b2n (decide (0 < o.next))) }

/-- Whether R432 forbids the rollback now, or will once what is still to be delivered has been. -/
def Ctx.conflictAhead (c : Ctx) : Bool :=
  let hit (r : RegName) : Bool := match r with
    | .t n => c.readT.getLsbD n.toNat
    | .v n => c.readV.getLsbD n.toNat
    | .k n => c.readK.getLsbD n.toNat
    | _ => false
  c.conflict || (c.pend.any fun p => p.regs.any hit) ||
  c.streams.any fun o => decide (o.kind.toNat ≤ 1) && !o.dropped && !o.void && (match o.dst with | .tile n => hit (.t n) | .accum _ => false)

/-- The `xdot`s of a context stop: at once where no window is under way, else at the next window boundary.
The earliest is taken last, so that its record stands in XPR. -/
def State.haltStreams (s : State) (id : CtxId) : State :=
  ((s.ctxOf id).streams.reverse.foldl (fun s o =>
    if 2 ≤ o.kind.toNat then s
    else if o.waiting then s.updCtx id fun c => { c with streams := c.streams.erase o }
    else if o.begun.isEmpty then s.updCtx id fun c => { c.stopStream o with streams := c.streams.erase o }
    else s.updCtx id fun c => { c with streams := updFirst (· == o) (fun o => { o with halting := true }) c.streams }) s).lateUnboards id

/-- A save or a watchdog capture stops the running `xdot`s and is to roll back, unless R432 forbids it: then
it waits for them. -/
def State.stopForSave (s : State) (id : CtxId) : State :=
  let c := s.ctxOf id
  if (c.streams.any fun o => decide (o.kind.toNat ≤ 1)) && !c.conflictAhead then
    (s.updCtx id fun c => { c with rollDue := true }).haltStreams id
  else s

/-- The context gives its core and its task number away and is idle; its registers stay as they are, and its reports
leave the core's 64 entries (09 R222). A freeze that its pin
deferred went into its image (18 R437). -/
def State.freeContext (s : State) (id : CtxId) : State :=
  let pinned := (s.ctxOf id).pin
  let s := s.updCtx id fun c =>
    { c with
      status := .idle, task := none, pin := false, wdRuns := false, yields := false, inflight := [], latches := [], latchPend := [], pend := []
      latchBad := [], held := [], wait := none, kvReq := none, boarding := none, keepWait := none, keepKv := none, keepBoard := none
      waitRegs := [], unboards := [], slotWait := none, trapDue := none, streamFault := none, notices := [], streams := []
      reports := [], xwaited := none
      pendingA := PendingA.none, fencing := false, rollDue := false }
  s.updCore id.die id.core fun k =>
    let k := if pinned then { k with deferred := 0 } else k
    if k.running = some id.ctx then { k with running := none, lastRan := id.ctx } else k

/-- Everything a capture still waits for: a peer's answer, an acknowledgement, a running stream. -/
def State.captureWaits (s : State) (id : CtxId) : Bool :=
  let c := s.ctxOf id
  (c.pend.any fun p => !p.waits.isEmpty) || !c.streams.isEmpty ||
  (s.joist.peerReqs.any fun r => r.of id)

/-- The last part of a capture: the holds of its context move to PARKED, of a capture that can write no image too, and the
task table keeps them for END (17 R419, log 84); pending deliveries land, the image is written by R436 to R440, and the
context becomes idle. The watchdog count of a task that the watchdog stops starts again (log 54). `kind` is the image's
KIND. -/
def State.capture (s : State) (id : CtxId) (n kind : Nat) (noResume : Bool) : State :=
  let s := s.updCtx id fun c => Ctx.settle { c with pend := c.pend.map fun p => { p with due := 0 } } 0
  let s := s.dropWait id
  let (s, holds) := s.parkHolds id
  let d := s.die id.die
  let c := s.ctxOf id
  let i := s.image id 0 holds
  let ok := d.areaOk
  let s := if ok then s.writeImage id n kind noResume i
    else s.postEvent id.die 0x0F (s.srcOf id) n i.length
  let s := s.updCtx id Ctx.clearDirty
  s.updTask id.die n fun t =>
    { t with
      hasImage := t.hasImage || ok, noResume := noResume || !ok || !i.fits d
      cause := field c.cause 0 8, handles := c.handles, statuses := c.statuses, xwaited := c.xwaited
      keepM := c.keepM, keepC := c.keepC, faults := c.pendingA.faults, latchPend := c.latchPend, latchBad := c.latchBad, poison := c.poison
      parked := holds, wdCount := if kind = 2 then 0 else c.wdCount s.cycle }

/-- EN and LIMIT of WDCFG as they act: a write applies from the next cycle (08 R205). -/
def Die.wdNow (x : Die) (now : Nat) : Bool × BitVec 32 := if x.wdAt = now then x.wdOld else (x.wdEn, x.wdLimit)

/-- The watchdog limit of a context in cycles (08 R205). -/
def State.wdLimitOf (s : State) (id : CtxId) : Nat :=
  let c := s.ctxOf id
  let d := s.die id.die
  let period := match c.task.bind fun n => alookup n.val d.tasks with
    | some t => bitsOf (wordAt t.desc 8) 0 32
    | none => 0
  1024 * (if c.persist ∧ period ≠ 0 then period else Nat.max 1 (d.wdNow s.cycle).2.toNat)

/-- A trap whose causes and state are settled is delivered: CAUSE, FVA, FINFO, the image with KIND = 1,
the TRAP event, and the task SUSPENDED (R424 steps 5 and 6). A SCAN is reported by its own event
(03 R82). -/
def State.deliverTrap (s : State) (id : CtxId) (t : TrapRec) : State :=
  let s := s.updCtx id fun c =>
    { c with cause := BitVec.ofNat 64 (t.cause.toNat + 0x10000 * t.arg.toNat), fva := t.fva, finfo := t.finfo, trapDue := none
             pendingA := { c.pendingA with taken := none } }
  let c := s.ctxOf id
  let s :=
    match c.task with
    | none => s
    | some n =>
      let s := s.capture id n.val (if t.cause.toNat = cWATCHDOG then 2 else 1) (t.cause.toNat = cIDEMP)
      s.updTask id.die n.val fun x => { x with state := .suspended, suspendTo := false, saveFor := none }
  let s := if t.cause.toNat = cSCAN then s
    else if t.cause.toNat = cWATCHDOG then s.postEvent id.die 0x02 (s.srcOf id) c.wid.toNat (s.wdLimitOf id)
    else s.postEvent id.die 0x01 (s.srcOf id) c.cause.toNat c.fva.toNat
  s.freeContext id

/-- A class A cause that gives way to a class R fault stays pending, a refusal or an engine fault before those that came
after it (R423); causes of the other classes are raised again when their bundle issues again. -/
def Ctx.repend (c : Ctx) (t : TrapRec) : Ctx :=
  let p := c.pendingA
  let n := t.cause.toNat
  if p.taken.isSome then { c with pendingA := { p with taken := none, faults := p.taken.toList ++ p.faults } }
  else if n = cLINKLOST then { c with pendingA := { p with linkLost := true } }
  else if n = cXREPORT then { c with pendingA := { p with xreport := true } }
  else if n = cBOARDFAULT then { c with pendingA := { p with boardFault := true } }
  else c

/-- The rollback of a class R fault, or IDEMP in its place when R432 forbids it. -/
def State.rollBack (s : State) (id : CtxId) (t : TrapRec) : State × TrapRec :=
  if (s.ctxOf id).conflict then
    (s.updCtx id fun c => { c with held := [], confT := 0, confV := 0, confK := 0 }, { t with cause := BitVec.ofNat 8 cIDEMP })
  else (s.updCtx id Ctx.rollback, t)

/-- The region of a context that is captured without a class R fault: it rolls back where a stopped `xdot`
asks for it, else it commits. -/
def State.closeRegion (s : State) (id : CtxId) : State :=
  let c := s.ctxOf id
  let s := if c.rollDue && !c.conflict then s.updCtx id Ctx.rollback else s.mark id
  s.updCtx id fun c => { c with rollDue := false }

/-- The end of a trap once nothing of the context is outside any more: a stream operation that faulted
meanwhile turns the trap into its class R fault, else the region commits (R424 step 3); then delivery. IDEMP stands: its
rollback was refused already (R432). -/
def State.finishTrap (s : State) (id : CtxId) (t : TrapRec) : State :=
  let (s, t) :=
    match (s.ctxOf id).streamFault with
    | some f =>
      if t.cause.toNat = cIDEMP then (s.updCtx id fun c => { c with streamFault := none }, t)
      else (s.updCtx id fun c => { c.repend t with streamFault := none }).rollBack id f
    | none => (s.closeRegion id, t)
  if s.captureWaits id then s.updCtx id fun c => { c with trapDue := some t } else s.deliverTrap id t

/-- Whether an operation is a receive, which has popped its flit. -/
def Pend.popped (p : Pend) : Bool := match p.form with | .popped _ => true | _ => false

/-- The latches of a receive at a boundary: its writes with the cycles still due, the flags with the first (R425). -/
def Pend.latches (b : Nat) (p : Pend) : List Delivery := p.dues.map fun x => ⟨x.at_ - b, x.w, x.flags⟩

/-- The slots freeze at a context's boundary: what is due by then is delivered, and the fixed-latency
results still in flight go into latches, as do the values of receives (R424 step 2, R425). -/
def State.latch (s : State) (id : CtxId) : State :=
  let k := s.core id.die id.core
  let b := if k.running = some id.ctx then Nat.max s.cycle k.nextIssue else s.cycle
  s.updCtx id fun c =>
    let c := c.settle b
    let kept := c.pend.filter Pend.popped
    { c with
      inflight := [], boarding := none, keepBoard := none
      pend := c.pend.filter fun p => !p.popped
      latches := c.latches ++ (c.inflight.map fun x => { x with due := x.due - b }) ++ kept.flatMap (Pend.latches b)
      latchPend := c.latchPend ++ kept.flatMap Pend.regs
      latchBad := c.latchBad ++ kept.flatMap fun p => (p.writes.filter p.spoils).map Write.reg }

/-- Taking a trap. Class R rolls the region back; every other class commits it at the boundary, once
every `xdot` has ended. The capture then waits for what is still outside (R424). -/
def State.takeTrap (s : State) (id : CtxId) (t : TrapRec) (rollback : Bool) : State :=
  let s := s.latch id
  let (s, t) := if rollback then s.rollBack id t else (s, t)
  let s := s.updCtx id fun c => { c.wdStop s.cycle with status := .saving, trapDue := some t }
  if s.captureWaits id then s else s.finishTrap id t

/-- The watchdog fires (08 R205, 18 R441). -/
def State.fireWatchdog (s : State) (id : CtxId) : State :=
  let t := (s.ctxOf id).plainRec cWATCHDOG 0
  let s := (s.latch id).stopForSave id
  let s := s.updCtx id fun c => { c.wdStop s.cycle with status := .saving, trapDue := some t }
  if s.captureWaits id then s else s.finishTrap id t

/-! ### Saves (17 R417-R420, 18 R436-R441) -/

/-- Whether the scheduler waits to save the task of a context. -/
def State.saveDue (s : State) (id : CtxId) : Bool :=
  match (s.ctxOf id).task.bind fun n => alookup n.val (s.die id.die).tasks with
  | some t => t.state == .saving
  | none => false

/-- A refused save: the task keeps running. After one for a candidate the scheduler looks for a victim again 8 cycles
on (log 99). -/
def State.refuseSave (s : State) (id : CtxId) (n : Nat) (tooBig : Bool) (length : Nat) : State :=
  let s := if tooBig then s.postEvent id.die 0x0F (s.srcOf id) n length else s
  let asked := match alookup n (s.die id.die).tasks with | some t => t.suspendTo | none => false
  let s := s.updDie id.die fun x =>
    { x with schedErr := x.schedErr || asked, saveAt := if asked then x.saveAt else s.cycle + 8 }
  let runs := (s.core id.die id.core).running = some id.ctx
  (s.updTask id.die n fun t => { t with state := .resident, suspendTo := false, saveFor := none }).updCtx id fun c =>
    if c.status != .saving then c
    else if runs then { c.wdGo (s.wdTime id) with status := .running } else { c with status := .ready }

/-- The image of a save, or its refusal where the image or a parked hold does not fit. -/
def State.writeSave (s : State) (id : CtxId) : State :=
  match (s.ctxOf id).task with
  | none => s.freeContext id
  | some n =>
    let s := s.updCtx id fun c => Ctx.settle { c with pend := c.pend.map fun p => { p with due := 0 } } 0
    let (t, holds) := (s.dropWait id).parkHolds id
    let i := t.image id 0 holds
    let d := s.die id.die
    let tooBig := !d.areaOk || !i.fits d
    if tooBig ∨ holds.any HoldRec.released then s.refuseSave id n.val tooBig i.length
    else
      let t := (t.writeImage id n.val 0 false i).updCtx id Ctx.clearDirty
      let c := t.ctxOf id
      let t := t.updTask id.die n.val fun x =>
        { x with
          state := if x.suspendTo then .suspended else .saved
          suspendTo := false, saveFor := none, hasImage := true, noResume := false, seq := d.taskSeq, handles := c.handles
          statuses := c.statuses, xwaited := c.xwaited, keepM := c.keepM, keepC := c.keepC, faults := c.pendingA.faults
          latchPend := c.latchPend, latchBad := c.latchBad, poison := c.poison, parked := holds, wdCount := c.wdCount s.cycle }
      (t.updDie id.die fun x => { x with taskSeq := x.taskSeq + 1 }).freeContext id

/-- The end of a save once nothing of the context is outside any more; a stream operation that faulted
meanwhile takes its trap instead (17 R418). -/
def State.finishSave (s : State) (id : CtxId) : State :=
  match (s.ctxOf id).streamFault with
  | some f => (s.updCtx id fun c => { c with streamFault := none, rollDue := false }).takeTrap id f true
  | none =>
    let s := s.closeRegion id
    if s.captureWaits id then s else s.writeSave id

/-- Whether a save would be refused as the context stands: the length of an image that does not fit, or 0 where a hold
would pass the limit of PARKED (17 R417, 05 R134). -/
def State.saveRefused (s : State) (id : CtxId) : Option (Bool × Nat) :=
  let (t, holds) := ((s.latch id).dropWait id).parkHolds id
  let i := t.image id 0 holds
  let d := s.die id.die
  let tooBig := !d.areaOk || !i.fits d
  if tooBig || holds.any HoldRec.released then some (tooBig, i.length) else none

/-- A save at a boundary of its victim. One that would be refused changes nothing of the context (17 R417). -/
def State.beginSave (s : State) (id : CtxId) : State :=
  match (s.ctxOf id).task, s.saveRefused id with
  | some n, some (tooBig, length) => s.refuseSave id n.val tooBig length
  | _, _ =>
    let s := (s.latch id).stopForSave id
    let s := s.updCtx id fun c => { c.wdStop s.cycle with status := .saving }
    if s.captureWaits id then s else s.finishSave id

/-- A class I trap: the bundle that meets it has issued nothing. -/
def State.trapI (s : State) (cause : Nat) : State :=
  let t := s.cx.plainRec cause 0
  let s := s.takeTrap s.cur t false
  { s with taken := some ⟨t, 0⟩ }

/-- A class R trap: the access has performed nothing. -/
def State.trapR (s : State) (t : TrapRec) : State :=
  let s := s.takeTrap s.cur t true
  { s with taken := some ⟨t, 3⟩ }

/-- A class C trap, at the boundary after the bundle, which has completed: it counts against the quantum and, unless it had
been blocked, as progress (08 R199, R203, R204). -/
def State.trapC (s : State) (t : TrapRec) : State :=
  let s := s.updCx fun c =>
    let c := if c.wasBlocked then c else c.progress s.cycle
    { c with quantum := c.quantum - 1, arch := { c.arch with pc := c.npc, due := none } }
  let s := s.takeTrap s.cur t false
  { s with taken := some ⟨t, 1⟩ }

/-! ### Giving up the core (08 R198-R201) -/

/-- The running context stops at a boundary. -/
def State.giveUp (s : State) (id : CtxId) (st : CtxStatus) : State :=
  let s := s.updCtx id fun c => { (if st = .ready then c.wdStop s.cycle else c) with status := st }
  s.updCore id.die id.core fun k => if k.running = some id.ctx then { k with running := none, lastRan := id.ctx } else k

/-- The next bundle blocks: a pinned context keeps its core, any other gives it up. -/
def State.block (s : State) (id : CtxId) (why : BlockCause) : State :=
  if (s.ctxOf id).pin then s.updCtx id fun c => { c with status := .blocked why, wasBlocked := true }
  else (s.updCtx id fun c => { c with wasBlocked := true }).giveUp id (.blocked why)

/-- An access that a part refuses: class R with its cause, or the suspension of 03 R82, class I, with its SCAN event
when the scanner rejects a page (R422). One that has to wait for a publish of its context blocks. -/
def State.refuse (s : State) (acc : AccKind) (f : PartFault) : State :=
  let s := s.noteFault s.cur 0 s.cur.core f.fault
  let t := s.cx.faultRec acc f
  match f.fault with
  | .scan _ _ _ => { s.takeTrap s.cur t false with taken := some ⟨t, 0⟩ }
  | .waits => s.block s.cur .publish
  | _ => s.trapR t

/-! ### Notices: entry and return (07 R178, R179) -/

/-- The fired notice that is delivered next. -/
def Ctx.firstFired (c : Ctx) : Option Notice := c.pendingNotices.head?

/-- Whether an `xdot` or `xdots` of a context is outstanding, for which a mark waits (R428). -/
def Ctx.dotting (c : Ctx) : Bool := c.streams.any fun o => decide (o.kind.toNat ≤ 1)

/-- Whether what a mark waits for keeps the region of a context from committing: an `xdot` outstanding (R428), or held
stores behind a publish of the context that is not performed (06 R142, log 104). -/
def Ctx.markWaits (c : Ctx) : Bool := c.dotting || (c.publishing && !c.held.isEmpty)

/-- The handler is entered with a fired notice, as at a mark: the region commits, and the new one's checkpoint is the
state with which the handler begins. What the blocked bundle waits for is put aside; a timed operation that stalled
before its due cycle is met anew after it (16 R389). -/
def State.enterHandler (s : State) (id : CtxId) (n : Notice) : State :=
  let point := s.resumePoint id
  (s.updCtx id fun c =>
    let st := match n.fired with | some x => x.setWidth 64 | none => 0
    { c with
      uiret := point
      keepM := c.arch.stickyM, keepC := c.arch.stickyC
      inh := true
      slotWait := if c.slotWait.any SlotWait.flit then c.slotWait else none
      wasBlocked := false
      keepWait := c.wait, keepKv := c.kvReq, keepBoard := c.boarding
      wait := none, kvReq := none, boarding := none
      notices := c.notices.erase n
      arch := { c.arch with
        stickyM := none, stickyC := none, due := none
        hs := vset (vset c.arch.hs 1 (n.tag.setWidth 64)) 2 st
        pc := c.iuvec &&& ~~~3#64 } }).mark id

/-- `uiret`: the saved sticky states come back with what the program's bundle waited for, INH clears, and the program
resumes at UIRET; the region commits, and the bundle resumed is a mark. -/
def State.leaveHandler (s : State) (id : CtxId) : State :=
  let s := s.flushHeld id
  s.updCtx id fun c =>
    { c with
      inh := false
      markDue := true
      keepM := none, keepC := none
      wait := c.keepWait, kvReq := c.keepKv, boarding := c.keepBoard
      keepWait := none, keepKv := none, keepBoard := none
      npc := uiretVa c.uiret
      jumped := true
      nextDue := some (field c.uiret 56 6)
      arch := { c.arch with stickyM := c.keepM, stickyC := c.keepC } }

/-! ### A slot operation -/

/-- Whether an operation reads a poisoned register (02 R56). -/
def Ctx.poisonHit (c : Ctx) (i : Instr) : Bool :=
  !c.poison.isEmpty && (Instr.reads c.names i).any fun r => c.poison.contains r

/-- A slot operation acts only under a true guard (10 R237); one that reads a poisoned register takes
ECCUNC (02 R56). -/
def State.slotOp (s : State) (g : BitVec 4) (i : Instr) (body : State → State) : Host.Outcome State Fault Refusal :=
  .next (if s.rP g then if s.cx.poisonHit i then s.trapI cECCUNC else body s else s)

end Sys2Proof.Machine
end

