-- ==== Sys2Proof/Machine/Issue.lean ====
section
/-! DEFINITION. Issue of a bundle (10 R237-R250; 08 R198-R201; 18 R421, R433, R434): fetch, marks,
pending registers, occupancy and the governor, the slots, and the boundary after them. `Meaning` stands
for the meaning of a slot operation. -/

namespace Sys2Proof.Machine

abbrev Out := Host.Outcome State Fault Refusal
/-- The meaning of every instruction, as `exec` gives it. -/
abbrev Meaning := Instr → State → Out

/-! ### Fetch -/

/-- What a fetch at the pc brings. -/
inductive Fetched where
  | bundle (h : Header) (slots : List (Slot × BitVec 32))
  /-- The word at the pc is no header (R249, R250). -/
  | target
  | fault (f : PartFault)
deriving DecidableEq, Repr

/-- Code bytes through translation, each part by itself. -/
def State.fetchParts (s : State) (id : CtxId) : List VRun → List Byte → State × Except PartFault (List Byte)
  | [], acc => (s, .ok acc)
  | v :: vs, acc =>
    match s.checkPart ((s.ctxOf id).req id .fetch true false) v.va v.n none with
    | (s, .error f) => (s, .error ⟨v.va, f⟩)
    | (s, .ok l) =>
      match s.badUnits l.addr v.n with
      | [] => s.fetchParts id vs (acc ++ s.devRead l.addr v.n)
      | us => (s, .error ⟨v.va, .poison us⟩)

def State.fetchBytes (s : State) (id : CtxId) (va : W64) (n : Nat) : State × Except PartFault (List Byte) :=
  s.fetchParts id (cutRun 3 va n) []

/-- The bundle at the pc of a context. -/
def State.fetch (s : State) (id : CtxId) : State × Fetched :=
  let va := (s.ctxOf id).arch.pc
  match s.fetchBytes id va 4 with
  | (s, .error f) => (s, .fault f)
  | (s, .ok hd) =>
    match (wordsOf hd).head? with
    | none => (s, .target)
    | some w =>
      if va.toNat % 4 ≠ 0 then (s, .target)
      else
        match decodeHeader w with
        | none => (s, .target)
        | some h =>
          if h.present = [] then (s, .bundle h [])
          else
            match s.fetchBytes id va h.size with
            | (s, .error f) => (s, .fault f)
            | (s, .ok bs) =>
              match decodeBundle bs with
              | none => (s, .target)
              | some (h, ws) => (s, .bundle h ws)

/-! ### What of a bundle issues -/

/-- One operation of an issue: its slot, its operation, and whether it is a sticky re-issue. -/
structure Op where
  slot    : Slot
  instr   : Instr
  reissue : Bool
deriving DecidableEq, Repr

/-- The sticky states after CLR (R241). -/
def clearM (h : Header) (x : Option (BitVec 32)) : Option (BitVec 32) := if h.clr.getLsbD 1 then none else x
def clearC (h : Header) (x : Option (BitVec 32)) : Option (BitVec 32) := if h.clr.getLsbD 5 then none else x

/-- The sticky state after an issue (R240): a present steppable word, nothing after another present
operation, and what it was for an absent slot. -/
def stickyAfter (sl : Slot) (u : CodeUnit) (ws : List (Slot × BitVec 32)) (old : Option (BitVec 32)) : Option (BitVec 32) :=
  match ws.find? fun x => x.1 == sl with
  | none => old
  | some x => match decodeRun u x.2 with
    | some i => if i.steppable then some x.2 else none
    | none => none

/-- The re-issue of a sticky state in a bundle that does not name its slot (R241, R242). -/
def reissueOf (h : Header) (sl : Slot) (u : CodeUnit) (x : Option (BitVec 32)) (taken : List (BitVec 4)) : List Op :=
  match x with
  | none => []
  | some w =>
    if h.has sl then []
    else match decodeRun u w with
      | some i => [⟨sl, taken.foldl (fun i a => i.noAdvance a) i, true⟩]
      | none => []

/-- The place of a slot in the order of R235. -/
def slotPlace : Slot → Nat
  | .s => 0 | .m => 1 | .va => 2 | .vb => 3 | .x => 4 | .c => 5

/-- The operations of an issue in slot order. -/
def issueOps (c : Ctx) (h : Header) (ws : List (Slot × BitVec 32)) : List Op :=
  let present := ws.filterMap fun x => (decodeRun x.1.unit x.2).map fun i => (⟨x.1, i, false⟩ : Op)
  let addr := (present.filter fun o => c.rP o.instr.guard).filterMap fun o => o.instr.writesAddr
  let m := reissueOf h .m .m (clearM h c.arch.stickyM) addr
  let x := reissueOf h .c .c (clearC h c.arch.stickyC) addr
  (present.filter fun o => o.slot == .s) ++ m ++ (present.filter fun o => o.slot != .s) ++ x

/-- The operations whose guard is true. -/
def liveOps (c : Ctx) (ops : List Op) : List Op := ops.filter fun o => c.rP o.instr.guard

/-! ### Time of a core -/

def State.setNext (s : State) (d : Fin 8) (c : Fin 16) (t : Nat) : State := s.updCore d c fun k => { k with nextIssue := t }

/-- The counts and deliveries of a context whose core is frozen from a cycle on, at GTIME `g`, until a later one: each
delivery moves by what the freeze adds, pins and the watchdog count stand still, and a timed operation that has not met
its slot time is ready after it (16 R391). -/
def Ctx.freeze (c : Ctx) (now g by_ till : Nat) : Ctx :=
  { c with
    inflight := c.inflight.map fun x => if now < x.due then { x with due := x.due + by_ } else x
    pinStart := c.pinStart + by_
    wdHeld := c.wdCount now
    wdStart := till
    slotWait := c.slotWait.map fun w => if w.flit then w else { w with ready := Nat.max w.ready (g + (till - now)) } }

/-- A freeze of a core for n cycles from a cycle on, at GTIME `g` (18 R433): deliveries and issues move later, and the
counts of pins and of the watchdog stand still. Overlapping freezes end at the later end. A stall for a slot time ends
at that time, or with the freeze. -/
def Core.freeze (k : Core) (now g n : Nat) : Core :=
  let old := Nat.max now k.frozenUntil
  let till := Nat.max old (now + n)
  let by_ := till - old
  let stalls : Bool := match k.running with | some x => (vget k.ctxs x).slotWait.any fun w => !w.flit | none => false
  { k with
    frozenUntil := till
    nextIssue := if stalls then Nat.max k.nextIssue till else Nat.max k.nextIssue now + by_
    vaFree := if now < k.vaFree then k.vaFree + by_ else k.vaFree
    vbFree := if now < k.vbFree then k.vbFree + by_ else k.vbFree
    ctxs := vmapAll k.ctxs fun _ c => c.freeze now g by_ till }

/-- Current weight of the issues of the 63 cycles before one (19 R456). -/
def weightAt (l : List (Nat × Nat)) (t : Nat) : Nat :=
  ((l.filter fun x => decide (x.1 < t ∧ t ≤ x.1 + 63)).map Prod.snd).foldl (· + ·) 0

/-- CLIM as it acts: a write applies to issues from the next cycle (19 R456). -/
def Core.limit (k : Core) (now : Nat) : Nat := Nat.max 26 (if k.climAt = now then k.climOld else k.clim).toNat

/-- Cycles that the governor freezes before a bundle of a weight issues (18 R434). -/
def Core.governor (k : Core) (now w : Nat) : Nat :=
  ((List.range 65).find? fun n => decide (weightAt k.weights (now + n) + w ≤ k.limit (now + n))).getD 64

/-! ### Blocked contexts (08 R198-R201) -/

/-- Pieces of a context at peers that are not performed or not answered. -/
def State.peerPieces (s : State) (id : CtxId) : Nat := (s.joist.peerReqs.filter fun r => r.of id).length

/-- Whether a fired notice may take a context into its handler: not in a handler, not pinned, notices delivered at all
(IUVEC.EN, 07 R180), and nothing for which the mark of the entry waits (07 R178, 18 R428). -/
def Ctx.entryDue (c : Ctx) : Bool := c.firstFired.isSome && bit c.iuvec 0 && !c.inh && !c.pin && !c.markWaits

/-- The limit of 15 R353 on engine operations outstanding. -/
def State.engineFull (s : State) (id : CtxId) : Bool := decide (8 ≤ (s.opsOf id).length)

/-- GUARD as it acts: 16 to 256, and as it was in the cycle of a write (16 R382). -/
def State.guard (s : State) : Nat :=
  let j := s.joist
  let g := if j.gtGuardAt = s.cycle then j.gtGuardOld else j.gtGuard
  Nat.min 256 (Nat.max 16 g.toNat)

/-- Whether a receive that waits may go on: its flit heads the queue behind stale ones, or its guard is past (16 R387,
R389). -/
def State.receiveDue (s : State) (id : CtxId) : Bool :=
  match (s.ctxOf id).slotWait with
  | none => true
  | some w =>
    (((vget (s.core id.die id.core).channels w.ch).queue.dropWhile fun f => decide (f.stamp.toNat < w.stamp.toNat)).head?.any
      fun f => f.stamp == w.stamp) || decide (w.slot + s.guard < s.gtime)

/-- Whether the cause of a block stands no longer, so that the bundle may issue (08 R198). The causes whose end other
units decide are told by what those units leave in the context. -/
def State.causeGone (s : State) (id : CtxId) (why : BlockCause) : Bool :=
  let c := s.ctxOf id
  match why with
  | .pending => !c.waitRegs.any c.isPending
  | .halt => false
  | .receive => s.receiveDue id
  | .boarding => match c.boarding with | some b => b.done.isSome || b.fault | none => true
  | .barrier => match c.wait with | some w => w.result.isSome || w.bar.isNone | none => true
  | .notice => decide ((c.notices.filter fun n => n.fired.isNone).length < 8)
  | .blockTable =>
    match c.kvReq with
    | some q => (s.die id.die).kvReqs.all fun r => r.num != q.num || r.status.isSome
    | none => true
  | .mark => !c.dotting && !c.publishing
  | .publish => !c.publishing
  | .copy (some h) => !(s.opsOf id).any fun o => o.handle == h
  | .copy none => (s.opsOf id).isEmpty
  | .streamQueue => decide (c.streams.length < 4)
  | .engineQueue => !s.engineFull id
  | .xwait => c.streams.isEmpty
  | .report => !c.reports.isEmpty || c.streams.isEmpty

/-- A blocked context is ready: its bundle tries again, or its handler is entered. -/
def State.unblock (s : State) (id : CtxId) : State :=
  s.updCtx id fun c =>
    match c.status with
    | .blocked .halt => c
    | .blocked _ => if c.pin then { c with status := .running } else { c.wdStop s.cycle with status := .ready }
    | _ => c

/-- A blocked context whose cause has cleared is ready, and so is one whose handler is due (07 R178). -/
def State.wake (s : State) (id : CtxId) : State :=
  match (s.ctxOf id).status with
  | .blocked why => if s.causeGone id why || (s.ctxOf id).entryDue then s.unblock id else s
  | _ => s

def Ctx.isBlocked (c : Ctx) : Bool := match c.status with | .blocked _ => true | _ => false

/-- Whether another context of the core is ready. -/
def State.otherReady (s : State) (id : CtxId) : Bool :=
  (fins 4).any fun x => x != id.ctx && (s.ctxOf ⟨id.die, id.core, x⟩).status == .ready

/-- The contexts of a core in the order x + 1, x + 2, x + 3, x (R199). -/
def nextCtxs (x : Fin 4) : List (Fin 4) := [x + 1, x + 2, x + 3, x]

/-- The first ready context in order takes the core; its first bundle issues 2 cc after the boundary. -/
def State.switchIn (s : State) (d : Fin 8) (c : Fin 16) : State :=
  let k := s.core d c
  match k.running with
  | some _ => s
  | none =>
    match (nextCtxs k.lastRan).find? fun x => (s.ctxOf ⟨d, c, x⟩).status == .ready with
    | none => s
    | some x =>
      let t := s.wdTime ⟨d, c, x⟩
      let s := s.updCtx ⟨d, c, x⟩ fun c => { c.wdGo t with status := .running, quantum := 4096 }
      s.updCore d c fun k => { k with running := some x, nextIssue := Nat.max s.cycle k.nextIssue + 2 }

/-- A pin ends: the deferred freeze is taken (18 R434), and a bundle that blocks gives up the core with its cause. A quantum
that has run out takes effect at the boundary (08 R201). -/
def State.unpinNow (s : State) (id : CtxId) : State :=
  if (s.ctxOf id).pin then
    let s := s.updCtx id fun c => { c with pin := false }
    let k := s.core id.die id.core
    let n := k.deferred
    let s := s.updCore id.die id.core fun k =>
      let at_ := Nat.max s.cycle k.nextIssue
      { k.freeze at_ (s.gtime + (at_ - s.cycle)) n with deferred := 0, frzGov := satAdd k.frzGov n }
    match (s.ctxOf id).status with
    | .blocked why => s.giveUp id (.blocked why)
    | _ => s
  else s

/-! ### STALLCHK (R247) -/

/-- FILE and REG of a register, for the files that SBCTL names. -/
def RegName.file : RegName → Option (Nat × Nat)
  | .s n => some (0, n.toNat) | .hs n => some (0, n.toNat) | .p n => some (1, n.toNat) | .hp n => some (1, n.toNat)
  | .a n => some (2, n.toNat) | .d n => some (3, n.toNat) | .t n => some (4, n.toNat) | .v n => some (5, n.toNat)
  | .k n => some (6, n.toNat) | _ => none

/-- A violation: slot, file, register, cycles missing. -/
structure Short where
  slot : Nat
  file : Nat
  reg  : Nat
  n    : Nat
deriving DecidableEq, Repr

/-- The first violation of one operation; one whose guard is false can only miss its guard (R237). -/
def Ctx.shortOf (c : Ctx) (k : Core) (now : Nat) (o : Op) : Option Short :=
  let pos := slotPlace o.slot
  let at_ (r : RegName) (n : Nat) : Option Short := r.file.map fun f => ⟨pos, f.1, f.2, n⟩
  let guardReg := [c.nameP o.instr.guard]
  let reads := (guardReg ++ (if c.rP o.instr.guard then Instr.reads c.names o.instr else [])).filter fun r => !r.discards
  let late := reads.findSome? fun r =>
    (c.inflight.find? fun x => x.w.reg == r && decide (now < x.due)).bind fun x => at_ r (x.due - now)
  match late with
  | some x => some x
  | none =>
    if !c.rP o.instr.guard then none
    else
      let early := o.instr.stated.bind fun l =>
        let done := now + l + o.instr.occ c - 1
        ((Instr.writes c.names o.instr).filter fun r => !r.discards).findSome? fun r =>
          (c.inflight.find? fun x => x.w.reg == r && decide (done < x.due)).bind fun x => at_ r (x.due - done)
      match early with
      | some x => some x
      | none =>
        if o.slot = .va ∧ now < k.vaFree then some ⟨pos, 7, 0, k.vaFree - now⟩
        else if o.slot = .vb ∧ now < k.vbFree then some ⟨pos, 7, 0, k.vbFree - now⟩
        else none

def Ctx.firstShort (c : Ctx) (k : Core) (now : Nat) (ops : List Op) : Option Short := ops.findSome? fun o => c.shortOf k now o

def Ctx.recordShort (c : Ctx) (x : Short) : Ctx :=
  { c with sbctl := setField (setField (setField (setField c.sbctl 2 3 x.slot) 5 3 x.file) 8 6 x.reg) 14 18 (Nat.min x.n 0x3FFFF) }

/-! ### The slots -/

/-- Reads of tiles, lines and masks since the mark (18 R432). -/
def Ctx.noteReads (c : Ctx) (rs : List RegName) : Ctx :=
  rs.foldl (fun c r => match r with
    | .t n => { c with readT := setBit c.readT n.toNat true }
    | .v n => { c with readV := setBit c.readV n.toNat true }
    | .k n => { c with readK := setBit c.readK n.toNat true }
    | _ => c) c

/-- The stop that an operation met, if any: a class I or R trap, or a block. -/
def State.stopped (s : State) : Bool :=
  match s.taken with
  | some t => t.cls != 1
  | none => s.stalled ||
    match s.cx.status with
    | .blocked .halt => false
    | .blocked _ => true
    | _ => false

/-- The operations run one after another on one state; the first that stops is told apart. -/
def runOps (run : Meaning) : List Op → State → Out × Option Op
  | [], s => (.next s, none)
  | o :: os, s =>
    match run o.instr s with
    | .next s' => if s'.stopped then (.next s', some o) else runOps run os s'
    | .fault f => (.fault f, none)
    | .refused r => (.refused r, none)

/-- Whether an operation hands a request over now: it has none under way, and its status is not settled at issue. One that
takes its status delivers it in its slot's place (10 R249, 13 R311). -/
def State.handsNow (s : State) (i : Instr) : Bool :=
  let asks (r : BitVec 4) : Bool := s.cx.kvReq.isNone && bit (s.die s.cur.die).kvcfg 0 && (s.rA r).toNat % 8 == 0
  match i with
  | .kvapp _ _ r _ => asks r
  | .kvfree _ r _ => asks r
  | _ => false

/-- Operations in the order of their effects: a request to the block-table unit is handed over once every other slot
of the bundle would issue (13 R311), and those that act at the boundary come last. -/
def State.runOrder (s : State) (ops : List Op) : List Op :=
  (ops.filter fun o => !o.instr.atBoundary && !s.handsNow o.instr) ++ (ops.filter fun o => s.handsNow o.instr) ++
    (ops.filter fun o => o.instr.atBoundary)

/-- What a bundle that an operation stops does: the operation does it alone. A request that comes before it in slot
order and would trap stops the bundle first. -/
def stopBundle (run : Meaning) (live : List Op) (o : Op) (s : State) : Out :=
  match live.find? fun x => x.instr.hands && decide (slotPlace x.slot < slotPlace o.slot) with
  | none => run o.instr s
  | some x =>
    match run x.instr s with
    | .next t => if t.taken.isSome then .next t else run o.instr s
    | y => y

/-! ### One issue -/

/-- The vector units are occupied by an issue (R246). -/
def State.occupy (s : State) (id : CtxId) (occA occB t : Nat) : State :=
  s.updCore id.die id.core fun k =>
    { k with
      vaFree := if occA = 0 then k.vaFree else t + occA
      vbFree := if occB = 0 then k.vbFree else t + occB }

/-- The boundary after an issue: the issues still due, the next bundle or the transfer's target, the
quantum, the watchdog (a bundle that was blocked is no progress, 08 R204) and the units. -/
def State.closeBundle (s : State) (id : CtxId) (h : Header) (occA occB : Nat) (t : Nat) : State :=
  let c := s.ctxOf id
  let from_ := Nat.max t (s.core id.die id.core).frozenUntil
  let left := match c.arch.due with | some n => Nat.min n.toNat h.rep.toNat | none => h.rep.toNat
  let s := s.updCtx id fun c =>
    { c with
      jumped := false
      nextDue := none
      quantum := c.quantum - 1
      wdStart := if c.wasBlocked then c.wdStart else from_
      wdHeld := if c.wasBlocked then c.wdHeld else 0
      wasBlocked := false
      arch :=
        if c.jumped ∨ left = 0 then { c.arch with pc := c.npc, due := if c.jumped then c.nextDue else none }
        else { c.arch with due := some (BitVec.ofNat 6 (left - 1)) } }
  (s.updCore id.die id.core fun k => { k with nextIssue := k.nextIssue + (if c.jumped then 2 else 0) }).occupy id occA occB t

/-- M-slot operations issued and not complete (13 R300): those that deliver, and those with a write at a peer, one for
each cycle of issue. -/
def State.outstanding (s : State) (id : CtxId) : Nat :=
  ((s.ctxOf id).pend.filter fun p => p.mslot).length +
    (dedup ((s.joist.peerReqs.filter fun r => r.of id && !r.read).map fun r => r.issue) []).length

def usesMXC (ops : List Op) : Bool := ops.any fun o => o.slot == .m || o.slot == .x || o.slot == .c

/-- Whether an operation is the return of a handler. -/
def Op.returns (o : Op) : Bool := match o.instr with | .uiret _ => true | _ => false

/-- Whether an operation is an `xdot` or `xdots`. -/
def Op.dots (o : Op) : Bool := match o.instr with | .xdot .. | .xdots .. => true | _ => false

/-- Whether a bundle is a mark (18 R427, R428; R239); `uiret` commits its region as one does (07 R178), and so does an
`xdot` whose reads come after stores that are held (15 R354, log 97). -/
def needsMark (c : Ctx) (h : Header) (ops : List Op) : Bool :=
  (h.mark && c.arch.due.isNone) || (ops.any fun o => o.instr.implicitMark) || (c.inh && ops.any Op.returns) ||
    (!c.held.isEmpty && (liveOps c ops).any Op.dots)

/-- The latches of a resumed context are due relative to the cycle in which its first bundle issues (18 R426), those of
receives as pending results (16 R390). A first bundle that reads one of those arms them itself, for it issues after them
(log 107). -/
def Ctx.armLatches (c : Ctx) (now : Nat) : Ctx :=
  if c.latches.isEmpty then c
  else
    let (held, fixed) := c.latches.partition fun x => c.latchPend.contains x.w.reg
    { c with
      latches := [], latchPend := [], latchBad := []
      inflight := c.inflight ++ fixed.map fun x => { x with due := now + x.due }
      pend := c.pend ++ held.map fun x => ⟨now + x.due, [], [], .popped [x.w], x.flags, c.latchBad.contains x.w.reg, [], false, false⟩ }

/-- Why a bundle cannot issue now, and what that does; none when it issues (R198, R246, R247, R300,
R319, R434). -/
def State.holdUp (s : State) (ops : List Op) : Option State :=
  let id := s.cur
  let c := s.cx
  let k := s.myCore
  let now := s.cycle
  let live := liveOps c ops
  let busy (sl : Slot) (free : Nat) : Bool := (live.any fun o => o.slot == sl) && decide (now < free)
  let w := (ops.map fun o => o.instr.weight).foldl (· + ·) 0
  if (live.any fun o => o.instr.lasting) && decide (32 ≤ s.outstanding id) then some (s.setNext id.die id.core (now + 1))
  else if c.fencing && usesMXC live && decide (0 < s.peerPieces id) then some (s.setNext id.die id.core (now + 1))
  else if live.any fun o => (Instr.reads c.names o.instr).any c.isPending then
    some ((s.updCx fun c =>
      let rs := live.flatMap fun o => Instr.reads c.names o.instr
      { (if rs.any c.latchPend.contains then c.armLatches now else c) with waitRegs := rs }).block id .pending)
  else
    match (if bit c.sbctl 0 then c.firstShort k now ops else none) with
    | some x => some ((s.updCx fun c => c.recordShort x).trapI cSTALLCHK)
    | none =>
      if busy .va k.vaFree || busy .vb k.vbFree then
        let t := Nat.max (if busy .va k.vaFree then k.vaFree else 0) (if busy .vb k.vbFree then k.vbFree else 0)
        let s := s.updCx fun c => { c with sbctl := setField c.sbctl 32 16 (satAdd (field c.sbctl 32 16) 1).toNat }
        some (s.setNext id.die id.core t)
      else if k.governor now w ≠ 0 ∧ !c.pin then
        let n := k.governor now w
        some (s.updMyCore fun k => { k.freeze now s.gtime n with frzGov := satAdd k.frzGov n })
      else none

/-- A pinned context issues above CLIM, and the freeze is deferred (18 R434). -/
def State.deferFreeze (s : State) (ops : List Op) : State :=
  let n := s.myCore.governor s.cycle ((ops.map fun o => o.instr.weight).foldl (· + ·) 0)
  if n = 0 then s
  else s.updMyCore fun k => { k with deferred := Nat.max k.deferred n, frzDefer := satAdd k.frzDefer 1 }

/-- The state in which the slots of a bundle act: the next issue's cycle, the next bundle, the sticky
states, the reads since the mark and the weights are set. -/
def State.openBundle (s : State) (h : Header) (ws : List (Slot × BitVec 32)) (ops : List Op) : State :=
  let now := s.cycle
  let s := s.deferFreeze ops
  let s := s.updCx fun c =>
    let c := c.noteReads ((liveOps c ops).flatMap fun o => Instr.reads c.names o.instr)
    { c with
      npc := c.arch.pc + BitVec.ofNat 64 h.size
      opened := c.inflight.length
      arch := { c.arch with
        stickyM := stickyAfter .m .m ws (clearM h c.arch.stickyM)
        stickyC := stickyAfter .c .c ws (clearC h c.arch.stickyC) } }
  s.updMyCore fun k =>
    { k with
      nextIssue := now + 1 + h.stall.toNat
      weights := (k.weights.filter fun x => decide (now ≤ x.1 + 63)) ++ (ops.map fun o => (now, o.instr.weight)) }

/-- Occupancy of a vector unit by an issue (R246). -/
def occOf (c : Ctx) (sl : Slot) (live : List Op) : Nat :=
  ((live.filter fun o => o.slot == sl).map fun o => o.instr.occ c).foldl Nat.max 0

/-- Whether an operation of a bundle, performed on its own, hands held stores over for a piece that follows them: the
bundle is then an implicit mark, before which the region commits (06 R151, 18 R428, log 25). -/
def wantsCommit (run : Meaning) (live : List Op) (s : State) : Bool :=
  !s.cx.held.isEmpty && live.any fun o => (o.slot == .m || o.slot == .x) &&
    match run o.instr { s with early := false } with
    | .next t => t.early
    | _ => false

/-- Whether an operation comes after a publish of its context that is not performed yet: a fence, and every operation
that is an implicit mark or an `xdot` (06 R142, 15 R354, log 104). -/
def Op.afterPub (o : Op) : Bool := o.instr.implicitMark || o.dots || (match o.instr with | .fence .. => true | _ => false)

/-- A SYS fence is complete once every earlier piece of the context has been performed (06 R143). -/
def State.endFence (s : State) (id : CtxId) : State :=
  if (s.ctxOf id).fencing ∧ s.peerPieces id = 0 then s.updCtx id fun c => { c with fencing := false } else s

/-- One issue of a bundle by the running context: the mark before it, which blocks while an `xdot` runs, or the implicit
mark that is due at the first boundary without one (18 R428), what may hold it up, its operations, and its boundary. When an operation stops the bundle, nothing of it issues, and what
happens is what that operation does alone. -/
def issueBundle (run : Meaning) (h : Header) (ws : List (Slot × BitVec 32)) (s : State) : Out :=
  let id := s.cur
  let s := s.endFence id
  let ops := issueOps s.cx h ws
  let live := liveOps s.cx ops
  let marking := needsMark s.cx h ops || wantsCommit run live s
  if (marking && s.cx.markWaits) || (s.cx.publishing && live.any Op.afterPub) then .next (s.block id .mark)
  else
    let s := if marking || (s.cx.markDue && !s.cx.markWaits) then s.mark id else s
    match s.holdUp ops with
    | some t => .next t
    | none =>
      match runOps run (s.runOrder live) ((s.updCx fun c => c.armLatches s.cycle).openBundle h ws ops) with
      | (_, some o) => stopBundle run live o s
      | (.next t, none) =>
        if t.taken.isSome then .next (t.occupy id (occOf s.cx .va live) (occOf s.cx .vb live) s.cycle)
        else .next (t.closeBundle id h (occOf s.cx .va live) (occOf s.cx .vb live) s.cycle)
      | (x, none) => x

/-! ### A turn of a core -/

/-- The first pending class A cause in the order of 18 R423, and the context without it. -/
def Ctx.nextA (c : Ctx) : Option (TrapRec × Ctx) :=
  let p := c.pendingA
  if p.linkLost then some (c.plainRec cLINKLOST 0, { c with pendingA := { p with linkLost := false } })
  else match p.faults with
    | f :: fs => some (f.trap, { c with pendingA := { p with faults := fs, taken := some f } })
    | [] =>
      if p.boardFault then some (c.plainRec cBOARDFAULT 0, { c with pendingA := { p with boardFault := false } })
      else if p.xreport then some (c.plainRec cXREPORT 0, { c with pendingA := { p with xreport := false } })
      else none

/-- Whether the quantum of a context ends at its boundary: it has run out, or its bundle held a `yield` (08 R199, 12
R289). -/
def Ctx.quantumOver (c : Ctx) : Bool := (c.quantum == 0 || c.yields) && !c.pin

/-- What is due at the boundary before a bundle, other than the bundle's own traps: none when the
bundle may go on to issue, as it does while a handler's entry waits for results in flight (log 94). `trap` tells that the
next bundle takes a class I trap, which goes before a save (17 R418). The entry commits
the region as a mark does, and waits as one does (07 R178, 18 R428). -/
def State.boundary (s : State) (id : CtxId) (trap : Bool) : Option State :=
  let c := s.ctxOf id
  let d := s.die id.die
  match c.streamFault, c.nextA with
  | some t, _ => some ((s.updCtx id fun c => { c with streamFault := none }).takeTrap id t true)
  | none, some (t, c') => some ((s.updCtx id fun _ => c').takeTrap id t false)
  | none, none =>
    if c.pin ∧ Nat.max 1 d.pinmax.toNat ≤ s.cycle - c.pinStart then
      some ((s.unpinNow id).updCtx id fun c => { c with pinOvr := true })
    else if !c.pin ∧ s.saveDue id ∧ !trap then some (s.beginSave id)
    else if c.quantumOver && s.otherReady id then some ((s.updCtx id fun c => { c with yields := false }).giveUp id .ready)
    else if c.inh || c.pin || !c.inflight.isEmpty || !c.latches.isEmpty || !bit c.iuvec 0 then none
    else c.firstFired.map fun n => if c.markWaits then s.block id .mark else s.enterHandler id n

/-- Whether an outcome is a class I trap. -/
def trapsI : Out → Bool
  | .next t => t.taken.any fun x => x.cls == 0
  | _ => false

/-- The running context of a core goes on to its next boundary and issues; a core without one takes a ready
context in. -/
def State.turn (run : Meaning) (s : State) (d : Fin 8) (c : Fin 16) : Out :=
  let k := s.core d c
  match k.running with
  | none => .next (s.switchIn d c)
  | some x =>
    let id : CtxId := ⟨d, c, x⟩
    let s := { s.advance k.nextIssue with cur := id, taken := none, stalled := false, early := false }
    let s := s.updCx fun c => c.settle s.cycle
    match s.fetch id with
    | (s, .target) =>
      match s.cx.streamFault with
      | some t => .next ((s.updCx fun c => { c with streamFault := none }).takeTrap id t true)
      | none => .next (s.takeTrap id ⟨BitVec.ofNat 8 cTARGET, 0, s.cx.arch.pc, s.cx.finfo⟩ false)
    | (s, .bundle h ws) =>
      match s.boundary id (s.saveDue id && trapsI (issueBundle run h ws s)) with
      | some t => .next t
      | none => issueBundle run h ws (s.updCx fun c => { c with yields := false })
    | (s, .fault f) =>
      match s.boundary id true with
      | some t => .next t
      | none => .next ((s.noteFault id 0 c f.fault).takeTrap id (s.cx.faultRec .fetch f) false)

/-- Whether a core may take a turn: a context runs and is not waiting, or one is ready. -/
def Core.canRun (k : Core) : Bool :=
  match k.running with
  | some x => (vget k.ctxs x).status == .running
  | none => (fins 4).any fun x => (vget k.ctxs x).status == .ready

/-- Places within a cycle, in the order of 07 R166 and 02 R46: events that come before the issues, publishes of the core that
owns the descriptor's bank, engines, the boarding unit, publishes of other cores of the die and of other dies, the other
issues, and the events that come after them (log 3). -/
def rankOwner : Nat := 8
def rankEngine : Nat := 16
def rankBoard : Nat := 24
def rankDie : Nat := 32
def rankFar : Nat := 40
def rankIssue : Nat := 48
def rankAfter : Nat := 56
/-- Places in time of one cycle. -/
def placesPer : Nat := 64

/-- The place of a core's publish of a buffer (02 R46). -/
def State.pubPlace (s : State) (d : Fin 8) (c : Fin 16) (hd : Fin 8) (idx : Nat) : Nat :=
  if hd ≠ d then rankFar else if homeCore ((s.die hd).pbAddr idx) = c then rankOwner else rankDie

/-- The place within its cycle of a core's next issue: that of a publish, when its bundle holds a `pub` that reaches a buffer. A
page that is still to be walked brings no bundle in this cycle. -/
def State.issuePlace (s : State) (d : Fin 8) (c : Fin 16) : Nat :=
  match (s.core d c).running with
  | none => rankIssue
  | some x =>
    let id : CtxId := ⟨d, c, x⟩
    let k := s.ctxOf id
    if (s.cachedLeaf (k.req id .fetch true false) k.arch.pc).isNone then rankIssue
    else
      match (s.fetch id).2 with
      | .bundle _ ws =>
        ((ws.filterMap fun w => match decodeRun w.1.unit w.2 with
          | some (.pub _ _ r) => match (s.findLeaf (k.req id .store false false) (vget k.arch.a r.toFin)).2 with
            | .ok (leaf, _, _) => if lfPbuf leaf then some (s.pubPlace d c (pbRef leaf).1 (pbRef leaf).2.1) else none
            | .error _ => none
          | _ => none).head?).getD rankIssue
      | _ => rankIssue

/-- Of some cores the one whose next issue has the first place; the first of them on a tie. -/
def State.firstPlace (s : State) : List (Fin 8 × Fin 16) → Option (Fin 8 × Fin 16)
  | [] => none
  | x :: xs => some ((xs.foldl (fun (best : (Fin 8 × Fin 16) × Nat) y =>
      let n := s.issuePlace y.1 y.2
      if n < best.2 then (y, n) else best) (x, if xs.isEmpty then 0 else s.issuePlace x.1 x.2)).1)

/-- The core with the least next issue among those that can run. Of the cores of one cycle those that publish come
first (07 R166), and other ties go to the lower die and core (log 3). -/
def State.nextCore (s : State) : Option (Fin 8 × Fin 16) :=
  let able := ((fins 8).flatMap fun d => (fins 16).map fun c => (d, c)).filter fun x => (s.core x.1 x.2).canRun
  let least := able.foldl (fun (best : Option Nat) x =>
    let n := (s.core x.1 x.2).nextIssue
    some (match best with | some b => Nat.min b n | none => n)) none
  s.firstPlace (able.filter fun x => some (s.core x.1 x.2).nextIssue == least)

end Sys2Proof.Machine
end

