-- ==== Sys2Proof/Machine/Scalar.lean ====
section
/-! DEFINITION. The meanings of S-slot groups 0 and 1: register arithmetic, immediates, bit counts and
compares (12 R275-R282). -/

namespace Sys2Proof.Machine

/-! ### The computations -/

/-- `mulh` (R279): bits 127:64 of the product; F is 0 uu, 1 ss, 2 su. -/
def mulHigh (f : BitVec 3) (a b : W64) : W64 :=
  if f = 1 then BitVec.ofInt 64 (a.toInt * b.toInt / 2 ^ 64)
  else if f = 2 then BitVec.ofInt 64 (a.toInt * (b.toNat : Int) / 2 ^ 64)
  else BitVec.ofNat 64 (a.toNat * b.toNat / 2 ^ 64)

/-- Quotient and remainder of R280. -/
def divRem (a b : W64) (sgn : Bool) : W64 × W64 :=
  let x : Int := if sgn then a.toInt else a.toNat
  let y : Int := if sgn then b.toInt else b.toNat
  if y = 0 then (BitVec.allOnes 64, a)
  else
    let q := x.tdiv y
    (BitVec.ofInt 64 q, BitVec.ofInt 64 (x - q * y))

/-- Left shift by a whole 64-bit amount (R279). -/
def shiftL (a n : W64) : W64 := if n.toNat < 64 then a <<< n.toNat else 0

/-- Logical right shift by a whole 64-bit amount (R279). -/
def shiftR (a n : W64) : W64 := if n.toNat < 64 then a >>> n.toNat else 0

/-- floor(sx(a) / 2^min(n, 63)) (R279). -/
def shiftA (a n : W64) : W64 := a.sshiftRight (Nat.min n.toNat 63)

/-- The lesser of two words; F = 1 compares unsigned (R279). -/
def lesser (f : BitVec 3) (a b : W64) : W64 := if (if f = 1 then a.ult b else a.slt b) then a else b

/-- The greater of two words. -/
def greater (f : BitVec 3) (a b : W64) : W64 := if (if f = 1 then a.ult b else a.slt b) then b else a

/-- Leading zero bits (R281). -/
def clz64 (a : W64) : Nat := if a = 0 then 64 else 63 - Nat.log2 a.toNat

/-- Trailing zero bits (R281). -/
def ctz64 (a : W64) : Nat := ((List.range 64).find? fun k => a.getLsbD k).getD 64

/-- Bits set (R281). -/
def popc64 (a : W64) : Nat := ((List.range 64).filter fun k => a.getLsbD k).length

/-- The condition cc of R282; the reserved value 7 acts as 0 (R249). -/
def compare (cc : BitVec 3) (a b : W64) : Bool :=
  match cc.toNat with
  | 1 => a != b
  | 2 => a.slt b
  | 3 => !a.slt b
  | 4 => a.ult b
  | 5 => !a.ult b
  | 6 => a &&& b != 0
  | _ => a == b

/-- The immediate of `cmpi`: signed for cc 0-3, unsigned for cc 4-6 (R282). -/
def cmpImm (cc : BitVec 3) (i : BitVec 6) : W64 := if cc.toNat < 4 ∨ cc = 7 then i.signExtend 64 else i.setWidth 64

/-! ### Group 0 (R279, R280) -/

def execAdd (g : BitVec 4) (d a b : BitVec 6) (s : State) : Out :=
  s.slotOp g (.add g d a b) fun s => s.putS d 1 (s.rS a + s.rS b)

def execSub (g : BitVec 4) (d a b : BitVec 6) (s : State) : Out :=
  s.slotOp g (.sub g d a b) fun s => s.putS d 1 (s.rS a - s.rS b)

def execMul (g : BitVec 4) (d a b : BitVec 6) (s : State) : Out :=
  s.slotOp g (.mul g d a b) fun s => s.putS d 3 (s.rS a * s.rS b)

def execMulh (g : BitVec 4) (d a b : BitVec 6) (f : BitVec 3) (s : State) : Out :=
  s.slotOp g (.mulh g d a b f) fun s => s.putS d 3 (mulHigh f (s.rS a) (s.rS b))

def execDiv (g : BitVec 4) (d a b : BitVec 6) (f : BitVec 3) (s : State) : Out :=
  s.slotOp g (.div g d a b f) fun s => s.putS d 24 ((divRem (s.rS a) (s.rS b) (f == 1)).1)

def execRem (g : BitVec 4) (d a b : BitVec 6) (f : BitVec 3) (s : State) : Out :=
  s.slotOp g (.rem g d a b f) fun s => s.putS d 24 ((divRem (s.rS a) (s.rS b) (f == 1)).2)

def execAnd (g : BitVec 4) (d a b : BitVec 6) (s : State) : Out :=
  s.slotOp g (.and g d a b) fun s => s.putS d 1 (s.rS a &&& s.rS b)

def execOr (g : BitVec 4) (d a b : BitVec 6) (s : State) : Out :=
  s.slotOp g (.or g d a b) fun s => s.putS d 1 (s.rS a ||| s.rS b)

def execXor (g : BitVec 4) (d a b : BitVec 6) (s : State) : Out :=
  s.slotOp g (.xor g d a b) fun s => s.putS d 1 (s.rS a ^^^ s.rS b)

def execAndn (g : BitVec 4) (d a b : BitVec 6) (s : State) : Out :=
  s.slotOp g (.andn g d a b) fun s => s.putS d 1 (s.rS a &&& ~~~(s.rS b))

def execShl (g : BitVec 4) (d a b : BitVec 6) (s : State) : Out :=
  s.slotOp g (.shl g d a b) fun s => s.putS d 1 (shiftL (s.rS a) (s.rS b))

def execShr (g : BitVec 4) (d a b : BitVec 6) (s : State) : Out :=
  s.slotOp g (.shr g d a b) fun s => s.putS d 1 (shiftR (s.rS a) (s.rS b))

def execSra (g : BitVec 4) (d a b : BitVec 6) (s : State) : Out :=
  s.slotOp g (.sra g d a b) fun s => s.putS d 1 (shiftA (s.rS a) (s.rS b))

def execMin (g : BitVec 4) (d a b : BitVec 6) (f : BitVec 3) (s : State) : Out :=
  s.slotOp g (.min g d a b f) fun s => s.putS d 1 (lesser f (s.rS a) (s.rS b))

def execMax (g : BitVec 4) (d a b : BitVec 6) (f : BitVec 3) (s : State) : Out :=
  s.slotOp g (.max g d a b f) fun s => s.putS d 1 (greater f (s.rS a) (s.rS b))

def execSel (g : BitVec 4) (d a b : BitVec 6) (p : BitVec 3) (s : State) : Out :=
  s.slotOp g (.sel g d a b p) fun s => s.putS d 1 (if s.rP (p.setWidth 4) then s.rS a else s.rS b)

/-! ### Group 1 (R281, R282) -/

def execAddi (g : BitVec 4) (d a : BitVec 6) (i : BitVec 9) (s : State) : Out :=
  s.slotOp g (.addi g d a i) fun s => s.putS d 1 (s.rS a + i.signExtend 64)

def execAndi (g : BitVec 4) (d a : BitVec 6) (i : BitVec 9) (s : State) : Out :=
  s.slotOp g (.andi g d a i) fun s => s.putS d 1 (s.rS a &&& i.signExtend 64)

def execOri (g : BitVec 4) (d a : BitVec 6) (i : BitVec 9) (s : State) : Out :=
  s.slotOp g (.ori g d a i) fun s => s.putS d 1 (s.rS a ||| i.signExtend 64)

def execXori (g : BitVec 4) (d a : BitVec 6) (i : BitVec 9) (s : State) : Out :=
  s.slotOp g (.xori g d a i) fun s => s.putS d 1 (s.rS a ^^^ i.signExtend 64)

def execShli (g : BitVec 4) (d a : BitVec 6) (i : BitVec 9) (s : State) : Out :=
  s.slotOp g (.shli g d a i) fun s => s.putS d 1 (s.rS a <<< i.toNat)

def execShri (g : BitVec 4) (d a : BitVec 6) (i : BitVec 9) (s : State) : Out :=
  s.slotOp g (.shri g d a i) fun s => s.putS d 1 (s.rS a >>> i.toNat)

def execSrai (g : BitVec 4) (d a : BitVec 6) (i : BitVec 9) (s : State) : Out :=
  s.slotOp g (.srai g d a i) fun s => s.putS d 1 ((s.rS a).sshiftRight i.toNat)

def execMovi (g : BitVec 4) (d : BitVec 6) (i : BitVec 15) (s : State) : Out :=
  s.slotOp g (.movi g d i) fun s => s.putS d 1 (i.signExtend 64)

def execMovh (g : BitVec 4) (d : BitVec 6) (i : BitVec 15) (s : State) : Out :=
  s.slotOp g (.movh g d i) fun s => s.putS d 1 ((s.rS d <<< 15) ||| i.setWidth 64)

def execClz (g : BitVec 4) (d a : BitVec 6) (s : State) : Out :=
  s.slotOp g (.clz g d a) fun s => s.putS d 1 (BitVec.ofNat 64 (clz64 (s.rS a)))

def execCtz (g : BitVec 4) (d a : BitVec 6) (s : State) : Out :=
  s.slotOp g (.ctz g d a) fun s => s.putS d 1 (BitVec.ofNat 64 (ctz64 (s.rS a)))

def execPopc (g : BitVec 4) (d a : BitVec 6) (s : State) : Out :=
  s.slotOp g (.popc g d a) fun s => s.putS d 1 (BitVec.ofNat 64 (popc64 (s.rS a)))

/-- `sext` by w = I + 1 bits. -/
def execSext (g : BitVec 4) (d a : BitVec 6) (w : BitVec 9) (s : State) : Out :=
  s.slotOp g (.sext g d a w) fun s => s.putS d 1 (BitVec.ofInt 64 (sextInt (s.rS a) (w.toNat + 1)))

/-- `zext` by w = I + 1 bits. -/
def execZext (g : BitVec 4) (d a : BitVec 6) (w : BitVec 9) (s : State) : Out :=
  s.slotOp g (.zext g d a w) fun s => s.putS d 1 (BitVec.ofNat 64 ((s.rS a).toNat % 2 ^ (w.toNat + 1)))

def execCmp (g p : BitVec 4) (a b : BitVec 6) (c : BitVec 3) (s : State) : Out :=
  s.slotOp g (.cmp g p a b c) fun s => s.putP p 1 (compare c (s.rS a) (s.rS b))

def execCmpi (g p : BitVec 4) (a i : BitVec 6) (c : BitVec 3) (s : State) : Out :=
  s.slotOp g (.cmpi g p a i c) fun s => s.putP p 1 (compare c (s.rS a) (cmpImm c i))

end Sys2Proof.Machine
end

