-- ==== Sys2Proof/Machine/Address.lean ====
section
/-! DEFINITION. The meanings of S-slot group 2: address and predicate operations (12 R283, R284). -/

namespace Sys2Proof.Machine

/-- An address register's result. -/
def State.putA (s : State) (n : BitVec 4) (v : W64) : State := s.deliver 1 (.a n v) 0

def execLea (g d a : BitVec 4) (b : BitVec 6) (h : BitVec 3) (s : State) : Out :=
  s.slotOp g (.lea g d a b h) fun s => s.putA d (s.rA a + (s.rS b <<< h.toNat))

def execAmov (g d : BitVec 4) (a : BitVec 6) (s : State) : Out :=
  s.slotOp g (.amov g d a) fun s => s.putA d (s.rS a)

def execAgetA (g : BitVec 4) (d : BitVec 6) (a : BitVec 4) (s : State) : Out :=
  s.slotOp g (.agetA g d a) fun s => s.putS d 1 (s.rA a)

def execAgetD (g : BitVec 4) (d : BitVec 6) (a : BitVec 4) (s : State) : Out :=
  s.slotOp g (.agetD g d a) fun s => s.putS d 1 ((s.cx.rD a).signExtend 64)

def execDset (g d : BitVec 4) (a : BitVec 6) (s : State) : Out :=
  s.slotOp g (.dset g d a) fun s => s.deliver 1 (.d d ((s.rS a).setWidth 32)) 0

def execAadd (g d a : BitVec 4) (i : BitVec 9) (s : State) : Out :=
  s.slotOp g (.aadd g d a i) fun s => s.putA d (s.rA a + i.signExtend 64 * 64)

def execPand (g d a b : BitVec 4) (s : State) : Out :=
  s.slotOp g (.pand g d a b) fun s => s.putP d 1 (s.rP a && s.rP b)

def execPor (g d a b : BitVec 4) (s : State) : Out :=
  s.slotOp g (.por g d a b) fun s => s.putP d 1 (s.rP a || s.rP b)

def execPxor (g d a b : BitVec 4) (s : State) : Out :=
  s.slotOp g (.pxor g d a b) fun s => s.putP d 1 (s.rP a ^^ s.rP b)

def execPnot (g d a : BitVec 4) (s : State) : Out :=
  s.slotOp g (.pnot g d a) fun s => s.putP d 1 (!s.rP a)

def execPmov (g d a : BitVec 4) (s : State) : Out :=
  s.slotOp g (.pmov g d a) fun s => s.putP d 1 (s.rP a)

def execPsetConst (g d : BitVec 4) (v : BitVec 1) (s : State) : Out :=
  s.slotOp g (.psetConst g d v) fun s => s.putP d 1 (v == 1)

def execPsetScalar (g d : BitVec 4) (a : BitVec 6) (s : State) : Out :=
  s.slotOp g (.psetScalar g d a) fun s => s.putP d 1 (s.rS a != 0)

def execPsetBit (g d : BitVec 4) (a n : BitVec 6) (s : State) : Out :=
  s.slotOp g (.psetBit g d a n) fun s => s.putP d 1 ((s.rS a).getLsbD n.toNat)

end Sys2Proof.Machine
end

