-- ==== Sys2Proof/Machine/System.lean ====
section
/-! DEFINITION. The meanings of S-slot group 4: control registers, shapes, formats, keys, stream
parameters and the return from a handler (12 R291-R297). -/

namespace Sys2Proof.Machine

def execCsrr (g : BitVec 4) (d : BitVec 6) (k : BitVec 12) (s : State) : Out :=
  s.slotOp g (.csrr g d k) fun s => s.putS d 1 (s.csrRead k)

/-- `csrw` is delivered at issue + 1, field by field (R294). -/
def execCsrw (g : BitVec 4) (d : BitVec 6) (k : BitVec 12) (s : State) : Out :=
  s.slotOp g (.csrw g d k) fun s =>
    if 0x10 ≤ k.toNat ∧ k.toNat < 0x14 then s.deliver 1 (.lc (k.setWidth 2) (s.rS d)) 0
    else s.deliver 1 (.csr k (s.rS d)) 0

/-- Field fk of a WID (08 R184). -/
def widField (cfg wid : W64) (k : Nat) : W64 :=
  if k < bitsOf cfg 36 3 then
    let off := ((List.range k).map fun j => bitsOf cfg (6 * j) 6).foldl (· + ·) 0
    BitVec.ofNat 64 (bitsOf wid off (bitsOf cfg (6 * k) 6))
  else 0

def execWidf (g : BitVec 4) (d : BitVec 6) (k : BitVec 3) (s : State) : Out :=
  s.slotOp g (.widf g d k) fun s => s.putS d 1 (widField s.cx.widcfg s.cx.wid k.toNat)

def execGtime (g : BitVec 4) (d : BitVec 6) (s : State) : Out :=
  s.slotOp g (.gtime g d) fun s => s.putS d 1 s.gtime64

/-- An alignment is completed; a skew measurement under way came before its step and is void (16 R383, log 11). -/
def Joist.aligned (j : Joist) : Joist :=
  { j with gtLastMaster := j.gtMaster, gtAligned := true, gtAlarm := false, gtGen := j.gtGen + 1, gtBusy := false
           gtLeft := 0, gtSent := [], gtExch := [], skewSent := none }

/-- ALIGNFAIL, posted by the die of the request (log 29): reason 0 no master named, 1 no circuit to it. -/
def State.alignFail (s : State) (d : Fin 8) (src : EvSrc) : State :=
  let s := s.updJoist fun j => { j with gtBusy := false, gtLeft := 0, gtSent := [], gtExch := [] }
  s.postEvent d 0x11 src (s.joist.gtMaster.toNat + (if s.joist.gtMaster = 0x1FF then 0 else 0x100)) 0

/-- Whether a request to align was made in a cycle. -/
def Joist.askedIn (j : Joist) (now : Nat) : Bool := match j.gtAsked with | some x => decide (x.1 = now) | none => false

/-- A timing flit sent to the master on a port by a die: its sequence, and the GTIME at which it leaves (R383, R394). -/
def State.sendTime (s : State) (q : Fin 16) (d : Fin 8) : State × Asked :=
  let n := s.joist.gtSeq + 1
  let h : FlitHead := ⟨8, s.joist.member.toNat, s.joist.gtMaster.toNat, d.val, 0, 0, 0, 0, false, 0, n.toNat, s.gtime⟩
  ((s.updJoist fun j => { j with gtSeq := n }).putFlit q ⟨⟨h.bits, 0⟩, none⟩, ⟨n, s.gtime64⟩)

/-- The port on which a timing flit can leave for the master now: the lowest with a circuit, while it is in no quiet gap and
its replay buffer has room (R383, R395, R403, log 11). -/
def State.timePort (s : State) : Option (Fin 16) :=
  match s.joist.portTo s.joist.gtMaster with
  | some q => if s.portQuiet q || !s.joist.replayRoom q then none else some q
  | none => none

/-- Exchanges of the alignment under way begin, as many as are left and the port takes. -/
def State.askTimes : Nat → State → State
  | 0, s => s
  | n + 1, s =>
    match s.timePort with
    | some q =>
      if s.joist.gtLeft = 0 then s
      else
        let x := s.sendTime q s.joist.gtDie
        State.askTimes n (x.1.updJoist fun j => { j with gtSent := j.gtSent ++ [x.2], gtLeft := j.gtLeft - 1 })
    | none => s

/-- A request to align (12 R295, 16 R383): dropped without a member identity, joined while one is
under way or when one was made in the same cycle, completed at once on the master itself, failed without a master or a
circuit to it. Else 16 timing flits leave, each with the GTIME at which it is sent. -/
def State.realign (s : State) : State :=
  let j := s.joist
  if !j.mvalid ∨ j.gtBusy ∨ j.askedIn s.cycle then s
  else
    let s := s.updJoist fun j => { j with gtAsked := some (s.cycle, j.gtstat) }
    if j.member = j.gtMaster then s.updJoist Joist.aligned
    else
      match (if j.gtMaster = 0x1FF then none else j.portTo j.gtMaster) with
      | none => s.alignFail s.cur.die (s.srcOf s.cur)
      | some _ =>
        State.askTimes 16 (s.updJoist fun j => { j with gtBusy := true, gtDie := s.cur.die, gtLeft := 16, gtSent := [], gtExch := [] })

/-- GTSTAT as it stood before the request: the requests of one cycle are one (R295). -/
def State.gtstatBefore (s : State) : W64 :=
  match s.joist.gtAsked with
  | some x => if x.1 = s.cycle then x.2 else s.joist.gtstat
  | none => s.joist.gtstat

def execRealign (g : BitVec 4) (d : BitVec 6) (s : State) : Out :=
  s.slotOp g (.realign g d) fun s => (s.putS d 1 s.gtstatBefore).realign

/-! ### Shapes (R292, R293; 08 R190, R191) -/

def shapeRows (ts : BitVec 32) : Nat := bitsOf ts 0 6 + 1
def shapeCols (ts : BitVec 32) : Nat := bitsOf ts 6 6 + 1
def shapeVRows (ts : BitVec 32) : Nat := bitsOf ts 12 7
def shapeVCols (ts : BitVec 32) : Nat := bitsOf ts 19 7
def shapeFmt (ts : BitVec 32) : Nat := bitsOf ts 26 4
def shapeCfg (ts : BitVec 32) : Bool := bit ts 31

/-- The conditions of R191 on a configured shape. -/
def shapeOk (ts : BitVec 32) : Bool :=
  decide (1 ≤ shapeFmt ts ∧ shapeFmt ts ≤ 7) &&
  decide (shapeRows ts * shapeCols ts * elemSize (shapeFmt ts) ≤ 4096) &&
  decide (shapeVRows ts ≤ shapeRows ts) && decide (shapeVCols ts ≤ shapeCols ts)

/-- A shape from its fields, configured. -/
def shapeWord (rows cols vrows vcols fmt : Nat) : BitVec 32 :=
  BitVec.ofNat 32 (rows + cols * 2 ^ 6 + vrows * 2 ^ 12 + vcols * 2 ^ 19 + fmt * 2 ^ 26 + 2 ^ 31)

/-- A shape written, or SHAPE when it fails R191. -/
def State.putShape (s : State) (t : BitVec 4) (ts : BitVec 32) : State :=
  if shapeOk ts then s.deliver 1 (.ts t ts) 0 else s.trapI cSHAPE

def execTshapeImm (g t : BitVec 4) (r c : BitVec 6) (f : BitVec 3) (s : State) : Out :=
  s.slotOp g (.tshapeImm g t r c f) fun s =>
    s.putShape t (shapeWord r.toNat c.toNat (r.toNat + 1) (c.toNat + 1) f.toNat)

def execTshapeReg (g t : BitVec 4) (n : BitVec 6) (s : State) : Out :=
  s.slotOp g (.tshapeReg g t n) fun s =>
    let v : BitVec 32 := (s.rS n).setWidth 32 &&& 0x3FFFFFFF
    if v = 0 then s.deliver 1 (.ts t 0) 0 else s.putShape t (v ||| 0x80000000)

/-- The valid extent from two scalars, clamped to the shape. -/
def execTvalid (g t : BitVec 4) (r c : BitVec 6) (s : State) : Out :=
  s.slotOp g (.tvalid g t r c) fun s =>
    let ts := s.cx.rTS t
    if shapeCfg ts then
      s.deliver 1 (.ts t (setField (setField ts 12 7 (Nat.min (s.rS r).toNat (shapeRows ts)))
        19 7 (Nat.min (s.rS c).toNat (shapeCols ts)))) 0
    else s.trapI cUNCONF

/-! ### Format table, keys, stream parameters -/

/-- A format entry without its reserved bits (08 R196). -/
def entryOf (v : W64) : BitVec 32 := v.setWidth 32 &&& 0x000F01FF

def execFtsetAbs (g : BitVec 4) (d : BitVec 6) (n : BitVec 4) (s : State) : Out :=
  s.slotOp g (.ftsetAbs g d n) fun s => s.deliver 1 (.ft n (entryOf (s.rS d))) 0

def execFtsetCur (g : BitVec 4) (d : BitVec 6) (n : BitVec 4) (s : State) : Out :=
  s.slotOp g (.ftsetCur g d n) fun s => s.deliver 1 (.ft (s.cx.ftIndex n.toNat) (entryOf (s.rS d))) 0

def execFbaseImm (g n : BitVec 4) (s : State) : Out :=
  s.slotOp g (.fbaseImm g n) fun s => s.deliver 1 (.fbase n) 0

def execFbaseReg (g : BitVec 4) (d : BitVec 6) (s : State) : Out :=
  s.slotOp g (.fbaseReg g d) fun s => s.deliver 1 (.fbase ((s.rS d).setWidth 4)) 0

/-- PKR for accesses of later bundles (03 R84). -/
def execPkset (g : BitVec 4) (d : BitVec 6) (s : State) : Out :=
  s.slotOp g (.pkset g d) fun s => s.deliver 1 (.pkr (s.rS d)) 0

def execPksetKey (g : BitVec 4) (k : BitVec 5) (r w : BitVec 1) (s : State) : Out :=
  s.slotOp g (.pksetKey g k r w) fun s =>
    s.deliver 1 (.pkr (setField s.cx.arch.pkr (2 * k.toNat) 2 (r.toNat + 2 * w.toNat))) 0

def execXpset (g : BitVec 4) (d : BitVec 6) (n : BitVec 3) (s : State) : Out :=
  s.slotOp g (.xpset g d n) fun s => s.deliver 1 (.xp n (s.rS d)) 0

/-- The watchdog count returns to 0 (08 R204). -/
def execBeat (g : BitVec 4) (s : State) : Out :=
  s.slotOp g (.beat g) fun s => s.updCx fun c => c.progress (s.wdTime s.cur)

/-- Returns from a notice handler; outside one it has no effect (07 R179). -/
def execUiret (g : BitVec 4) (s : State) : Out :=
  s.slotOp g (.uiret g) fun s => if s.cx.inh then s.leaveHandler s.cur else s

end Sys2Proof.Machine
end

