-- ==== Sys2Proof/Machine/Memory.lean ====
section
/-! DEFINITION. The meanings of M-slot group 0 and of the tile transfers of group 1 (13 R298-R307). -/

namespace Sys2Proof.Machine

/-! ### Addresses -/

/-- The effective address of R303: `m` is AM, with a displacement for 0b10. -/
def effAddr (base : W64) (m : BitVec 2) (disp : BitVec 5) (unit : Nat) : W64 :=
  if m = 2 then base + BitVec.ofInt 64 (disp.toInt * unit) else base

/-- A stepping form advances its address register at issue (10 R254, 13 R298). -/
def State.stepAddr (s : State) (stepping : Bool) (r : BitVec 4) : State :=
  if stepping then s.deliver 1 (.a r (s.rA r + (s.cx.rD r).signExtend 64)) 0 else s

/-! ### Loads and stores -/

/-- A load of runs whose bytes become a form: every part is checked, the requests are counted, the
pieces are read, and the destinations become pending (R298, R301). -/
def State.load (s : State) (vs : List VRun) (form : LoadForm) (done : State → State) : State :=
  let id := s.cur
  match s.access id (s.cx.req id .load true false) vs with
  | (s, .error f) => s.refuse .load f
  | (s, .ok ps) =>
    let (s, g) := s.readParts id .load ps
    done (s.updCx fun c =>
      c.addPend ⟨s.cycle + loadLatency id ps, g.waits, g.bytes, form, 0, g.poison, [], true, false⟩)

/-- A store of bytes over runs: held in the gated store buffer until its region commits (R301, 18 R429). -/
def State.store (s : State) (vs : List VRun) (bytes : List Byte) (done : State → State) : State :=
  let id := s.cur
  if storeLimit ≤ s.cx.held.length then s.trapI cRESTARTOVF
  else
    match s.access id (s.cx.req id .store false true) vs with
    | (s, .error f) => s.refuse .store f
    | (s, .ok ps) => done (s.updCx fun c => { c with held := c.held ++ [⟨s.storeRuns id.die ps bytes⟩] })

def execLd (g : BitVec 4) (d : BitVec 6) (r : BitVec 4) (m : BitVec 2) (f s1 : BitVec 1) (z : BitVec 2) (x : BitVec 5)
    (s : State) : Out :=
  s.slotOp g (.ld g d r m f s1 z x) fun s =>
    let n := 2 ^ z.toNat
    s.load [⟨effAddr (s.rA r) m x n, n⟩] (.scalar (s.cx.nameS d) n (s1 == 1)) fun t => t.stepAddr (m == 1) r

def execSt (g : BitVec 4) (d : BitVec 6) (r : BitVec 4) (m : BitVec 2) (f : BitVec 1) (z : BitVec 2) (x : BitVec 5)
    (s : State) : Out :=
  s.slotOp g (.st g d r m f z x) fun s =>
    let n := 2 ^ z.toNat
    s.store [⟨effAddr (s.rA r) m x n, n⟩] (leBytes n (s.rS d).toNat) fun t => t.stepAddr (m == 1) r

def execLld (g : BitVec 4) (d : BitVec 5) (r : BitVec 4) (m : BitVec 2) (f : BitVec 1) (x : BitVec 5) (s : State) : Out :=
  s.slotOp g (.lld g d r m f x) fun s =>
    s.load [⟨effAddr (s.rA r) m x 256, 256⟩] (.line d) fun t => t.stepAddr (m == 1) r

def execLst (g : BitVec 4) (d : BitVec 5) (r : BitVec 4) (m : BitVec 2) (f : BitVec 1) (x : BitVec 5) (s : State) : Out :=
  s.slotOp g (.lst g d r m f x) fun s =>
    s.store [⟨effAddr (s.rA r) m x 256, 256⟩] (bytesOf (s.cx.rV d) 256) fun t => t.stepAddr (m == 1) r

/-- `pref` installs a translation in both levels of the TLB and nothing else; one that would fault installs nothing
(R305). The driver hears of a page that the scanner rejects, and poison that the walk meets is recorded (03 R70, R82). -/
def execPref (g r : BitVec 4) (m z : BitVec 2) (x : BitVec 5) (s : State) : Out :=
  s.slotOp g (.pref g r m z x) fun s =>
    let ea := effAddr (s.rA r) m x (2 ^ z.toNat)
    let q := s.cx.req s.cur .load false false
    let (t, found) := s.findLeaf q ea
    let (u, bad) := match found with | .ok _ => t.fillL2 q ea | .error f => (s, some f)
    let s := match bad with | some f => u.noteFault s.cur 0 s.cur.core f | none => u
    s.stepAddr (m == 1) r

/-! ### Tile transfers (R306, R307) -/

/-- The runs of a `tld` or `tst`: a run for each valid row, or for each element of a column-major form.
`pitch` none is the full row or column. -/
def tileRuns (ts : BitVec 32) (ea : W64) (col : Bool) (pitch : Option W64) : List VRun :=
  let sz := elemSize (shapeFmt ts)
  let step := pitch.getD (BitVec.ofNat 64 ((if col then shapeRows ts else shapeCols ts) * sz))
  if shapeVCols ts = 0 then []
  else (List.range (shapeVRows ts)).flatMap fun i =>
    if col then (List.range (shapeVCols ts)).map fun j =>
      (⟨ea + BitVec.ofNat 64 j * step + BitVec.ofNat 64 (i * sz), sz⟩ : VRun)
    else [⟨ea + BitVec.ofNat 64 i * step, shapeVCols ts * sz⟩]

/-- The runs of a `tldg` or `tsts`: row i at its 32-bit offset, in units of 2^(4Q) bytes. -/
def gatherRuns (ts : BitVec 32) (ea : W64) (q : BitVec 2) (offs : BitVec 2048) : List VRun :=
  let sz := elemSize (shapeFmt ts)
  if shapeVCols ts = 0 then []
  else (List.range (shapeVRows ts)).map fun i =>
    ⟨ea + BitVec.ofInt 64 (signedNat (bitsOf offs (32 * i) 32) 32 * 2 ^ (4 * q.toNat)), shapeVCols ts * sz⟩

/-- The valid elements of a tile, in row order. -/
def tileBytes (x : BitVec 32768) (ts : BitVec 32) : List Byte :=
  let sz := elemSize (shapeFmt ts)
  (List.range (shapeVRows ts)).flatMap fun i =>
    leBytes (shapeVCols ts * sz) (bitsOf x (8 * (i * shapeCols ts * sz)) (8 * (shapeVCols ts * sz)))

/-- A tile must be configured (08 R194). -/
def State.configured (s : State) (ts : List (BitVec 4)) (body : State → State) : State :=
  if ts.all fun t => shapeCfg (s.cx.rTS t) then body s else s.trapI cUNCONF

/-- The pitch scalar; S = 0 stands for none. -/
def State.pitch (s : State) (n : BitVec 6) : Option W64 := if n = 0 then none else some (s.rS n)

def execTld (g t : BitVec 4) (q : BitVec 2) (r : BitVec 4) (m : BitVec 2) (s1 : BitVec 6) (f : BitVec 3) (s : State) : Out :=
  s.slotOp g (.tld g t q r m s1 f) fun s => s.configured [t] fun s =>
    let ts := s.cx.rTS t
    s.load (tileRuns ts (s.rA r) (q == 1) (s.pitch s1)) (.tile t ts) fun u => u.stepAddr (m == 1) r

def execTst (g t : BitVec 4) (q : BitVec 2) (r : BitVec 4) (m : BitVec 2) (s1 : BitVec 6) (f : BitVec 3) (s : State) : Out :=
  s.slotOp g (.tst g t q r m s1 f) fun s => s.configured [t] fun s =>
    let ts := s.cx.rTS t
    s.store (tileRuns ts (s.rA r) (q == 1) (s.pitch s1)) (tileBytes (s.cx.rT t) ts) fun u => u.stepAddr (m == 1) r

def execTldg (g t : BitVec 4) (q : BitVec 2) (r : BitVec 4) (m : BitVec 2) (s1 : BitVec 5) (f : BitVec 3) (s : State) : Out :=
  s.slotOp g (.tldg g t q r m s1 f) fun s => s.configured [t] fun s =>
    let ts := s.cx.rTS t
    s.load (gatherRuns ts (s.rA r) q (s.cx.rV s1)) (.tile t ts) fun u => u.stepAddr (m == 1) r

def execTsts (g t : BitVec 4) (q : BitVec 2) (r : BitVec 4) (m : BitVec 2) (s1 : BitVec 5) (f : BitVec 3) (s : State) : Out :=
  s.slotOp g (.tsts g t q r m s1 f) fun s => s.configured [t] fun s =>
    let ts := s.cx.rTS t
    s.store (gatherRuns ts (s.rA r) q (s.cx.rV s1)) (tileBytes (s.cx.rT t) ts) fun u => u.stepAddr (m == 1) r

/-! ### Deliveries (R298) -/

/-- LOAD_DELIVERY: what is due of a context lands, and a context that waited for it is ready. With
nothing due it has no effect (log 11). -/
def execLoadDelivery (id : CtxId) (s : State) : Out :=
  let c := s.ctxOf id
  .next (if c.pend.any (Pend.ready s.cycle) then (s.updCtx id fun c => c.settle s.cycle).wake id else s)

end Sys2Proof.Machine
end

