-- ==== Sys2Proof/Machine/BlockTable.lean ====
section
/-! DEFINITION. The key-value block table (04): `kvld`, `kvapp`, `kvfree` (13 R308-R311), the unit's
steps, and the writes of its registers. -/

namespace Sys2Proof.Machine

/-! ### Entries and rings (04 R100-R106) -/

def kvOff : Int := -1
def badSeq : Int := -2
def seqFull : Int := -3
def badBlk : Int := -4

def Die.kvEn (x : Die) : Bool := bit x.kvcfg 0
def Die.nblk (x : Die) : Nat := bitsOf x.kvcfg 4 24
def ringLog (n : Nat) : Nat := if 4 ≤ n ∧ n ≤ 20 then n else 20
def Die.frSize (x : Die) : Nat := 2 ^ ringLog (bitsOf x.kvcfg 28 5)
def Die.rlSize (x : Die) : Nat := 2 ^ ringLog (bitsOf x.kvcfg 33 5)

/-- PA of entry i, wherever KVBASE lies (log 105). -/
def Die.kvEntryAddr (x : Die) (i : Nat) : Nat := x.kvbase.toNat + 16 * i

/-- The two words of an entry. -/
structure KvEntry where
  lo : W64
  hi : W64
deriving DecidableEq, Repr

def State.kvEntry (s : State) (d : Fin 8) (i : Nat) : KvEntry :=
  let a := (s.die d).kvEntryAddr i
  ⟨s.dev64 a, s.dev64 (a + 8)⟩

/-- The poisoned units of an entry. -/
def State.kvBad (s : State) (d : Fin 8) (i : Nat) : List Nat := s.badUnits ((s.die d).kvEntryAddr i) 16

def KvEntry.v (e : KvEntry) : Bool := bit e.lo 0
def KvEntry.tier (e : KvEntry) : Bool := bit e.lo 1
def KvEntry.state (e : KvEntry) : Nat := bitsOf e.lo 2 2
def KvEntry.pbv (e : KvEntry) : Bool := bit e.lo 4
def KvEntry.frame (e : KvEntry) : Nat := bitsOf e.lo 16 36
def KvEntry.pbidx (e : KvEntry) : Nat := bitsOf e.lo 52 12
def KvEntry.refs (e : KvEntry) : Nat := bitsOf e.hi 0 32

def State.setKvLo (s : State) (d : Fin 8) (i : Nat) (f : W64 → W64) : State :=
  let a := (s.die d).kvEntryAddr i
  s.devWrite a (leBytes 8 (f (s.dev64 a)).toNat)

def State.setKvRefs (s : State) (d : Fin 8) (i n : Nat) : State :=
  s.devWrite ((s.die d).kvEntryAddr i + 8) (leBytes 4 n)

/-- PA of the block of an entry (R102); none, for BADBLK, when its buffer does not resolve or its frame is not storage
of the package (log 88). -/
def State.blockAddr (s : State) (d : Fin 8) (e : KvEntry) : Option Nat :=
  if e.pbv then match s.pbResolve d e.pbidx 0 none with | .ok f => some f | .error _ => none
  else if isDev (e.frame * 65536) then some (e.frame * 65536) else none

/-- A block that a slot names and that may be read: PA of its data, or none for BADBLK (R308). -/
def State.readableBlock (s : State) (d : Fin 8) (i : Nat) : Option Nat :=
  if i = 0xFFFFFF ∨ (s.die d).nblk ≤ i then none
  else
    let e := s.kvEntry d i
    if !e.v ∨ e.state = 3 then none else s.blockAddr d e

def frPos (x : Die) : W64 := BitVec.ofNat 64 (x.kvfrHead.toNat + x.kvfrTail.toNat * 2 ^ 32)
def rlPos (x : Die) : W64 := BitVec.ofNat 64 (x.kvrlHead.toNat + x.kvrlTail.toNat * 2 ^ 32)

/-- The free ring found empty: EMPTY, and one KVEMPTY event an episode (R107). -/
def State.ringEmpty (s : State) (d : Fin 8) : State :=
  let x := s.die d
  let s := s.updDie d fun x => { x with kvEmpty := true, kvEmptyEpisode := true }
  if x.kvEmptyEpisode then s else s.postEvent d 0x0B noSrc (frPos x).toNat 0

/-- The release ring found full: RLFULL, and one KVFULL event an episode. -/
def State.ringFull (s : State) (d : Fin 8) : State :=
  let x := s.die d
  let s := s.updDie d fun x => { x with kvFull := true, kvFullEpisode := true }
  if x.kvFullEpisode then s else s.postEvent d 0x0C noSrc (rlPos x).toNat 0

/-- PA of the record at the head of the free ring (R104). -/
def Die.freeRecord (x : Die) : Nat := bitsOf x.kvfrb 6 46 * 64 + 4 * (x.kvfrHead.toNat % x.frSize)

/-- The next free block, which stays in the ring. -/
def State.nextFree (s : State) (d : Fin 8) : Option Nat :=
  let x := s.die d
  if x.kvfrHead = x.kvfrTail then none else some (leNat (s.paRead d x.freeRecord 4) % 2 ^ 24)

/-- The next free block is taken: V = 1 and one reference. -/
def State.takeFree (s : State) (d : Fin 8) (b : Nat) : State :=
  ((s.updDie d fun x => { x with kvfrHead := x.kvfrHead + 1 }).setKvRefs d b 1).setKvLo d b fun w => setBit w 0 true

/-- A free block that the ring gives and that may hold data: its address, or none for BADBLK. STATE = 11 is BADBLK for any
operation (R115); a record that names no block of the array is answered so too, and stays in the ring (log 106). -/
def State.freeAddr (s : State) (d : Fin 8) (b : Nat) : Option Nat :=
  if b = 0xFFFFFF ∨ (s.die d).nblk ≤ b ∨ (s.kvEntry d b).state = 3 then none else s.blockAddr d (s.kvEntry d b)

def Die.rlFull (x : Die) : Bool := decide (x.rlSize ≤ (x.kvrlTail - x.kvrlHead).toNat)

/-- A release record produced (R105). -/
def State.pushRelease (s : State) (d : Fin 8) (v : Nat) : State :=
  let x := s.die d
  let a := bitsOf x.kvrlb 6 46 * 64 + 8 * (x.kvrlTail.toNat % x.rlSize)
  (s.paWrite d a (leBytes 8 v)).updDie d fun x => { x with kvrlTail := x.kvrlTail + 1 }

/-- A block whose count reached 0: V = 0 and a KIND 0 record. -/
def State.releaseBlock (s : State) (d : Fin 8) (i : Nat) : State :=
  let t := (s.kvEntry d i).tier
  (s.setKvLo d i fun w => setBit w 0 false).pushRelease d (2 * b2n t + i * 65536)

/-! ### The list, as the unit reaches it -/

/-- The rights of a request: those of its context at issue. -/
def KvReq.req (q : KvReq) (acc : AccKind) (rd wr : Bool) : Req :=
  ⟨q.id.die, none, q.asid, q.pkr, false, acc, rd, wr, none, false, false, []⟩

/-- What the unit reads of a list: its bytes, poison, nothing because a part cannot be translated or lacks rights
(log 89), or a wait for a peer (log 30). -/
inductive ListBytes where
  | got (bs : List Byte)
  | poison
  | waits
  | fault

/-- One part of a list as it is read; poison in it is recorded as that of the issuing core's load, SRC 0 (log 100). Another
package answers it or refuses it (01 R24, 03 R80, log 30). -/
def State.readListPart (s : State) (id : CtxId) (p : Part) (g : Gather) : State × Gather :=
  match p.loc.space with
  | .peer m =>
    if s.joist.mvalid && !s.isSelf m then
      match s.peerBytes m p.loc.addr p.n with
      | some bs => (s, ⟨g.bytes ++ bs, g.poison, g.waits⟩)
      | none =>
        (s.updCtx id fun c => c.pendRefusal p.va .load s.cycle, ⟨g.bytes ++ List.replicate p.n 0, g.poison, g.waits⟩)
    else s.readPart id .load p g
  | _ => s.readPart id .load p g

/-- The parts of a list read in order. -/
def State.readList (s : State) (id : CtxId) (ps : List Part) : State × Gather :=
  let s := if ps.any Part.waitsHeld then s.commitEarly id else s
  ps.foldl (fun x p => x.1.readListPart id p x.2) (s, ⟨[], false, []⟩)

/-- One part of a list as the unit reads it, which no held store of the context reaches any more: the bundle of a
request is a mark. -/
def State.unitPart (s : State) (id : CtxId) (p : Part) (g : Gather) : State × Gather :=
  match p.loc.space with
  | .dev =>
    (s.recordUnits p.loc.addr p.n 0 id.die id.core,
      ⟨g.bytes ++ s.devRead p.loc.addr p.n, g.poison || s.poisoned p.loc.addr p.n, g.waits⟩)
  | _ => s.readListPart id p g

/-- Bytes of a list read by the unit. What comes due for the context meanwhile is its request's only while its task is
there. -/
def State.unitRead (s : State) (q : KvReq) (va : W64) (n : Nat) : State × ListBytes :=
  match s.checkAccess (q.req .load true false) [⟨va, n⟩] with
  | (s, .error f) => (s.noteFault q.id 0 q.id.core f.fault, match f.fault with | .poison _ => .poison | _ => .fault)
  | (s, .ok ps) =>
    if ps.any s.peerWaits then (s, .waits)
    else
      let (t, g) := ps.foldl (fun x p => x.1.unitPart q.id p x.2) (s, ⟨[], false, []⟩)
      let old := s.ctxOf q.id
      let t := if old.task = q.task then t else t.updCtx q.id fun c => { c with pendingA := old.pendingA }
      (t, if g.poison then .poison else .got g.bytes)

/-- Whether the unit may write bytes of a list. -/
def State.unitMay (s : State) (q : KvReq) (va : W64) (n : Nat) : State × ListBytes :=
  match s.checkAccess (q.req .store false true) [⟨va, n⟩] with
  | (s, .ok _) => (s, .got [])
  | (s, .error f) => (s.noteFault q.id 0 q.id.core f.fault, match f.fault with | .poison _ => .poison | _ => .fault)

/-- A write of the list, which `unitMay` allows; to another package it is sent as the context's. -/
def State.unitWrite (s : State) (q : KvReq) (va : W64) (bytes : List Byte) : State :=
  let r := q.req .store false true
  match s.checkAccess r [⟨va, bytes.length⟩] with
  | (s, .error _) => s
  | (s, .ok ps) => (s.storeRuns q.id.die ps bytes).foldl (fun s run => s.performRun q.id run) (s.setDirtyLeaves r ps)

/-! ### The steps of R108 and R112 -/

/-- What the unit makes of a request: its status, a status that poison spoils (log 96), or a wait. -/
inductive KvEnd where
  | done (status : Int) (s : State)
  | poison (s : State)
  | wait (s : State)

def State.setKvReq (s : State) (q : KvReq) : State :=
  s.updDie q.id.die fun x => { x with kvReqs := x.kvReqs.map fun p => if p.num = q.num then q else p }

/-- The token's key and value written into a block (R98, R310). -/
def State.writeToken (s : State) (pa pos : Nat) (data : BitVec 32768) : State :=
  (s.devWrite (pa + 2048 * pos) (leBytes 2048 (bitsOf data 0 16384))).devWrite
    (pa + 32768 + 2048 * pos) (leBytes 2048 (bitsOf data 16384 16384))

/-- All 64 KiB of a block copied to another, with its poison, which is recorded (02 R56, R58). -/
def State.copyBlock (s : State) (d : Fin 8) (src dst : Nat) : State :=
  (s.recordUnits src 65536 2 d 0).copyStorage src dst 65536

/-- VA of a slot of a list. -/
def slotVa (list : W64) (j : Nat) : W64 := list + BitVec.ofNat 64 (8 + 4 * j)

/-- The last steps of an append: the token is written, then NTOK. -/
def State.endAppend (s : State) (q : KvReq) (ntok pa : Nat) : KvEnd :=
  .done ntok ((s.writeToken pa (ntok % 16) q.data).unitWrite q q.list (leBytes 4 (ntok + 1)))

/-- The request goes on with what the unit reads or may do; else it ends, or waits (log 89). -/
def goOn (x : State × ListBytes) (go : State → List Byte → KvEnd) : KvEnd :=
  match x.2 with
  | .got bs => go x.1 bs
  | .poison => .poison x.1
  | .waits => .wait x.1
  | .fault => .done badSeq x.1

/-- The request goes on unless units of an entry or of a ring record that it reads are poisoned: they are recorded, and
the request ends with a poisoned status (02 R56, R58, log 96). -/
def State.unlessBad (s : State) (id : CtxId) (us : List Nat) (go : KvEnd) : KvEnd :=
  match us with
  | [] => go
  | _ => .poison (s.recordBad us 0 id.die id.core)

/-- A copy-out that ends without its copy leaves its block idle: failures change no state (R108). -/
def KvEnd.idle (x : KvEnd) (d : Fin 8) (b : Nat) : KvEnd :=
  let back (s : State) : State := s.setKvLo d b fun w => setField w 2 2 0
  match x with
  | .done v s => if v < 0 then .done v (back s) else .done v s
  | .poison s => .poison (back s)
  | .wait s => .wait s

/-- The end of a copy-out that owes the release of a block whose count was 1: its record needs room in the ring (R107);
then the token. -/
def State.endCopy (s : State) (q : KvReq) (ntok n : Nat) : KvEnd :=
  let d := q.id.die
  if (s.die d).rlFull then .wait ((s.setKvReq q).ringFull d)
  else
    let s := q.owed.toList.foldl (fun s b => s.releaseBlock d b) s
    match s.blockAddr d (s.kvEntry d n) with
    | none => .done badBlk s
    | some pa => goOn (s.unitMay q q.list 8) fun s _ => s.endAppend q ntok pa

/-- The copy of a block into the fresh block n, whose places are known: references, the slot, STATE and, where no
reference is left, the release (R108). -/
def State.copyInto (s : State) (q : KvReq) (ntok b n src dst : Nat) : KvEnd :=
  let d := q.id.die
  let refs := (s.kvEntry d b).refs
  let s := (s.takeFree d n).copyBlock d src dst
  let s := (s.setKvRefs d b ((refs + 2 ^ 32 - 1) % 2 ^ 32)).unitWrite q (slotVa q.list (ntok / 16)) (leBytes 4 n)
  let s := (s.setKvLo d b fun w => setField w 2 2 0).updDie d fun x => { x with kvCows := x.kvCows + 1 }
  if refs = 1 then s.endCopy { q with copying := none, placed := some (ntok, n), owed := some b } ntok n
  else s.endAppend q ntok dst

/-- The copy-out of block b for token `ntok`: STATE is 01, and a fresh block takes its contents and its slot. -/
def State.copyOut (s : State) (q : KvReq) (ntok b : Nat) : KvEnd :=
  let d := q.id.die
  match s.nextFree d with
  | none => .wait ((s.setKvReq { q with copying := some (ntok, b) }).ringEmpty d)
  | some n =>
    KvEnd.idle (s.unlessBad q.id (s.badUnits (s.die d).freeRecord 4 ++ s.kvBad d n)
      (match s.blockAddr d (s.kvEntry d b), s.freeAddr d n with
        | some src, some dst => s.copyInto q ntok b n src dst
        | _, _ => .done badBlk s)) d b

/-- The steps of R108 from the slot of the token on. -/
def State.appendAt (s : State) (q : KvReq) (ntok : Nat) : KvEnd :=
  let d := q.id.die
  let slot := slotVa q.list (ntok / 16)
  goOn (s.unitMay q q.list 8) fun s _ => goOn (s.unitMay q slot 4) fun s _ =>
  if ntok % 16 = 0 then
    match s.nextFree d with
    | none => .wait (s.ringEmpty d)
    | some b =>
      s.unlessBad q.id (s.badUnits (s.die d).freeRecord 4 ++ s.kvBad d b)
        (match s.freeAddr d b with
          | none => .done badBlk s
          | some pa => ((s.takeFree d b).unitWrite q slot (leBytes 4 b)).endAppend q ntok pa)
  else
    goOn (s.unitRead q slot 4) fun s w =>
      let b := leNat w % 2 ^ 24
      let e := s.kvEntry d b
      if b = 0xFFFFFF ∨ (s.die d).nblk ≤ b then .done badBlk s
      else s.unlessBad q.id (s.kvBad d b)
        (if !e.v ∨ e.refs = 0 ∨ e.state = 3 then .done badBlk s
        else if e.state ≠ 0 then .wait s
        else if 1 < e.refs then (s.setKvLo d b fun w => setField w 2 2 1).copyOut q ntok b
        else match s.blockAddr d e with
          | none => .done badBlk s
          | some pa => s.endAppend q ntok pa)

/-- The steps of R108 from the list's header on. -/
def State.appendList (s : State) (q : KvReq) : KvEnd :=
  goOn (s.unitRead q q.list 8) fun s hd =>
    let ntok := leNat (hd.take 4)
    let cap := leNat ((hd.drop 4).take 2)
    if cap = 0 then .done badSeq s
    else if cap ≤ ntok / 16 then .done seqFull s
    else s.appendAt q ntok

/-- `kvapp_steps` (R108): from the start, or from where the request has waited in a copy-out. -/
def State.kvAppend (s : State) (q : KvReq) : KvEnd :=
  match q.placed, q.copying with
  | some (ntok, n), _ => s.endCopy q ntok n
  | none, some (ntok, b) =>
    KvEnd.idle (goOn (s.unitMay q q.list 8) fun s _ => goOn (s.unitMay q (slotVa q.list (ntok / 16)) 4) fun s _ =>
      s.copyOut q ntok b) q.id.die b
  | none, none => s.appendList q

/-- The slots of a `kvfree` in order: each count is lowered at once; a block whose count reached 0 is released once its
entry is idle and the ring has room (R107, R110, R114); a bad slot is skipped and noted (R112, R308). At the end NTOK
becomes 0. -/
def State.kvDrop (s : State) (q : KvReq) : List Nat → KvEnd
  | [] => goOn (s.unitMay q q.list 4) fun s _ =>
    .done (if q.bad then badBlk else (q.freed : Nat)) (s.unitWrite q q.list (leBytes 4 0))
  | b :: rest =>
    let d := q.id.die
    let e := s.kvEntry d b
    let due := q.owed == some b
    let stay (s : State) : State := s.setKvReq { q with slots := b :: rest, owed := some b }
    if !due && (b == 0xFFFFFF || decide ((s.die d).nblk ≤ b)) then s.kvDrop { q with bad := true } rest
    else if !(s.kvBad d b).isEmpty then .poison (s.recordBad (s.kvBad d b) 0 d q.id.core)
    else if !due && (!e.v || e.refs == 0 || e.state == 3) then s.kvDrop { q with bad := true } rest
    else
      let s := if due then s else s.setKvRefs d b (e.refs - 1)
      if !due && e.refs != 1 then s.kvDrop q rest
      else if e.state = 1 ∨ e.state = 2 then .wait (stay s)
      else if (s.die d).rlFull then .wait ((stay s).ringFull d)
      else (s.releaseBlock d b).kvDrop { q with owed := none, freed := q.freed + 1 } rest

/-- `kvfree` (R112). -/
def State.kvRelease (s : State) (q : KvReq) : KvEnd :=
  if q.begun then s.kvDrop q q.slots
  else
    goOn (s.unitRead q q.list 8) fun s hd =>
      let n := (leNat (hd.take 4) + 15) / 16
      let cap := leNat ((hd.drop 4).take 2)
      if cap = 0 ∨ cap < n then .done badSeq s
      else goOn (s.unitMay q q.list 8) fun s _ => goOn (s.unitRead q (q.list + 8) (4 * n)) fun s ws =>
        let slots := (List.range n).map fun k => leNat ((ws.drop (4 * k)).take 4) % 2 ^ 24
        s.kvDrop { q with begun := true, slots := slots } slots

def State.kvStep (s : State) (q : KvReq) : KvEnd := if q.append then s.kvAppend q else s.kvRelease q

/-! ### The instructions -/

/-- The rows of a `kvld` with tokens, and the slots they need (R309). -/
def kvSlots (vrows n k0 : Nat) : List Nat :=
  dedup (((List.range vrows).filter fun i => decide (k0 + i < n)).map fun i => (k0 + i) / 16) []

/-- A status delivered alone. -/
def State.kvStatus (s : State) (n : BitVec 6) (v : Int) : State :=
  s.updCx fun c => c.addPend ⟨s.cycle + 1, [], [], .given [c.wS n (BitVec.ofInt 64 v)], 0, false, [], true, false⟩

/-- The rows of `kvld` read from the blocks, with the places read. -/
def kvRows (ts : BitVec 32) (n k0 half chunk : Nat) (block : Nat → Option Nat) : List (Option Nat) :=
  (List.range (shapeVRows ts)).map fun i =>
    let tok := k0 + i
    if tok < n then (block (tok / 16)).map fun pa => pa + half * 32768 + tok % 16 * 2048 + chunk * 256 else none

/-- The bytes of the rows of a `kvld`, zeros for a row without a token: block data is plain memory, over which the
context's held stores lie (06 R142, R151). Poison that is met is recorded. -/
def State.kvData (s : State) (id : CtxId) (run : Nat) (rows : List (Option Nat)) : State × List Byte × Bool :=
  rows.foldl (fun x row => match row with
    | none => (x.1, x.2.1 ++ List.replicate run 0, x.2.2)
    | some pa =>
      let (bs, bad) := x.1.readHeld id pa run
      (bad.foldl (fun s u => s.recordAt u 0 id.die id.core) x.1, x.2.1 ++ bs, x.2.2 || !bad.isEmpty)) (s, [], false)

/-- The last part of a `kvld`: the rows are read from the blocks, every block of list and data is counted once, and the
tile and the status become pending (R309). -/
def State.kvRead (s : State) (t : BitVec 4) (s1 : BitVec 6) (ps : List Part) (poison : Bool) (rows : List (Option Nat)) : State :=
  let id := s.cur
  let ts := s.cx.rTS t
  let run := shapeVCols ts * elemSize (shapeFmt ts)
  let (s, raw, bad) := s.kvData id run rows
  let parts : List Part := rows.filterMap fun x => x.bind fun pa => if run = 0 then none else some ⟨0, run, ⟨.dev, pa, 0, none⟩⟩
  s.updCx fun c =>
    (c.countRequests id.die (ps ++ parts)).addPend
      ⟨s.cycle + loadLatency id (parts ++ ps), [], [],
        .kv [tileWrite t ts raw, c.wS s1 (BitVec.ofNat 64 (rows.filter Option.isSome).length)], 0, bad || poison, [], true, false⟩

/-- A list that fails, or that poison spoils: its blocks read are counted (R309). -/
def State.kvFail (s : State) (n : BitVec 6) (ps : List Part) (v : Int) : State :=
  (s.updCx fun c => c.countRequests s.cur.die ps).kvStatus n v

/-- What a `kvld` finds of its list's header: its parts, NTOK, and the slots it needs. -/
structure KvHead where
  parts  : List Part
  n      : Nat
  slots  : List Nat

/-- The rest of a `kvld` once its header and its slots have passed their checks: the slots are read, their blocks found,
and the rows delivered (R309). -/
def State.kvLoad (s : State) (t : BitVec 4) (half : Nat) (s1 : BitVec 6) (chunk k0 : Nat) (h : KvHead) (sp : List Part) : State :=
  let id := s.cur
  let d := id.die
  let ps := h.parts ++ sp
  let (s, w) := s.readList id sp
  let index (j : Nat) : Nat :=
    match h.slots.findIdx? (· == j) with
    | some k => leNat ((w.bytes.drop (4 * k)).take 4) % 2 ^ 24
    | none => 0xFFFFFF
  let bad := h.slots.flatMap fun j => if index j < (s.die d).nblk then s.kvBad d (index j) else []
  if w.poison then s.kvRead t s1 ps true []
  else if !bad.isEmpty then (s.recordBad bad 0 d id.core).kvRead t s1 ps true []
  else if h.slots.any fun j => (s.readableBlock d (index j)).isNone then s.kvFail s1 ps badBlk
  else s.kvRead t s1 ps false (kvRows (s.cx.rTS t) h.n k0 half chunk fun j => s.readableBlock d (index j))

/-- `kvld` (R309). Its list is a part of one access: the slots that the header asks for are checked before anything is
performed (R301), a list that another package holds waits for a circuit (log 30), and held stores that precede the read
go home (06 R151). -/
def execKvld (g t : BitVec 4) (q : BitVec 2) (r : BitVec 4) (s1 : BitVec 6) (c : BitVec 3) (s : State) : Out :=
  s.slotOp g (.kvld g t q r s1 c) fun s => s.configured [t] fun s =>
    let id := s.cur
    let d := id.die
    let list := s.rA r
    let k0 := (s.rS s1).toNat
    if !(s.die d).kvEn then s.kvStatus s1 kvOff
    else if list.toNat % 8 ≠ 0 then s.kvStatus s1 badSeq
    else
      let rq := s.cx.req id .load true false
      match s.checkFor id rq [⟨list, 8⟩] with
      | (s, .error f) => s.refuse .load f
      | (s, .ok hp) =>
        let x := s.readList id hp
        let n := leNat (x.2.bytes.take 4)
        let cap := leNat ((x.2.bytes.drop 4).take 2)
        let slots := kvSlots (shapeVRows (s.cx.rTS t)) n k0
        if hp.any s.peerWaits then { s.setNext id.die id.core (s.cycle + 1) with stalled := true }
        else if x.2.poison then x.1.kvRead t s1 hp true []
        else if cap = 0 ∨ slots.any fun j => decide (cap ≤ j) then x.1.kvFail s1 hp badSeq
        else
          match s.checkFor id rq (slots.map fun j => ⟨slotVa list j, 4⟩) with
          | (s, .error f) => s.refuse .load f
          | (s, .ok sp) =>
            if sp.any s.peerWaits then { s.setNext id.die id.core (s.cycle + 1) with stalled := true }
            else (s.readList id hp).1.kvLoad t q.toNat s1 c.toNat k0 ⟨hp, n, slots⟩ sp

/-- The parts of the list that a request reads or writes, as its header now stands: all of them are checked before it
is handed over (R301, R310). -/
def State.kvParts (s : State) (append : Bool) (list : W64) (hp : List Part) : List VRun :=
  let h := (s.readList s.cur hp).2.bytes
  let ntok := leNat (h.take 4)
  let cap := leNat ((h.drop 4).take 2)
  if hp.any s.peerWaits then [⟨list, 8⟩]
  else if append then (if ntok / 16 < cap then [⟨list, 8⟩, ⟨slotVa list (ntok / 16), 4⟩] else [⟨list, 8⟩])
  else
    let n := (ntok + 15) / 16
    if n ≤ cap then [⟨list, 8 + 4 * n⟩] else [⟨list, 8⟩]

/-- The place of a request in the order of arrival: after every request of the package. -/
def State.kvOrder (s : State) : Nat :=
  ((fins 8).flatMap fun d => (s.die d).kvReqs.map fun q => q.order + 1).foldl Nat.max 0

/-- The status of a request that has ended, delivered to the bundle that waited for it. -/
def State.kvTake (s : State) (q : KvReq) (s1 : BitVec 6) : State :=
  let s := s.updDie q.id.die fun x => { x with kvReqs := x.kvReqs.filter fun p => p.num != q.num }
  let s := s.updCx fun c => { c with kvReq := none }
  if q.poison then s.updCx fun c => c.addPend ⟨s.cycle + 1, [], [], .given [c.wS s1 0], 0, true, [], true, false⟩
  else s.putS s1 1 (q.status.getD 0)

/-- Handing a request to the unit: the bundle is held until it ends (R311). -/
def State.kvHand (s : State) (append : Bool) (r : BitVec 4) (s1 : BitVec 6) (data : BitVec 32768) : State :=
  let id := s.cur
  let d := id.die
  let list := s.rA r
  match s.cx.kvReq with
  | some w =>
    match (s.die d).kvReqs.find? fun q => q.num == w.num && q.status.isSome with
    | some q => s.kvTake q s1
    | none => s.block id .blockTable
  | none =>
    if !(s.die d).kvEn then s.putS s1 1 (BitVec.ofInt 64 kvOff)
    else if list.toNat % 8 ≠ 0 then s.putS s1 1 (BitVec.ofInt 64 badSeq)
    else
      let rq := s.cx.req id .store true true
      match s.checkFor id rq [⟨list, 8⟩] with
      | (s, .error f) => s.refuse .store f
      | (s, .ok hp) =>
        match s.checkFor id rq (s.kvParts append list hp) with
        | (s, .error f) => s.refuse .store f
        | (s, .ok _) =>
          let n := (s.die d).kvNext
          let (reg, bank) := match s.cx.nameS s1 with
            | .hs k => (k.setWidth 6, true)
            | .s k => (k, false)
            | _ => (0, false)
          let home := match hp.head? with | some p => s.bind d p.loc | none => (.dev, 0)
          let q : KvReq :=
            { num := n, id := id, task := s.cx.task, append := append, list := list, asid := s.cx.asid, pkr := s.cx.arch.pkr
              data := data, home := home, order := s.kvOrder, copying := none, placed := none, begun := false, slots := [], owed := none
              freed := 0, bad := false, status := none, poison := false }
          let s := s.updDie d fun x => { x with kvReqs := x.kvReqs ++ [q], kvNext := n + 1 }
          (s.updCx fun c => { c with kvReq := some ⟨n, reg, bank⟩ }).block id .blockTable

def execKvapp (g t r : BitVec 4) (s1 : BitVec 6) (s : State) : Out :=
  s.slotOp g (.kvapp g t r s1) fun s => s.configured [t] fun s => s.kvHand true r s1 (s.cx.rT t)

def execKvfree (g r : BitVec 4) (s1 : BitVec 6) (s : State) : Out :=
  s.slotOp g (.kvfree g r s1) fun s => s.kvHand false r s1 0

/-! ### Events -/

/-- The first request of a context that has no status yet. -/
def State.openReq (s : State) (id : CtxId) : Option KvReq :=
  (s.die id.die).kvReqs.find? fun q => q.id == id && q.status.isNone

/-- Whether an earlier request on the same list is still under way: one list's are performed in the order in which they
arrived at its home (R110). -/
def State.kvBehind (s : State) (q : KvReq) : Bool :=
  (fins 8).any fun d => (s.die d).kvReqs.any fun p => p.status.isNone && p.home == q.home && decide (p.order < q.order)

/-- The end of a request: its status is kept for the context or the saved task that waits for it, and discarded after
END (R311). -/
def State.kvFinish (s : State) (q : KvReq) (v : Int) (poison : Bool) : State :=
  let c := s.ctxOf q.id
  let wanted := q.task.isSome || (c.kvReq.any fun w => w.num == q.num) || (c.keepKv.any fun w => w.num == q.num)
  let s :=
    if wanted then s.setKvReq { q with status := some (BitVec.ofInt 64 v), poison := poison }
    else s.updDie q.id.die fun x => { x with kvReqs := x.kvReqs.filter fun p => p.num != q.num }
  s.wake q.id

/-- KV_REQUEST_DONE: the unit performs a request's steps and keeps its status for the context, or
waits (R107, R110). Without an open request it has no effect (log 11). -/
def execKvRequestDone (id : CtxId) (s : State) : Out :=
  .next (match s.openReq id with
    | none => s
    | some q =>
      if s.kvBehind q then s
      else match s.kvStep q with
        | .wait t => t
        | .done v t => t.kvFinish q v false
        | .poison t => t.kvFinish q 0 true)

/-- KVFRPOS write: TAIL, unless it would leave more records than the ring holds (R104). A new episode
of EMPTY may begin. -/
def execKvfrposWrite (d : Fin 8) (val : BitVec 64) (s : State) : Out :=
  .next (s.updDie d fun x =>
    let t : BitVec 32 := field val 32 32
    if x.frSize < (t - x.kvfrHead).toNat then { x with kvErr := true }
    else { x with kvfrTail := t, kvEmptyEpisode := x.kvEmptyEpisode && t == x.kvfrHead })

/-- KVRLPOS write: HEAD, unless it would move past TAIL (R104). -/
def execKvrlposWrite (d : Fin 8) (val : BitVec 64) (s : State) : Out :=
  .next (s.updDie d fun x =>
    let h : BitVec 32 := field val 0 32
    if x.rlSize < (x.kvrlTail - h).toNat then { x with kvErr := true }
    else { x with kvrlHead := h, kvFullEpisode := x.kvFullEpisode && decide (x.rlSize ≤ (x.kvrlTail - h).toNat) })

/-- Whether an operation delivers a `kvld`. -/
def Pend.ofKv (p : Pend) : Bool := match p.form with | .kv _ => true | _ => false

/-- Whether a block-table operation is in flight: a request, a migration or a `kvld`. -/
def Die.kvBusy (x : Die) : Bool :=
  (x.kvReqs.any fun q => q.status.isNone) || (x.engOps.any fun o => o.kind == .kvmig) ||
  (fins 16).any fun c => (fins 4).any fun n => (vget (vget x.cores c).ctxs n).pend.any Pend.ofKv

/-- KVBASE (`base`) or KVCFG write: refused while an operation is in flight (R103). -/
def execKvcfgWrite (d : Fin 8) (base : Bool) (val : BitVec 64) (s : State) : Out :=
  .next (s.updDie d fun x =>
    if x.kvBusy then { x with kvErr := true }
    else if base then { x with kvbase := val &&& 0x000FFFFFFFFFFFF0 }
    else { x with kvcfg := val &&& 0x0000003FFFFFFFF1 })

end Sys2Proof.Machine
end

