-- ==== Sys2Proof/Machine/Atomics.lean ====
section
/-! DEFINITION. Read-modify-writes and reductions at the home (07 R170-R172), the barrier objects they
name (R173-R176), and the meanings of M-slot groups 2 and 3 (13 R312-R317). -/

namespace Sys2Proof.Machine

/-! ### New values (R312) -/

/-- new(old, x, OP) on n-byte values. -/
def amoNew (n op old x : Nat) : Nat :=
  let w := 8 * n
  let lt := decide (signedNat old w < signedNat x w)
  match op with
  | 0 => (old + x) % 2 ^ w
  | 1 => x
  | 2 => old &&& x
  | 3 => old ||| x
  | 4 => if lt then old else x
  | 5 => if lt then x else old
  | 6 => Nat.min old x
  | _ => Nat.max old x

/-- What a piece leaves at its home: the new value, if any, and the flags of its computation. -/
abbrev Update := Nat → Option Nat × Flags

def amoUpdate (n op x : Nat) : Update := fun old => (some (amoNew n op old x), 0)
def casUpdate (cmp x : Nat) : Update := fun old => (if old = cmp then some x else none, 0)
def famoUpdate (op x : Nat) : Update := fun old => let r := fnew op old x; (some r.1, r.2)

/-- An update of n bytes in storage of the package: a poisoned unit stays as it is (02 R56). Answers the
old value, the flags, and whether it met poison. -/
def State.updateAt (s : State) (pa n : Nat) (f : Update) (die : Fin 8) (core src : Nat) : State × Nat × Flags × Bool :=
  if s.poisoned pa n then (s.recordAt pa src die core, 0, 0, true)
  else
    let old := leNat (s.devRead pa n)
    match f old with
    | (some v, fl) => (s.devWrite pa (leBytes n v), old, fl, false)
    | (none, fl) => (s, old, fl, false)

/-- An update in host memory, as a PCIe AtomicOp. -/
def State.updateHost (s : State) (a n : Nat) (f : Update) : State × Nat × Flags :=
  let old := leNat (s.hostRead a n)
  match f old with
  | (some v, fl) => (s.hostWrite a (leBytes n v), old, fl)
  | (none, fl) => (s, old, fl)

/-- An update by a die in host memory at an aperture address, as a PCIe AtomicOp; a poisoned completion leaves memory
unchanged (02 R56, R58). -/
def State.updateHostAt (s : State) (id : CtxId) (pa n : Nat) (f : Update) : State × Nat × Flags × Bool :=
  if s.hostPoisoned id.die pa n then (s.hostArrive id.die pa n 0 id.core, 0, 0, true)
  else
    let (s, old, fl) := s.updateHost (s.hostAddr id.die pa) n f
    (s, old, fl, false)

/-- What an update at a checked part answers. -/
structure Reply where
  old    : Nat
  flags  : Flags
  poison : Bool
  waits  : List Await
deriving DecidableEq, Repr

/-- One update at the home of a checked part. `code` is the group, index, OP and SZ that a flit carries
(16 R394), `data` its operands, and `ret` tells a returning form. -/
def State.updatePart (s : State) (id : CtxId) (acc : AccKind) (p : Part) (f : Update) (code : Nat) (data : List Byte)
    (ret : Bool) : State × Reply :=
  match p.loc.space with
  | .dev =>
    let (s, old, fl, bad) := s.updateAt p.loc.addr p.n f id.die id.core 4
    (s, ⟨old, fl, bad, []⟩)
  | .host =>
    let (s, old, fl, bad) := s.updateHostAt id p.loc.addr p.n f
    (s, ⟨old, fl, bad, []⟩)
  | .peer m =>
    if !s.joist.mvalid then (s.updCtx id Ctx.noMember, ⟨0, 0, false, []⟩)
    else if s.isSelf m then
      if peerRefuses p.loc.addr then (s.updCtx id fun c => c.pendRefusal p.va acc s.cycle, ⟨0, 0, false, []⟩)
      else
        let (s, old, fl, bad) := s.updateAt p.loc.addr p.n f id.die id.core 4
        let s := if bad && ret then s.recordError id.die 4 0 id.core 0 (peerBase + m.toNat * 2 ^ 42 + p.loc.addr) else s
        (s, ⟨old, fl, bad, []⟩)
    else
      let (s, seq) := s.sendPeer id (s.origin (s.ctxOf id).asid) m 4 p.loc.addr code data false p.va acc ret none
      (s, ⟨0, 0, false, if ret then [⟨seq, m, 0, p.n⟩] else []⟩)
  | .ctrl => (s, ⟨0, 0, false, []⟩)

/-! ### Returning atomics (R313, R315) -/

/-- A returning atomic of n bytes at a register's address. -/
def State.atomic (s : State) (d : BitVec 6) (r : BitVec 4) (n : Nat) (hostOk : Bool) (f : Update) (code : Nat)
    (data : List Byte) : State :=
  let id := s.cur
  let req := { s.cx.req id .rmw true true with atom := some (n, hostOk) }
  match s.access id req [⟨s.rA r, n⟩] with
  | (s, .error e) => s.refuse .rmw e
  | (s, .ok ps) =>
    match ps with
    | [] => s
    | p :: _ =>
      let (s, y) := (s.flushHeld id).updatePart id .rmw p f code data true
      s.updCx fun c =>
        c.addPend ⟨s.cycle + loadLatency id ps, y.waits, leBytes n y.old, .scalar (c.nameS d) n false, y.flags, y.poison,
          [], true, false⟩

/-- Bits 55:48 of a flit's ARG for an M-slot operation (16 R394). -/
def opCode (group index op : Nat) (wide : Bool) : Nat := index + 4 * (group % 4) + 16 * op + 128 * b2n wide

def sizeOf (z : BitVec 1) : Nat := if z = 1 then 8 else 4

def execAmo (g : BitVec 4) (d : BitVec 6) (r : BitVec 4) (f : BitVec 2) (b : BitVec 5) (z : BitVec 1) (o : BitVec 3)
    (s : State) : Out :=
  s.slotOp g (.amo g d r f b z o) fun s =>
    let n := sizeOf z
    let x := (s.rS (b.setWidth 6)).toNat % 2 ^ (8 * n)
    s.atomic d r n (decide (o.toNat ≤ 1)) (amoUpdate n o.toNat x) (opCode 2 0 o.toNat (z == 1)) (leBytes n x)

def execCas (g : BitVec 4) (d : BitVec 6) (r : BitVec 4) (f : BitVec 2) (b : BitVec 5) (z : BitVec 1) (s : State) : Out :=
  s.slotOp g (.cas g d r f b z) fun s =>
    let n := sizeOf z
    let x := (s.rS (b.setWidth 6)).toNat % 2 ^ (8 * n)
    let cmp := (s.rS d).toNat % 2 ^ (8 * n)
    s.atomic d r n true (casUpdate cmp x) (opCode 2 1 0 (z == 1)) (leBytes n x ++ leBytes n cmp)

def execFamo (g : BitVec 4) (d : BitVec 6) (r : BitVec 4) (f : BitVec 2) (b : BitVec 5) (o : BitVec 3) (s : State) : Out :=
  s.slotOp g (.famo g d r f b o) fun s =>
    let x := (s.rS (b.setWidth 6)).toNat % 2 ^ 32
    s.atomic d r 4 false (famoUpdate o.toNat x) (opCode 2 2 o.toNat false) (leBytes 4 x)

/-! ### Barrier objects (07 R173-R175) -/

/-- The fields of a barrier object that its operations use. -/
structure Barrier where
  expect  : Nat
  arrived : Nat
  phase   : Bool
  init    : Bool
  berr    : Bool
  dwait   : BitVec 8
  gen     : BitVec 32
  lwait   : W64
deriving DecidableEq, Repr

def readBarrier (v : Nat) : Barrier :=
  ⟨v % 2 ^ 32, v / 2 ^ 32 % 2 ^ 32, v / 2 ^ 64 % 2 == 1, v / 2 ^ 65 % 2 == 1, v / 2 ^ 66 % 2 == 1,
    BitVec.ofNat 8 (v / 2 ^ 72), BitVec.ofNat 32 (v / 2 ^ 96), BitVec.ofNat 64 (v / 2 ^ 128)⟩

/-- The object with its fields rewritten; its other bits stay. -/
def Barrier.word (b : Barrier) (v : Nat) : Nat :=
  b.expect + b.arrived * 2 ^ 32 + b2n b.phase * 2 ^ 64 + b2n b.init * 2 ^ 65 + b2n b.berr * 2 ^ 66 +
    v / 2 ^ 67 % 2 ^ 5 * 2 ^ 67 + b.dwait.toNat * 2 ^ 72 + v / 2 ^ 80 % 2 ^ 16 * 2 ^ 80 + b.gen.toNat * 2 ^ 96 +
    b.lwait.toNat * 2 ^ 128 + v / 2 ^ 192 * 2 ^ 192

def State.barrier (s : State) (pa : Nat) : Barrier := readBarrier (leNat (s.devRead pa 64))

def State.setBarrier (s : State) (pa : Nat) (b : Barrier) : State :=
  s.devWrite pa (leBytes 64 (b.word (leNat (s.devRead pa 64))))

/-- Whether a wait goes on at a barrier. -/
def Wait.waitsAt (w : Wait) (pa : Nat) : Bool := w.bar == some pa && w.result.isNone

/-- A wait gets its result at a GTIME: a completed `btwait` past its limit times out (06 R157). -/
def Wait.resolve (w : Wait) (pa : Nat) (code : BitVec 2) (at_ : Nat) : Wait :=
  if w.waitsAt pa then
    let late := match w.limit with | some l => decide (l.toNat < at_) | none => false
    { w with registered := false, result := some (if code = 0 ∧ late = true then 1 else code) }
  else w

/-- The waits of a context at a barrier, that of a bundle put aside by a handler too, get their result. A phase change is
progress (R176). -/
def State.resolveWait (s : State) (id : CtxId) (pa : Nat) (code : BitVec 2) : State :=
  let c := s.ctxOf id
  if (c.wait.any fun w => w.waitsAt pa) || (c.keepWait.any fun w => w.waitsAt pa) then
    let s := s.updCtx id fun c =>
      let c := if code = 0 then c.progress (s.wdTime id) else c
      { c with
        wait := c.wait.map fun w => w.resolve pa code s.gtime
        keepWait := c.keepWait.map fun w => w.resolve pa code s.gtime }
    s.wake id
  else s

/-- `wake` of R174: every registered waiter, on the home die by LWAIT and elsewhere by the wait tables. -/
def State.wakeAll (s : State) (pa : Nat) (b : Barrier) (code : BitVec 2) : State :=
  let home := homeDie pa
  let near := (dieCtxs home).filter fun id => b.lwait.getLsbD (CtxId.bitNo id)
  let s := near.foldl (fun s id => s.resolveWait id pa code) s
  (fins 8).foldl
    (fun s e =>
      if b.dwait.getLsbD e.val then
        let ids := ((s.die e).waitTab.filter fun x => x.1 == pa).map Prod.snd
        let s := s.updDie e fun x => { x with waitTab := x.waitTab.filter fun y => y.1 != pa }
        ids.foldl (fun s id => s.resolveWait id pa code) s
      else s) s

/-- The name of the flip of a barrier that ends a GEN. -/
def flipKey (pa : Nat) (gen : BitVec 32) : Nat := pa * 2 ^ 32 + gen.toNat

/-- `arrival` of R174 with the reply of `arrive` (13 R321); a poisoned object is left alone (02 R56). -/
def State.arrival (s : State) (pa : Nat) (die : Fin 8) (core : Nat) : State × Nat × Bool :=
  if s.poisoned pa 64 then (s.recordUnits pa 64 4 die core, 0, true)
  else
    let b := s.barrier pa
    if !b.init ∨ b.expect = 0 then (s.setBarrier pa { b with berr := true }, b2n b.phase + 4, false)
    else if (b.arrived + 1) % 2 ^ 32 = b.expect then
      let s := s.setBarrier pa { b with arrived := 0, phase := !b.phase, gen := b.gen + 1, lwait := 0, dwait := 0 }
      let s := { s with flips := (flipKey pa b.gen, s.gtime) :: s.flips }
      (s.wakeAll pa b 0, b2n b.phase + 2, false)
    else (s.setBarrier pa { b with arrived := (b.arrived + 1) % 2 ^ 32 }, b2n b.phase, false)

/-- An access to a barrier object: 64 bytes in scratchpad, aligned (R173). -/
def Ctx.barrierReq (c : Ctx) (id : CtxId) (acc : AccKind) (rd wr : Bool) : Req := { c.req id acc rd wr with barrier := true }

/-! ### Reductions (R316, R317) -/

/-- A reduction without a barrier. -/
def State.reduce (s : State) (r : BitVec 4) (n : Nat) (hostOk add : Bool) (f : Update) (code : Nat) (data : List Byte) : State :=
  let id := s.cur
  let req := { s.cx.req id .reduction false true with atom := some (n, hostOk), add := add }
  match s.access id req [⟨s.rA r, n⟩] with
  | (s, .error e) => s.refuse .reduction e
  | (s, .ok ps) => ps.foldl (fun s p => (s.updatePart id .reduction p f code data false).1) (s.flushHeld id)

/-- Whether an update of a part is not performed at all: a loopback that is refused, or a peer access of a package without
a valid identifier (01 R15, R25). -/
def State.refusesPart (s : State) (p : Part) : Bool :=
  match p.loc.space with
  | .peer m => !s.joist.mvalid || (s.isSelf m && peerRefuses p.loc.addr)
  | _ => false

/-- The arrival that a reduction sends: after the update has been performed, at another package once that package has
acknowledged it (06 R156). One that is not performed sends none. -/
def State.arriveAfter (s : State) (id : CtxId) (data : List Part) (pa : Nat) : State :=
  let away := data.any fun p => match p.loc.space with | .peer m => s.joist.mvalid && !s.isSelf m | _ => false
  if data.any s.refusesPart then s
  else match (if away then s.joist.peerReqs.getLast? else none) with
  | some r => s.updJoist fun j => { j with peerReqs := j.peerReqs.dropLast ++ [{ r with arrive := some pa }] }
  | none => (s.arrival pa id.die id.core).1

/-- A reduction that names a barrier: both parts are checked before either is performed, and the
arrival follows the update. -/
def State.reduceBar (s : State) (r q : BitVec 4) (n : Nat) (add : Bool) (f : Update) (code : Nat) (data : List Byte) : State :=
  let id := s.cur
  let req := { s.cx.req id .reduction false true with atom := some (n, false), add := add }
  let breq := s.cx.barrierReq id .store false true
  let x := s.checkFor id req [⟨s.rA r, n⟩]
  let y := x.1.checkFor id breq [⟨s.rA q, 64⟩]
  match x.2, y.2 with
  | .error e, .error f => if f.va.toNat < e.va.toNat then y.1.refuse .store f else y.1.refuse .reduction e
  | .error e, .ok _ => y.1.refuse .reduction e
  | .ok _, .error f => y.1.refuse .store f
  | .ok ps, .ok bs =>
    let s := (y.1.setDirtyLeaves req ps).setDirtyLeaves breq bs
    let s := s.updCtx id fun c => c.countRequests id.die (ps ++ bs)
    let s := ps.foldl (fun s p => (s.updatePart id .reduction p f code data false).1) (s.flushHeld id)
    bs.foldl (fun s p => s.arriveAfter id ps p.loc.addr) s

def execRed (g r : BitVec 4) (f : BitVec 1) (b : BitVec 6) (z : BitVec 1) (o : BitVec 3) (s : State) : Out :=
  s.slotOp g (.red g r f b z o) fun s =>
    let n := sizeOf z
    let x := (s.rS b).toNat % 2 ^ (8 * n)
    s.reduce r n (o == 0) (o == 0) (amoUpdate n o.toNat x) (opCode 3 0 o.toNat (z == 1)) (leBytes n x)

def execFred (g r : BitVec 4) (f : BitVec 1) (b : BitVec 6) (o : BitVec 3) (s : State) : Out :=
  s.slotOp g (.fred g r f b o) fun s =>
    let x := (s.rS b).toNat % 2 ^ 32
    s.reduce r 4 false false (famoUpdate o.toNat x) (opCode 3 1 o.toNat false) (leBytes 4 x)

def execRedb (g r : BitVec 4) (f : BitVec 1) (b : BitVec 6) (z : BitVec 1) (o : BitVec 3) (q : BitVec 4) (s : State) : Out :=
  s.slotOp g (.redb g r f b z o q) fun s =>
    let n := sizeOf z
    let x := (s.rS b).toNat % 2 ^ (8 * n)
    s.reduceBar r q n (o == 0) (amoUpdate n o.toNat x) (opCode 3 2 o.toNat (z == 1)) (leBytes n x)

def execFredb (g r : BitVec 4) (f : BitVec 1) (b : BitVec 6) (o : BitVec 3) (q : BitVec 4) (s : State) : Out :=
  s.slotOp g (.fredb g r f b o q) fun s =>
    let x := (s.rS b).toNat % 2 ^ 32
    s.reduceBar r q 4 false (famoUpdate o.toNat x) (opCode 3 3 o.toNat false) (leBytes 4 x)

end Sys2Proof.Machine
end

