-- ==== Sys2Proof/Machine/Real.lean ====
section
/-! DEFINITION. The approximations of 14 R346: each delivers one rounding of the exact real f(a).
Reciprocal and reciprocal root are decided by exact comparison. The other functions are enclosed in
ever narrower rational intervals until both ends round to one code with one set of flags; where f(a)
is itself rational it is taken exactly, so an enclosure of the others always narrows far enough. -/

namespace Sys2Proof.Machine

/-- An enclosure lo ≤ x ≤ hi of a positive real, in units of 2^-p. -/
structure Enclosure where
  lo : Nat
  hi : Nat

/-- Slack, in units of 2^-p, that covers the truncations of a series below. -/
def slack : Nat := 2 ^ 24

/-- Sum of z^k / k! for k = 0, 1, … of a number z / 2^p below 1, truncated at each term. -/
def expSeries (p z : Nat) : Nat → Nat → Nat → Nat → Nat
  | 0, _, _, acc => acc
  | fuel + 1, k, term, acc =>
    let t := term * z / 2 ^ p / k
    expSeries p z fuel (k + 1) t (acc + t)

/-- e^(z / 2^p) for z < 2^p, in units of 2^-p, truncated. -/
def expFrac (p z : Nat) : Nat := expSeries p z p 1 (2 ^ p) (2 ^ p)

/-- Sum of w^(2k+1) / (2k+1), for w = z / 2^p below 1, truncated at each term. -/
def atanhSeries (p z2 : Nat) : Nat → Nat → Nat → Nat → Nat
  | 0, _, _, acc => acc
  | fuel + 1, k, term, acc => atanhSeries p z2 fuel (k + 2) (term * z2 / 2 ^ p) (acc + term / k)

/-- ln(n / d) for 1 ≤ n / d < 2, in units of 2^-p, truncated: 2 atanh((n - d) / (n + d)). -/
def lnFrac (p n d : Nat) : Nat :=
  let z := (n - d) * 2 ^ p / (n + d)
  2 * atanhSeries p (z * z / 2 ^ p) p 1 z 0

/-- ln 2 in units of 2^-p, truncated. -/
def ln2 (p : Nat) : Nat :=
  let z := 2 ^ p / 3
  2 * atanhSeries p (z * z / 2 ^ p) p 1 z 0

/-- A rational in units of 2^-p between two numbers of units, as values. -/
def encl (p : Nat) (neg : Bool) (lo hi : Nat) (e : Int) : Val × Val :=
  let v (n : Nat) : Val := Val.scaled neg n (e - p)
  (v lo, v hi)

/-- Enclosure of 2^(num / den) for a magnitude below 2^12. -/
def exp2Encl (p : Nat) (neg : Bool) (num den : Nat) : Val × Val :=
  let i : Int := if neg then -(ceilDiv num den : Nat) else (num / den : Nat)
  let frac := if neg then (ceilDiv num den * den - num) * 2 ^ p / den else (num % den) * 2 ^ p / den
  let y := expFrac p (frac * ln2 p / 2 ^ p)
  encl p false (y - slack) (y + slack) i

/-- Enclosure of e^(num / den) for a magnitude below 2^12; ends in units of 2^(e - p) with e. -/
def expEncl (p : Nat) (neg : Bool) (num den : Nat) : Enclosure × Int :=
  let y := num * 2 ^ p / den
  let l := ln2 p
  let i : Int := if neg then -(ceilDiv y l : Nat) else (y / l : Nat)
  let r := if neg then ceilDiv y l * l - y else y % l
  let v := expFrac p r
  (⟨v - slack, v + slack⟩, i)

/-- Enclosure of log2(num / den), num ≠ den. -/
def log2Encl (p num den : Nat) : Val × Val :=
  let e := expOf num den
  let n := if 0 ≤ e then num else num * 2 ^ (-e).toNat
  let d := if 0 ≤ e then den * 2 ^ e.toNat else den
  let f := lnFrac p n d * 2 ^ p / ln2 p
  let lo : Int := e * (2 ^ p : Nat) + f - slack
  let hi : Int := e * (2 ^ p : Nat) + f + slack
  let v (x : Int) : Val := .fin (decide (x < 0)) x.natAbs (2 ^ p)
  (v lo, v hi)

/-- Enclosure of 1 / (1 + e^(num/den)) for a positive argument: the smaller side of the sigmoid. -/
def sigmEncl (p num den : Nat) : Val × Val :=
  let x := expEncl p false num den
  let s := 2 ^ x.2.toNat
  (.fin false (2 ^ p) (2 ^ p + x.1.hi * s), .fin false (2 ^ p) (2 ^ p + x.1.lo * s))

/-- Enclosure of tanh(num/den) for a positive argument: (e^2a − 1) / (e^2a + 1). -/
def tanhEncl (p : Nat) (neg : Bool) (num den : Nat) : Val × Val :=
  let x := expEncl p false (2 * num) den
  let s := 2 ^ x.2.toNat
  let v (y : Nat) : Val := .fin neg (y * s - 2 ^ p) (y * s + 2 ^ p)
  (v x.1.lo, v x.1.hi)

/-- The approximations with an irrational result in general (R346). -/
inductive ApxFn where
  | exp2 | log2 | tanh | sigm
deriving DecidableEq, Repr

/-- Values that stand for results beyond every format: their rounding is that of any number past the
largest finite value, and of any nonzero number below half the least subnormal. -/
def huge : Val := Val.scaled false 3 4000
def tiny : Val := Val.scaled false 3 (-4000)

/-- 1 less a number below half of every format's spacing at 1. -/
def nearOne (neg : Bool) : Val := .fin neg (2 ^ 4000 - 1) (2 ^ 4000)

/-- An enclosure of f(a) for a finite a ≠ 0, at precision p. The ends are equal where f(a) is taken exactly. -/
def apxEncl (f : ApxFn) (p : Nat) (neg : Bool) (num den : Nat) : Val × Val :=
  let same (v : Val) : Val × Val := (v, v)
  match f with
  | .exp2 =>
    if num / den ≥ 4000 then same (if neg then tiny else huge)
    else if num % den = 0 then same (Val.scaled false 1 (if neg then -(num / den : Nat) else (num / den : Nat)))
    else exp2Encl p neg num den
  | .log2 =>
    let e := expOf num den
    if (if 0 ≤ e then decide (num = den * 2 ^ e.toNat) else decide (num * 2 ^ (-e).toNat = den))
    then same (Val.ofInt e) else log2Encl p num den
  | .tanh => if num / den ≥ 1400 then same (nearOne neg) else tanhEncl p neg num den
  | .sigm =>
    if num / den ≥ 2800 then same (if neg then tiny else nearOne false)
    else
      let x := sigmEncl p num den
      if neg then x
      else
        let c : Val → Val
          | .fin _ n d => .fin false (d - n) d
          | v => v
        (c x.2, c x.1)

/-- Rounding of f(a) at the first precision whose enclosure decides it. -/
def apxRound (round : Val → Nat × Flags) (f : ApxFn) (neg : Bool) (num den : Nat) : List Nat → Nat × Flags
  | [] => round (apxEncl f 2048 neg num den).1
  | p :: ps =>
    let x := apxEncl f p neg num den
    let a := round x.1
    if a = round x.2 then a else apxRound round f neg num den ps

/-- The precisions tried in turn. -/
def apxPrecisions : List Nat := [80, 256, 1024]

/-- Special inputs of the table of R346 by value, with NV; none where f(a) is to be enclosed. -/
def apxSpecial : ApxFn → Val → Option Res
  | _, .nan => some (.nan, false)
  | .exp2, .inf neg => some (if neg then Val.zero else .inf false, false)
  | .log2, .inf neg => some (if neg then (.nan, true) else (.inf false, false))
  | .tanh, .inf neg => some (.fin neg 1 1, false)
  | .sigm, .inf neg => some (if neg then Val.zero else Val.one, false)
  | f, .fin neg num _ =>
    if num = 0 then
      some (match f with
        | .exp2 => (Val.one, false)
        | .log2 => (.inf true, false)
        | .tanh => (.fin neg 0 1, false)
        | .sigm => (.fin false 1 2, false))
    else match f with
      | .log2 => if neg then some (.nan, true) else none
      | _ => none

/-- One rounding of f(a) (R346), with its flags. -/
def apx (f : ApxFn) (round : Val → Nat × Flags) (a : Val) : Nat × Flags :=
  match apxSpecial f a with
  | some r => let x := round r.1; (x.1, x.2 ||| flagIf r.2 fNV)
  | none =>
    match a with
    | .fin neg num den => apxRound round f neg num den apxPrecisions
    | v => round v

/-- 1 / a (R346). -/
def recip : Val → Res
  | .nan => (.nan, false)
  | .inf s => (.fin s 0 1, false)
  | .fin s n d => if n = 0 then (.inf s, false) else (.fin s d n, false)

/-- floor(√n), from bit k - 1 of the root down. -/
def isqrtFrom (n : Nat) : Nat → Nat → Nat
  | 0, r => r
  | k + 1, r => isqrtFrom n k (if (r + 2 ^ k) * (r + 2 ^ k) ≤ n then r + 2 ^ k else r)

/-- floor(√n). -/
def isqrt (n : Nat) : Nat := isqrtFrom n (Nat.log2 n / 2 + 1) 0

/-- A rational on the same side as 1 / √(num/den) of every number of at most 60 bits of precision,
and equal to it where it is rational: the root is cut at 2^-120 of its size, and half a unit is added
when the cut dropped something. -/
def recipRoot : Val → Res
  | .nan => (.nan, false)
  | .inf s => if s then (.nan, true) else (Val.zero, false)
  | .fin s n d =>
    if n = 0 then (.inf s, false)
    else if s then (.nan, true)
    else
      -- 1/√(n/d) = √(d/n) = √(d·n)/n
      let k := 120
      let x := d * n * 2 ^ (2 * k)
      let r := isqrt x
      if r * r = x then (.fin false r (n * 2 ^ k), false) else (.fin false (2 * r + 1) (n * 2 ^ (k + 1)), false)

end Sys2Proof.Machine
end

