-- ==== Sys2Proof/Machine/Sync.lean ====
section
/-! DEFINITION. The meanings of M-slot group 4 but `pub`: fences and barriers (13 R318-R322), with the
steps of waits (07 R174-R176, 06 R157) and of region commits (18 R428). -/

namespace Sys2Proof.Machine

/-! ### Fences -/

/-- A fence: pieces are performed in order at issue, so only held stores are left to order (R151). A
SYS fence holds later M, X and C operations while a peer has an earlier read to answer or a write to acknowledge
(06 R143, R319). -/
def execFence (g : BitVec 4) (k : BitVec 3) (s1 : BitVec 1) (s : State) : Out :=
  s.slotOp g (.fence g k s1) fun s =>
    if k = 4 then
      let s := s.flushHeld s.cur
      s.updCx fun c => { c with fencing := decide (0 < s.peerPieces s.cur) }
    else s.commitEarly s.cur

/-! ### Barriers -/

/-- A barrier access of the issuing context: every check, and the place of the object. -/
def State.barrierAt (s : State) (acc : AccKind) (rd wr : Bool) (r : BitVec 4) : State × Except PartFault (Option Part) :=
  match s.access s.cur (s.cx.barrierReq s.cur acc rd wr) [⟨s.rA r, 64⟩] with
  | (s, .error f) => (s, .error f)
  | (s, .ok ps) => (s, .ok ps.head?)

/-- The step of `barinit` at the home (R174). -/
def State.barrierInit (s : State) (pa expect : Nat) (die : Fin 8) (core : Nat) : State :=
  if s.poisoned pa 64 then s.recordUnits pa 64 4 die core
  else
    let b := s.barrier pa
    let s := s.setBarrier pa
      { b with expect := expect, arrived := 0, init := true, berr := false, lwait := 0, dwait := 0 }
    s.wakeAll pa b 2

def execBarinit (g r : BitVec 4) (b : BitVec 6) (s : State) : Out :=
  s.slotOp g (.barinit g r b) fun s =>
    let id := s.cur
    match s.barrierAt .store false true r with
    | (s, .error f) => s.refuse .store f
    | (s, .ok none) => s
    | (s, .ok (some p)) => (s.flushHeld id).barrierInit p.loc.addr ((s.rS b).toNat % 2 ^ 32) id.die id.core

/-- `arrive`: one arrival; with D ≠ 0 the reply's bits (R321). -/
def execArrive (g : BitVec 4) (d : BitVec 6) (r : BitVec 4) (s : State) : Out :=
  s.slotOp g (.arrive g d r) fun s =>
    let id := s.cur
    match s.barrierAt .store false true r with
    | (s, .error f) => s.refuse .store f
    | (s, .ok none) => s
    | (s, .ok (some p)) =>
      let (s, bits, bad) := (s.flushHeld id).arrival p.loc.addr id.die id.core
      if d = 0 then s
      else s.updCx fun c =>
        c.addPend ⟨s.cycle + placeLatency id p.loc, [], [], .given [c.wS d (BitVec.ofNat 64 bits)], 0, bad, [], true, false⟩

/-- What a wait finds at the home: its status, or none when it goes on waiting (R175). `flip` is the GTIME of the flip
that has ended its phase, the present one where the first evaluation finds it ended (06 R157, R322). -/
def waitStatus (b : Barrier) (phase : Bool) (g0 : BitVec 32) (limit : Option W64) (now : Nat) (flip : Option Nat) :
    Option (BitVec 2) :=
  let past (t : Nat) : Bool := match limit with | some l => decide (l.toNat < t) | none => false
  if !b.init then some 3
  else if b.phase != phase || b.gen != g0 then some (if past (flip.getD now) then 1 else 0)
  else if past now then some 1
  else none

/-- The GTIME of the flip that ended the GEN of a wait (06 R157). -/
def State.flipOf (s : State) (pa : Nat) (g0 : BitVec 32) : Option Nat := alookup (flipKey pa g0) s.flips

/-- A wait registers itself; in a full wait table it stays unregistered and polls. -/
def State.register (s : State) (id : CtxId) (pa : Nat) : State × Bool :=
  if homeDie pa = id.die then
    (s.devWrite (pa + 16) (leBytes 8 (setBit (s.dev64 (pa + 16)) (CtxId.bitNo id) true).toNat), true)
  else if (s.die id.die).waitTab.length < 256 then
    let s := s.updDie id.die fun x => { x with waitTab := x.waitTab ++ [(pa, id)] }
    (s.devWrite (pa + 9) [setBit ((s.devRead (pa + 9) 1).getD 0 0) id.die.val true], true)
  else (s, false)

/-- The status of a wait delivered, and the wait over. -/
def State.endWait (s : State) (d : BitVec 6) (code : BitVec 2) : State :=
  (s.updCx fun c => { c with wait := none }).putS d 1 (code.setWidth 64)

/-- A wait that has met poison is over, its status poisoned (02 R56). -/
def State.spoilWait (s : State) (d : BitVec 6) : State :=
  s.updCx fun c => ({ c with wait := none } : Ctx).addPend ⟨s.cycle + 1, [], [], .given [c.wS d 0], 0, true, [], true, false⟩

/-- An evaluation of a wait at the home, after the held stores that a strong page orders before it and those to the
object itself (06 R140, R151). A resumed wait keeps its first g0 (R176). -/
def State.firstWait (s : State) (d : BitVec 6) (r : BitVec 4) (limit : Option W64) (g0 : Option (BitVec 32)) : State :=
  let id := s.cur
  match s.barrierAt .load true false r with
  | (s, .error f) => s.refuse .load f
  | (s, .ok none) => s
  | (s, .ok (some p)) =>
    let pa := p.loc.addr
    let s := if p.waitsHeld || !(s.cx.heldOver .dev pa 64).isEmpty then s.commitEarly id else s
    if s.poisoned pa 64 then (s.recordUnits pa 64 4 id.die id.core).spoilWait d
    else
      let b := s.barrier pa
      let phase := bit (s.rS d) 0
      let g := g0.getD b.gen
      match waitStatus b phase g limit s.gtime (g0.bind (s.flipOf pa)) with
      | some code => s.endWait d code
      | none =>
        let (s, reg) := s.register id pa
        let (n, bank) := match s.cx.nameS d with
          | .hs k => (k.setWidth 6, true)
          | .s k => (k, false)
          | _ => (0, false)
        (s.updCx fun c => { c with wait := some ⟨some pa, phase, g, limit, reg, none, false, n, bank⟩ }).block id .barrier

/-- A wait for a phase: the bundle blocks until it resolves (R322). -/
def State.barrierWait (s : State) (d : BitVec 6) (r : BitVec 4) (limit : Option W64) : State :=
  match s.cx.wait with
  | none => s.firstWait d r limit none
  | some w =>
    match w.result, w.bar with
    | some code, _ => if w.bad then s.spoilWait d else s.endWait d code
    | none, some _ => s.block s.cur .barrier
    | none, none => s.firstWait d r limit (some w.g0)

def execBwait (g : BitVec 4) (d : BitVec 6) (r : BitVec 4) (s : State) : Out :=
  s.slotOp g (.bwait g d r) fun s => s.barrierWait d r none

def execBtwait (g : BitVec 4) (d : BitVec 6) (r : BitVec 4) (b : BitVec 6) (s : State) : Out :=
  s.slotOp g (.btwait g d r b) fun s => s.barrierWait d r (some (s.rS b))

/-! ### Events -/

/-- BARRIER_ARRIVAL: an arrival sent to a home is performed there. At an address that is no barrier's
it has no effect (log 11). -/
def execBarrierArrival (pa : BitVec 52) (s : State) : Out :=
  let a := pa.toNat
  .next (if region a = .spad ∧ a % 64 = 0 then (s.arrival a (homeDie a) (homeCore a)).1 else s)

/-- A wait that looks at the home by itself: with a result, or on a poisoned object, it is over (02 R56). -/
def State.lookAgain (s : State) (w : Wait) (pa : Nat) : Option Wait :=
  if s.poisoned pa 64 then some { w with registered := false, result := some 0, bad := true }
  else (waitStatus (s.barrier pa) w.phase w.g0 w.limit s.gtime (s.flipOf pa w.g0)).map fun code =>
    { w with registered := false, result := some code }

/-- The waits of a context that look at their homes, by a test of each, and the context ready where its own is over. -/
def State.lookWaits (s : State) (id : CtxId) (which : Wait → Bool) : State :=
  let look (w : Wait) : Wait := match w.bar with
    | some pa => if w.result.isNone && which w then (s.lookAgain w pa).getD w else w
    | none => w
  let c := s.ctxOf id
  let met (w : Option Wait) : Bool := w.map look != w && (w.map look).any fun w => w.result == some 0 && !w.bad
  let spoilt (w : Option Wait) : List Nat := match w, w.map look with
    | some w, some x => if x.bad && !w.bad then w.bar.toList else []
    | _, _ => []
  if c.wait.map look = c.wait ∧ c.keepWait.map look = c.keepWait then s
  else
    let s := (spoilt c.wait ++ spoilt c.keepWait).foldl (fun s pa => s.recordUnits pa 64 4 id.die id.core) s
    let s := if met c.wait || met c.keepWait then s.updCtx id fun c => c.progress (s.wdTime id) else s
    (s.updCtx id fun c => { c with wait := c.wait.map look, keepWait := c.keepWait.map look }).wake id

/-- BARRIER_POLL: a waiter without a registration looks at the home again. -/
def execBarrierPoll (id : CtxId) (s : State) : Out := .next (s.lookWaits id fun w => !w.registered)

/-- Whether the limit of a wait is past. -/
def Wait.over (w : Wait) (now : Nat) : Bool := match w.limit with | some l => decide (l.toNat < now) | none => false

/-- BTWAIT_TIMEOUT: the limit of a wait is past; its registration goes. A waiter without one looks at
the home, where a flip it has not seen yet came within the limit. -/
def execBtwaitTimeout (id : CtxId) (s : State) : Out :=
  let c := s.ctxOf id
  let open_ (w : Option Wait) : Option Wait := match w with
    | some w => if w.bar.isSome && w.result.isNone && w.over s.gtime then some w else none
    | none => none
  .next (((s.unregister id (open_ c.wait)).unregister id (open_ c.keepWait)).lookWaits id fun w => w.over s.gtime)

/-- REGION_COMMIT: the mark that is due at a boundary, after what is due by then has been delivered; it waits as every mark does
(R428, R430). -/
def execRegionCommit (id : CtxId) (s : State) : Out :=
  let c := s.ctxOf id
  .next (if c.markDue ∧ !c.markWaits then (s.updCtx id fun c => c.settle s.cycle).mark id else s)

end Sys2Proof.Machine
end

