-- ==== Sys2Proof/Machine/Publish.lean ====
section
/-! DEFINITION. Publishes of buffers (07 R160-R165, 13 R323) and the registers of their table. -/

namespace Sys2Proof.Machine

/-- `pub_step` of R164 at the home of a descriptor, for a publisher of a die: 0 PUBOK, 1 PUBINV, 2 PUBOWN, 3 PBRACE. It is a
read-modify-write of the bank's atomic unit, which leaves a poisoned descriptor as it is: 4, whoever publishes (02 R56,
log 93). -/
def State.pubStep (s : State) (hd : Fin 8) (idx : Nat) (kind : Nat) (latched : BitVec 32) (die : Fin 8) (core : Nat) :
    State × Nat :=
  let x := s.die hd
  let a := x.pbAddr idx
  let d := s.pbDesc hd idx
  if !x.pbEn ∨ x.npb ≤ idx then (s, 1)
  else if s.poisoned a 64 then (s.recordUnits a 64 4 die core, 4)
  else if !pbV d then (s, 1)
  else if (kind = 0 ∨ kind = 3) ∧ pbOwn d ≠ 0 ∨ kind = 1 ∧ pbOwn d ≠ 1 ∨ kind = 2 ∧ pbOwn d ≠ 2 then (s, 2)
  else if kind = 3 ∧ pbGen d ≠ latched.toNat then (s, 3)
  else
    let w : BitVec 64 := BitVec.ofNat 64 d
    let w := setField (setBit w 1 (pbSel d == 0)) 32 32 ((pbGen d + 1) % 2 ^ 32)
    let s := s.devWrite a (leBytes 8 w.toNat)
    (s.updDie hd fun x => { x with pubcnt := x.pubcnt + 1 }, 0)

/-- A publish of a context with the poison of its answer. -/
def State.publish (s : State) (hd : Fin 8) (idx : Nat) (die : Fin 8) (core : Nat) : State × Nat × Bool :=
  let (s, st) := s.pubStep hd idx 0 0 die core
  if st = 4 then (s, 0, true) else (s, st, false)

/-- Whether an engine operation of a context has a buffer latched. -/
def State.latchedBy (s : State) (id : CtxId) (hd : Fin 8) (idx : Nat) : Bool :=
  (s.opsOf id).any fun o => o.latches.any fun l => l.die == hd && l.idx.toNat == idx

/-- Whether a publish of a context is performed: every earlier piece is, and every engine operation latched on the
buffer has completed (R164). -/
def State.mayPublish (s : State) (id : CtxId) (hd : Fin 8) (idx : Nat) : Bool :=
  !s.latchedBy id hd idx && decide (s.peerPieces id = 0)

/-- The pieces of a context at peers for which its publish waits. -/
def State.pubPieces (s : State) (id : CtxId) : List Await :=
  (s.joist.peerReqs.filter fun r => r.of id).map fun r => ⟨r.seq, r.member, 0, 0⟩

/-- The request of a `pub`: the block of the descriptor at the buffer's home die (02 R67). -/
def Ctx.countPub (c : Ctx) (near : Bool) : Ctx :=
  if near then { c with mrql := c.mrql + 1 } else { c with mrqr := c.mrqr + 1 }

/-- `pub` (R323). -/
def execPub (g : BitVec 4) (d : BitVec 6) (r : BitVec 4) (s : State) : Out :=
  s.slotOp g (.pub g d r) fun s =>
    let id := s.cur
    let va := s.rA r
    let req := s.cx.req id .store false false
    let level := if (s.cachedLeaf req va).isSome then 0 else 3
    let fail (s : State) (f : XFault) : State := s.refuse .store ⟨va, f⟩
    let reply (s : State) (st : Nat) (bad : Bool) (waits : List Await) (l : Nat) : State :=
      s.updCx fun c => c.addPend ⟨s.cycle + l, waits, leBytes 8 st,
        if d = 0 then .given [] else .scalar (c.nameS d) 8 false, 0, bad, [], true, false⟩
    match s.findLeaf req va with
    | (s, .error f) => fail s f
    | (s, .ok (leaf, _, _)) =>
      if !lfPbuf leaf then reply s 1 false [] 1
      else if lfK leaf then fail s (.trap cPROT 7 level)
      else if !lfW leaf then fail s (.trap cPROT 6 level)
      else if denied req.pkr (lfKey leaf) true then fail s (.trap cPROT 10 level)
      else
        let (hd, idx, _) := pbRef leaf
        let home : Loc := ⟨.dev, (s.die hd).pbAddr idx, 0, none⟩
        let s := (s.flushHeld id).updCx fun c => c.countPub (id.die == hd)
        if s.mayPublish id hd idx then
          let (s, st, bad) := s.publish hd idx id.die id.core
          reply s st bad [] (placeLatency id home)
        else reply s 0 false (pubAwait hd idx :: s.pubPieces id) (placeLatency id home)

/-- The publishes of a context that waited and no longer do: every earlier piece has been performed, and every engine
operation latched on the buffer has completed (R164). -/
def State.latePublishes (s : State) (id : CtxId) : State :=
  (s.ctxOf id).pend.foldl
    (fun s p =>
      match p.waits with
      | [w] =>
        let hd : Fin 8 := Fin.ofNat 8 (w.seq.toNat / 4096)
        let idx := w.seq.toNat % 4096
        if w.member = 0x1FF ∧ !s.latchedBy id hd idx then
          let (s, st, bad) := s.publish hd idx id.die id.core
          let done (q : Pend) : Pend :=
            { q with due := Nat.max q.due s.cycle, waits := [], raw := leBytes 8 st, flags := 0, poison := bad }
          let s := s.updCtx id fun c => { c with pend := updFirst (fun q => q == p) done c.pend }
          s.wake id
        else s
      | _ => s) s

/-- PUB_PERFORM: a publish that reaches its home is performed there. -/
def execPubPerform (d : Fin 8) (idx : BitVec 12) (kind : Fin 4) (latched : BitVec 32) (s : State) : Out :=
  .next (s.pubStep d idx.toNat kind.val latched d 0).1

/-! ### The table registers (R160) -/

/-- Whether a table of n descriptors at a base lies in a die's scratchpad. -/
def pbFits (d : Fin 8) (base n : Nat) : Bool :=
  decide (d.val * 0x40000000 ≤ base ∧ base < (d.val + 1) * 0x40000000 ∧ base + 64 * n ≤ (d.val + 1) * 0x40000000)

def pbtabMask : W64 := 0x000FFFFFFFFFFFC0
def pbcfgMask : W64 := 0x000000000001FFF1

/-- A write to PBTAB; while EN = 1 it is refused, for it does not clear EN. -/
def execPbtabWrite (d : Fin 8) (val : BitVec 64) (s : State) : Out :=
  .next (s.updDie d fun x =>
    let base := bitsOf val 6 46 * 64
    if x.pbEn ∨ !pbFits d base x.npb then { x with pbErr := true } else { x with pbtab := val &&& pbtabMask })

/-- A write to PBCFG. -/
def execPbcfgWrite (d : Fin 8) (val : BitVec 64) (s : State) : Out :=
  .next (s.updDie d fun x =>
    let v := val &&& pbcfgMask
    let n := Nat.min 4096 (bitsOf v 4 13)
    let base := bitsOf x.pbtab 6 46 * 64
    if (x.pbEn ∧ bit v 0) ∨ ((bit v 0 ∨ 0 < n) ∧ !pbFits d base n) then { x with pbErr := true }
    else { x with pbcfg := v })

end Sys2Proof.Machine
end

