-- ==== Sys2Proof/Machine/Vector.lean ====
section
/-! DEFINITION. Tile vector operations: the helpers common to both slots (14 R324-R330) and the
meanings of group 0 (R331-R334). -/

namespace Sys2Proof.Machine

/-! ### Tiles as operands (R326) -/

/-- A tile operand as it stood at issue: its bits, extent, and format under the current entry. -/
structure Tile where
  bits : BitVec 32768
  rows : Nat
  cols : Nat
  vr   : Nat
  vc   : Nat
  code : Nat
  size : Nat
  fmt  : Fmt

def Ctx.tile (c : Ctx) (n : BitVec 4) : Tile :=
  let ts := c.rTS n
  ⟨c.rT n, shapeRows ts, shapeCols ts, shapeVRows ts, shapeVCols ts, shapeFmt ts, elemSize (shapeFmt ts),
    fmtOf (shapeFmt ts) c.entry⟩

def Tile.present (t : Tile) (i j : Nat) : Bool := decide (i < t.vr) && decide (j < t.vc)

/-- raw(t, i, j) of a present element. -/
def Tile.rawIn (t : Tile) (i j : Nat) : Nat := bitsOf t.bits (8 * ((i * t.cols + j) * t.size)) (8 * t.size)

/-- The element's bits, 0 where absent (R327). -/
def Tile.raw (t : Tile) (i j : Nat) : Nat := if t.present i j then t.rawIn i j else 0

/-- val(t, i, j), or the identity where absent. -/
def Tile.val (t : Tile) (i j : Nat) (absent : Val) : Val := if t.present i j then t.fmt.value (t.rawIn i j) else absent

/-- The element as an integer of its own width, signed or unsigned, or the identity where absent. -/
def Tile.int (t : Tile) (i j : Nat) (unsigned : Bool) (absent : Int) : Int :=
  if t.present i j then (if unsigned then (t.rawIn i j : Nat) else signedNat (t.rawIn i j) (8 * t.size)) else absent

/-- The present elements, in row order. -/
def Tile.cells (t : Tile) : List (Nat × Nat) :=
  (List.range t.vr).flatMap fun i => (List.range t.vc).map fun j => (i, j)

/-- sel(k, i, j), true everywhere without a mask (R327). -/
def selects (mask : Option (BitVec 4096)) (i j : Nat) : Bool :=
  match mask with
  | some k => bit k (64 * i + j)
  | none => true

/-- The mask that a tile field names when M = 1. -/
def Ctx.maskOf (c : Ctx) (m : BitVec 1) (k : BitVec 3) : Option (BitVec 4096) := if m = 1 then some (c.rK k) else none

/-! ### Delivery (R325, R328) -/

/-- Elements written by an operation, with the flags of all its roundings. -/
structure Cells where
  cells : List (Nat × Nat × Nat)
  flags : Flags

def Cells.none : Cells := ⟨[], 0⟩

/-- One element added. -/
def Cells.put (x : Cells) (i j code : Nat) (fl : Flags) : Cells := ⟨(i, j, code) :: x.cells, x.flags ||| fl⟩

/-- Rounding mode and saturation of a destination (11 R271). -/
structure Mode where
  rm  : RMode
  sat : Bool

def Ctx.modeOf (c : Ctx) (t : Tile) (r : BitVec 3) (s : BitVec 1) : Mode :=
  if t.code = 7 then ⟨entryMode c.entry, entrySat c.entry⟩ else ⟨RMode.ofCode r.toNat, s == 1⟩

/-- The code of an exact result in a destination, with its flags. -/
def Tile.encode (t : Tile) (m : Mode) (r : Res) : Nat × Flags :=
  let x := t.fmt.round m.rm m.sat r.1
  (x.1, x.2 ||| flagIf r.2 fNV)

/-- deliver(t, i, j, x), where (i, j) is present. -/
def Cells.deliver (x : Cells) (t : Tile) (m : Mode) (i j : Nat) (r : Res) : Cells :=
  if t.present i j then let y := t.encode m r; x.put i j y.1 y.2 else x

/-- A raw element, where (i, j) is present. -/
def Cells.move (x : Cells) (t : Tile) (i j v : Nat) : Cells :=
  if t.present i j then x.put i j (v % 2 ^ (8 * t.size)) 0 else x

/-- The write of a tile's elements. -/
def Tile.write (t : Tile) (n : BitVec 4) (x : Cells) : Write :=
  let w := 8 * t.size
  .t n (BitVec.ofNat 32768 (x.cells.foldl (fun acc c => acc + c.2.2 * 2 ^ ((c.1 * t.cols + c.2.1) * w)) 0))
    (BitVec.ofNat 32768 (x.cells.foldl (fun acc c => acc + (2 ^ w - 1) * 2 ^ ((c.1 * t.cols + c.2.1) * w)) 0))

/-- Cycles from issue to delivery, L + occ − 1. -/
def State.vecLat (s : State) (i : Instr) : Nat := i.latency + i.occ s.cx - 1

def State.putT (s : State) (i : Instr) (n : BitVec 4) (x : Cells) : State :=
  s.deliver (s.vecLat i) ((s.cx.tile n).write n x) x.flags

/-- A vector operation: its tiles are configured (R329). -/
def State.vecOp (s : State) (g : BitVec 4) (i : Instr) (body : State → State) : Out :=
  s.slotOp g i fun s => s.configured i.tileOps body

/-- An operation with one exact result at each selected element of its destination. -/
def State.elementwise (s : State) (i : Instr) (d : BitVec 4) (m : Mode) (mask : Option (BitVec 4096))
    (f : Nat → Nat → Res) : State :=
  let t := s.cx.tile d
  s.putT i d ((t.cells.filter fun c => selects mask c.1 c.2).foldl (fun x c => x.deliver t m c.1 c.2 (f c.1 c.2)) Cells.none)

/-- A raw move at each selected element of a destination. -/
def State.moveEach (s : State) (i : Instr) (d : BitVec 4) (mask : Option (BitVec 4096)) (f : Nat → Nat → Nat) : State :=
  let t := s.cx.tile d
  s.putT i d ((t.cells.filter fun c => selects mask c.1 c.2).foldl (fun x c => x.move t c.1 c.2 (f c.1 c.2)) Cells.none)

/-! ### Group 0 -/

def pInf : Val := .inf false
def nInf : Val := .inf true

/-- A two-source operation of group 0. -/
def State.binary (s : State) (i : Instr) (d a b c : BitVec 4) (r : BitVec 3) (s1 m : BitVec 1) (ia ib : Val)
    (f : RMode → Val → Val → Res) : State :=
  let ta := s.cx.tile a
  let tb := s.cx.tile b
  let mode := s.cx.modeOf (s.cx.tile d) r s1
  s.elementwise i d mode (s.cx.maskOf m (c.setWidth 3)) fun x y => f mode.rm (ta.val x y ia) (tb.val x y ib)

/-- A one-source operation. -/
def State.unary (s : State) (i : Instr) (d a c : BitVec 4) (r : BitVec 3) (s1 m : BitVec 1) (f : Val → Res) : State :=
  let ta := s.cx.tile a
  s.elementwise i d (s.cx.modeOf (s.cx.tile d) r s1) (s.cx.maskOf m (c.setWidth 3)) fun x y => f (ta.val x y Val.zero)

/-- a × b + c, exact; invalid unless an input is NaN (R272, R273). -/
def fma (mode : RMode) (a b c : Val) : Res :=
  if a.isNaN || b.isNaN || c.isNaN then (.nan, false)
  else
    let p := vmul a b
    let r := vadd mode p.1 c
    (r.1, p.2 || r.2)

/-- `tfma` and `tfms`: an absent factor removes the product. -/
def State.fused (s : State) (i : Instr) (d a b c : BitVec 4) (r : BitVec 3) (s1 : BitVec 1) (sign : Val → Val) : State :=
  let ta := s.cx.tile a
  let tb := s.cx.tile b
  let tc := s.cx.tile c
  let mode := s.cx.modeOf (s.cx.tile d) r s1
  s.elementwise i d mode none fun x y =>
    let z := sign (tc.val x y Val.zero)
    if ta.present x y && tb.present x y then fma mode.rm (ta.val x y Val.zero) (tb.val x y Val.zero) z else (z, false)

def execTadd (g d a b c : BitVec 4) (r : BitVec 3) (s1 m : BitVec 1) (s : State) : Out :=
  s.vecOp g (.tadd g d a b c r s1 m) fun s => s.binary (.tadd g d a b c r s1 m) d a b c r s1 m Val.zero Val.zero vadd

def execTsub (g d a b c : BitVec 4) (r : BitVec 3) (s1 m : BitVec 1) (s : State) : Out :=
  s.vecOp g (.tsub g d a b c r s1 m) fun s => s.binary (.tsub g d a b c r s1 m) d a b c r s1 m Val.zero Val.zero vsub

def execTmul (g d a b c : BitVec 4) (r : BitVec 3) (s1 m : BitVec 1) (s : State) : Out :=
  s.vecOp g (.tmul g d a b c r s1 m) fun s =>
    s.binary (.tmul g d a b c r s1 m) d a b c r s1 m Val.one Val.one fun _ x y => vmul x y

def execTmin (g d a b c : BitVec 4) (r : BitVec 3) (s1 m : BitVec 1) (s : State) : Out :=
  s.vecOp g (.tmin g d a b c r s1 m) fun s =>
    s.binary (.tmin g d a b c r s1 m) d a b c r s1 m pInf pInf fun _ x y => (vmin x y, false)

def execTmax (g d a b c : BitVec 4) (r : BitVec 3) (s1 m : BitVec 1) (s : State) : Out :=
  s.vecOp g (.tmax g d a b c r s1 m) fun s =>
    s.binary (.tmax g d a b c r s1 m) d a b c r s1 m nInf nInf fun _ x y => (vmax x y, false)

def execTfma (g d a b c : BitVec 4) (r : BitVec 3) (s1 : BitVec 1) (s : State) : Out :=
  s.vecOp g (.tfma g d a b c r s1) fun s => s.fused (.tfma g d a b c r s1) d a b c r s1 fun z => z

def execTfms (g d a b c : BitVec 4) (r : BitVec 3) (s1 : BitVec 1) (s : State) : Out :=
  s.vecOp g (.tfms g d a b c r s1) fun s => s.fused (.tfms g d a b c r s1) d a b c r s1 Val.neg

def execTabs (g d a c : BitVec 4) (r : BitVec 3) (s1 m : BitVec 1) (s : State) : Out :=
  s.vecOp g (.tabs g d a c r s1 m) fun s => s.unary (.tabs g d a c r s1 m) d a c r s1 m fun x => (x.abs, false)

def execTneg (g d a c : BitVec 4) (r : BitVec 3) (s1 m : BitVec 1) (s : State) : Out :=
  s.vecOp g (.tneg g d a c r s1 m) fun s => s.unary (.tneg g d a c r s1 m) d a c r s1 m fun x => (x.neg, false)

def execTcvt (g d a c : BitVec 4) (r : BitVec 3) (s1 m : BitVec 1) (s : State) : Out :=
  s.vecOp g (.tcvt g d a c r s1 m) fun s => s.unary (.tcvt g d a c r s1 m) d a c r s1 m fun x => (x, false)

/-- The element (0, 0) of a source at every position (R334). -/
def execTbcast (g d a c : BitVec 4) (r : BitVec 3) (s1 m : BitVec 1) (s : State) : Out :=
  s.vecOp g (.tbcast g d a c r s1 m) fun s =>
    let x := (s.cx.tile a).val 0 0 Val.zero
    s.unary (.tbcast g d a c r s1 m) d a c r s1 m fun _ => (x, false)

/-- A raw move (R333). -/
def execTcpy (g d a c : BitVec 4) (m : BitVec 1) (s : State) : Out :=
  s.vecOp g (.tcpy g d a c m) fun s => s.moveEach (.tcpy g d a c m) d (s.cx.maskOf m (c.setWidth 3)) (s.cx.tile a).raw

def execTsel (g d a b c : BitVec 4) (s : State) : Out :=
  s.vecOp g (.tsel g d a b c) fun s =>
    let k := s.cx.rK (c.setWidth 3)
    s.moveEach (.tsel g d a b c) d none fun i j =>
      if selects (some k) i j then (s.cx.tile a).raw i j else (s.cx.tile b).raw i j

/-- The exponent that `tscale` takes from b: RTZ, clamped to ±1,024 (R334). -/
def scaleExp : Val → Int
  | .nan => 0
  | .inf neg => if neg then -1024 else 1024
  | .fin neg n d => max (-1024) (min 1024 (roundInt .rtz neg n d))

/-- a × 2^n. -/
def scaleBy (a b : Val) : Res :=
  if b.isNaN then (.nan, false)
  else
    match a with
    | .fin s n d => let e := scaleExp b; (if 0 ≤ e then .fin s (n * 2 ^ e.toNat) d else .fin s n (d * 2 ^ (-e).toNat), false)
    | v => (v, false)

def execTscale (g d a b c : BitVec 4) (r : BitVec 3) (s1 m : BitVec 1) (s : State) : Out :=
  s.vecOp g (.tscale g d a b c r s1 m) fun s =>
    s.binary (.tscale g d a b c r s1 m) d a b c r s1 m Val.zero Val.zero fun _ x y => scaleBy x y

def execTclamp (g d a b c : BitVec 4) (r : BitVec 3) (s1 : BitVec 1) (s : State) : Out :=
  s.vecOp g (.tclamp g d a b c r s1) fun s =>
    let ta := s.cx.tile a
    let tb := s.cx.tile b
    let tc := s.cx.tile c
    s.elementwise (.tclamp g d a b c r s1) d (s.cx.modeOf (s.cx.tile d) r s1) none fun i j =>
      (vmin (vmax (ta.val i j Val.zero) (tb.val i j nInf)) (tc.val i j pInf), false)

/-- The conditions of R332; the reserved value 7 acts as 0 (10 R249, log 19). -/
def tileCond (k : Nat) (a b : Val) : Bool :=
  match k with
  | 1 => !veq a b
  | 2 => vlt a b
  | 3 => vlt a b || veq a b
  | 4 => vlt b a
  | 5 => vlt b a || veq a b
  | 6 => a.isNaN || b.isNaN
  | _ => veq a b

/-- `tcmp`: mask bits at the selected present elements of TA (R332). -/
def execTcmp (g : BitVec 4) (d : BitVec 3) (a b c : BitVec 4) (k : BitVec 3) (m : BitVec 1) (s : State) : Out :=
  s.vecOp g (.tcmp g d a b c k m) fun s =>
    let ta := s.cx.tile a
    let tb := s.cx.tile b
    let cells := ta.cells.filter fun x => selects (s.cx.maskOf m (c.setWidth 3)) x.1 x.2
    let on := cells.filter fun x => tileCond k.toNat (ta.val x.1 x.2 Val.zero) (tb.val x.1 x.2 Val.zero)
    let word (l : List (Nat × Nat)) : BitVec 4096 := BitVec.ofNat 4096 (l.foldl (fun acc x => acc + 2 ^ (64 * x.1 + x.2)) 0)
    s.deliver (s.vecLat (.tcmp g d a b c k m)) (.k d (word on) (word cells)) 0

end Sys2Proof.Machine
end

