-- ==== Sys2Proof/Machine/VectorMoves.lean ====
section
/-! DEFINITION. The meanings of vector groups 1 (integer and bit operations), 2 (slice moves, transpose
and broadcasts) and 6 (masks) (14 R335, R336, R350). -/

namespace Sys2Proof.Machine

/-! ### Group 1 -/

/-- An exact integer as raw bits of w: truncated, or clamped to the range of the sign it is read with. -/
def intResult (w : Nat) (sat unsigned : Bool) (r : Int) : Nat × Flags :=
  if sat then
    let lo : Int := if unsigned then 0 else intMin w
    let hi : Int := if unsigned then 2 ^ w - 1 else intMax w
    let c := if r < lo then lo else if hi < r then hi else r
    ((BitVec.ofInt w c).toNat, clampFlags (decide (c ≠ r)))
  else ((BitVec.ofInt w r).toNat, 0)

/-- An operation of group 1. `f` takes the width of the destination's element. -/
def State.integer (s : State) (i : Instr) (d a b : BitVec 4) (sat u : BitVec 1) (k : BitVec 3) (m : BitVec 1) (ib : Int)
    (f : Nat → Int → Int → Int) : State :=
  let t := s.cx.tile d
  let ta := s.cx.tile a
  let tb := s.cx.tile b
  let w := 8 * t.size
  let cells := t.cells.filter fun c => selects (s.cx.maskOf m k) c.1 c.2
  s.putT i d (cells.foldl (fun x c =>
    let r := intResult w (sat == 1) (u == 1) (f w (ta.int c.1 c.2 (u == 1) 0) (tb.int c.1 c.2 (u == 1) ib))
    x.put c.1 c.2 r.1 r.2) Cells.none)

/-- A bit operation on two's complement of 64 bits, which holds every element and every result's bits. -/
def onBits (f : BitVec 64 → BitVec 64 → BitVec 64) (_ : Nat) (a b : Int) : Int := (f (BitVec.ofInt 64 a) (BitVec.ofInt 64 b)).toInt

/-- a × 2^n for 0 ≤ n < w, else 0. -/
def shiftLeft (w : Nat) (a n : Int) : Int := if 0 ≤ n ∧ n < w then a * 2 ^ n.toNat else 0

/-- floor(a / 2^n) for 0 ≤ n < w; else 0 or −1 by the sign of a, which is never negative when read unsigned. -/
def shiftRight (w : Nat) (a n : Int) : Int := if 0 ≤ n ∧ n < w then a / 2 ^ n.toNat else if a < 0 then -1 else 0

def execTiadd (g d a b : BitVec 4) (s1 u : BitVec 1) (k : BitVec 3) (m : BitVec 1) (s : State) : Out :=
  s.vecOp g (.tiadd g d a b s1 u k m) fun s => s.integer (.tiadd g d a b s1 u k m) d a b s1 u k m 0 fun _ x y => x + y

def execTisub (g d a b : BitVec 4) (s1 u : BitVec 1) (k : BitVec 3) (m : BitVec 1) (s : State) : Out :=
  s.vecOp g (.tisub g d a b s1 u k m) fun s => s.integer (.tisub g d a b s1 u k m) d a b s1 u k m 0 fun _ x y => x - y

def execTimul (g d a b : BitVec 4) (s1 u : BitVec 1) (k : BitVec 3) (m : BitVec 1) (s : State) : Out :=
  s.vecOp g (.timul g d a b s1 u k m) fun s => s.integer (.timul g d a b s1 u k m) d a b s1 u k m 1 fun _ x y => x * y

def execTand (g d a b : BitVec 4) (u : BitVec 1) (k : BitVec 3) (m : BitVec 1) (s : State) : Out :=
  s.vecOp g (.tand g d a b u k m) fun s => s.integer (.tand g d a b u k m) d a b 0 u k m (-1) (onBits fun x y => x &&& y)

def execTor (g d a b : BitVec 4) (u : BitVec 1) (k : BitVec 3) (m : BitVec 1) (s : State) : Out :=
  s.vecOp g (.tor g d a b u k m) fun s => s.integer (.tor g d a b u k m) d a b 0 u k m 0 (onBits fun x y => x ||| y)

def execTxor (g d a b : BitVec 4) (u : BitVec 1) (k : BitVec 3) (m : BitVec 1) (s : State) : Out :=
  s.vecOp g (.txor g d a b u k m) fun s => s.integer (.txor g d a b u k m) d a b 0 u k m 0 (onBits fun x y => x ^^^ y)

def execTshl (g d a b : BitVec 4) (u : BitVec 1) (k : BitVec 3) (m : BitVec 1) (s : State) : Out :=
  s.vecOp g (.tshl g d a b u k m) fun s => s.integer (.tshl g d a b u k m) d a b 0 u k m 0 shiftLeft

def execTshr (g d a b : BitVec 4) (u : BitVec 1) (k : BitVec 3) (m : BitVec 1) (s : State) : Out :=
  s.vecOp g (.tshr g d a b u k m) fun s => s.integer (.tshr g d a b u k m) d a b 0 u k m 0 shiftRight

/-! ### Group 2 -/

/-- Element m of a line, of elements of a size. -/
def lineElem (x : BitVec 2048) (sz m : Nat) : Nat := bitsOf x (8 * sz * m) (8 * sz)

/-- The index of a row or column: the whole 64-bit scalar plus the immediate. -/
def State.sliceIndex (s : State) (s1 i : BitVec 6) : Nat := (s.rS s1).toNat + i.toNat

/-- A whole line from its elements; the bytes after them are 0. -/
def State.putLine (s : State) (i : Instr) (v : BitVec 5) (sz : Nat) (xs : List Nat) : State :=
  s.deliver (s.vecLat i) (.v v (BitVec.ofNat 2048 (xs.foldr (fun x acc => x + 2 ^ (8 * sz) * acc) 0)) (BitVec.allOnes 2048)) 0

def execTrget (g t : BitVec 4) (v : BitVec 5) (s1 i : BitVec 6) (s : State) : Out :=
  s.vecOp g (.trget g t v s1 i) fun s =>
    let x := s.cx.tile t
    let n := s.sliceIndex s1 i
    s.putLine (.trget g t v s1 i) v x.size ((List.range x.cols).map fun j => x.raw n j)

def execTcget (g t : BitVec 4) (v : BitVec 5) (s1 i : BitVec 6) (s : State) : Out :=
  s.vecOp g (.tcget g t v s1 i) fun s =>
    let x := s.cx.tile t
    let n := s.sliceIndex s1 i
    s.putLine (.tcget g t v s1 i) v x.size ((List.range x.rows).map fun j => x.raw j n)

def execTrput (g t : BitVec 4) (v : BitVec 5) (s1 i : BitVec 6) (s : State) : Out :=
  s.vecOp g (.trput g t v s1 i) fun s =>
    let x := s.cx.tile t
    let n := s.sliceIndex s1 i
    s.putT (.trput g t v s1 i) t
      ((List.range x.vc).foldl (fun y j => y.move x n j (lineElem (s.cx.rV v) x.size j)) Cells.none)

def execTcput (g t : BitVec 4) (v : BitVec 5) (s1 i : BitVec 6) (s : State) : Out :=
  s.vecOp g (.tcput g t v s1 i) fun s =>
    let x := s.cx.tile t
    let n := s.sliceIndex s1 i
    s.putT (.tcput g t v s1 i) t
      ((List.range x.vr).foldl (fun y j => y.move x j n (lineElem (s.cx.rV v) x.size j)) Cells.none)

def execTtr (g t a : BitVec 4) (s : State) : Out :=
  s.vecOp g (.ttr g t a) fun s => s.moveEach (.ttr g t a) t none fun i j => (s.cx.tile a).raw j i

def execTbrow (g t : BitVec 4) (v : BitVec 5) (s : State) : Out :=
  s.vecOp g (.tbrow g t v) fun s =>
    s.moveEach (.tbrow g t v) t none fun _ j => lineElem (s.cx.rV v) (s.cx.tile t).size j

def execTbcol (g t : BitVec 4) (v : BitVec 5) (s : State) : Out :=
  s.vecOp g (.tbcol g t v) fun s =>
    s.moveEach (.tbcol g t v) t none fun i _ => lineElem (s.cx.rV v) (s.cx.tile t).size i

def execTzero (g t : BitVec 4) (s1 : BitVec 6) (s : State) : Out :=
  s.vecOp g (.tzero g t s1) fun s => s.moveEach (.tzero g t s1) t none fun _ _ => (s.rS s1).toNat

/-! ### Group 6 -/

/-- A whole mask register, four cycles after issue. -/
def State.putK (s : State) (d : BitVec 3) (x : BitVec 4096) : State := s.deliver 4 (.k d x (BitVec.allOnes 4096)) 0

def execKand (g : BitVec 4) (d a b : BitVec 3) (s : State) : Out :=
  s.vecOp g (.kand g d a b) fun s => s.putK d (s.cx.rK a &&& s.cx.rK b)

def execKor (g : BitVec 4) (d a b : BitVec 3) (s : State) : Out :=
  s.vecOp g (.kor g d a b) fun s => s.putK d (s.cx.rK a ||| s.cx.rK b)

def execKxor (g : BitVec 4) (d a b : BitVec 3) (s : State) : Out :=
  s.vecOp g (.kxor g d a b) fun s => s.putK d (s.cx.rK a ^^^ s.cx.rK b)

def execKnot (g : BitVec 4) (d a : BitVec 3) (s : State) : Out :=
  s.vecOp g (.knot g d a) fun s => s.putK d (~~~s.cx.rK a)

/-- The number of set bits of a number of n bits. -/
def popBits (x : Nat) : Nat → Nat
  | 0 => 0
  | n + 1 => b2n (x.testBit n) + popBits x n

def execKcnt (g : BitVec 4) (a : BitVec 3) (d : BitVec 6) (s : State) : Out :=
  s.vecOp g (.kcnt g a d) fun s => s.putS d 4 (BitVec.ofNat 64 (popBits (s.cx.rK a).toNat 4096))

end Sys2Proof.Machine
end

