-- ==== Sys2Proof/Machine/VectorFold.lean ====
section
/-! DEFINITION. The meanings of vector groups 3 (reductions and scans, 14 R337-R340) and 4 (digital dot
products, R341-R345). -/

namespace Sys2Proof.Machine

/-! ### Reduction kinds (R337) -/

/-- A value with the flags of the steps that made it. -/
abbrev Step := Val × Flags

/-- The identity of a kind. -/
def foldIdentity : Nat → Val
  | 1 => nInf | 5 => nInf | 2 => pInf | 6 => pInf | _ => Val.zero

def isIntKind (k : Nat) : Bool := decide (4 ≤ k ∧ k ≤ 6)

/-- The leaf value of an element of TA. -/
def Tile.leaf (t : Tile) (k : Nat) (mask : Option (BitVec 4096)) (i j : Nat) : Step :=
  if t.present i j && selects mask i j then
    if isIntKind k then (Val.ofInt (t.int i j false 0), 0)
    else
      let v := t.val i j Val.zero
      if k = 3 then rne32 (vmul v v) else (v, 0)
  else (foldIdentity k, 0)

/-- combine(x, y, op); an exact sum carries NV where it makes a NaN. `mode` gives an exact zero sum its sign (log 16). -/
def combine (k : Nat) (exact : Bool) (mode : RMode) (x y : Step) : Step :=
  let fl := x.2 ||| y.2
  match k with
  | 1 => (vmax x.1 y.1, fl)
  | 5 => (vmax x.1 y.1, fl)
  | 2 => (vmin x.1 y.1, fl)
  | 6 => (vmin x.1 y.1, fl)
  | 4 => ((vadd .rne x.1 y.1).1, fl)
  | _ =>
    if exact then let r := vadd mode x.1 y.1; (r.1, fl ||| flagIf r.2 fNV)
    else let r := rne32 (vadd .rne x.1 y.1); (r.1, fl ||| r.2)

/-- One level of the tree: neighbours combined in ascending order. -/
def pairUp (f : Step → Step → Step) : List Step → List Step
  | a :: b :: rest => f a b :: pairUp f rest
  | l => l

/-- The tree over 64 leaves (R339): five levels, then the root. -/
def treeOf (k : Nat) (exactRoot : Bool) (mode : RMode) (xs : List Step) : Step :=
  let level := pairUp (combine k false mode)
  match pairUp (combine k exactRoot mode) (level (level (level (level (level xs))))) with
  | x :: _ => x
  | [] => (foldIdentity k, 0)

/-- Delivery of a reduced value: integer kinds reach an integer destination by truncation or clamp, but
an infinite identity by R270. -/
def Tile.foldCode (t : Tile) (k : Nat) (m : Mode) (sat : Bool) (x : Step) : Nat × Flags :=
  match isIntKind k, t.fmt, x.1 with
  | true, .int w, .fin neg n _ =>
    let r := intResult w sat false (if neg then -(n : Int) else n)
    (r.1, x.2 ||| r.2)
  | _, _, _ => let r := t.fmt.round m.rm m.sat x.1; (r.1, x.2 ||| r.2)

/-- The index of the greatest value, the first of equals; a NaN is greater than every number (R340). -/
def outranks (a b : Val) : Bool :=
  if b.isNaN then false
  else if a.isNaN then true
  else vlt b a || (!vlt a b && b.sign && !a.sign)

def argmaxOf (xs : List (Nat × Val)) : Int :=
  match xs with
  | [] => -1
  | x :: rest => ((rest.foldl (fun best y => if outranks y.2 best.2 then y else best) x).1 : Nat)

/-- One position of a reduction's destination: the leaves it is taken over, as index and place. -/
def foldAt (ta : Tile) (k : Nat) (mask : Option (BitVec 4096))
    (places : List (Nat × Nat × Nat)) (value : Step) : Step :=
  if k = 7 then
    let part := places.filter fun p => ta.present p.2.1 p.2.2 && selects mask p.2.1 p.2.2
    (Val.ofInt (argmaxOf (part.map fun p => (p.1, ta.val p.2.1 p.2.2 Val.zero))), 0)
  else value

/-- The reduction kind of an operation: 8 to 15 are reserved and act as 0 (10 R249). -/
def foldKind (o : BitVec 4) : Nat := if o.toNat < 8 then o.toNat else 0

/-- A reduction into one row or one column of TD. -/
def State.reduceInto (s : State) (i : Instr) (d a : BitVec 4) (km : BitVec 3) (o : BitVec 4) (r : BitVec 3) (s1 m : BitVec 1)
    (targets : Tile → List (Nat × Nat)) (line : Nat × Nat → List (Nat × Nat × Nat)) : State :=
  let td := s.cx.tile d
  let ta := s.cx.tile a
  let mode := s.cx.modeOf td r s1
  let mask := s.cx.maskOf m km
  let k := foldKind o
  s.putT i d ((targets td).foldl (fun x c =>
    if td.present c.1 c.2 then
      let v := foldAt ta k mask (line c) (treeOf k true mode.rm ((line c).map fun p => ta.leaf k mask p.2.1 p.2.2))
      let y := td.foldCode k mode (s1 == 1) v
      x.put c.1 c.2 y.1 y.2
    else x) Cells.none)

def execTredr (g d a : BitVec 4) (k : BitVec 3) (o : BitVec 4) (r : BitVec 3) (s1 m : BitVec 1) (s : State) : Out :=
  s.vecOp g (.tredr g d a k o r s1 m) fun s =>
    s.reduceInto (.tredr g d a k o r s1 m) d a k o r s1 m (fun t => (List.range t.vr).map fun i => (i, 0))
      fun c => (List.range 64).map fun j => (j, c.1, j)

def execTredc (g d a : BitVec 4) (k : BitVec 3) (o : BitVec 4) (r : BitVec 3) (s1 m : BitVec 1) (s : State) : Out :=
  s.vecOp g (.tredc g d a k o r s1 m) fun s =>
    s.reduceInto (.tredc g d a k o r s1 m) d a k o r s1 m (fun t => (List.range t.vc).map fun j => (0, j))
      fun c => (List.range 64).map fun i => (i, i, c.2)

/-- `tred`: each row by the tree, rounded at its root, then the 64 row results by the tree. -/
def execTred (g d a : BitVec 4) (k : BitVec 3) (o : BitVec 4) (r : BitVec 3) (s1 m : BitVec 1) (s : State) : Out :=
  s.vecOp g (.tred g d a k o r s1 m) fun s =>
    let i := Instr.tred g d a k o r s1 m
    let td := s.cx.tile d
    let ta := s.cx.tile a
    let mode := s.cx.modeOf td r s1
    let mask := s.cx.maskOf m k
    let kind := foldKind o
    let row (i : Nat) : Step :=
      if i < ta.vr then treeOf kind false mode.rm ((List.range 64).map fun j => ta.leaf kind mask i j)
      else (foldIdentity kind, 0)
    let places := ta.cells.map fun c => (64 * c.1 + c.2, c.1, c.2)
    if td.present 0 0 then
      let v := foldAt ta kind mask places (treeOf kind true mode.rm ((List.range 64).map row))
      let y := td.foldCode kind mode (s1 == 1) v
      s.putT i d (Cells.none.put 0 0 y.1 y.2)
    else s.putT i d Cells.none

/-- The prefixes of a row of TA, rounded step by step. -/
def prefixes (k : Nat) : Step → List Step → List Step
  | _, [] => []
  | acc, x :: rest => let y := combine k false .rne acc x; y :: prefixes k y rest

/-- `tscan` (R339): the reserved kind 7 acts as 0 (10 R249). -/
def execTscan (g d a : BitVec 4) (k : BitVec 3) (o : BitVec 4) (r : BitVec 3) (s1 m : BitVec 1) (s : State) : Out :=
  s.vecOp g (.tscan g d a k o r s1 m) fun s =>
    let td := s.cx.tile d
    let ta := s.cx.tile a
    let mode := s.cx.modeOf td r s1
    let kind := if foldKind o = 7 then 0 else foldKind o
    let row (x : Cells) (i : Nat) : Cells :=
      let ps := prefixes kind (foldIdentity kind, 0) ((List.range 64).map fun j => ta.leaf kind (s.cx.maskOf m k) i j)
      let x : Cells := ⟨x.cells, ps.foldl (fun fl p => fl ||| p.2) x.flags⟩
      (List.range td.vc).foldl (fun x j =>
        let y := td.foldCode kind mode (s1 == 1) (ps.getD j (foldIdentity kind, 0))
        x.put i j y.1 y.2) x
    s.putT (.tscan g d a k o r s1 m) d
      (if td.vc = 0 then Cells.none else (List.range td.vr).foldl row Cells.none)

/-! ### Dot products (R341-R344) -/

/-- A zero is +0 in every mode. -/
def plusZero (v : Val) : Val := if v.isZero then Val.zero else v

/-- The exact sum of a group of products, with NV for a NaN or invalid term and for ∞ − ∞. -/
def groupSum (terms : List (Val × Val)) : Res :=
  terms.foldl (fun acc t =>
    let p := vmul t.1 t.2
    let r := vadd .rne acc.1 p.1
    (r.1, acc.2 || p.1.isNaN || r.2)) (Val.zero, false)

/-- One group folded into the accumulator; a group without terms leaves it. -/
def addGroup (acc : Step) (terms : List (Val × Val)) : Step :=
  if terms.isEmpty then acc
  else
    let gs := rne32 (groupSum terms)
    let r := rne32 (vadd .rne acc.1 (plusZero gs.1))
    (plusZero r.1, acc.2 ||| gs.2 ||| r.2)

/-- dot_value of R341 over terms with their k. -/
def dotValue (integer : Bool) (start : Option Val) (terms : List (Nat × Val × Val)) : Step :=
  if integer then
    (terms.foldl (fun acc t => (vadd .rne acc (vmul t.2.1 t.2.2).1).1) (start.getD Val.zero), 0)
  else
    let part (g : Nat) : List (Val × Val) := (terms.filter fun t => t.1 / 32 == g).map Prod.snd
    addGroup (addGroup (plusZero (start.getD Val.zero), 0) (part 0)) (part 1)

/-- Delivery of a dot value; a zero is delivered as +0. -/
def Tile.dotCode (t : Tile) (m : Mode) (x : Step) : Nat × Flags :=
  let r := t.fmt.round m.rm m.sat (plusZero x.1)
  (if (t.fmt.value r.1).isZero then 0 else r.1, x.2 ||| r.2)

/-- A dot over the domain j ≤ 3 of TD; `terms` answers none where the operation writes the default NaN. A refused one
sets NV, over an empty domain too (R343). -/
def State.dot (s : State) (i : Instr) (d a b : BitVec 4) (r : BitVec 3) (s1 x : BitVec 1) (refused : Bool)
    (terms : Nat → Nat → Option (List (Nat × Val × Val))) : State :=
  let td := s.cx.tile d
  let mode := s.cx.modeOf td r s1
  let integer := (s.cx.tile a).fmt.isInt && (s.cx.tile b).fmt.isInt && (x == 0 || td.fmt.isInt)
  s.putT i d ((td.cells.filter fun c => decide (c.2 ≤ 3)).foldl (fun acc c =>
    let y := match terms c.1 c.2 with
      | some ts => td.dotCode mode (dotValue integer (if x = 1 then some (td.val c.1 c.2 Val.zero) else none) ts)
      | none => td.encode mode (.nan, true)
    acc.put c.1 c.2 y.1 y.2) ⟨[], flagIf refused fNV⟩)

def execTdot (g d a b : BitVec 4) (r : BitVec 3) (s1 x : BitVec 1) (s : State) : Out :=
  s.vecOp g (.tdot g d a b r s1 x) fun s =>
    let ta := s.cx.tile a
    let tb := s.cx.tile b
    s.dot (.tdot g d a b r s1 x) d a b r s1 x false fun i j =>
      some (((List.range 64).filter fun k => ta.present i k && tb.present k j).map fun k =>
        (k, ta.val i k Val.zero, tb.val k j Val.zero))

/-- Mask g of column j, as 32 bits. -/
def Tile.maskWord (t : Tile) (g j : Nat) : Nat := t.raw g j % 2 ^ 32

/-- The terms of a column of a compressed operand (R343). -/
def sparseTerms (ta tb tc : Tile) (groups n i j : Nat) : List (Nat × Val × Val) :=
  (List.range (32 * groups)).filterMap fun k =>
    let m := tc.maskWord (k / 32) j
    let row := k / 32 * n + popBits m (k % 32)
    if m.testBit (k % 32) && ta.present i k && tb.present row j then
      some (k, ta.val i k Val.zero, tb.val row j Val.zero)
    else none

def execTdots (g d a b c : BitVec 4) (r : BitVec 3) (s1 x : BitVec 1) (s : State) : Out :=
  s.vecOp g (.tdots g d a b c r s1 x) fun s =>
    let ta := s.cx.tile a
    let tb := s.cx.tile b
    let tc := s.cx.tile c
    let groups := tc.vr
    let n := tb.vr / groups
    let ok := (groups == 1 || groups == 2) && tb.vr == n * groups && (n == 4 || n == 8 || n == 16)
    s.dot (.tdots g d a b c r s1 x) d a b r s1 x (!ok) fun i j =>
      if ok && (List.range groups).all fun q => popBits (tc.maskWord q j) 32 == n then some (sparseTerms ta tb tc groups n i j)
      else none

/-- The positions of the set bits of a 32-bit mask, ascending. -/
def bitPlaces (m : Nat) : List Nat := (List.range 32).filter fun b => m.testBit b

/-- `tsprs` (R345); the reserved count code 3 acts as 0 (10 R249). -/
def execTsprs (g d a b : BitVec 4) (n : BitVec 2) (s : State) : Out :=
  s.vecOp g (.tsprs g d a b n) fun s =>
    let td := s.cx.tile d
    let ta := s.cx.tile a
    let tb := s.cx.tile b
    let cnt := match n.toNat with | 1 => 8 | 2 => 16 | _ => 4
    let one (x : Cells) (j q : Nat) : Cells :=
      let ks := bitPlaces (tb.maskWord q j)
      let good := ks.length == cnt
      let x : Cells := ⟨x.cells, x.flags ||| flagIf (!good) fNV⟩
      (List.range cnt).foldl (fun x r =>
        x.move td (q * cnt + r) j (if good then ta.raw (32 * q + ks.getD r 0) j else 0)) x
    s.putT (.tsprs g d a b n) d
      ((List.range td.vc).foldl (fun x j => (List.range (Nat.min tb.vr 2)).foldl (fun x q => one x j q) x) Cells.none)

end Sys2Proof.Machine
end

