-- ==== Sys2Proof/Machine/VectorFunc.lean ====
section
/-! DEFINITION. The meanings of vector group 5: approximations, refinements and running moments
(14 R346-R349). -/

namespace Sys2Proof.Machine

/-! ### Approximations (R346) -/

/-- round_apx: 12 bits of precision into FP32. -/
def Tile.roundApx (t : Tile) (m : Mode) (x : Val) : Nat × Flags :=
  if t.code = 1 then fp32Apx.round m.rm m.sat x else t.fmt.round m.rm m.sat x

/-- One rounded function of each selected element; an absent source reads +0. -/
def State.approx (s : State) (i : Instr) (d a c : BitVec 4) (r : BitVec 3) (s1 m : BitVec 1)
    (f : (Val → Nat × Flags) → Val → Nat × Flags) : State :=
  let td := s.cx.tile d
  let ta := s.cx.tile a
  let mode := s.cx.modeOf td r s1
  let mask := s.cx.maskOf m (c.setWidth 3)
  s.putT i d ((td.cells.filter fun c => selects mask c.1 c.2).foldl (fun x c =>
    let y := f (td.roundApx mode) (ta.val c.1 c.2 Val.zero)
    x.put c.1 c.2 y.1 y.2) Cells.none)

/-- A function with an exact or decided rational result. -/
def apxExact (f : Val → Res) (round : Val → Nat × Flags) (a : Val) : Nat × Flags :=
  let r := f a
  let y := round r.1
  (y.1, y.2 ||| flagIf r.2 fNV)

def execTrcpa (g d a c : BitVec 4) (r : BitVec 3) (s1 m : BitVec 1) (s : State) : Out :=
  s.vecOp g (.trcpa g d a c r s1 m) fun s => s.approx (.trcpa g d a c r s1 m) d a c r s1 m (apxExact recip)

def execTrsqa (g d a c : BitVec 4) (r : BitVec 3) (s1 m : BitVec 1) (s : State) : Out :=
  s.vecOp g (.trsqa g d a c r s1 m) fun s => s.approx (.trsqa g d a c r s1 m) d a c r s1 m (apxExact recipRoot)

def execTexp2 (g d a c : BitVec 4) (r : BitVec 3) (s1 m : BitVec 1) (s : State) : Out :=
  s.vecOp g (.texp2 g d a c r s1 m) fun s => s.approx (.texp2 g d a c r s1 m) d a c r s1 m (apx .exp2)

def execTlog2 (g d a c : BitVec 4) (r : BitVec 3) (s1 m : BitVec 1) (s : State) : Out :=
  s.vecOp g (.tlog2 g d a c r s1 m) fun s => s.approx (.tlog2 g d a c r s1 m) d a c r s1 m (apx .log2)

def execTtanh (g d a c : BitVec 4) (r : BitVec 3) (s1 m : BitVec 1) (s : State) : Out :=
  s.vecOp g (.ttanh g d a c r s1 m) fun s => s.approx (.ttanh g d a c r s1 m) d a c r s1 m (apx .tanh)

def execTsigm (g d a c : BitVec 4) (r : BitVec 3) (s1 m : BitVec 1) (s : State) : Out :=
  s.vecOp g (.tsigm g d a c r s1 m) fun s => s.approx (.tsigm g d a c r s1 m) d a c r s1 m (apx .sigm)

/-! ### Refinements (R347) -/

/-- The cases of R347: y alone where y or x is special, else the exact y′. -/
def refined (root : Bool) (mode : RMode) (x y : Val) : Res :=
  if y.isNaN then (.nan, false)
  else if y.isZero || y.isInf || x.isZero || x.isInf || x.isNaN || (root && x.sign) then (y, false)
  else if root then
    let k := vsub mode (Val.ofNat 3) (vmul (vmul x y).1 y).1
    vdiv (vmul y k.1).1 (Val.ofNat 2)
  else vmul y (vsub mode (Val.ofNat 2) (vmul x y).1).1

def execTrcpr (g d a b c : BitVec 4) (r : BitVec 3) (s1 m : BitVec 1) (s : State) : Out :=
  s.vecOp g (.trcpr g d a b c r s1 m) fun s =>
    s.binary (.trcpr g d a b c r s1 m) d a b c r s1 m Val.zero Val.zero (refined false)

def execTrsqr (g d a b c : BitVec 4) (r : BitVec 3) (s1 m : BitVec 1) (s : State) : Out :=
  s.vecOp g (.trsqr g d a b c r s1 m) fun s =>
    s.binary (.trsqr g d a b c r s1 m) d a b c r s1 m Val.zero Val.zero (refined true)

/-! ### Running moments (R348, R349) -/

/-- The state of a row, with the flags of the steps so far. -/
structure Moments where
  n  : Val
  m  : Val
  q  : Val
  fl : Flags

/-- A rounded step whose flags join. -/
def Moments.rne (s : Moments) (r : Res) : Moments × Val := let y := rne32 r; ({ s with fl := s.fl ||| y.2 }, y.1)

/-- One element folded in. -/
def Moments.fold (s : Moments) (x : Val) : Moments :=
  let (s, n) := s.rne (vadd .rne s.n Val.one)
  let (s, dl) := s.rne (vsub .rne x s.m)
  let (s, t) := s.rne (vdiv dl n)
  let (s, m) := s.rne (vadd .rne s.m t)
  let (s, u) := s.rne (vsub .rne x m)
  let (s, w) := s.rne (vmul dl u)
  let (s, q) := s.rne (vadd .rne s.q w)
  { s with n := n, m := m, q := q }

/-- Two row states merged. -/
def Moments.merge (a b : Moments) : Moments :=
  let s : Moments := ⟨.zero, .zero, .zero, 0⟩
  let (s, n) := s.rne (vadd .rne a.n b.n)
  if n.isZero then { s with n := n, m := Val.zero, q := Val.zero }
  else
    let (s, dl) := s.rne (vsub .rne b.m a.m)
    let (s, t) := s.rne (vdiv b.n n)
    let (s, t) := s.rne (vmul dl t)
    let (s, m) := s.rne (vadd .rne a.m t)
    let (s, qq) := s.rne (vadd .rne a.q b.q)
    let (s, d2) := s.rne (vmul dl dl)
    let (s, nn) := s.rne (vmul a.n b.n)
    let (s, f) := s.rne (vdiv nn n)
    let (s, w) := s.rne (vmul d2 f)
    let (s, q) := s.rne (vadd .rne qq w)
    { s with n := n, m := m, q := q }

/-- Columns 0 to 2 of a row. -/
def Tile.moments (t : Tile) (i : Nat) : Moments := ⟨t.val i 0 Val.zero, t.val i 1 Val.zero, t.val i 2 Val.zero, 0⟩

/-- A row state delivered into columns 0 to 2. -/
def Cells.moments (x : Cells) (t : Tile) (m : Mode) (i : Nat) (s : Moments) : Cells :=
  let x : Cells := ⟨x.cells, x.flags ||| s.fl⟩
  ((x.deliver t m i 0 (s.n, false)).deliver t m i 1 (s.m, false)).deliver t m i 2 (s.q, false)

def execTwelf (g d a c : BitVec 4) (r : BitVec 3) (s1 m : BitVec 1) (s : State) : Out :=
  s.vecOp g (.twelf g d a c r s1 m) fun s =>
    let td := s.cx.tile d
    let ta := s.cx.tile a
    let mode := s.cx.modeOf td r s1
    let mask := s.cx.maskOf m (c.setWidth 3)
    s.putT (.twelf g d a c r s1 m) d ((List.range td.vr).foldl (fun x i =>
      let xs := ((List.range 64).filter fun j => ta.present i j && selects mask i j).map fun j => ta.val i j Val.zero
      x.moments td mode i (xs.foldl Moments.fold (td.moments i))) Cells.none)

def execTwmrg (g d a b c : BitVec 4) (r : BitVec 3) (s1 m : BitVec 1) (s : State) : Out :=
  s.vecOp g (.twmrg g d a b c r s1 m) fun s =>
    let td := s.cx.tile d
    let ta := s.cx.tile a
    let tb := s.cx.tile b
    let mode := s.cx.modeOf td r s1
    let mask := s.cx.maskOf m (c.setWidth 3)
    s.putT (.twmrg g d a b c r s1 m) d (((List.range td.vr).filter fun i => selects mask i 0).foldl (fun x i =>
      x.moments td mode i ((ta.moments i).merge (tb.moments i))) Cells.none)

end Sys2Proof.Machine
end

