-- ==== Sys2Proof/Machine/Photonic.lean ====
section
/-! DEFINITION. The photonic dot engine (09): lanes and light, the number contract R215-R219, and one
window from its first symbol. -/

namespace Sys2Proof.Machine

/-! ### Blocks and codes (R215-R218) -/

/-- A converted block: exponent, mantissas, and whether an element was NaN or infinite. -/
structure Block where
  exp    : Int
  mants  : List Int
  nonfin : Bool
deriving DecidableEq, Repr

/-- exp_of of a finite nonzero value. -/
def Val.expOf? : Val → Option Int
  | .fin _ n d => if n = 0 then none else some (Machine.expOf n d)
  | _ => none

def maxExp (l : List Val) : Option Int :=
  l.foldl (fun acc v => match acc, v.expOf? with
    | some a, some b => some (max a b)
    | none, b => b
    | a, none => a) none

def clamp127 (i : Int) : Int := max (-127) (min 127 i)

/-- mant(v, E) of a value that is no INT8. -/
def mant (e : Int) : Val → Int
  | .fin s n d =>
    let k := 6 - e
    clamp127 (if 0 ≤ k then roundInt .rne s (n * 2 ^ k.toNat) d else roundInt .rne s n (d * 2 ^ (-k).toNat))
  | _ => 0

/-- block_exp and mant over a block; INT8 elements are given as their integers. -/
def blockOf (int8 : Bool) (l : List Val) : Block :=
  if int8 then ⟨6, l.map fun v => match v with | .fin s n _ => clamp127 (if s then -(n : Int) else n) | _ => 0, false⟩
  else
    let e := (maxExp l).getD 6
    ⟨e, l.map (mant e), l.any fun v => v.isNaN || v.isInf⟩

def dotInt : List Int → List Int → Int
  | a :: as, b :: bs => a * b + dotInt as bs
  | _, _ => 0

/-- A window is saturated at a receiver: |S / 2^g| > 8191.5 (R218). -/
def saturated (sum : Int) (g : Nat) : Bool := decide (16383 * 2 ^ g < 2 * sum.natAbs)

/-- The code of a calibrated, unsaturated receiver: rne_int(S / 2^g) at least 0.45 from a boundary, and
either neighbour nearer to one (R217, log 8). -/
def calibratedCode (sum : Int) (g : Nat) (pick : Bool) : Int :=
  let d : Nat := 2 ^ g
  let r := (sum % d).toNat
  let q := sum / d
  let far := decide (9 * d ≤ 10 * (if 2 * r ≤ d then d - 2 * r else 2 * r - d))
  let c := if far then roundInt .rne (decide (sum < 0)) sum.natAbs d else if pick then q + 1 else q
  max (-8192) (min 8191 c)

/-- The converter code of one receiver. -/
def converterCode (sum : Int) (g : Nat) (calibrated : Bool) (free : Nat) : Int :=
  if saturated sum g then (if 0 < sum then 8191 else -8192)
  else if calibrated then calibratedCode sum g (Config.converterUp free)
  else (Config.uncalibratedCode free).toInt

/-- val := fp32_rne(code × 2^e), as an FP32 code. -/
def receiverVal (code e : Int) : BitVec 32 :=
  BitVec.ofNat 32 (fp32.round .rne false (Val.scaled (decide (code < 0)) code.natAbs e)).1

/-! ### Light (R208-R212, R226, R228) -/

/-- SPLIT(n) in 0.1 dB (R211). -/
def split (n : Nat) : Int := [0, 0, 31, 48, 61, 70, 78, 85, 91, 96].getD n 0

/-- Signed 16-bit fields. -/
def s16 (x : BitVec 16) : Int := x.toInt

/-- LAUNCH (R210), in 0.1 dBm. -/
def launch : Int := 60

/-- The losses of a part, within the limits of R210. -/
def jloss (d : Nat) : Int := Nat.min 30 (Config.jloss d).toNat
def eloss (q : Nat) : Int := Nat.min 50 (Config.eloss q).toNat

def laneLit (r : W64) : Bool := bit r 0
def laneDrv (r : W64) : Fin 8 := Fin.ofNat 8 (bitsOf r 1 3)
def laneRx (r : W64) (d : Fin 8) : Bool := bit r (8 + d.val)
def lanePoints (r : W64) : Nat := popBits (bitsOf r 8 8) 8 + bitsOf r 16 1

/-- Receiving points of a lane register with their power, floors and numbers (R211): dies, then the port. -/
def Joist.points (j : Joist) (r : W64) : List (Nat × Int × Int) :=
  let n := lanePoints r
  ((fins 8).filterMap fun d => if laneRx r d then some (d.val, launch - jloss d.val - split n, s16 j.ctFloor) else none) ++
    (if bit r 16 then [(16 + bitsOf r 17 4, launch - eloss (bitsOf r 17 4) - split n, s16 j.ctExtFloor)] else [])

/-- The lane state that a window sees: an accepted write counts from 64 cc on (R212). -/
def Lane.seen (l : Lane) (cycle : Nat) : W64 :=
  (l.past.foldl (fun x p => if x.2 ∨ p.1 + 64 ≤ cycle then (x.1, true) else (p.2, false)) (l.reg, false)).1

/-- Whether the comb of a lane gives no light: not locked and not carried, or in a swap (R228). -/
def Joist.combDown (j : Joist) (lane : Fin 8) : Bool :=
  let k : Fin 4 := Fin.ofNat 4 (lane.val / 2)
  let swapping := match j.combSwap with | some x => x.comb == k | none => false
  !j.combEn || swapping ||
    (if j.combFor == some k then (vget j.combs 4).state != 5 else (vget j.combs ⟨k.val, by omega⟩).state != 2)

/-- Whether a lit lane's power at a die is below FLOOR in a window. -/
def State.laneLow (s : State) (lane : Fin 8) (r : W64) (d : Fin 8) : Bool :=
  s.joist.combDown lane || Config.lowPower s.free lane.val ||
    decide (launch - jloss d.val - split (lanePoints r) < s16 s.joist.ctFloor)

/-! ### Broadcasts -/

/-- Element k of window n on the q-th selected lane, as a value (R363). -/
def Broadcast.elem (b : Broadcast) (q n k : Nat) : Val :=
  let e := bitsOf b.pattern 0 12 + q * bitsOf b.pattern 12 12 + n * bitsOf b.pattern 24 12 + k
  let cols := bitsOf b.shape 6 6 + 1
  let sz := elemSize (bitsOf b.shape 26 4)
  if e / cols < bitsOf b.shape 12 7 ∧ e % cols < bitsOf b.shape 19 7 then
    (fmtOf (bitsOf b.shape 26 4) b.ft).value (bitsOf b.tile (8 * (e * sz)) (8 * sz))
  else Val.zero

/-- The converted activations of a lane window. -/
def Broadcast.block (b : Broadcast) (q n : Nat) : Block :=
  blockOf (bitsOf b.shape 26 4 == 6) ((List.range (8 * b.step * b.w)).map fun k => b.elem q n k)

/-- The broadcast window that starts on a lane in a cycle, sent, with T and W as asked (R208). -/
def Broadcast.at? (b : Broadcast) (lane : Fin 8) (cycle step w : Nat) : Option Block :=
  if b.start ≤ cycle ∧ (cycle - b.start) % b.step = 0 ∧ b.step = step ∧ b.w = w then
    let n := (cycle - b.start) / b.step
    match b.lanes.findIdx? (· == lane) with
    | some q => if n < b.begun && !b.unsent.contains (lane, n) then some (b.block q n) else none
    | none => none
  else none

/-- The activations that a die's receivers take on a lane, none where the lane is dark (R208, R212). -/
def State.laneBlock (s : State) (d : Fin 8) (lane : Fin 8) (cycle step w : Nat) : Option Block :=
  let r := (vget s.joist.lanes lane).seen cycle
  if laneLit r && laneRx r d then (s.die (laneDrv r)).bank.findSome? fun b => b.at? lane cycle step w else none

/-! ### Geometry and weights -/

def geomT (g : W64) : Nat := 8 * (bitsOf g 0 9 + 1)
def geomStep (g : W64) : Nat := bitsOf g 0 9 + 1
def geomW (g : W64) : Nat := bitsOf g 9 6 + 1
def geomWin (g : W64) : Nat := bitsOf g 16 16
def geomLanes (g : W64) : List (Fin 8) := (fins 8).filter fun l => bit g (37 + l.val)
/-- Reserved bits of a geometry register (R356). -/
def geomReserved (g : W64) : Bool := bit g 15 || bitsOf g 46 2 != 0 || bitsOf g 52 12 != 0
/-- A geometry that no operation accepts. -/
def geomBad (g : W64) : Bool := geomReserved g || geomWin g == 0 || bitsOf g 37 8 == 0

/-- Bytes of one window's weight stream (R214, R229). -/
def streamLen (t w sparse : Nat) : Nat := if sparse = 0 then 8 * t * w else 8 * (t * w / 32) * (4 + sparse)

/-- What the symbols of a window lack: a symbol any of whose bytes lies in a weight line that is missing when it is due
(R209). A dense stream holds symbol t's bytes together; in a sparse one a group lacks all its 32 elements. -/
def lateSymbols (t w sparse : Nat) (gone : Nat → Bool) : List Nat :=
  let lost (a n : Nat) : Bool := (List.range ((a + n - 1) / 16384 + 1 - a / 16384)).any fun k => gone (a / 16384 + k)
  if sparse = 0 then (List.range t).filter fun k => lost (8 * w * k) (8 * w)
  else
    let groups := t * w / 32
    let bad := (List.range groups).filter fun q => (List.range 8).any fun r => lost ((r * groups + q) * (4 + sparse)) (4 + sparse)
    (List.range t).filter fun k => bad.any fun q => decide (32 * q < (k + 1) * w ∧ k * w < 32 * (q + 1))

/-- Rows of a dense window: in row r, element k = t·W + λ. -/
def denseRows (w n : Nat) (bs : List Nat) : List (List Nat) :=
  (List.range 8).map fun r => (List.range n).map fun k => bs.getD ((k / w * 8 + r) * w + k % w) 0

/-- One group of 32 elements expanded; none where the mask is malformed (R230). -/
def expandGroup (n : Nat) (bs : List Nat) : Option (List Nat) :=
  let m := leNat ((bs.take 4).map (BitVec.ofNat 8))
  if popBits m 32 = n then
    some ((List.range 32).map fun k => if m.testBit k then bs.getD (4 + popBits m k) 0 else 0)
  else none

/-- Rows of a sparse window, with whether a group was malformed; a group of lost symbols alone is not read. -/
def sparseRows (groups n : Nat) (lost : Nat → Bool) (bs : List Nat) : List (List Nat) × Bool :=
  let size := 4 + n
  let rows := (List.range 8).map fun r => (List.range groups).map fun q =>
    if (List.range 32).all fun k => lost (32 * q + k) then some (List.replicate 32 0)
    else expandGroup n ((bs.drop ((r * groups + q) * size)).take size)
  (rows.map fun row => row.flatMap fun x => x.getD (List.replicate 32 0), rows.any fun row => row.any Option.isNone)

/-- Zero weights in the lost symbols of a row (R209). -/
def dropSymbols (lost : Nat → Bool) (row : List Nat) : List Nat := row.zipIdx.map fun x => if lost x.2 then 0 else x.1

/-! ### One window -/

/-- What the engine has for a window: its rows of weights, none where the stream is missing. -/
structure Weights where
  rows   : List Block
  nonfin : Bool

/-- Whether calibration is stale at a window's first symbol (R225), with the core after the check. -/
def Core.checkCal (k : Core) (die : Fin 8) (cycle : Nat) : Core × Bool :=
  let temp := (Config.dieTemp die.val cycle).toNat
  let diff := if temp < k.calTemp.toNat then k.calTemp.toNat - temp else temp - k.calTemp.toNat
  let stepped := decide (Nat.max 1 (bitsOf k.calcfg 32 8) ≤ diff)
  let age := Nat.min (cycle - k.calAt) 0xFFFFFFFF
  ({ k with calTstep := k.calTstep || stepped },
    !k.calValid || decide (bitsOf k.calcfg 0 32 ≤ age) || stepped)

/-- The DELAY of a lane for a window that starts in a cycle: a write counts from 8 cc on (R227). -/
def Core.delayAt (k : Core) (l : Fin 8) (start : Nat) : BitVec 8 :=
  ((vget k.xdeskPast l).foldl (fun x p => if x.2 ∨ p.1 + 8 ≤ start then (x.1, true) else (p.2, false)) (vget k.xdeskDelay l, false)).1

/-- A write of a lane's DELAY. -/
def Core.writeDelay (k : Core) (now : Nat) (l : Fin 8) (v : BitVec 8) : Core :=
  { k with
    xdeskPast := vupd k.xdeskPast l fun p => (now, vget k.xdeskDelay l) :: p.filter fun x => decide (now < x.1 + 8)
    xdeskDelay := vset k.xdeskDelay l v }

/-- What a window delivers: the values of the selected receivers (r, l), the others 0, and its report
without WIN. `dead` stands for a window that takes no stream at all: code 0 (R361); one whose weights are missing has
its activations, which may be no numbers (R209, R218). -/
def State.integrate (s : State) (id : CtxId) (geom : W64) (g cycle : Nat) (w : Option Weights) (dead : Bool) :
    State × WindowOut :=
  let lanes := geomLanes geom
  let step := geomStep geom
  let (k, stale) := (s.core id.die id.core).checkCal id.die (s.cycle + cycle - s.gtime)
  let resid (l : Fin 8) : BitVec 8 := Config.residualSkew (16 * id.die.val + id.core.val) l.val (k.delayAt l cycle) s.free
  let k := lanes.foldl (fun (k : Core) l => { k with xdeskResid := vset k.xdeskResid l (resid l) }) k
  let skew := lanes.any fun l => decide (16 < (resid l).toInt.natAbs)
  let laser := lanes.any fun l =>
    let r := (vget s.joist.lanes l).seen cycle
    laneLit r && laneRx r id.die && s.laneLow l r id.die
  let acts := lanes.map fun l => (l, s.laneBlock id.die l cycle step (geomW geom))
  let dark := acts.any fun a => a.2.isNone
  let calibrated := !skew && !laser && !stale
  let missing := dead || w.isNone
  let rows := match w with | some x => x.rows | none => []
  let cell (r : Nat) (l : Fin 8) : Int × Int × Bool :=
    if missing then (0, 0, false)
    else
      let a := ((acts.find? fun a => a.1 == l).bind Prod.snd).getD ⟨6, [], false⟩
      let row := rows.getD r ⟨6, [], false⟩
      let sum := dotInt a.mants row.mants
      (converterCode sum g calibrated (64 * s.free + 8 * r + l.val), (g : Int) + a.exp - 6 + row.exp - 6, saturated sum g)
  let out := (List.range 8).flatMap fun r => (fins 8).map fun l =>
    if lanes.contains l then
      let c := cell r l
      let v := receiverVal c.1 c.2.1
      (v, c.2.2)
    else (0, false)
  let first := out.findIdx? fun x => x.2
  let beyond := out.any fun x => (fp32.value x.1.toNat).isInf
  let nonfin := !dead && ((match w with | some x => x.nonfin | none => false) ||
    acts.any fun a => match a.2 with | some b => b.nonfin | none => false)
  let report := b2n (first.isSome || beyond) + 2 * b2n nonfin + 4 * b2n skew + 8 * b2n laser + 16 * b2n stale + 32 * b2n (missing || dark) +
    256 * first.getD 0
  ((({ s with free := s.free + 1 } : State).updCore id.die id.core fun _ => k), .ran (out.map Prod.fst) (BitVec.ofNat 32 report))

end Sys2Proof.Machine
end

