-- ==== Sys2Proof/Machine/Stream.lean ====
section
/-! DEFINITION. The meanings of X-slot group 0 (15 R353-R370) and the engine's events: windows, broadcasts
and calibration (09 R207, R224). -/

namespace Sys2Proof.Machine

/-! ### Stream operations outstanding (R353) -/

/-- The end of a stream operation with its status, which `xwait` gathers (R369). -/
def State.endStream (s : State) (id : CtxId) (o : StreamOp) (status : BitVec 3) : State :=
  ((s.updCtx id fun c =>
    { c with
      streams := c.streams.erase o
      xwaited := some (match c.xwaited with | some x => if x.toNat < status.toNat then status else x | none => status) }).lateUnboards id).wake id

/-- A refused operation completes with REFUSED and runs nothing (R359). -/
def Ctx.refuseStream (c : Ctx) : Ctx :=
  { c with xwaited := some (match c.xwaited with | some x => if x.toNat < 1 then 1 else x | none => 1) }

/-- A stamp of 0 is the first cycle at or after issue + 64 (R355). -/
def stampOf (now : Nat) (x : W64) : Nat := if x = 0 then now + 64 else x.toNat

/-- Back-to-back windows, without those in `gone`. -/
structure Train where
  start : Nat
  step  : Nat
  count : Nat
  gone  : List Nat

/-- Whether one of its windows shares a cycle with an interval. -/
def Train.hits (t : Train) (lo hi : Nat) : Bool :=
  if hi ≤ t.start ∨ t.start + t.count * t.step ≤ lo then false
  else
    let a := (lo - t.start) / t.step
    let b := Nat.min (t.count - 1) ((hi - 1 - t.start) / t.step)
    (List.range (b + 1 - a)).any fun k => !t.gone.contains (a + k)

/-- The windows of a new train that meet one of the earlier trains. -/
def lostTo (ts : List Train) (start step count : Nat) : List Nat :=
  if ts.any fun t => t.hits start (start + count * step) then
    (List.range count).filter fun n => ts.any fun t => t.hits (start + n * step) (start + (n + 1) * step)
  else []

/-- The receiver windows accepted on a core. -/
def State.coreTrains (s : State) (d : Fin 8) (c : Fin 16) : List Train :=
  (coreCtxs d c).flatMap fun id =>
    ((s.ctxOf id).streams.filter fun o => decide (o.kind.toNat ≤ 1) && !o.waiting).map fun o =>
      ⟨o.start, geomStep o.geom, geomWin o.geom - o.first, o.late.map (· - o.first)⟩

/-! ### xdot and xdots -/

/-- The range code of an operation (R360). -/
def Ctx.rangeCode (c : Ctx) (geom : W64) : Nat := if bit geom 36 then bitsOf c.entry 16 4 else bitsOf geom 32 4

/-- Whether an accumulator's address is one that R359 refuses; a translation fault is left to R362. -/
def State.accumBad (s : State) (r : Req) (va : W64) : Bool :=
  if va.toNat % 256 ≠ 0 then true
  else
    match s.checkAccess { r with acc := .engWrite, rd := false, wr := true } [⟨va, 256⟩] with
    | (_, .ok ps) => ps.any fun p => !(p.loc.space == .dev && region p.loc.addr == .spad)
    | (_, .error _) => false

/-- Requests of a context to peers that are not answered. -/
def State.earlier (s : State) (id : CtxId) : List (BitVec 9 × BitVec 16) :=
  (s.joist.peerReqs.filter fun r => r.of id).map fun r => (r.member, r.seq)

/-- Whether a piece that precedes an operation is still to be performed (R354). -/
def State.preceded (s : State) (d : Fin 8) (after : List (BitVec 9 × BitVec 16)) : Bool :=
  s.joist.peerReqs.any fun r => r.id.die == d && after.contains (r.member, r.seq)

/-- GTIME at which a stream operation leaves the queue: now, or at the end of the core's calibration (09 R224). -/
def State.opensAt (s : State) (id : CtxId) : Nat :=
  match (s.core id.die id.core).calEnd with | some e => Nat.max s.gtime (e + s.gtime - s.cycle) | none => s.gtime

/-- An `xdot` or `xdots` accepted or refused; `n` is N of N-of-32, 0 for a dense stream. Held stores of its own bundle
go home before its reads (R354). -/
def State.startDot (s : State) (a b : BitVec 3) (s1 : BitVec 6) (t : BitVec 4) (accF srck dstF : BitVec 1) (n : Nat) : State :=
  let id := s.cur
  let c := s.cx
  if 4 ≤ c.streams.length then s.block id .streamQueue
  else if dstF = 0 ∧ !shapeCfg (c.rTS t) then s.trapI cUNCONF
  else if dstF = 0 ∧ shapeFmt (c.rTS t) ≠ 1 then s.trapI cSHAPE
  else
    let geom := c.rXP a
    let src := c.rXP b
    let tw := geomT geom * geomW geom
    let va := c.rS (s1 + 1)
    let held := s.heldSlot id (bitsOf src 0 16)
    let len := geomWin geom * streamLen (geomT geom) (geomW geom) n
    let lost : Bool := match held with
      | none => true
      | some k => decide ((vget (s.die id.die).slots k).len * 65536 < bitsOf src 16 25 + len)
    let valid := bit c.xpr 16
    let w0 := if valid then bitsOf c.xpr 0 16 else 0
    let s := if valid ∧ geomWin geom ≤ w0 then s.updCx fun c => { c with xpr := setBit c.xpr 16 false } else s
    if geomBad geom ∨ (n ≠ 0 ∧ tw % 32 ≠ 0) ∨ (srck = 1 ∧ (bitsOf src 41 23 ≠ 0 ∨ lost)) ∨
        (dstF = 1 ∧ s.accumBad (c.req id .engWrite false true) va) ∨ (valid ∧ geomWin geom ≤ w0) then
      s.updCx Ctx.refuseStream
    else
      let s := s.commitEarly id
      let start := stampOf s.gtime (c.rS s1)
      let slot : Fin 8 := held.getD 0
      let op : StreamOp :=
        { kind := if n = 0 then 0 else 1, geom := geom, src := src, srck := srck == 1, sparse := n
          dst := if dstF = 1 then .accum va else .tile t
          shape := c.rTS t, acc := accF == 1 || (valid && bit c.xpr 17), g := c.rangeCode geom, ft := c.entry
          pkr := c.arch.pkr, issue := s.gtime, opens := s.opensAt id, after := s.earlier id
          start := start, first := w0, next := w0
          late := (lostTo (s.coreTrains id.die id.core) start (geomStep geom) (geomWin geom - w0)).map (· + w0)
          begun := [], sums := [], spoilt := 0, slot := BitVec.ofNat 3 slot.val, bsid := (vget (s.die id.die).slots slot).bsid
          waiting := false, dropped := false, void := false, halting := false, lanes := 0, partialSent := false }
      s.updCx fun c =>
        let c := if dstF = 0 then c.discardPending [.t t] else c
        { c with streams := c.streams ++ [op], xpr := setBit c.xpr 16 false }

def execXdot (g : BitVec 4) (a b : BitVec 3) (s1 : BitVec 6) (t : BitVec 4) (c k d : BitVec 1) (s : State) : Out :=
  s.slotOp g (.xdot g a b s1 t c k d) fun s => s.startDot a b s1 t c k d 0

/-- N of `xdots`; the reserved code 3 acts as 0 (10 R249). -/
def sparseN (n : BitVec 2) : Nat := match n.toNat with | 1 => 8 | 2 => 16 | _ => 4

def execXdots (g : BitVec 4) (a b : BitVec 3) (s1 : BitVec 6) (t : BitVec 4) (c k d : BitVec 1) (n : BitVec 2) (s : State) : Out :=
  s.slotOp g (.xdots g a b s1 t c k d n) fun s => s.startDot a b s1 t c k d (sparseN n)

/-! ### Windows -/

def StreamOp.cycleOf (o : StreamOp) (n : Nat) : Nat := o.start + (n - o.first) * geomStep o.geom

/-- The next window of an operation to begin, none when it has none or has met a stop. -/
def StreamOp.nextBegin (o : StreamOp) : Option Nat :=
  let n := o.next + o.begun.length
  let stop := o.begun.any fun w => match w with | .ran _ _ => false | _ => true
  if o.kind.toNat ≤ 1 ∧ !o.waiting ∧ !o.halting ∧ !stop ∧ n < geomWin o.geom then some n else none

/-- The operation of a context whose next window begins first, with that window. -/
def Ctx.firstBegin (c : Ctx) : Option (StreamOp × Nat) :=
  c.streams.foldl (fun best o => match o.nextBegin, best with
    | some n, none => some (o, n)
    | some n, some b => if o.cycleOf n < b.1.cycleOf b.2 then some (o, n) else some b
    | none, b => b) none

/-- The rights with which an operation's pieces are made (R354). -/
def StreamOp.req (o : StreamOp) (c : Ctx) (id : CtxId) (acc : AccKind) (rd wr : Bool) : Req :=
  { c.req id acc rd wr with pkr := o.pkr }

/-- PA of a boarding slot's byte (05 R123). -/
def Die.slotBase (x : Die) (d : Fin 8) (k : Nat) : Nat := d.val * 0x40000000 + (bitsOf x.bscfg 8 5 + k) * 0x2000000

/-- Bytes of checked parts for an engine of a context, and whether they are all there: what another package holds is
what that package answers, and it is missing where it refuses or no circuit leads there (01 R24, R26, log 30). Poison met is recorded under SRC (02 R58). -/
def State.engineRead (s : State) (id : CtxId) (src : Nat) (ps : List Part) : State × List Byte × Bool :=
  ps.foldl (fun x p =>
    let (s, bs, ok) := x
    let a := p.loc.addr
    let gap := bs ++ List.replicate p.n 0
    match p.loc.space with
    | .dev => (s.recordUnits a p.n src id.die id.core, bs ++ s.devRead a p.n, ok && !s.poisoned a p.n)
    | .host =>
      let bad := s.hostPoisoned id.die a p.n
      (if bad then s.hostArrive id.die a p.n src (if src = 2 then 0 else id.core) else s,
        bs ++ s.hostRead (s.hostAddr id.die a) p.n, ok && !bad)
    | .peer m =>
      if !s.joist.mvalid then (s.updCtx id Ctx.noMember, gap, false)
      else if s.isSelf m then
        if peerRefuses a then (s.updCtx id fun c => c.pendRefusal p.va .engRead s.cycle, gap, false)
        else (if s.poisoned a p.n then s.recordLoop id.die m a p.n src id.core else s,
          bs ++ s.devRead a p.n, ok && !s.poisoned a p.n)
      else if s.peerWaits p then (s, gap, false)
      else match s.peerBytes m a p.n with
        | some xs => (s, bs ++ xs, ok)
        | none => (s.updCtx id fun c => c.pendRefusal p.va .engRead s.cycle, gap, false)
    | .ctrl => (s, gap, ok)) (s, [], true)

/-- The weight bytes of a window: a fault, or the bytes if they are there. -/
def State.weightBytes (s : State) (id : CtxId) (o : StreamOp) (n : Nat) : State × Except TrapRec (Option (List Byte)) :=
  let c := s.ctxOf id
  let len := streamLen (geomT o.geom) (geomW o.geom) o.sparse
  if o.srck then
    let pa := (s.die id.die).slotBase id.die o.slot.toNat + bitsOf o.src 16 25 + n * len
    (s.recordUnits pa len 1 id.die id.core, .ok (if s.poisoned pa len then none else some (s.devRead pa len)))
  else
    let r := o.req c id .engRead true false
    match s.checkAccess r [⟨o.src + BitVec.ofNat 64 (n * len), len⟩] with
    | (s, .error f) => (s.noteFault id 1 id.core f.fault, .error (c.faultRec .engRead f))
    | (s, .ok ps) =>
      let (s, bs, ok) := s.engineRead id 1 ps
      (s, .ok (if ok then some bs else none))

/-- The parts of the accumulator of an operation, or their fault. -/
def State.accumParts (s : State) (id : CtxId) (o : StreamOp) (va : W64) : State × Except TrapRec (List Part) :=
  match s.checkAccess (o.req (s.ctxOf id) id .engWrite false true) [⟨va, 256⟩] with
  | (s, .error f) => (s.noteFault id 1 id.core f.fault, .error ((s.ctxOf id).faultRec .engWrite f))
  | (s, .ok ps) => (s, .ok ps)

/-- The fault of an accumulator's address, if any. -/
def State.accumFault (s : State) (id : CtxId) (o : StreamOp) : State × Option TrapRec :=
  match o.dst with
  | .tile _ => (s, none)
  | .accum va =>
    match s.accumParts id o va with
    | (s, .error t) => (s, some t)
    | (s, .ok _) => (s, none)

/-- The symbols of a window whose weight lines, beyond those prefetched, are missing when they are due (R209). -/
def StreamOp.late? (o : StreamOp) (free : Nat) : List Nat :=
  lateSymbols (geomT o.geom) (geomW o.geom) o.sparse fun j =>
    decide (bitsOf o.geom 48 4 + 1 ≤ j) && Config.lineMissing free j

/-- Weight rows converted by R215, zero in the symbols that are late. -/
def StreamOp.weights (o : StreamOp) (late : List Nat) (bs : List Nat) : Weights :=
  let t := geomT o.geom
  let w := geomW o.geom
  let lost (k : Nat) : Bool := late.contains (k / w)
  let (rows, bad) := if o.sparse = 0 then (denseRows w (t * w) bs, false) else sparseRows (t * w / 32) o.sparse lost bs
  let rows := if late.isEmpty then rows else rows.map (dropSymbols lost)
  let int8 := !bit o.geom 45
  let conv (x : Nat) : Val := if int8 then Val.ofInt (signedNat x 8) else (b8Of o.ft).value x
  let blocks := rows.map fun r => blockOf int8 (r.map conv)
  ⟨blocks, bad || blocks.any fun b => b.nonfin⟩

/-- What a window finds at its first symbol. Weights are missing too while a piece that precedes the operation is still
to be performed (R354). -/
def State.openWindow (s : State) (id : CtxId) (o : StreamOp) (n : Nat) : State × WindowOut :=
  let cycle := o.cycleOf n
  let slot := vget (s.die id.die).slots o.slot.toFin
  if o.srck ∧ !(slot.hold.getLsbD (CtxId.bitNo id) && slot.bsid == o.bsid) then (s, .revoked)
  else
    let (s, w) := s.weightBytes id o n
    let (s, f) := s.accumFault id o
    match w, f with
    | .error t, _ => (s, .fault t)
    | _, some t => (s, .fault t)
    | .ok bytes, none =>
      let busy := match (s.core id.die id.core).calEnd with | some e => decide (s.cycle + cycle < e + s.gtime) | none => false
      let dead := o.late.contains n || decide (cycle < o.issue + 8) || busy || decide (cycle < o.opens)
      let there := Config.weightsReady s.free && !s.preceded id.die o.after
      let late := o.late? s.free
      let (s, out) := s.integrate id o.geom o.g cycle
        (if there then bytes.map fun bs => o.weights late (bs.map BitVec.toNat) else none) dead
      match out with
      | .ran vals rep => (s, .ran vals (if late.isEmpty then rep else rep ||| 0x20))
      | x => (s, x)

/-- WINDOW_FIRST_SYMBOL: the window of a context that is due begins (R207-R209). -/
def execWindowFirstSymbol (id : CtxId) (s : State) : Out :=
  match (s.ctxOf id).firstBegin with
  | some (o, n) =>
    if o.cycleOf n ≤ s.gtime then
      let (s, w) := s.openWindow id o n
      .next (s.updCtx id fun c => { c with streams := updFirst (· == o) (fun o => { o with begun := o.begun ++ [w] }) c.streams })
    else .next s
  | none => .next s

/-- Cycle in which the head of an operation's begun windows is due: a result 16 cc after the window's
last cycle, a stop 16 cc after its first (R207, R232). -/
def StreamOp.nextResult (o : StreamOp) : Option Nat :=
  match o.begun with
  | [] => none
  | .ran _ _ :: _ => some (o.cycleOf o.next + geomStep o.geom + 15)
  | _ :: _ => some (o.cycleOf o.next + 16)

def Ctx.firstResult (c : Ctx) : Option StreamOp :=
  c.streams.foldl (fun best o => match o.nextResult, best with
    | some _, none => some o
    | some n, some b => if n < b.nextResult.getD 0 then some o else some b
    | none, b => b) none

/-- A window's report (R222, R223), after the `csrw`s that are due; one of XSTAT in the same cycle leaves DROPS as
written (12 R294). Its XREPORT is taken when the context next
issues, by a pinned one at once. -/
def State.reportWindow (s : State) (id : CtxId) (rep : BitVec 32) : State :=
  let written := (s.ctxOf id).inflight.any fun x => x.due == s.cycle && x.w.reg == .csr 0x051
  let s := s.updCtx id fun c => c.settleFixed s.cycle
  let c := s.ctxOf id
  let low : BitVec 6 := field rep 0 6
  let used := ((coreCtxs id.die id.core).map fun x => (s.ctxOf x).reports.length).foldl (· + ·) 0
  let queued := bit c.xctl 6 || low != 0
  let full := decide (64 ≤ used)
  let trap := (low &&& field c.xctl 0 6) != 0
  let s := s.updCtx id fun c =>
    { c with
      sticky := c.sticky ||| low
      reports := if queued && !full then c.reports ++ [rep] else c.reports
      rovf := c.rovf || (queued && full)
      drops := if queued && full && !written then satAdd c.drops 1 else c.drops
      pendingA := if trap then { c.pendingA with xreport := true } else c.pendingA }
  s.wake id

/-- The running sums before the first result, with the receivers whose word of the accumulator is poisoned: their sums
stay poisoned (log 96), and the error is recorded. -/
def State.firstSums (s : State) (id : CtxId) (o : StreamOp) (ps : List Part) : State × List (BitVec 32) × BitVec 64 :=
  if !o.acc then (s, List.replicate 64 0, 0)
  else
    match o.dst with
    | .tile n =>
      let x := (s.ctxOf id).rT n
      let cols := bitsOf o.shape 6 6 + 1
      (s, (List.range 64).map fun k =>
        if k / 8 < bitsOf o.shape 12 7 ∧ k % 8 < bitsOf o.shape 19 7 then field x (32 * (k / 8 * cols + k % 8)) 32 else 0, 0)
    | .accum _ =>
      let bad (k : Nat) : Bool := match ps with
        | p :: _ => p.loc.space == .dev && s.poisoned (p.loc.addr + 4 * k) 4
        | [] => false
      let spoilt := (List.range 64).foldl (fun (x : BitVec 64) k => setBit x k (bad k)) 0
      let (s, bs, _) := s.engineRead id 1 ps
      (s, (List.range 64).map fun k => BitVec.ofNat 32 (leNat ((bs.drop (4 * k)).take 4)), spoilt)

/-- fp32_rne(a + b) on FP32 codes. -/
def addF32 (a b : BitVec 32) : BitVec 32 := BitVec.ofNat 32 (fnew 0 a.toNat b.toNat).1

/-- The running sums written at a result: the selected receivers, in a tile where present (R358, R360). -/
def State.writeSums (s : State) (id : CtxId) (o : StreamOp) (ps : List Part) : State :=
  let on := (List.range 64).filter fun k => bit o.geom (37 + k % 8) && !o.void
  match o.dst with
  | .tile n =>
    if o.dropped || o.void then s
    else
      let cols := bitsOf o.shape 6 6 + 1
      let cells := on.filter fun k => decide (k / 8 < bitsOf o.shape 12 7 ∧ k % 8 < bitsOf o.shape 19 7)
      let place (k : Nat) : Nat := 2 ^ (32 * (k / 8 * cols + k % 8))
      let data := cells.foldl (fun acc k => acc + (o.sums.getD k 0).toNat * place k) 0
      let mask := cells.foldl (fun acc k => acc + 0xFFFFFFFF * place k) 0
      s.updCtx id fun c => c.land (.t n (BitVec.ofNat 32768 data) (BitVec.ofNat 32768 mask)) 0 false
  | .accum _ =>
    let s := s.setDirtyLeaves (o.req (s.ctxOf id) id .engWrite false true) ps
    match ps with
    | [] => s
    | p :: _ =>
      on.foldl (fun s k =>
        let bs := leBytes 4 (o.sums.getD k 0).toNat
        if p.loc.space == .dev && o.spoilt.getLsbD k then s.devWritePoison (p.loc.addr + 4 * k) bs
        else (s.storeRuns id.die [⟨p.va + BitVec.ofNat 64 (4 * k), 4, { p.loc with addr := p.loc.addr + 4 * k }⟩] bs).foldl
          (fun s run => s.performRun id run) s) s

/-- An operation stops at a fault, which its context takes at its next boundary (R232, R362). -/
def State.faultStream (s : State) (id : CtxId) (o : StreamOp) (t : TrapRec) : State :=
  let s := s.updCtx id fun c =>
    { c.stopStream o with
      streams := c.streams.erase o
      streamFault := if o.void then c.streamFault else match c.streamFault with | some x => some x | none => some t }
  (s.lateUnboards id).wake id

/-- The parts of a destination at a result, or the fault that stops the operation there (R232). -/
def State.resultParts (s : State) (id : CtxId) (o : StreamOp) : State × Except TrapRec (List Part) :=
  match o.dst with
  | .tile _ => (s, .ok [])
  | .accum va => s.accumParts id o va

/-- The result of a window: the running sums read before the first, written, and the report (R219, R360). -/
def State.windowResult (s : State) (id : CtxId) (o : StreamOp) (ps : List Part) (vals : List (BitVec 32)) (rep : BitVec 32)
    (rest : List WindowOut) : State :=
  let (s, old, spoilt) := if o.sums.isEmpty then s.firstSums id o ps else (s, o.sums, o.spoilt)
  let o' := { o with next := o.next + 1, begun := rest, sums := old.zipWith addF32 vals, spoilt := spoilt }
  let s := s.writeSums id o' ps
  let s := s.reportWindow id (rep + BitVec.ofNat 32 (65536 * (o.next % 65536)))
  let s := s.updCtx id fun c => { c with streams := updFirst (· == o) (fun _ => o') c.streams }
  if geomWin o.geom ≤ o'.next then (s.updCtx id fun c => { c with xpr := setBit c.xpr 16 false }).endStream id o' 0
  else if o'.halting ∧ rest.isEmpty then
    ((s.updCtx id fun c => { c.stopStream o' with streams := c.streams.erase o' }).lateUnboards id).wake id
  else s

/-- A missed-layer wait begins on a die (05 R134). -/
def State.missed (s : State) (d : Fin 8) : State := s.updDie d fun x => { x with mlcnt := x.mlcnt + 1 }

/-- An operation whose hold was revoked stops and waits for the segment's next publish; where the die no longer boards,
the segment is faulted on it and the operation ends (R362, 05 R134). -/
def State.loseHold (s : State) (id : CtxId) (o : StreamOp) : State :=
  let o' := { o with begun := [], waiting := true }
  let s := s.updCtx id fun c => { c.stopStream o with streams := updFirst (· == o) (fun _ => o') c.streams }
  if bit (s.die id.die).bscfg 0 then ((s.lateUnboards id).missed id.die).wake id
  else (s.endStream id o' 2).updCtx id fun c => { c with pendingA := { c.pendingA with boardFault := true } }

/-- Whether a result to memory waits for a piece that precedes its operation (R354). -/
def State.resultHeld (s : State) (id : CtxId) (o : StreamOp) : Bool :=
  match o.dst with
  | .tile _ => false
  | .accum _ => s.preceded id.die o.after

/-- WINDOW_RESULT: the result, running sums and report of the window that is due, or the stop at it
(R207, R219, R232, R362). -/
def execWindowResult (id : CtxId) (s : State) : Out :=
  match (s.ctxOf id).firstResult with
  | none => .next s
  | some o =>
    if s.gtime < o.nextResult.getD 0 ∨ s.resultHeld id o then .next s
    else
      match o.begun with
      | [] => .next s
      | .ran vals rep :: rest =>
        match s.resultParts id o with
        | (s, .error t) => .next (s.faultStream id o t)
        | (s, .ok ps) => .next (s.windowResult id o ps vals rep rest)
      | .fault t :: _ => .next (s.faultStream id o t)
      | .revoked :: _ => .next (s.loseHold id o)

/-! ### xbcast (R363, R364) -/

def execXbcast (g : BitVec 4) (a b : BitVec 3) (s1 : BitVec 6) (t : BitVec 4) (s : State) : Out :=
  s.slotOp g (.xbcast g a b s1 t) fun s =>
    let id := s.cur
    let c := s.cx
    let ts := c.rTS t
    if 4 ≤ c.streams.length then s.block id .streamQueue
    else if !shapeCfg ts then s.trapI cUNCONF
    else if shapeFmt ts = 4 ∨ shapeFmt ts = 5 then s.trapI cSHAPE
    else
      let geom := c.rXP a
      let pattern := c.rXP b
      let lanes := geomLanes geom
      let driven (l : Fin 8) : Bool := let r := (vget s.joist.lanes l).reg; laneLit r && laneDrv r == id.die
      if geomBad geom ∨ bitsOf pattern 36 28 ≠ 0 ∨ !lanes.all driven then s.updCx Ctx.refuseStream
      else
        let now := s.gtime
        let step := geomStep geom
        let n := geomWin geom
        let start := stampOf now (c.rS s1)
        let bank := (s.die id.die).bank.filter fun x => decide (now < x.start + x.nwin * x.step + 64)
        let opens := s.opensAt id
        let early := (List.range n).filter fun k => decide (start + k * step < now + 8 ∨ start + k * step < opens)
        let lost (l : Fin 8) : List Nat :=
          lostTo ((bank.filter fun x => x.lanes.contains l).map fun x =>
            ⟨x.start, x.step, x.nwin, (x.unsent.filter fun u => u.1 == l).map Prod.snd⟩) start step n
        let unsent := lanes.flatMap fun l => (dedup (early ++ lost l) []).map fun k => (l, k)
        let bc : Broadcast := ⟨id, now, start, step, geomW geom, n, lanes, pattern, c.rT t, ts, c.entry, unsent, 0⟩
        let op : StreamOp :=
          { kind := 2, geom := geom, src := pattern, srck := false, sparse := 0, dst := .accum 0, shape := ts, acc := false
            g := 0, ft := c.entry, pkr := c.arch.pkr, issue := now, opens := opens, after := []
            start := start, first := 0, next := 0, late := []
            begun := [], sums := [], spoilt := 0, slot := 0, bsid := 0, waiting := false, dropped := false, void := false, halting := false
            lanes := n, partialSent := !unsent.isEmpty }
        let s := s.updDie id.die fun x => { x with bank := bank ++ [bc] }
        s.updCx fun c => { c with streams := c.streams ++ [op] }

/-- Windows of a broadcast that have started by a cycle: each 4 cc before its stamp (R207). -/
def Broadcast.started (b : Broadcast) (now : Nat) : Nat :=
  if b.start ≤ now + 4 then Nat.min b.nwin ((now + 4 - b.start) / b.step + 1) else 0

/-- MODULATOR_WINDOW_START: the bank starts the lane windows that are due; an operation ends with the
start of its last window (log 34). -/
def execModulatorWindowStart (d : Fin 8) (s : State) : Out :=
  let now := s.gtime
  let old := (s.die d).bank
  let s := s.updDie d fun x => { x with bank := x.bank.map fun b => { b with begun := Nat.max b.begun (b.started now) } }
  .next (old.foldl (fun s b =>
    let left := b.nwin - b.started now
    match (s.ctxOf b.id).streams.find? fun o => o.kind == 2 && o.issue == b.issue && o.lanes != 0 with
    | none => s
    | some o =>
      if left = 0 then s.endStream b.id o (if o.partialSent then 3 else 0)
      else s.updCtx b.id fun c => { c with streams := updFirst (· == o) (fun o => { o with lanes := left }) c.streams }) s)

/-! ### Reports, ranges, calibration, progress -/

/-- `xrep` (R365): the popped entry is latched if a trap finds it under way. -/
def execXrep (g : BitVec 4) (s1 : BitVec 6) (w : BitVec 1) (s : State) : Out :=
  s.slotOp g (.xrep g s1 w) fun s =>
    match s.cx.reports with
    | x :: rest => (s.updCx fun c => { c with reports := rest }).putS s1 1 (BitVec.ofNat 64 (x.toNat + 2 ^ 32))
    | [] => if w = 1 ∧ !s.cx.streams.isEmpty then s.block s.cur .report else s.putS s1 1 0

/-- The least range code at which no window of a geometry can saturate (R366). -/
def leastRange (n : Nat) : Nat := ((List.range 16).find? fun g => decide (2 * 16129 * n ≤ 16383 * 2 ^ g)).getD 0x10F

def execXrange (g : BitVec 4) (a : BitVec 3) (s1 : BitVec 6) (s : State) : Out :=
  s.slotOp g (.xrange g a s1) fun s =>
    let geom := s.cx.rXP a
    s.putS s1 1 (BitVec.ofNat 64 (leastRange (geomT geom * geomW geom)))

/-- `xcal` (R367): a calibration begins, or waits for the one under way on the core. -/
def execXcal (g : BitVec 4) (s : State) : Out :=
  s.slotOp g (.xcal g) fun s =>
    let id := s.cur
    if 4 ≤ s.cx.streams.length then s.block id .streamQueue
    else
      let busy := s.myCore.calEnd.isSome
      let op : StreamOp :=
        { kind := 3, geom := 0, src := 0, srck := false, sparse := 0, dst := .accum 0, shape := 0, acc := false, g := 0
          ft := 0, pkr := 0, issue := s.gtime, opens := s.gtime, after := [], start := s.gtime, first := 0, next := 0
          late := [], begun := [], sums := [], spoilt := 0, slot := 0, bsid := 0, waiting := busy, dropped := false, void := false, halting := false, lanes := 0, partialSent := false }
      let s := if busy then s else s.updMyCore fun k => { k with calEnd := some (s.cycle + 8192) }
      s.updCx fun c => { c with streams := c.streams ++ [op] }

/-- A calibration of a core among its contexts' operations, running or waiting. -/
def State.findCal (s : State) (d : Fin 8) (c : Fin 16) (waiting : Bool) : Option (CtxId × StreamOp) :=
  (coreCtxs d c).findSome? fun id =>
    ((s.ctxOf id).streams.find? fun o => o.kind == 3 && o.waiting == waiting).map fun o => (id, o)

/-- XCAL_COMPLETE: the calibration of a core ends, and the next one that waits begins (R224, R367). -/
def execXcalComplete (d : Fin 8) (c : Fin 16) (ok : Bool) (temp : BitVec 10) (s : State) : Out :=
  match (s.core d c).calEnd with
  | none => .next s
  | some e =>
    if s.cycle < e then .next s
    else
      let s := s.updCore d c fun k =>
        { k with
          calEnd := none, calValid := ok, calFail := !ok, calTstep := false
          calTemp := if ok then temp else k.calTemp, calAt := if ok then s.cycle else k.calAt
          calSeen := k.calSeen || ok }
      let s := match s.findCal d c false with
        | some (id, o) => s.endStream id o (if ok then 0 else 4)
        | none => s
      match s.findCal d c true with
      | none => .next s
      | some (id, o) =>
        let s := s.updCore d c fun k => { k with calEnd := some (s.cycle + 8192) }
        .next (s.updCtx id fun c => { c with streams := updFirst (· == o) (fun o => { o with waiting := false }) c.streams })

/-- `xdesk` (R368). -/
def execXdesk (g : BitVec 4) (l : BitVec 3) (s1 : BitVec 6) (s : State) : Out :=
  s.slotOp g (.xdesk g l s1) fun s =>
    s.updMyCore fun k => k.writeDelay s.gtime l.toFin ((s.rS s1).setWidth 8)

/-- `xwait` (R369): the bundle blocks while a stream operation is outstanding. -/
def execXwait (g : BitVec 4) (s1 : BitVec 6) (s : State) : Out :=
  s.slotOp g (.xwait g s1) fun s =>
    if !s.cx.streams.isEmpty then s.block s.cur .xwait
    else (s.updCx fun c => { c with xwaited := none }).putS s1 1 ((s.cx.xwaited.getD 0).setWidth 64)

def execXprog (g : BitVec 4) (s1 : BitVec 6) (s : State) : Out :=
  s.slotOp g (.xprog g s1) fun s => s.updCx fun c => { c with xpr := (c.rS s1).setWidth 18 }

def execXprogClear (g : BitVec 4) (s : State) : Out :=
  s.slotOp g (.xprogClear g) fun s => s.updCx fun c => { c with xpr := 0 }

end Sys2Proof.Machine
end

