-- ==== Sys2Proof/Machine/Caravan.lean ====
section
/-! DEFINITION. The Caravan (05): the manifest, the ring and its governor, capture and repair, holds and
missed-layer waits, and the meanings of X-slot group 1 (15 R371-R373). -/

namespace Sys2Proof.Machine

/-! ### Registers and slots (R123, R133, R134) -/

def bsEn (v : W64) : Bool := bit v 0
/-- NSLOT: 0 is treated as 1 and 9 to 15 as 8. -/
def bsNslot (v : W64) : Nat := Nat.min 8 (Nat.max 1 (bitsOf v 4 4))
def Die.nslot (x : Die) : Nat := bsNslot x.bscfg

/-- Hold count of a slot (R126). -/
def BSlot.holds (b : BSlot) : Nat := popBits b.hold.toNat 64
def BSlot.count (b : BSlot) : Nat := b.holds + b.parked.toNat

def SlotState.code : SlotState → Nat
  | .empty => 0 | .filling => 1 | .boarded => 2 | .dwell => 3 | .faulted => 4

/-- BSSTAT of a slot. -/
def BSlot.stat (b : BSlot) : W64 :=
  BitVec.ofNat 64 (b.state.code + 0x10 * b.holds + 2 ^ 16 * b.segid.toNat + 2 ^ 32 * b.mgen.toNat +
    2 ^ 40 * b.fmt.toNat + 2 ^ 48 * b.parked.toNat)

def Joist.rpos (j : Joist) : W64 := BitVec.ofNat 64 (j.seg.toNat + 2 ^ 16 * j.lap.toNat)

def Joist.rgov (j : Joist) : W64 :=
  BitVec.ofNat 64 (b2n j.run + 2 * b2n j.auto + 2 ^ 8 * j.speed.toNat + 2 ^ 16 * j.minspd.toNat + 2 ^ 24 * j.maxspd.toNat +
    2 ^ 32 * b2n j.dwelling + 2 ^ 33 * b2n j.stopped + 2 ^ 34 * b2n j.merr)

def State.slot (s : State) (d k : Fin 8) : BSlot := vget (s.die d).slots k
def State.updSlot (s : State) (d k : Fin 8) (f : BSlot → BSlot) : State :=
  s.updDie d fun x => { x with slots := vupd x.slots k f }

/-- The descriptor of a slot's buffer, written whole by the boarding unit (07 R163, R168): the pages of
its active and of its shadow set. A slot without a descriptor in force is captured all the same. -/
def State.slotDesc (s : State) (d k : Fin 8) (active shadow : Nat) (swap : Bool) : State :=
  let x := s.die d
  let idx := bitsOf x.bscfg 16 12 + k.val
  if !x.pbEn || decide (x.npb ≤ idx) then s
  else
    let b := s.slot d k
    let sel := b.pbSel != swap
    let gen := if swap then b.pbGen + 1 else b.pbGen
    let set (n : Nat) : Nat := x.slotBase d k.val / 65536 * 2 ^ 16 + n * 2 ^ 64
    let lo := set (if sel then shadow else active)
    let hi := set (if sel then active else shadow)
    let w := 1 + 2 * b2n sel + 4 + gen.toNat * 2 ^ 32 + lo * 2 ^ 64 + hi * 2 ^ 192
    let s := s.devWrite (x.pbAddr idx) (leBytes 64 w)
    let s := s.updSlot d k fun b => { b with pbSel := sel, pbGen := gen }
    if swap then s.updDie d fun x => { x with pubcnt := x.pubcnt + 1 } else s

/-! ### The manifest (R116-R118) -/

def stackSize : Nat := 0x1000000000

/-- The dies of a mask. -/
def diesOf (m : BitVec 8) : List (Fin 8) := (fins 8).filter fun d => bit m d.val

/-- One entry of 128 bytes; none where R118 refuses it. The source of every die of a shared segment is
that of the lowest die. -/
def readSegment (e : Nat) : Option Segment :=
  let w : BitVec 1024 := BitVec.ofNat 1024 e
  let dmask : BitVec 8 := field w 32 8
  let shared := bit w 44
  let len := bitsOf w 64 10
  let used := if shared then (diesOf dmask).take 1 else diesOf dmask
  let src (d : Fin 8) : Nat := bitsOf w (64 * d.val + 128) 64
  let good (d : Fin 8) : Bool :=
    if used.contains d then
      let pa := src d
      decide (pa % 65536 = 0 ∧ pa < 2 ^ 52 ∧ pa / stackSize = (pa + len * 65536 - 1) / stackSize) && region pa == .hbm
    else src d == 0
  if bitsOf w 45 3 ≠ 0 ∨ bitsOf w 74 54 ≠ 0 ∨ bitsOf w 640 384 ≠ 0 ∨ dmask = 0 ∨ len = 0 ∨ 512 < len ∨ !(fins 8).all good then none
  else
    let low := match used with | d :: _ => src d | [] => 0
    some ⟨field w 16 16, dmask, field w 40 4, shared, field w 48 16, len, (fins 8).map fun d => if shared then low else src d⟩

/-- Whether two entries carry one identifier. -/
def repeatedSeg : List Segment → Nat → Bool
  | [], _ => false
  | x :: xs, seen => seen.testBit x.segid.toNat || repeatedSeg xs (seen ||| 2 ^ x.segid.toNat)

/-- The manifest at a base, none where R118 refuses it. -/
def State.loadManifest (s : State) (base : Nat) : Option Manifest :=
  let h : BitVec 512 := BitVec.ofNat 512 (leNat (s.devRead base 64))
  let n := bitsOf h 64 13
  let last := base + 64 + 128 * n - 1
  if !spadOrHbm base || bitsOf h 0 32 != 0x43564E31 || bitsOf h 32 8 != 1 || bitsOf h 48 16 != 0 || bitsOf h 77 435 != 0 ||
      n == 0 || decide (4096 < n) || region last != region base || s.poisoned base (64 + 128 * n) then none
  else
    match (List.range n).mapM fun i => readSegment (leNat (s.devRead (base + 64 + 128 * i) 128)) with
    | none => none
    | some segs => if repeatedSeg segs 0 then none else some ⟨field h 40 8, segs⟩

def Joist.segs (j : Joist) : List Segment := match j.manifest with | some m => m.segs | none => []

/-- The segment that RPOS.SEG names, while the ring runs. -/
def Joist.curSeg (j : Joist) : Option Segment := if j.stopped then none else j.segs[j.seg.toNat]?

/-! ### Resolution (R129) -/

/-- What R129 makes of a request. -/
inductive Resolved where
  | none (status : BitVec 3)
  | fault (slot : Option (Fin 8))
  | hit (slot : Fin 8)
  | wait (status : BitVec 3)
deriving DecidableEq, Repr

/-- A die's slot in a state with a segment of the manifest in force; the lowest where two slots are (log 114). -/
def State.slotIn (s : State) (d : Fin 8) (seg : BitVec 16) (st : SlotState) : Option (Fin 8) :=
  (fins 8).find? fun k =>
    let b := s.slot d k
    b.state == st && b.segid == seg && b.mgen == s.joist.mgenNow

def State.resolve (s : State) (d : Fin 8) (seg : BitVec 16) : Resolved :=
  let j := s.joist
  match j.segs.findIdx? fun x => x.segid == seg with
  | none => .none 3
  | some i =>
    if !(match j.segs[i]? with | some x => bit x.dmask d.val | none => false) then .none 4
    else if !bsEn (s.die d).bscfg then .fault none
    else
      match s.slotIn d seg .boarded, s.slotIn d seg .faulted, s.slotIn d seg .filling with
      | some k, _, _ => .hit k
      | none, some k, _ => .fault (some k)
      | none, none, some _ => .wait 1
      | none, none, none =>
        if j.seg.toNat < i ∨ (j.seg.toNat = i ∧ !j.injecting) then .wait 1 else .wait 2

/-- A hold granted. -/
def State.grant (s : State) (id : CtxId) (k : Fin 8) : State :=
  s.updSlot id.die k fun b => { b with hold := setBit b.hold (CtxId.bitNo id) true }

/-! ### Launches that wait for a segment (17 R413) -/

def Launch.segid (l : Launch) : BitVec 16 := field (wordAt l.desc 7) 0 16

def State.updQueue (s : State) (d : Fin 8) (q : Fin 64) (f : Queue → Queue) : State :=
  s.updDie d fun x => { x with queues := vupd x.queues q f }

def State.setStage (s : State) (d : Fin 8) (q : Fin 64) (st : LaunchStage) : State :=
  s.updQueue d q fun x => { x with launch := x.launch.map fun l => { l with stage := st } }

/-- Queue and HEAD as an event names them (19 R446). -/
def Queue.where_ (x : Queue) (q : Fin 64) : Nat := q.val + 2 ^ 32 * x.head.toNat

/-- The launch of a queue held in the boarding list, with its event. -/
def State.holdLaunch (s : State) (d : Fin 8) (q : Fin 64) (seg : BitVec 16) (k : Option (Fin 8)) : State :=
  let bsid := match k with | some k => (s.slot d k).bsid | none => 0
  (s.setStage d q .heldFault).postEvent d 0x09 noSrc
    (seg.toNat + 2 ^ 16 * (match k with | some k => k.val | none => 0) + 2 ^ 19 + 2 ^ 20 * q.val + 2 ^ 32 * (s.joist.lap.toNat % 2 ^ 32))
    bsid.toNat

/-- A launch ends for tasks that are not dispatched; HEAD advances when no task of it lives (17 R412, R419). -/
def State.closeLaunch (s : State) (d : Fin 8) (q : Fin 64) : State :=
  s.updQueue d q fun x => match x.launch with
    | none => x
    | some l =>
      if l.live = 0 then { x with launch := none, head := x.head + 1 }
      else { x with launch := some { l with count := l.next, stage := .eligible } }

/-- A launch of an unknown or unmasked segment ends with BADSEG. -/
def State.endBadSeg (s : State) (d : Fin 8) (q : Fin 64) (seg : BitVec 16) (st : BitVec 3) : State :=
  (s.postEvent d 0x08 noSrc ((vget (s.die d).queues q).where_ q) (seg.toNat + 2 ^ 16 * st.toNat)).closeLaunch d q

/-- A launch of the boarding list resolved: `first` when it enters the list. -/
def State.resolveLaunch (s : State) (d : Fin 8) (q : Fin 64) (l : Launch) : State :=
  match s.resolve d l.segid with
  | .none st => s.endBadSeg d q l.segid st
  | .fault k => s.holdLaunch d q l.segid k
  | .hit _ => s.setStage d q .eligible
  | .wait st =>
    if st = 2 ∧ !l.missed then
      (s.missed d).updQueue d q fun x => { x with launch := x.launch.map fun l => { l with missed := true } }
    else s

/-- The boarding list of a die: queues whose launch waits for a segment. -/
def Die.boardingList (x : Die) : List (Fin 64 × Launch) :=
  (fins 64).filterMap fun q => match (vget x.queues q).launch with
    | some l => if l.stage == .boarding then some (q, l) else none
    | none => none

/-! ### Publish and fault of a slot (R125, R127) -/

/-- Stream operations of a context that wait for a segment (15 R362). -/
def Ctx.lostHolds (c : Ctx) (seg : BitVec 16) : List StreamOp :=
  c.streams.filter fun o => decide (o.kind.toNat ≤ 1) && o.srck && o.waiting && field o.src 0 16 == seg

/-- A `board` that waits for a segment still. -/
def BoardWait.open (w : BoardWait) (seg : BitVec 16) : Bool := w.segid == seg && w.done.isNone && !w.fault

/-- Whether a context waits for a segment, in the bundle that a handler put aside too. -/
def Ctx.awaits (c : Ctx) (seg : BitVec 16) : Bool :=
  (match c.boarding with | some w => w.open seg | none => false) ||
    (match c.keepBoard with | some w => w.open seg | none => false)

/-- A waiting `board` of a segment settled: the bundle issues with its status, or takes BOARDFAULT. -/
def State.settleBoard (s : State) (id : CtxId) (seg : BitVec 16) (f : BoardWait → BoardWait) : State :=
  let on (w : BoardWait) : BoardWait := if w.open seg then f w else w
  (s.updCtx id fun c => { c with boarding := c.boarding.map on, keepBoard := c.keepBoard.map on }).wake id

/-- A wait granted its hold, with the status first decided. -/
def BoardWait.grant (w : BoardWait) : BoardWait := { w with done := some w.status }
/-- A wait whose segment is faulted. -/
def BoardWait.spoil (w : BoardWait) : BoardWait := { w with fault := true }

/-- A stream operation that waits for a faulted segment ends, and its context takes BOARDFAULT (15 R362). -/
def State.faultWaiting (s : State) (id : CtxId) (o : StreamOp) : State :=
  (s.endStream id o 2).updCtx id fun c => { c with pendingA := { c.pendingA with boardFault := true } }

/-- The publish of a slot: waiters are granted holds, stopped stream operations regain theirs and
complete, and launches pass. A slot of an earlier generation serves no one. -/
def State.boardSlot (s : State) (d k : Fin 8) : State :=
  let b := s.slot d k
  let s := (s.slotDesc d k b.len 0 true).updSlot d k fun b => { b with state := .boarded }
  if b.mgen ≠ s.joist.mgenNow then s
  else
    let s := (dieCtxs d).foldl (fun s id =>
      let c := s.ctxOf id
      let s := if c.awaits b.segid then (s.grant id k).settleBoard id b.segid BoardWait.grant else s
      (c.lostHolds b.segid).foldl (fun s o => (s.grant id k).endStream id o 2) s) s
    (s.die d).boardingList.foldl (fun s x => if x.2.segid = b.segid then s.setStage d x.1 .eligible else s) s

/-- A segment faulted on a die: every waiter takes BOARDFAULT. A slot of an earlier generation has none. -/
def State.faultSlot (s : State) (d k : Fin 8) : State :=
  let b := s.slot d k
  let s := (s.updSlot d k fun b => { b with state := .faulted }).updDie d fun x => { x with rpfcnt := x.rpfcnt + 1 }
  if b.mgen ≠ s.joist.mgenNow then s
  else
    let s := (dieCtxs d).foldl (fun s id =>
      let c := s.ctxOf id
      let s := if c.awaits b.segid then s.settleBoard id b.segid BoardWait.spoil else s
      (c.lostHolds b.segid).foldl (fun s o => s.faultWaiting id o) s) s
    (s.die d).boardingList.foldl (fun s x => if x.2.segid = b.segid then s.holdLaunch d x.1 b.segid (some k) else s) s

/-- Whether the ring still injects the segment that a filling slot captures: that of the slot's own lap. -/
def State.onRing (s : State) (b : BSlot) : Bool :=
  s.joist.injecting && bitsOf b.bsid 32 32 == s.joist.lap.toNat % 2 ^ 32 && (match s.joist.curSeg with | some g => g.segid == b.segid | none => false) && b.mgen == s.joist.mgenNow

/-- A filling slot is published when every tile is good, and faulted at its segment's end. -/
def State.settleSlot (s : State) (d k : Fin 8) : State :=
  let b := s.slot d k
  if b.state ≠ .filling then s
  else if b.failed then (if s.onRing b then s else s.faultSlot d k)
  else if b.got = b.len then s.boardSlot d k
  else s

/-! ### Repairs (R127) -/

/-- The free copy engine of a die with the least number. -/
def Die.freeEngine (x : Die) : Option (Fin 4) :=
  (fins 4).find? fun e => !(vget x.engines e).hw && x.engOps.all fun o => o.engine != some e

def State.setHw (s : State) (d : Fin 8) (e : Fin 4) (b : Bool) : State :=
  s.updDie d fun x => { x with engines := vupd x.engines e fun y => { y with hw := b } }

/-- Every slot with a tile to repair takes an engine while one is free. -/
def State.startRepairs (s : State) (d : Fin 8) : State :=
  (fins 8).foldl (fun s k =>
    let b := s.slot d k
    match b.repairs, b.repairOn, (s.die d).freeEngine with
    | _ :: _, none, some e =>
      if b.failed then s else (s.updSlot d k fun b => { b with repairOn := some e, tries := 0 }).setHw d e true
    | _, _, _ => s) s

def State.stopRepair (s : State) (d k : Fin 8) : State :=
  match (s.slot d k).repairOn with
  | none => s
  | some e => (s.updSlot d k fun b => { b with repairOn := none }).setHw d e false

/-- Where a tile of a slot's share lies, by the manifest that its capture began under. -/
def BSlot.tileSrc (b : BSlot) (i : Nat) : Nat := b.src + 65536 * i

/-- A tile put in its place. -/
def State.putTile (s : State) (d k : Fin 8) (i : Nat) (bs : List Byte) : State :=
  s.devWrite ((s.die d).slotBase d k.val + 65536 * i) bs

/-- TILE_REPAIR_DONE: an attempt of the die's oldest repair ends. A source with poison faults the segment
at once, and so does a second attempt that fails. -/
def execTileRepairDone (d : Fin 8) (ok : Bool) (s : State) : Out :=
  let s := s.startRepairs d
  match (fins 8).find? fun k => (s.slot d k).repairOn.isSome with
  | none => .next s
  | some k =>
    let b := s.slot d k
    match b.repairs with
    | [] => .next (s.stopRepair d k)
    | i :: rest =>
      let src := b.tileSrc i
      let bad := s.poisoned src 65536
      let s := s.recordUnits src 65536 3 d 0
      if bad ∨ (!ok ∧ b.tries ≠ 0) then
        let s := (s.stopRepair d k).updSlot d k fun b => { b with repairs := [], failed := true }
        .next ((s.settleSlot d k).startRepairs d)
      else if !ok then .next (s.updSlot d k fun b => { b with tries := 1 })
      else
        let s := (s.putTile d k i (s.devRead src 65536)).stopRepair d k
        let s := s.updSlot d k fun b => { b with repairs := rest, got := b.got + 1 }
        let s := s.updDie d fun x =>
          { x with
            rprcnt := x.rprcnt + 1
            engines := match b.repairOn with
              | some e => vupd x.engines e fun y => { y with bytes := y.bytes + 65536 }
              | none => x.engines }
        .next ((s.settleSlot d k).startRepairs d)

/-! ### Capture (R119-R125) -/

/-- The slot of a die that takes the next tile of the segment in injection. -/
def State.fillingSlot (s : State) (d : Fin 8) : Option (Fin 8) :=
  match s.joist.injecting, s.joist.curSeg with
  | true, some g => (fins 8).find? fun k =>
      let b := s.slot d k
      b.state == .filling && b.segid == g.segid && b.mgen == s.joist.mgenNow && decide (b.next < b.len)
  | _, _ => none

/-- The dies that the next ring tiles go to: all that board a shared share, else the lowest whose share
is not sent yet (R120). -/
def State.tileDies (s : State) : List (Fin 8) :=
  match s.joist.curSeg with
  | none => []
  | some g =>
    let due := (diesOf g.dmask).filter fun d => (s.fillingSlot d).isSome
    if g.shared then due else due.take 1

/-- A tile that cannot be used is left to a repair. -/
def BSlot.spoil (b : BSlot) (i : Nat) : BSlot := { b with repairs := b.repairs ++ [i] }

/-- SPEED as it acts: 0 is treated as 1 and more than 64 as 64. -/
def Joist.rate (j : Joist) : Nat := Nat.min 64 (Nat.max 1 j.speed.toNat)

/-- Cycles in which the ring sends a tile of 64 KiB: SPEED / 64 of 20 TB/s, 10,000 bytes a cycle (R120). -/
def Joist.tileTime (j : Joist) : Nat := ceilDiv (65536 * 64) (10000 * j.rate)

/-- The number of the next tile that some die captures in the order of R120, or of the segment's last tile where
none does. -/
def State.tileNumber (s : State) : Nat :=
  match s.joist.curSeg with
  | none => 0
  | some g =>
    let next (d : Fin 8) : Nat := match s.fillingSlot d with | some k => (s.slot d k).next | none => g.len
    match s.tileDies with
    | [] => (if g.shared then g.len else g.len * (diesOf g.dmask).length) - 1
    | d :: rest => if g.shared then rest.foldl (fun n x => Nat.min n (next x)) (next d) else ((diesOf g.dmask).filter (· < d)).length * g.len + next d

/-- Whether a die's next tile is the ring's next one. -/
def State.tileNext (s : State) (d : Fin 8) : Bool :=
  match s.joist.curSeg, s.fillingSlot d with
  | some g, some k => s.tileDies.contains d && (!g.shared || (s.slot d k).next == s.tileNumber)
  | _, _ => false

/-- One byte of a reflected CRC-32C: eight steps of the Castagnoli polynomial (R119). -/
def crcByte (c : BitVec 32) (b : Byte) : BitVec 32 :=
  (List.range 8).foldl (fun x _ => if x.getLsbD 0 then (x >>> 1) ^^^ 0x82F63B78#32 else x >>> 1) (c ^^^ b.setWidth 32)

/-- CRC-32C of bytes. -/
def crc32c (bs : List Byte) : BitVec 32 := ~~~(bs.foldl crcByte 0xFFFFFFFF#32)

/-- The header of a tile that the feeder sends: 64 bytes, with the CRC over the payload and its own first eight (R119). -/
def tileHeader (seg : BitVec 16) (tile dest lap : Nat) (payload : List Byte) : List Byte :=
  let first := leBytes 8 (seg.toNat + tile * 2 ^ 16 + dest * 2 ^ 32 + lap % 2 ^ 24 * 2 ^ 40)
  first ++ leBytes 4 (crc32c (payload ++ first)).toNat ++ List.replicate 52 0

/-- What a ring does to bytes on the way: bytes named by their places are inverted in some bits. -/
def flipBytes (flips : List (Nat × BitVec 8)) (bs : List Byte) : List Byte :=
  bs.zipIdx.map fun x => flips.foldl (fun b f => if f.1 = x.2 then b ^^^ f.2 else b) x.1

/-- DEST of a tile for a die (R119). -/
def Segment.dest (g : Segment) (d : Fin 8) : Nat := if g.shared then g.dmask.toNat else 2 ^ d.val

/-- The payload of a tile as a die takes it, none where the CRC or the index of the tile is not the expected one
(R119, R125). Places of `flips` count from the first byte of the header. -/
def tileTaken (g : Segment) (d : Fin 8) (i lap : Nat) (payload : List Byte) (flips : List (Nat × BitVec 8)) : Option (List Byte) :=
  if flips = [] then some payload
  else
    let sent := flipBytes flips (tileHeader g.segid i (g.dest d) lap payload ++ payload)
    let head := sent.take 64
    let body := sent.drop 64
    let crc : BitVec 32 := BitVec.ofNat 32 (leNat ((head.drop 8).take 4))
    if crc = crc32c (body ++ head.take 8) ∧ leNat ((head.drop 2).take 2) % 512 = i then some body else none

/-- A tile that the feeder sends: what the ring carries already of a shared share, which is read once, else what its source
holds now, and whether that is poisoned; with the state after the read, which records poison (R119, R127). -/
def State.feedTile (s : State) (d : Fin 8) (i src : Nat) : State × List Byte × Bool :=
  let shared := s.joist.curSeg.any fun g => g.shared
  match s.joist.wire with
  | some (n, bs, bad) => if shared ∧ n = i then (s, bs, bad) else fresh s shared
  | none => fresh s shared
where
  fresh (s : State) (shared : Bool) : State × List Byte × Bool :=
    let bs := s.devRead src 65536
    let bad := s.poisoned src 65536
    let s := s.recordUnits src 65536 3 d 0
    (if shared then s.updJoist fun j => { j with wire := some (i, bs, bad) } else s, bs, bad)

/-- RING_TILE_ARRIVAL: the next tile for a die, `flips` the bits that the ring inverted in it, none where it is missing
from the sequence. A tile whose CRC or index does not hold, or that is read with poison, is left to a repair. -/
def execRingTileArrival (d : Fin 8) (flips : Option (List (Nat × BitVec 8))) (s : State) : Out :=
  if !s.tileNext d then .next s
  else
    match s.fillingSlot d with
    | none => .next s
    | some k =>
      let b := s.slot d k
      let i := b.next
      let n := s.tileNumber
      let (s, bs, bad) := s.feedTile d i (b.tileSrc i)
      let taken := match flips, s.joist.curSeg with
        | some flips, some g => if bad then none else tileTaken g d i s.joist.lap.toNat bs flips
        | _, _ => none
      let s := s.updSlot d k fun b => { b with next := i + 1 }
      let m := s.tileNumber
      let s := s.updJoist fun j => { j with tileAt := s.cycle + (m - n) * j.tileTime }
      match taken with
      | some bs => .next (((s.putTile d k i bs).updSlot d k fun b => { b with got := b.got + 1 }).settleSlot d k)
      | none => .next ((s.updSlot d k fun b => b.spoil i).startRepairs d)

/-! ### Segments (R122, R124, R128, R130, R132) -/

/-- A target slot enters FILLING with its new identity. -/
def State.fillSlot (s : State) (d k : Fin 8) (g : Segment) : State :=
  let x := s.die d
  let active := match (s.slot d k).state with | .boarded => (s.slot d k).len | .dwell => (s.slot d k).len | _ => 0
  let s := (s.slotDesc d k 0 active true).stopRepair d k
  let s := s.updSlot d k fun b =>
    { BSlot.reset with
      state := .filling, segid := g.segid, mgen := s.joist.mgenNow, fmt := g.fmt
      bsid := BitVec.ofNat 64 (x.bscap.toNat % 2 ^ 32 + s.joist.lap.toNat % 2 ^ 32 * 2 ^ 32)
      dwell := g.dwell, len := g.len, src := g.src.getD d.val 0, pbSel := b.pbSel, pbGen := b.pbGen }
  (s.slotDesc d k 0 g.len false).updDie d fun x => { x with bscap := x.bscap + 1 }

/-- The dies that board a segment, and each one's target slot (R124). -/
def State.targets (s : State) (g : Segment) : List (Fin 8 × Fin 8) :=
  (diesOf g.dmask).filterMap fun d =>
    let x := s.die d
    if bsEn x.bscfg then some (d, Fin.ofNat 8 (x.bscap.toNat % x.nslot)) else none

/-- A slot that dwells loses its holds at its limit. -/
def State.revoke (s : State) (d k : Fin 8) : State :=
  (s.updSlot d k fun b => { b with hold := 0, parked := 0 }).updDie d fun x => { x with rvkcnt := x.rvkcnt + 1 }

/-- The dwells that are over: each slot fills, and the segment starts when none is left. A die whose
slot dwells has not counted the capture yet. -/
def State.endDwells (s : State) : State :=
  match s.joist.curSeg with
  | none => s
  | some g =>
    let s := (s.targets g).foldl (fun s x =>
      let b := s.slot x.1 x.2
      if b.state = .dwell ∧ b.count = 0 then s.fillSlot x.1 x.2 g else s) s
    if (s.targets g).any fun x => (s.slot x.1 x.2).state == .dwell then s
    else
      let s := s.updJoist fun j => { j with dwelling := false, injecting := true }
      let n := s.tileNumber
      s.updJoist fun j => { j with tileAt := s.cycle + (n + 1) * j.tileTime }

/-- A segment starts: each target slot fills, or dwells while it has holds; a DWELL of 0 is a dwell too (log 91). -/
def State.startSegment (s : State) : State :=
  match s.joist.curSeg with
  | none => s
  | some g =>
    let ts := s.targets g
    let held := ts.filter fun x =>
      let b := s.slot x.1 x.2
      (b.state == .boarded || b.state == .dwell) && decide (0 < b.count)
    let s := ts.foldl (fun s x =>
      if held.contains x then
        let s := s.updSlot x.1 x.2 fun b => { b with state := .dwell, dwellAt := s.cycle }
        if (s.slot x.1 x.2).dwell = 0 then s.revoke x.1 x.2 else s
      else s.fillSlot x.1 x.2 g) s
    let s := s.updJoist fun j => { j with dwelling := !held.isEmpty, dwelled := j.dwelled || !held.isEmpty, injecting := false, wire := none }
    s.endDwells

/-- U and NSLOT of R132, over the dies that board; with none, NSLOT is 8 (log 38). -/
def State.boardUse (s : State) : Nat × Nat :=
  let on := (fins 8).filter fun d => bsEn (s.die d).bscfg
  let used (d : Fin 8) : Nat :=
    ((fins 8).filter fun k => let b := s.slot d k; (b.state == .boarded || b.state == .dwell) && decide (0 < b.count)).length
  ((on.map used).foldl Nat.max 0, if on.isEmpty then 8 else (on.map fun d => (s.die d).nslot).foldl Nat.max 0)

/-- SPEED at a segment boundary (R132). -/
def State.govern (s : State) : State :=
  let (u, n) := s.boardUse
  s.updJoist fun j =>
    let lo := j.minspd.toNat
    let hi := Nat.max lo j.maxspd.toNat
    let sp := j.rate
    let next := if j.dwelled ∨ n ≤ u + 1 then Nat.max lo (sp - 4) else if u ≤ n / 2 then Nat.min hi (sp + 1) else j.speed.toNat
    { j with dwelled := false, speed := if j.auto then BitVec.ofNat 7 next else j.speed }

/-- A waiting `board` resolved again (R129). -/
def State.resolveBoard (s : State) (id : CtxId) (seg : BitVec 16) : State :=
  match s.resolve id.die seg with
  | .none st => s.settleBoard id seg fun w => { w with done := some st }
  | .fault _ => s.settleBoard id seg BoardWait.spoil
  | .hit k => (s.grant id k).settleBoard id seg BoardWait.grant
  | .wait _ => s

/-- Every wait is resolved again at a lap boundary, and a lap advance is progress for a context blocked in a `board`
(08 R204). A stream operation whose segment is in the manifest no more ends, and one on a die that does not board is
faulted (15 R362). -/
def State.resolveAgain (s : State) : State :=
  allCtxs.foldl (fun s id =>
    let c := s.ctxOf id
    let s := if c.status = .blocked .boarding then s.updCtx id fun c => c.progress (s.wdTime id) else s
    let s := (optSeg c.boarding ++ optSeg c.keepBoard).foldl (fun s seg => if c.awaits seg then s.resolveBoard id seg else s) s
    (c.streams.filter fun o => decide (o.kind.toNat ≤ 1) && o.srck && o.waiting).foldl (fun s o =>
      match s.resolve id.die (field o.src 0 16) with
      | .none _ => s.endStream id o 2
      | .fault none => s.faultWaiting id o
      | _ => s) s)
    ((fins 8).foldl (fun s d => (s.die d).boardingList.foldl (fun s x => s.resolveLaunch d x.1 x.2) s) s)
where
  optSeg (w : Option BoardWait) : List (BitVec 16) := match w with | some w => [w.segid] | none => []

/-- Poison in a manifest that is loaded is recorded (02 R58) by the boarding unit, SRC 3, of the die that owns it; R60 names
no source for the Joist's read (log 100). -/
def State.noteManifest (s : State) (base : Nat) : State :=
  let n := Nat.min 4096 (bitsOf (BitVec.ofNat 512 (leNat (s.devRead base 64))) 64 13)
  s.recordUnits base (64 + 128 * n) 3 (homeDie base) 0

/-- The manifest that RMANNX names takes effect or is refused (R122 step 2). -/
def State.switchManifest (s : State) : State :=
  if !s.joist.rmannxV then s
  else
    let m := s.loadManifest s.joist.rmannxBase.toNat
    let s := (s.noteManifest s.joist.rmannxBase.toNat).updJoist fun j =>
      match m with
      | some m => { j with rmannxV := false, rmanV := true, rmanBase := j.rmannxBase, manifest := some m }
      | none => { j with rmannxV := false, merr := true }
    s.postAll 0x0A s.joist.rpos.toNat (b2n m.isSome + 0x100 * s.joist.mgenNow.toNat)

/-- The lap boundary (R122). -/
def State.lapBoundary (s : State) : State :=
  let s := s.updJoist fun j => { j with lap := j.lap + 1, seg := 0, injecting := false }
  let s := s.switchManifest.resolveAgain
  if s.joist.run then s.startSegment else s.updJoist fun j => { j with stopped := true }

/-- The end of a segment's injection: tiles that did not come are repaired, and a segment whose repair
failed is faulted. -/
def State.endSegment (s : State) : State :=
  match s.joist.curSeg with
  | none => s
  | some g =>
    let slots := (diesOf g.dmask).filterMap fun d => (s.fillingSlot d).map fun k => (d, k)
    let s := slots.foldl (fun s x =>
      (s.updSlot x.1 x.2 fun b => { b with repairs := b.repairs ++ (List.range (b.len - b.next)).map (b.next + ·), next := b.len }).startRepairs x.1) s
    let s := s.updJoist fun j => { j with injecting := false }
    (fins 8).foldl (fun s d => (fins 8).foldl (fun s k => s.settleSlot d k) s) s

/-- The segment in injection ends and the next one starts, or a dwell ends. -/
def State.passSegment (s : State) : State :=
  if s.joist.stopped then s
  else if !s.joist.injecting then s.endDwells
  else
    let s := s.endSegment.govern
    if s.joist.seg.toNat + 1 < s.joist.segs.length then (s.updJoist fun j => { j with seg := j.seg + 1 }).startSegment
    else s.lapBoundary

/-- SEGMENT_BOUNDARY. -/
def execSegmentBoundary (s : State) : Out := .next s.passSegment

/-- Whether a segment boundary falls in this cycle: its recycle check comes after the `unboard`s of the cycle and before
the `board`s (R131). -/
def State.boundaryNow (s : State) : Bool :=
  !s.joist.stopped && s.joist.injecting && s.tileDies.isEmpty && decide (s.joist.tileAt ≤ s.cycle)

/-- The slot of a die that dwells has its holds revoked once it has reached its limit (R130). -/
def State.limitDwell (s : State) (d : Fin 8) : State :=
  match (fins 8).find? fun k => (s.slot d k).state == .dwell with
  | none => s
  | some k =>
    let b := s.slot d k
    if b.dwell = 0xFFFF ∨ s.cycle < b.dwellAt + 1024 * b.dwell.toNat ∨ b.count = 0 then s
    else (s.revoke d k).endDwells

/-- DWELL_LIMIT. -/
def execDwellLimit (d : Fin 8) (s : State) : Out := .next (s.limitDwell d)

/-- The slots as a `board` of this cycle meets them: after the recycle check and the revocations (R131). -/
def State.boardView (s : State) (d : Fin 8) : State := (if s.boundaryNow then s.passSegment else s).limitDwell d

/-! ### RGOV, RMAN, BSCFG (R122, R133, R134) -/

/-- A start of the stopped ring: the manifest in RMAN is checked first. -/
def State.ringStart (s : State) : State :=
  match (if s.joist.rmanV then s.loadManifest s.joist.rmanBase.toNat else none) with
  | none => (if s.joist.rmanV then s.noteManifest s.joist.rmanBase.toNat else s).updJoist fun j => { j with merr := true, run := false }
  | some m =>
    (s.updJoist fun j => { j with manifest := some m, stopped := false, seg := 0, injecting := false, dwelled := false }).startSegment

/-- A write to RGOV. -/
def State.rgovWrite (s : State) (v : W64) : State :=
  let s := s.updJoist fun j =>
    { j with
      run := bit v 0, auto := bit v 1
      speed := field v 8 7, minspd := field v 16 7, maxspd := field v 24 7
      merr := j.merr && !bit v 34 }
  if bit v 0 ∧ s.joist.stopped then s.ringStart else s

/-- RING_START and RING_STOP are writes to RGOV with RUN 1 and 0. -/
def execRingStart (val : BitVec 64) (s : State) : Out := .next (s.rgovWrite (setBit val 0 true))
def execRingStop (val : BitVec 64) (s : State) : Out := .next (s.rgovWrite (setBit val 0 false))

def State.rmanWrite (s : State) (v : W64) : State :=
  if s.joist.stopped then s.updJoist fun j => { j with rmanV := bit v 0, rmanBase := v &&& 0x000FFFFFFFFFFFC0 } else s
def State.rmannxWrite (s : State) (v : W64) : State :=
  s.updJoist fun j => { j with rmannxV := bit v 0, rmannxBase := v &&& 0x000FFFFFFFFFFFC0 }

def bscfgMask : W64 := 0x0FFF1FF1

/-- The boarding unit is switched on: captures count from 0, and each slot's descriptor has two empty
sets. Its generation counts on from the one it finds (07 R168). -/
def State.boardOn (s : State) (d : Fin 8) : State :=
  let x := s.die d
  ((fins 8).filter fun k => decide (k.val < x.nslot)).foldl (fun s k =>
    let idx := bitsOf x.bscfg 16 12 + k.val
    let old := if x.pbEn ∧ idx < x.npb then s.pbDesc d idx else 0
    (s.updSlot d k fun _ => { BSlot.reset with pbSel := pbSel old == 1, pbGen := BitVec.ofNat 32 (pbGen old) }).slotDesc d k 0 0 false)
    (s.updDie d fun x => { x with bscap := 0 })

/-- The boarding unit is switched off: every slot is empty, in its descriptor too, and waiters meet the fault. -/
def State.boardOff (s : State) (d : Fin 8) : State :=
  let n := (s.die d).nslot
  let s := (fins 8).foldl (fun s k =>
    let s := s.stopRepair d k
    (if k.val < n then s.slotDesc d k 0 0 false else s).updSlot d k fun b =>
      { BSlot.reset with pbSel := b.pbSel, pbGen := b.pbGen }) s
  let s := (dieCtxs d).foldl (fun s id =>
    let c := s.ctxOf id
    let segs := (match c.boarding with | some w => [w.segid] | none => []) ++ (match c.keepBoard with | some w => [w.segid] | none => [])
    let s := segs.foldl (fun s seg => if c.awaits seg then s.settleBoard id seg BoardWait.spoil else s) s
    (c.streams.filter fun o => decide (o.kind.toNat ≤ 1) && o.srck && o.waiting).foldl (fun s o => s.faultWaiting id o) s) s
  (s.die d).boardingList.foldl (fun s x => s.resolveLaunch d x.1 x.2) s

/-- BSCFG write (R134). With EN staying 1 the slots, their descriptors and BSCAP stay as they are (log 90). -/
def execBscfgWrite (d : Fin 8) (val : BitVec 64) (s : State) : Out :=
  let v := val &&& bscfgMask
  let old := (s.die d).bscfg
  if !s.joist.stopped ∨ 32 < bitsOf v 8 5 + bsNslot v ∨ 4096 < bitsOf v 16 12 + bsNslot v then .next s
  else
    let s := if bsEn old ∧ !bsEn v then ((s.updDie d fun x => { x with bscfg := setBit x.bscfg 0 false }).boardOff d) else s
    let s := s.updDie d fun x => { x with bscfg := v }
    .next (if bsEn v ∧ !bsEn old then s.boardOn d else s)

/-! ### The instructions (15 R371-R373) -/

/-- The result of a `board`: the status, and the slot that the context now holds. -/
def State.boardResult (s : State) (n : BitVec 6) (st : BitVec 3) (held : Option (Fin 8)) : State :=
  s.pendS n 40 (BitVec.ofNat 64 (match held with | some k => st.toNat + 0x10 * k.val + 0x80 | none => st.toNat))

/-- A `board` resolved for the first time, against the slots as the recycle check and the revocations of its cycle leave
them (R129, R131). -/
def State.firstBoard (s : State) (n : BitVec 6) (seg : BitVec 16) (try_ : Bool) : State :=
  let id := s.cur
  let view := s.boardView id.die
  match view.resolve id.die seg with
  | .none st => s.boardResult n st none
  | r =>
    match view.heldNow id seg.toNat with
    | some k => s.boardResult n 0 (some k)
    | none =>
      match r with
      | .hit k => (s.grant id k).boardResult n 0 (some k)
      | .wait st =>
        if try_ then s.boardResult n st none
        else
          let s := if st = 2 then s.missed id.die else s
          (s.updCx fun c => { c with boarding := some ⟨seg, st, none, false⟩ }).block id .boarding
      | _ => s.trapI cBOARDFAULT

def execBoard (g : BitVec 4) (d s1 : BitVec 6) (t : BitVec 1) (s : State) : Out :=
  s.slotOp g (.board g d s1 t) fun s =>
    let seg : BitVec 16 := field (s.rS s1) 0 16
    match s.cx.boarding with
    | none => s.firstBoard d seg (t == 1)
    | some w =>
      if w.segid ≠ seg then s.firstBoard d seg (t == 1)
      else if w.fault then (s.updCx fun c => { c with boarding := none }).trapI cBOARDFAULT
      else match w.done with
        | none => s.block s.cur .boarding
        | some st =>
          (s.updCx fun c => { c with boarding := none }).boardResult d st
            (if st = 3 ∨ st = 4 then none else s.heldSlot s.cur seg.toNat)

def execRpos (g : BitVec 4) (d : BitVec 6) (s : State) : Out :=
  s.slotOp g (.rpos g d) fun s => s.pendS d 48 s.joist.rpos

/-- A value of the slot that a scalar names; 0 from NSLOT on. -/
def State.slotValue (s : State) (n : W64) (f : BSlot → W64) : W64 :=
  let k := bitsOf n 0 3
  if k < s.myDie.nslot then f (s.slot s.cur.die (Fin.ofNat 8 k)) else 0

def execRposStat (g : BitVec 4) (d s1 : BitVec 6) (s : State) : Out :=
  s.slotOp g (.rposStat g d s1) fun s => s.pendS d 48 (s.slotValue (s.rS s1) BSlot.stat)

def execRposId (g : BitVec 4) (d s1 : BitVec 6) (s : State) : Out :=
  s.slotOp g (.rposId g d s1) fun s => s.pendS d 48 (s.slotValue (s.rS s1) BSlot.bsid)

end Sys2Proof.Machine
end

