-- ==== Sys2Proof/Machine/Engines.lean ====
section
/-! DEFINITION. Copy engines and `kvmig` (15 R374-R379, 07 R153-R169, 04 R113-R115), completion statuses
and notices (07 R177, R178): X-slot group 2. -/

namespace Sys2Proof.Machine

/-! ### Operations and their owners -/

def State.updOp (s : State) (d : Fin 8) (o o' : EngineOp) : State :=
  s.updDie d fun x => { x with engOps := updFirst (· == o) (fun _ => o') x.engOps }

def State.dropOp (s : State) (d : Fin 8) (o : EngineOp) : State := s.updDie d fun x => { x with engOps := x.engOps.erase o }

def State.findOp (s : State) (id : CtxId) (h : BitVec 16) : Option EngineOp := (s.opsOf id).find? fun o => o.handle == h

/-- Statuses of the last 64 operations (R374). -/
def keepStatus (n : BitVec 16) (l : List (BitVec 16 × BitVec 3)) : List (BitVec 16 × BitVec 3) :=
  l.filter fun x => decide ((n - 1 - x.1).toNat < 64)

/-- A notice fires with a place in the order of delivery: it is pending, behind those fired before it, or discarded while
EN = 0 (R177, R178, R180); a `csrw` of IUVEC that is due comes first (12 R294). A context that may take a handler becomes
ready for it. -/
def State.fireAt (s : State) (id : CtxId) (n : Notice) (st : BitVec 3) (at_ : Nat) : State :=
  let s := s.updCtx id fun c => c.settleFixed s.cycle
  if bit (s.ctxOf id).iuvec 0 then
    (s.updCtx id fun c => { c with notices := updFirst (· == n) (fun n => { n with fired := some st, at_ := at_ }) c.notices }).wake id
  else (s.updCtx id fun c => { c with notices := c.notices.erase n, lost := true }).wake id

/-- A notice fires now. -/
def State.fire (s : State) (id : CtxId) (n : Notice) (st : BitVec 3) : State := s.fireAt id n st s.cycle

/-- A status kept for the task, where it runs or where it is saved (18 R441). -/
def State.giveStatus (s : State) (o : EngineOp) (st : BitVec 3) : State :=
  if o.orphan then s
  else if (s.ctxOf o.id).task = o.task then
    let s := s.updCtx o.id fun c => { c with statuses := keepStatus c.handles (c.statuses ++ [(o.handle, st)]) }
    let armed := (s.ctxOf o.id).notices.filter fun n => n.handle == o.handle && n.fired.isNone
    (((armed.foldl (fun s n => s.fire o.id n st) s).latePublishes o.id).lateUnboards o.id).wake o.id
  else match o.task with
    | none => s
    | some n => s.updTask o.id.die n.val fun t =>
      { t with statuses := keepStatus t.handles (t.statuses ++ [(o.handle, st)]), doneAt := t.doneAt ++ [(o.handle, s.cycle)] }

/-! ### Assignment (R374, R375) -/

def Die.queued (x : Die) (e : Fin 4) : Nat := (x.engOps.filter fun o => o.engine == some e).length

/-- The engine with EN = 1 and the fewest operations, the least number on a tie. -/
def Die.pickEngine (x : Die) : Option (Fin 4) :=
  ((fins 4).filter fun e => (vget x.engines e).en).foldl (fun best e =>
    match best with
    | none => some e
    | some b => if x.queued e < x.queued b then some e else some b) none

def EngineKind.copies : EngineKind → Bool
  | .cpy => true | .cpy2 => true | .gath => true | .scat => true | .cpyp => true | _ => false

def EngineKind.collective : EngineKind → Bool
  | .cred => true | .cbc => true | .cag => true | .cbar => true | _ => false

/-- Every operation that waits for an engine takes one, in issue order, while some engine has EN = 1. -/
def State.assign (s : State) (d : Fin 8) : State :=
  (s.die d).engOps.foldl (fun s o =>
    if o.kind.copies ∧ o.engine.isNone then
      match (s.die d).pickEngine with
      | some e => s.updOp d o { o with engine := some e }
      | none => s
    else s) s

/-! ### Geometry (R376) -/

def EngineOp.rowBytes (o : EngineOp) : Nat :=
  match o.kind with
  | .cpy => o.len.toNat
  | .cpyp => o.len.toNat
  | .cpy2 => bitsOf o.len 0 20
  | _ => bitsOf o.comp 0 24

def EngineOp.rows (o : EngineOp) : Nat :=
  match o.kind with
  | .cpy => 1
  | .cpyp => 1
  | .cpy2 => bitsOf o.len 20 16
  | _ => bitsOf o.comp 24 24

def EngineOp.total (o : EngineOp) : Nat := o.rowBytes * o.rows

/-- A size or a field that R376 does not take. -/
def EngineOp.badSize (o : EngineOp) : Bool :=
  match o.kind with
  | .cpy => decide (2 ^ 40 ≤ o.len.toNat)
  | .cpyp => decide (2 ^ 40 ≤ o.len.toNat)
  | .cpy2 => bitsOf o.len 36 28 != 0
  | .gath => bitsOf o.comp 48 16 != 0
  | .scat => bitsOf o.comp 48 16 != 0
  | _ => false

def pitchOf (w : W64) (lo : Nat) : W64 := BitVec.ofInt 64 (signedNat (bitsOf w lo 32) 32)

/-- First destination and source byte of row i; `x` is the row's index. -/
def EngineOp.dstRow (o : EngineOp) (i : Nat) (x : W64) : W64 :=
  match o.kind with
  | .cpy2 => o.dst + BitVec.ofNat 64 i * pitchOf o.comp 0
  | .gath => o.dst + BitVec.ofNat 64 (i * o.rowBytes)
  | .scat => o.dst + x * BitVec.ofNat 64 o.rowBytes
  | _ => o.dst
def EngineOp.srcRow (o : EngineOp) (i : Nat) (x : W64) : W64 :=
  match o.kind with
  | .cpy2 => o.src + BitVec.ofNat 64 i * pitchOf o.comp 32
  | .gath => o.src + x * BitVec.ofNat 64 o.rowBytes
  | .scat => o.src + BitVec.ofNat 64 (i * o.rowBytes)
  | _ => o.src

/-- A copy onto bytes just below its source runs byte by byte from its end, so that each of its own
writes may come before a later read (R377, log 18). -/
def EngineOp.down (o : EngineOp) : Bool :=
  o.kind == .cpy && decide (o.dst.toNat < o.src.toNat ∧ o.src.toNat < o.dst.toNat + o.len.toNat)

/-- The next move at a position: offset in its row, and length within one 4 KiB part of both sides. -/
def EngineOp.move (o : EngineOp) (x : W64) : Nat × Nat :=
  if o.down then (o.total - 1 - o.pos, 1)
  else
    let i := o.pos / o.rowBytes
    let off := o.pos % o.rowBytes
    let dst := (o.dstRow i x + BitVec.ofNat 64 off).toNat
    let src := (o.srcRow i x + BitVec.ofNat 64 off).toNat
    let n := Nat.min (o.rowBytes - off) (Nat.min (4096 - dst % 4096) (if o.kind = .cpyp then 4096 else 4096 - src % 4096))
    (off, if o.kind ≠ .cpyp ∧ src < dst then Nat.min n (dst - src) else n)

/-! ### Operands of collectives (R406) -/

def EngineOp.grp (o : EngineOp) : Fin 16 := Fin.ofNat 16 (bitsOf o.len 0 4)
/-- OP or ROOT. -/
def EngineOp.sel4 (o : EngineOp) : Nat := bitsOf o.len 4 4
/-- COUNT or BYTES. -/
def EngineOp.size (o : EngineOp) : Nat := bitsOf o.len 8 32
def EngineOp.rank (o : EngineOp) : Nat := o.comp.toNat

/-- Bytes read of a rank's source and written to its destination. -/
def EngineOp.srcLen (o : EngineOp) : Nat :=
  match o.kind with
  | .cred => 4 * o.size
  | .cbc => if o.rank = o.sel4 then o.size else 0
  | .cag => o.size
  | _ => 0
def EngineOp.dstLen (o : EngineOp) (nrank : Nat) : Nat :=
  match o.kind with
  | .cred => 4 * o.size
  | .cbc => o.size
  | .cag => nrank * o.size
  | _ => 0

/-! ### Pieces -/

/-- The rights of an operation's pieces: those of its context at issue (03 R84, R89). -/
def EngineOp.req (o : EngineOp) (acc : AccKind) (rd wr : Bool) : Req :=
  ⟨o.id.die, none, o.asid, o.pkr, false, acc, rd, wr, none, false, false, []⟩

/-- Why an operation does not go on. -/
inductive EngStop where
  | fault (acc : AccKind) (f : PartFault)
  | failed
  | waits
deriving DecidableEq, Repr

/-- Bytes moved together, and whether they are poisoned. -/
abbrev Seg := List Byte × Bool

/-- A byte with its poison. -/
abbrev PByte := Byte × Bool

def flatSegs (l : List Seg) : List PByte := l.flatMap fun g => g.1.map fun b => (b, g.2)

def joinSegs (l : List PByte) : List Seg :=
  (l.splitBy fun a b => a.2 == b.2).map fun r => (r.map Prod.fst, r.any Prod.snd)

/-- Bytes cut where their poison begins and ends. -/
def markSegs (bs : List Byte) (bad : Nat → Bool) : List Seg :=
  if (List.range bs.length).any bad then joinSegs ((List.range bs.length).map fun k => (bs.getD k 0, bad k)) else [(bs, false)]

/-- Bytes of storage cut by protection units where any of them is poisoned. -/
def State.readSegs (s : State) (pa n : Nat) : List Seg :=
  if !s.poisoned pa n then [(s.devRead pa n, false)]
  else (unitsOf pa n).map fun u =>
    let lo := Nat.max u pa
    let hi := Nat.min (u + unitSize u) (pa + n)
    (s.devRead lo (hi - lo), s.poisoned lo (hi - lo))

/-- A source byte that the operation has itself written may be read from before or from after that write. -/
def mixSegs (free pos : Nat) (old new : List Byte) : List Byte :=
  if old = new then new
  else (List.range new.length).map fun k => if Config.copyReadsNew free (pos + k) then new.getD k 0 else old.getD k 0

/-- Local bytes of one part of a source; none for a part that a peer must be asked for. -/
def State.fetchPart (s old : State) (o : EngineOp) (p : Part) : Except EngStop (Option (List Seg)) :=
  match p.loc.space with
  | .dev =>
    if s.poisoned p.loc.addr p.n then .ok (some (s.readSegs p.loc.addr p.n))
    else .ok (some [(mixSegs s.free o.pos (old.devRead p.loc.addr p.n) (s.devRead p.loc.addr p.n), false)])
  | .host =>
    let a := s.hostAddr o.id.die p.loc.addr
    .ok (some (markSegs (mixSegs s.free o.pos (old.hostRead a p.n) (s.hostRead a p.n))
      fun k => s.hostPoisoned o.id.die (p.loc.addr + k) 1))
  | .peer m =>
    if !s.joist.mvalid then .error .failed
    else if s.isSelf m then
      if peerRefuses p.loc.addr then .error (.fault .engRead ⟨p.va, .trap cPROT 11 0⟩)
      else .ok (some (s.readSegs p.loc.addr p.n))
    else .ok none
  | .ctrl => .ok (some [(List.replicate p.n 0, false)])

/-- Poison met in a part of a source is recorded (02 R58). -/
def State.recordPart (s : State) (o : EngineOp) (p : Part) : State :=
  match p.loc.space with
  | .dev => s.recordUnits p.loc.addr p.n 2 o.id.die 0
  | .host => s.hostArrive o.id.die p.loc.addr p.n 2 0
  | .peer m => if s.isSelf m && s.poisoned p.loc.addr p.n then s.recordLoop o.id.die m p.loc.addr p.n 2 0 else s
  | .ctrl => s

/-- A peer access of a package without a valid identifier: LINKLOST comes due for the context of the operation too
(01 R15). -/
def State.noteMember (s : State) (o : EngineOp) : State :=
  if !s.joist.mvalid ∧ s.owns o.id o then (s.updCtx o.id Ctx.noMember).wake o.id else s

def Part.toPeer (p : Part) : Bool := match p.loc.space with | .peer _ => true | _ => false

/-- Requests for the parts that peers hold; the bytes at hand lie in `raw` already. -/
def State.askPeers (s : State) (o : EngineOp) (tag : Nat) (ps : List Part) (have_ : List (Option (List Seg))) : State × EngineOp :=
  (ps.zip have_).foldl (fun x q =>
    let o := x.2
    match q.2, q.1.loc.space with
    | some segs, _ =>
      (x.1, segs.foldl (fun o g =>
        { o with raw := o.raw ++ g.1, rawBad := if g.2 then o.rawBad ++ [(o.raw.length, g.1.length)] else o.rawBad }) o)
    | none, .peer m =>
      (flitRuns (q.1.n / 256 + 2) q.1.loc.addr (List.replicate q.1.n 0)).foldl (fun x r =>
        let (s, seq) := x.1.sendPeer o.id (x.1.origin o.asid) m 2 r.1 0 (List.replicate r.2.length 0) false q.1.va .engRead true (some o.handle)
        (s, { x.2 with raw := x.2.raw ++ r.2, asks := x.2.asks ++ [⟨seq, m, x.2.raw.length, r.2.length⟩] })) (x.1, o)
    | none, _ => x) (s, { o with asked := tag, asks := [], raw := [], rawBad := [] })

/-- Source bytes of an operation: at hand, or a stop. Poison met is recorded (02 R58). -/
def State.fetchBytesFor (s old : State) (o : EngineOp) (tag : Nat) (va : W64) (n : Nat) : State × EngineOp × Except EngStop (List Seg) :=
  if o.asked = tag then
    if o.asks.isEmpty then
      (s, { o with asked := 0, raw := [], rawBad := [] },
        .ok (markSegs o.raw fun k => o.rawBad.any fun b => decide (b.1 ≤ k ∧ k < b.1 + b.2)))
    else (s, o, .error .waits)
  else
    match s.checkAccess (o.req .engRead true false) [⟨va, n⟩] with
    | (s, .error f) => (s, o, .error (.fault .engRead f))
    | (s, .ok ps) =>
      match ps.mapM fun p => s.fetchPart old o p with
      | .error e => (if ps.any Part.toPeer then s.noteMember o else s, o, .error e)
      | .ok segs =>
        let s := ps.foldl (fun s p => s.recordPart o p) s
        if segs.all Option.isSome then (s, o, .ok (segs.flatMap fun x => x.getD []))
        else
          let (s, o) := s.askPeers o tag ps segs
          (s, o, .error .waits)

/-! ### Destinations (R165, R377) -/

/-- The latch of a buffer that a destination page reaches: latched already, latched now, or refused. A poisoned
descriptor is left to the transfer, whose resolution takes ECCUNC (R162). -/
def State.latchBuf (s : State) (o : EngineOp) (hd : Fin 8) (idx : Nat) : Except EngStop EngineOp :=
  if o.latches.any fun l => l.die == hd && l.idx.toNat == idx then .ok o
  else if !(s.die hd).pbEn ∨ (s.die hd).npb ≤ idx ∨ s.poisoned ((s.die hd).pbAddr idx) 64 then .ok o
  else
    let d := s.pbDesc hd idx
    if !pbV d ∨ pbOwn d ≠ 0 ∨ (o.pub ∧ !o.latches.isEmpty) then .error .failed
    else .ok { o with latches := o.latches ++ [⟨hd, BitVec.ofNat 12 idx, BitVec.ofNat 1 (1 - pbSel d), BitVec.ofNat 32 (pbGen d)⟩] }

/-- What a destination page reaches: the operation with its buffer latched, or a failure. A page whose
translation faults is left to the transfer. -/
def State.namePage (s : State) (o : EngineOp) (va : W64) : State × Except EngStop EngineOp :=
  match s.findLeaf (o.req .engWrite false true) va with
  | (s, .error _) => (s, .ok o)
  | (s, .ok (leaf, _, _)) =>
    if lfPbuf leaf then
      let (hd, idx, _) := pbRef leaf
      (s, s.latchBuf o hd idx)
    else (s, if o.pub then .error .failed else .ok o)

/-- Place of n destination bytes of one part, with the operation after its latch. -/
def State.dstPlace (s : State) (o : EngineOp) (va : W64) (n : Nat) : State × Except EngStop (EngineOp × Loc) :=
  match s.namePage o va with
  | (s, .error e) => (s, .error e)
  | (s, .ok o) =>
    let sel := match s.findLeaf (o.req .engWrite false true) va with
      | (_, .ok (leaf, _, _)) =>
        if lfPbuf leaf then
          let (hd, idx, _) := pbRef leaf
          (o.latches.find? fun l => l.die == hd && l.idx.toNat == idx).map fun l => l.sel.toNat
        else none
      | _ => none
    match s.checkPart (o.req .engWrite false true) va n sel with
    | (s, .error f) => (s, .error (.fault .engWrite ⟨va, f⟩))
    | (s, .ok l) =>
      match l.space with
      | .peer m =>
        if !s.joist.mvalid then (s.noteMember o, .error .failed)
        else if s.isSelf m ∧ peerRefuses l.addr then (s, .error (.fault .engWrite ⟨va, .trap cPROT 11 0⟩))
        else (s, .ok (o, l))
      | _ => (s, .ok (o, l))

/-- Segments written at a place. -/
def State.writeSegs (s : State) (o : EngineOp) (va : W64) (l : Loc) (segs : List Seg) : State :=
  let s := s.setDirtyLeaf (o.req .engWrite false true) ⟨va, 1, l⟩
  (segs.foldl (fun x g =>
    let a := l.addr + x.2
    let s := match l.space with
      | .dev => if g.2 then x.1.devWritePoison a g.1 else x.1.writePieces (atomSize .dev a) a g.1
      | .host => x.1.hostWrite (x.1.hostAddr o.id.die a) g.1
      | .peer m => x.1.writePeer o.id (x.1.origin o.asid) m a g.1 g.2 va .engWrite (some o.handle)
      | .ctrl => x.1
    (s, x.2 + g.1.length)) (s, 0)).1

/-! ### The transfer (R376, R377) -/

/-- Bytes of the pattern of `cpyp` from an offset on. -/
def patternBytes (p : W64) (off n : Nat) : List Byte := (List.range n).map fun k => byteOf p ((off + k) % 8)

/-- The index of the row in hand, read where it is not known yet. -/
def State.rowIndex (s old : State) (o : EngineOp) : State × EngineOp × Except EngStop (W64 × Bool) :=
  match o.kind with
  | .gath | .scat =>
    match o.index with
    | some x => (s, o, .ok x)
    | none =>
      match s.fetchBytesFor old o 1 (o.len + BitVec.ofNat 64 (4 * (o.pos / o.rowBytes))) 4 with
      | (s, o, .error e) => (s, o, .error e)
      | (s, o, .ok segs) =>
        let bad := segs.any Prod.snd
        let x : W64 := BitVec.ofInt 64 (signedNat (leNat (segs.flatMap Prod.fst)) 32)
        (s, { o with index := some (x, bad), poison := o.poison || bad }, .ok (x, bad))
  | _ => (s, o, .ok (0, false))

/-- The position after n more bytes; the index goes at a row's end. -/
def EngineOp.advance (o : EngineOp) (n : Nat) : EngineOp :=
  { o with pos := o.pos + n, index := if (o.pos + n) % o.rowBytes = 0 then none else o.index }

def State.countBytes (s : State) (o : EngineOp) (n : Nat) : State :=
  match o.engine with
  | none => s
  | some e => s.updDie o.id.die fun x => { x with engines := vupd x.engines e fun y => { y with bytes := y.bytes + BitVec.ofNat 64 n } }

/-- One move of a transfer. -/
def State.engineMove (s old : State) (o : EngineOp) : State × EngineOp × Option EngStop :=
  match s.rowIndex old o with
  | (s, o, .error e) => (s, o, some e)
  | (s, o, .ok (x, bad)) =>
    let i := o.pos / o.rowBytes
    if bad ∧ o.kind = .scat then (s, o.advance o.rowBytes, none)
    else
      let (off, n) := o.move x
      let dva := o.dstRow i x + BitVec.ofNat 64 off
      match s.dstPlace o dva n with
      | (s, .error e) => (s, o, some e)
      | (s, .ok (o, l)) =>
        let (s, o, r) : State × EngineOp × Except EngStop (List Seg) :=
          if bad then (s, o, .ok [(List.replicate n 0, true)])
          else if o.kind = .cpyp then (s, o, .ok [(patternBytes o.src off n, false)])
          else s.fetchBytesFor old o 2 (o.srcRow i x + BitVec.ofNat 64 off) n
        match r with
        | .error e => (s, o, some e)
        | .ok segs =>
          ((s.writeSegs o dva l segs).countBytes o n, { o.advance n with poison := o.poison || segs.any Prod.snd }, none)

/-- Moves until the operation is done or stops. -/
def State.engineMoves (old : State) : Nat → State → EngineOp → State × EngineOp × Option EngStop
  | 0, s, o => (s, o, none)
  | fuel + 1, s, o =>
    if o.total ≤ o.pos then (s, o, none)
    else
      match s.engineMove old o with
      | (s, o, some e) => (s, o, some e)
      | (s, o, none) => State.engineMoves old fuel s o

/-- Whether a peer has writes of an operation to acknowledge. -/
def State.opWrites (s : State) (o : EngineOp) : Bool :=
  s.joist.peerReqs.any fun r => r.id == o.id && r.engine == some o.handle && !r.read

/-- The publish of an operation, and its status (R165, R169). -/
def State.engineStatus (s : State) (o : EngineOp) : State × BitVec 3 :=
  let base : BitVec 3 := if o.poison then 1 else 0
  match o.pub, o.latches with
  | true, l :: _ =>
    match s.pubStep l.die l.idx.toNat 3 l.pgen o.id.die 0 with
    | (s, 0) => (s, base)
    | (s, 3) => (s, 2)
    | (s, _) => (s, 3)
  | _, _ => (s, base)

/-- The end of an operation with its status. -/
def State.endOp (s : State) (o : EngineOp) (st : BitVec 3) : State :=
  let d := o.id.die
  let s := s.dropOp d o
  let s := match o.engine with
    | some e => s.updDie d fun x => { x with engines := vupd x.engines e fun y => { y with done := y.done + 1 } }
    | none => s
  ((s.giveStatus o st).assign d).startRepairs d

/-- A piece that faults holds the engine there, and the context takes the fault at its next boundary. An
operation of an ended task is abandoned (R377). -/
def State.holdOp (s : State) (o : EngineOp) (acc : AccKind) (f : PartFault) : State :=
  let s := s.noteFault o.id 2 0 f.fault
  if o.orphan then (s.dropOp o.id.die o).assign o.id.die
  else
    let s := s.updOp o.id.die o { o with held := true }
    if s.owns o.id o then (s.updCtx o.id fun c => c.pendEngine (c.faultRec acc f)).wake o.id else s

/-- Whether an operation may run: the first on its engine, not held, and after every piece that precedes
it (R153, R354). -/
def State.mayRun (s : State) (o : EngineOp) : Bool :=
  let x := s.die o.id.die
  !o.held &&
  (match o.engine with
    | some e => !(vget x.engines e).hw && ((x.engOps.find? fun p => p.engine == some e) == some o)
    | none => !o.kind.copies) &&
  !s.preceded o.id.die o.after

/-- The pieces that a peer refused, performed again from the first on. -/
def State.redoPieces : List (W64 × List Byte × Bool) → State → EngineOp → State × EngineOp × Option EngStop
  | [], s, o => (s, { o with redo := [] }, none)
  | (va, bs, bad) :: rest, s, o =>
    match s.dstPlace o va bs.length with
    | (s, .error e) => (s, { o with redo := (va, bs, bad) :: rest }, some e)
    | (s, .ok (o, l)) => State.redoPieces rest (s.writeSegs o va l [(bs, bad)]) o

/-- A transfer goes on: from the pieces that are to be performed again, then from its position. -/
def State.engineRun (s : State) (o : EngineOp) : State × EngineOp × Option EngStop :=
  match State.redoPieces o.redo s o with
  | (t, o', some e) => (t, o', some e)
  | (t, o', none) => State.engineMoves s (o.total + 1) t o'

/-- Whether every byte of a transfer has been moved. -/
def EngineOp.moved (o : EngineOp) : Bool := decide (o.total ≤ o.pos) && o.redo.isEmpty

/-- A transfer run on: its end, a wait for a peer, or a fault, which `onFault` selects. The publish comes in a later cycle
than the last move, so that it may go before the resolutions of its cycle (R166, log 3). -/
def State.runCopy (s : State) (o : EngineOp) (onFault : Bool) : State :=
  if !s.mayRun o then s
  else if o.failed then (if onFault ∨ s.opWrites o then s else s.endOp o 3)
  else
    match s.engineRun o with
    | (t, o', some (.fault acc f)) => if onFault then (t.updOp o.id.die o o').holdOp o' acc f else s
    | (t, o', r) =>
      if onFault then s
      else
        let t := ({ t with free := t.free + 1 } : State).updOp o.id.die o o'
        match r with
        | some .failed => t.endOp o' 3
        | some _ => t
        | none =>
          if t.opWrites o' then t
          else if o'.pub ∧ !o.moved then t.updOp o.id.die o' { o' with at_ := t.cycle + 1 }
          else
            let (t, st) := t.engineStatus o'
            t.endOp o' st

/-! ### kvmig (04 R113-R115, R378) -/

/-- The block of a `kvmig` and its target frame. -/
def EngineOp.block (o : EngineOp) : Nat := bitsOf o.len 0 24
def EngineOp.target (o : EngineOp) : Nat := bitsOf o.dst 16 36

/-- The units of the entry of a `kvmig` that are poisoned are recorded (02 R58, log 96). -/
def State.noteMig (s : State) (id : CtxId) (b : Nat) : State :=
  if !(s.die id.die).kvEn || decide ((s.die id.die).nblk ≤ b) then s else s.recordBad (s.kvBad id.die b) 0 id.die id.core

/-- Whether a `kvmig` is refused at issue. -/
def State.migBad (s : State) (d : Fin 8) (b : Nat) (target : W64) : Bool :=
  let e := s.kvEntry d b
  let f := bitsOf target 16 36 * 65536
  !(s.die d).kvEn || decide ((s.die d).nblk ≤ b) || bitsOf target 0 16 != 0 || bitsOf target 52 12 != 0 ||
  !(s.kvBad d b).isEmpty || !e.v || !e.pbv || e.state == 3 ||
  !(if e.tier then spadOrHbm f else region f == .lpddr)

/-- The descriptor of a block's buffer written whole by its owning unit (07 R163): selector and generation, the frame of
the active and that of the shadow set. -/
def State.migDesc (s : State) (d : Fin 8) (idx sel gen active shadow : Nat) : State :=
  let set (f : Nat) : Nat := f * 2 ^ 16 + 2 ^ 64
  let lo := set (if sel = 1 then shadow else active)
  let hi := set (if sel = 1 then active else shadow)
  s.devWrite ((s.die d).pbAddr idx) (leBytes 64 (1 + 2 * sel + 8 + gen * 2 ^ 32 + lo * 2 ^ 64 + hi * 2 ^ 192))

/-- What the unit knows of the buffer of a `kvmig` from its first step on: whether it owns it, SEL and PGEN. -/
def EngineOp.migOwned (o : EngineOp) : Bool := bit o.comp 0
def EngineOp.migSel (o : EngineOp) : Nat := bitsOf o.comp 1 1
def EngineOp.migGen (o : EngineOp) : Nat := bitsOf o.comp 32 32

/-- Steps 1 and 2 of a `kvmig` whose block is idle: STATE 10, and the target in the shadow set. A poisoned descriptor is
no buffer of the unit's (02 R56). -/
def State.startMig (s : State) (o : EngineOp) : State :=
  let d := o.id.die
  let x := s.die d
  let e := s.kvEntry d o.block
  let old := s.pbDesc d e.pbidx
  let bad := if x.pbEn && decide (e.pbidx < x.npb) then s.badUnits (x.pbAddr e.pbidx) 64 else []
  let owned := x.pbEn && decide (e.pbidx < x.npb) && bad.isEmpty && pbV old && pbOwn old == 2
  let s := s.recordBad bad 0 d 0
  let s := s.setKvLo d o.block fun w => setField w 2 2 2
  let s := if owned then s.migDesc d e.pbidx (pbSel old) (pbGen old) e.frame o.target else s
  s.updOp d o { o with started := true, comp := BitVec.ofNat 64 (b2n owned + 2 * pbSel old + 2 ^ 32 * pbGen old) }

/-- Step 3: the 64 KiB are copied by an engine that is free. A copy from a frame that is no storage faults, and the
`kvmig` fails (R114). The publish comes in a later cycle. -/
def State.copyMig (s : State) (o : EngineOp) : State :=
  let d := o.id.die
  let src := (s.kvEntry d o.block).frame * 65536
  match (s.die d).freeEngine with
  | none => s
  | some g =>
    if !isDev src then (s.setKvLo d o.block fun w => setField w 2 2 0).endOp o 3
    else
    let o' := { o with engine := some g, pos := 1, poison := s.poisoned src 65536, at_ := s.cycle + 1 }
    ((((s.setHw d g true).updOp d o o').copyBlock d src (o.target * 65536))).updDie d fun x =>
      { x with engines := vupd x.engines g fun y => { y with bytes := y.bytes + 65536 } }

/-- Step 4: the publish with the entry's new FRAME and TIER; a poisoned source, or a buffer that the unit does not own,
leaves the block as it was and the `kvmig` fails (R114). The engine is free. -/
def State.publishMig (s : State) (o : EngineOp) : State :=
  let d := o.id.die
  let e := s.kvEntry d o.block
  let s := match o.engine with | some g => s.setHw d g false | none => s
  if o.poison ∨ !o.migOwned ∨ !(s.die d).pbEn ∨ (s.die d).npb ≤ e.pbidx then
    (s.setKvLo d o.block fun w => setField w 2 2 0).endOp o 3
  else
    let s := s.migDesc d e.pbidx (1 - o.migSel) ((o.migGen + 1) % 2 ^ 32) o.target e.frame
    let s := s.setKvLo d o.block fun w => setField (setBit (setField w 2 2 0) 1 (!e.tier)) 16 36 o.target
    let s := s.updDie d fun x =>
      { x with
        pubcnt := x.pubcnt + 1, kvMigs := x.kvMigs + 1
        engines := match o.engine with | some g => vupd x.engines g fun y => { y with done := y.done + 1 } | none => x.engines }
    s.updOp d o { o with engine := none, pos := 2, comp := BitVec.ofNat 64 (1 + 2 * b2n e.tier + e.frame * 65536) }

/-- Step 5: the record of the vacated frame, once the release ring has room (R107). -/
def State.endMig (s : State) (o : EngineOp) : State :=
  let d := o.id.die
  if (s.die d).rlFull then s.ringFull d else (s.pushRelease d o.comp.toNat).endOp o 0

/-- KVMIG_COMPLETE: a `kvmig` goes on to its next step (R113). -/
def execKvmigComplete (id : CtxId) (h : BitVec 16) (s : State) : Out :=
  match (s.die id.die).engOps.find? fun o => o.id == id && o.handle == h && o.kind == .kvmig with
  | none => .next s
  | some o =>
    .next (if !o.started then
        if !s.mayRun o then s
        else if s.migBad id.die o.block o.dst then (s.noteMig id o.block).endOp o 3
        else if (s.kvEntry id.die o.block).state ≠ 0 then s
        else s.startMig o
      else if o.pos = 0 then s.copyMig o
      else if o.pos = 1 then s.publishMig o
      else s.endMig o)

/-! ### Issue (R353, R374) -/

/-- A new operation of the issuing context. -/
def State.newOp (s : State) (k : EngineKind) (dst src len comp : W64) (pub : Bool) : EngineOp :=
  { id := s.cur, task := s.cx.task, handle := s.cx.handles, kind := k, dst := dst, src := src, len := len, comp := comp
    pub := pub, asid := s.cx.asid, pkr := s.cx.arch.pkr, after := s.earlier s.cur, engine := none, latches := [], pos := 0
    index := none, asked := 0, asks := [], raw := [], rawBad := [], redo := [], at_ := s.cycle + 1, held := false, poison := false, failed := false
    started := false, inst := 0, orphan := false }

/-- The handle of an operation delivered, and the context's count raised: the statuses are of the last 64 from here
on. -/
def State.takeHandle (s : State) (d : BitVec 6) : State :=
  let h := s.cx.handles
  let s := s.updCx fun c => { c with handles := h + 1, statuses := keepStatus (h + 1) c.statuses }
  if d = 0 then s else s.putS d 1 (h.setWidth 64)

/-- An operation accepted, or with its status at issue. -/
def State.issueOp (s : State) (o : EngineOp) (st : Option (BitVec 3)) : State :=
  match st with
  | some st => s.giveStatus o st
  | none => (s.updDie o.id.die fun x => { x with engOps := x.engOps ++ [o] }).assign o.id.die

/-- The destination pages that an operation names at issue (R165). -/
def spanPages (va : W64) (n : Nat) : List W64 :=
  if n = 0 then [] else (List.range ((va.toNat % 65536 + n + 65535) / 65536)).map fun k => (va &&& ~~~0xFFFF#64) + BitVec.ofNat 64 (65536 * k)

def EngineOp.namedPages (o : EngineOp) : List W64 :=
  if o.total = 0 then []
  else match o.kind with
    | .scat => []
    | .cpy2 => dedup ((List.range o.rows).flatMap fun i => spanPages (o.dstRow i 0) o.rowBytes) []
    | _ => spanPages o.dst o.total

/-- Every page named at issue checked, and its buffer latched. -/
def State.namePages : List W64 → State → EngineOp → State × Except EngStop EngineOp
  | [], s, o => (s, .ok o)
  | va :: rest, s, o =>
    match s.namePage o va with
    | (s, .error e) => (s, .error e)
    | (s, .ok o) => State.namePages rest s o

/-- A transfer issues. A store of its own bundle, which is earlier, goes home before it (R137, R153). -/
def State.startCopy (s : State) (k : EngineKind) (a b : BitVec 3) (s1 d : BitVec 6) (pub : Bool) : State :=
  if s.engineFull s.cur then s.block s.cur .engineQueue
  else
    let s := s.commitEarly s.cur
    let c := s.cx
    let o := s.newOp k (c.rXP a) (c.rXP b) (c.rS s1) (c.rXP (b + 1)) pub
    let s := s.takeHandle d
    if o.badSize then s.issueOp o (some 3)
    else
      match State.namePages o.namedPages s o with
      | (s, .error _) => s.issueOp o (some 3)
      | (s, .ok o) => s.issueOp o none

def execCpy (g : BitVec 4) (a b : BitVec 3) (s1 d : BitVec 6) (p : BitVec 1) (s : State) : Out :=
  s.slotOp g (.cpy g a b s1 d p) fun s => s.startCopy .cpy a b s1 d (p == 1)

def execCpy2 (g : BitVec 4) (a b : BitVec 3) (s1 d : BitVec 6) (p : BitVec 1) (s : State) : Out :=
  s.slotOp g (.cpy2 g a b s1 d p) fun s => s.startCopy .cpy2 a b s1 d (p == 1)

def execGath (g : BitVec 4) (a b : BitVec 3) (s1 d : BitVec 6) (p : BitVec 1) (s : State) : Out :=
  s.slotOp g (.gath g a b s1 d p) fun s => s.startCopy .gath a b s1 d (p == 1)

def execScat (g : BitVec 4) (a b : BitVec 3) (s1 d : BitVec 6) (p : BitVec 1) (s : State) : Out :=
  s.slotOp g (.scat g a b s1 d p) fun s => s.startCopy .scat a b s1 d (p == 1)

def execCpyp (g : BitVec 4) (a b : BitVec 3) (s1 d : BitVec 6) (p : BitVec 1) (s : State) : Out :=
  s.slotOp g (.cpyp g a b s1 d p) fun s => s.startCopy .cpyp a b s1 d (p == 1)

def execKvmig (g : BitVec 4) (a : BitVec 3) (s1 d : BitVec 6) (s : State) : Out :=
  s.slotOp g (.kvmig g a s1 d) fun s =>
    if s.engineFull s.cur then s.block s.cur .engineQueue
    else
      let s := s.commitEarly s.cur
      let o := s.newOp .kvmig (s.cx.rXP a) 0 (s.rS s1) 0 false
      let bad := s.migBad s.cur.die o.block o.dst
      ((s.takeHandle d).noteMig s.cur o.block).issueOp o (if bad then some 3 else none)

/-! ### unboard (R372) -/

/-- Whether a page of n bytes at a VA leads to a publishable buffer. -/
def State.reachesBuf (s : State) (r : Req) (va : W64) (n : Nat) (hd : Fin 8) (idx : Nat) : Bool :=
  (spanPages va n).any fun p => match (s.findLeaf r p).2 with
    | .ok (leaf, _, _) => lfPbuf leaf && (pbRef leaf).1 == hd && (pbRef leaf).2.1 == idx
    | .error _ => false

/-- Whether a stream operation that has not stopped reads a segment, or resolves through the buffer of its slot. -/
def State.streamUses (s : State) (id : CtxId) (o : StreamOp) (seg : BitVec 16) (idx : Nat) : Bool :=
  let r := o.req (s.ctxOf id) id .engRead true false
  decide (o.kind.toNat ≤ 1) && !o.waiting &&
    (if o.srck then field o.src 0 16 == seg
      else s.reachesBuf r o.src (geomWin o.geom * streamLen (geomT o.geom) (geomW o.geom) o.sparse) id.die idx) ||
    (match o.dst with | .accum va => decide (o.kind.toNat ≤ 1) && !o.waiting && s.reachesBuf r va 256 id.die idx | .tile _ => false)

/-- The index of a row as the list holds it now; none where it cannot be read here. -/
def State.peekIndex (s : State) (o : EngineOp) (i : Nat) : Option W64 :=
  match (s.checkAccess (o.req .engRead true false) [⟨o.len + BitVec.ofNat 64 (4 * i), 4⟩]).2 with
  | .error _ => none
  | .ok ps => match ps.mapM fun p => s.fetchPart s o p with
    | .error _ => none
    | .ok segs => (segs.mapM id).bind fun l =>
      if l.any fun g => g.any Prod.snd then none
      else some (BitVec.ofInt 64 (signedNat (leNat (l.flatMap fun g => g.flatMap Prod.fst)) 32))

/-- The runs of bytes that an engine operation reads or writes; none for a row whose index cannot be read here. -/
def State.opRuns (s : State) (o : EngineOp) : List (Option (W64 × Nat)) :=
  let row (f : Nat → W64 → W64) (i : Nat) : Option (W64 × Nat) := (s.peekIndex o i).map fun x => (f i x, o.rowBytes)
  match o.kind with
  | .cpy => [some (o.src, o.total), some (o.dst, o.total)]
  | .cpyp => [some (o.dst, o.total)]
  | .cpy2 => (List.range o.rows).flatMap fun i => [some (o.srcRow i 0, o.rowBytes), some (o.dstRow i 0, o.rowBytes)]
  | .gath => [some (o.len, 4 * o.rows), some (o.dst, o.total)] ++ (List.range o.rows).map (row o.srcRow)
  | .scat => [some (o.len, 4 * o.rows), some (o.src, o.total)] ++ (List.range o.rows).map (row o.dstRow)
  | .kvmig => []
  | _ => [some (o.src, o.srcLen), some (o.dst, o.dstLen 16)]

/-- Whether an engine operation resolves through a buffer; a row whose index cannot be read here is taken to (log 108). -/
def State.opUses (s : State) (o : EngineOp) (d : Fin 8) (idx : Nat) : Bool :=
  let r := o.req .engRead true false
  (s.opRuns o).any fun x => match x with
    | some y => s.reachesBuf r y.1 y.2 d idx
    | none => true

/-- `unboard`: the release is posted behind the operations that read the segment or go through the slot's buffer, and
held stores to the slot go first. -/
def execUnboard (g : BitVec 4) (d s1 : BitVec 6) (s : State) : Out :=
  s.slotOp g (.unboard g d s1) fun s =>
    let id := s.cur
    let seg : BitVec 16 := field (s.rS s1) 0 16
    let give (s : State) (v : W64) : State := if d = 0 then s else s.pendS d 40 v
    match s.heldSlot id seg.toNat with
    | none => give s 0
    | some k =>
      if s.cx.unboards.any fun u => u.seg == seg then give s 0
      else
        let x := s.die id.die
        let idx := bitsOf x.bscfg 16 12 + k.val
        let s := if (s.cx.heldOver .dev (x.slotBase id.die k.val) 0x2000000).isEmpty then s else s.commitEarly id
        let u : Unboard := ⟨seg, (s.cx.streams.filter fun o => s.streamUses id o seg idx).map fun o => o.issue,
          ((s.opsOf id).filter fun o => s.opUses o id.die idx).map fun o => o.handle⟩
        give ((s.updCx fun c => { c with unboards := c.unboards ++ [u] }).lateUnboards id) 1

/-! ### Waits and notices (R379, R380) -/

/-- The status of a handle that is not outstanding: 7 for one not issued or too old. -/
def Ctx.statusOf (c : Ctx) (h : BitVec 16) : BitVec 3 :=
  match c.statuses.find? fun x => x.1 == h with
  | some x => x.2
  | none => 7

/-- Whether an outstanding operation is among the last 64. -/
def Ctx.recent (c : Ctx) (h : BitVec 16) : Bool := decide ((c.handles - 1 - h).toNat < 64)

def execCwait (g : BitVec 4) (s1 d : BitVec 6) (s : State) : Out :=
  s.slotOp g (.cwait g s1 d) fun s =>
    let h : BitVec 16 := field (s.rS s1) 0 16
    match s.findOp s.cur h with
    | some _ => if s.cx.recent h then s.block s.cur (.copy (some h)) else s.putS d 1 7
    | none => s.putS d 1 ((s.cx.statusOf h).setWidth 64)

def execCwaitAll (g : BitVec 4) (d : BitVec 6) (s : State) : Out :=
  s.slotOp g (.cwaitAll g d) fun s =>
    if !(s.opsOf s.cur).isEmpty then s.block s.cur (.copy none)
    else s.putS d 1 (BitVec.ofNat 64 ((s.cx.statuses.map fun x => x.2.toNat).foldl Nat.max 0))

def execCnote (g : BitVec 4) (s1 d : BitVec 6) (s : State) : Out :=
  s.slotOp g (.cnote g s1 d) fun s =>
    let id := s.cur
    let c := s.cx
    if 8 ≤ (c.notices.filter fun n => n.fired.isNone).length then s.block id .notice
    else
      let h : BitVec 16 := field (s.rS s1) 0 16
      let n : Notice := ⟨h, field (s.rS d) 0 16, none, 0⟩
      let s := s.updCx fun c => { c with notices := c.notices ++ [n] }
      match s.findOp id h with
      | some _ => if c.recent h then s else s.fire id n 7
      | none => s.fire id n (c.statusOf h)

/-- NOTICE_ENTRY: a context at its boundary enters the handler of the notice fired first; not inside a handler, not while
pinned, not before the fixed-latency results in flight, those that latches of a resume hold among them, and not while an `xdot` for which the mark waits is outstanding
(R178, 18 R428). -/
def execNoticeEntry (id : CtxId) (s : State) : Out :=
  let c := s.ctxOf id
  let stopped := match c.status with | .ready => true | .blocked w => w != .halt | _ => false
  let s := s.updCtx id fun c => if stopped then c.settle s.cycle else c
  let c := s.ctxOf id
  if !stopped ∨ !c.entryDue ∨ !c.inflight.isEmpty ∨ !c.latches.isEmpty then .next s
  else match c.firstFired with
    | none => .next s
    | some n => .next ((s.enterHandler id n).unblock id)

end Sys2Proof.Machine
end

