-- ==== Sys2Proof/Machine/Collectives.lean ====
section
/-! DEFINITION. Collectives (16 R405-R408): groups and instances, the reduction tree, X-slot group 3, and
the completion of engine operations. -/

namespace Sys2Proof.Machine

/-! ### Groups (R405) -/

/-- NRANK; 0 where V reads as 0. -/
def Group.nrank (g : Group) : Nat :=
  let n := bitsOf g.word0 1 5
  if bit g.word0 0 ∧ n ≤ 16 then n else 0

/-- The context of rank k. -/
def Group.member (g : Group) (k : Nat) : CtxId :=
  ⟨Fin.ofNat 8 (bitsOf g.ranks (12 * k + 6) 3), Fin.ofNat 16 (bitsOf g.ranks (12 * k + 2) 4), Fin.ofNat 4 (bitsOf g.ranks (12 * k) 2)⟩

def Group.rankOf (g : Group) (id : CtxId) : Option Nat := (List.range g.nrank).find? fun k => g.member k == id

/-- Word 0 as it reads. -/
def Group.read0 (g : Group) : W64 := if g.nrank = 0 then g.word0 &&& 0x3E else g.word0 &&& 0x3F

/-! ### Operands (R406) -/

/-- A value that R406 does not take. -/
def EngineOp.badOperand (o : EngineOp) (nrank : Nat) : Bool :=
  bitsOf o.len 40 24 != 0 ||
  (match o.kind with
    | .cred => decide (4 ≤ o.sel4)
    | .cbc => decide (nrank ≤ o.sel4)
    | .cag => o.sel4 != 0
    | _ => bitsOf o.len 4 36 != 0)

/-! ### The tree (R408) -/

/-- comb of an operation on 4-byte codes. -/
def treeComb (op : Nat) (x y : Nat) : Nat :=
  match op with
  | 0 => (fnew 0 x y).1
  | 1 => (fnew 2 x y).1
  | 2 => (fnew 1 x y).1
  | _ => (x + y) % 2 ^ 32

/-- identity(op). -/
def treeUnit (op : Nat) : Nat :=
  match op with
  | 1 => 0xFF800000
  | 2 => 0x7F800000
  | _ => 0

/-- One level of the tree. -/
def combPairs (op : Nat) : List Nat → List Nat
  | x :: y :: rest => treeComb op x y :: combPairs op rest
  | l => l

/-- `ctree` over the ranks' values. -/
def ctree (op : Nat) (v : List Nat) : Nat :=
  let l := v ++ List.replicate (16 - v.length) (treeUnit op)
  ((combPairs op (combPairs op (combPairs op (combPairs op l)))).head?).getD 0

/-! ### Instances (R407) -/

/-- What a rank receives, from the sources in rank order. -/
def EngineOp.result (o : EngineOp) (srcs : List (List PByte)) : List PByte :=
  match o.kind with
  | .cred => (List.range o.size).flatMap fun e =>
      let cells := srcs.map fun l => (l.drop (4 * e)).take 4
      let v := ctree o.sel4 (cells.map fun c => leNat (c.map Prod.fst))
      let bad := cells.any fun c => c.any Prod.snd
      (leBytes 4 v).map fun b => (b, bad)
  | .cbc => srcs.getD o.sel4 []
  | .cag => srcs.flatMap fun l => l
  | _ => []

/-- The operations of the instance of a group that comes first, in rank order. -/
def State.instance_ (s : State) (g : Fin 16) : List EngineOp :=
  let ops := (fins 8).flatMap fun d =>
    (s.die d).engOps.filter fun o => o.kind.collective && o.grp == g && !o.started
  match ops with
  | [] => []
  | o :: _ =>
    let k := ops.foldl (fun m p => Nat.min m p.inst) o.inst
    (List.range 16).filterMap fun r => ops.find? fun p => p.inst == k && p.rank == r

/-- Whether the ranks agree. -/
def agree : List EngineOp → Bool
  | [] => true
  | o :: rest => rest.all fun p => p.kind == o.kind && (p.len == o.len)

/-- A collective of an ended task that meets a fault is abandoned, and the other ranks fail. -/
def State.abandon (s : State) (ops : List EngineOp) (o : EngineOp) : State :=
  ops.foldl (fun s p => if p == o then s.dropOp o.id.die o else s.endOp p 3) s

/-- The sources of the ranks: every one at hand, or the state after what stands in the way. -/
def State.gatherRanks (s : State) (ops : List EngineOp) : State × Option (List (List PByte)) :=
  let tries := ops.map fun o => (o, if o.srcLen = 0 then .ok [] else (s.fetchBytesFor s o 2 o.src o.srcLen).2.2)
  match tries.find? fun x => match x.2 with | .error (.fault _ _) => true | .error .failed => true | _ => false with
  | some (o, .error (.fault acc f)) => (if o.orphan then s.abandon ops o else s.holdOp o acc f, none)
  | some (o, _) => (ops.foldl (fun s p => s.endOp p 3) (s.noteMember o), none)
  | none =>
    if tries.any fun x => match x.2 with | .error _ => true | .ok _ => false then
      (tries.foldl (fun s x => match x.2 with
        | .error _ =>
          let r := s.fetchBytesFor s x.1 2 x.1.src x.1.srcLen
          r.1.updOp x.1.id.die x.1 r.2.1
        | .ok _ => s) s, none)
    else
      let r := tries.foldl (fun acc x =>
        let o := x.1
        if o.srcLen = 0 then (acc.1, acc.2 ++ [[]])
        else
          let y := acc.1.fetchBytesFor acc.1 o 2 o.src o.srcLen
          (y.1, acc.2 ++ [flatSegs (match y.2.2 with | .ok l => l | .error _ => [])])) (s, [])
      (r.1, some r.2)

/-- The places of a rank's destination, with its operation after the latches. -/
def State.rankPlaces (s : State) (o : EngineOp) (n : Nat) : State × Except EngStop (EngineOp × List (VRun × Loc)) :=
  ((⟨o.dst, n⟩ : VRun).parts).foldl (fun x v =>
    match x.2 with
    | .error e => (x.1, .error e)
    | .ok (o, ls) =>
      match x.1.dstPlace o v.va v.n with
      | (s, .error e) => (s, .error e)
      | (s, .ok (o, l)) => (s, .ok (o, ls ++ [(v, l)]))) (s, .ok (o, []))

/-- A rank's bytes written at its places. -/
def State.writeRank (s : State) (o : EngineOp) (ls : List (VRun × Loc)) (bs : List PByte) : State :=
  (ls.foldl (fun x p => (x.1.writeSegs o p.1.va p.2 (joinSegs ((bs.drop x.2).take p.1.n)), x.2 + p.1.n)) (s, 0)).1

/-- The instance moves: every destination is checked before any is written. -/
def State.moveRanks (s : State) (nrank : Nat) (ops : List EngineOp) (srcs : List (List PByte)) : State :=
  let x := ops.foldl (fun acc o =>
    let y := acc.1.rankPlaces o (o.dstLen nrank)
    (y.1, acc.2 ++ [(o, y.2)])) (s, ([] : List (EngineOp × Except EngStop (EngineOp × List (VRun × Loc)))))
  match x.2.find? fun p => match p.2 with | .error (.fault _ _) => true | _ => false with
  | some (o, .error (.fault acc f)) => if o.orphan then x.1.abandon ops o else x.1.holdOp o acc f
  | _ =>
    x.2.foldl (fun s p =>
      match p.2 with
      | .error _ => s.updOp p.1.id.die p.1 { p.1 with started := true, failed := true }
      | .ok (o', ls) =>
        let bs := p.1.result srcs
        (s.writeRank o' ls bs).updOp p.1.id.die p.1
          { o' with started := true, asked := 0, raw := [], poison := bs.any Prod.snd, at_ := x.1.cycle + 1 }) x.1

/-- COLLECTIVE_INSTANCE_START: once every rank of the group has issued, the instance starts; ranks that
disagree all fail. -/
def execCollectiveInstanceStart (grp : Fin 16) (s : State) : Out :=
  let n := (vget s.joist.groups grp).nrank
  let ops := s.instance_ grp
  if ops.isEmpty ∨ ops.length ≠ n then .next s
  else if !agree ops then .next (ops.foldl (fun s o => s.endOp o 3) s)
  else if ops.any fun o => !s.mayRun o then .next s
  else
    match s.gatherRanks ops with
    | (s, none) => .next s
    | (s, some srcs) => .next (s.moveRanks n ops srcs)

/-! ### Completion of engine operations (07 R169) -/

/-- The outstanding operation that an event names. Operations of a suspended task may stand beside those of the
task that has its context now: a transfer that may not run is passed over. -/
def State.namedOp (s : State) (id : CtxId) (h : BitVec 16) : Option EngineOp :=
  (s.die id.die).engOps.find? fun o => o.id == id && o.handle == h && (!o.kind.copies || s.mayRun o)

/-- A rank's pieces that a peer refused are performed again, unless it is held (15 R377). -/
def State.redoRank (s : State) (o : EngineOp) : State :=
  if o.held || s.opWrites o then s
  else
    match State.redoPieces o.redo s o with
    | (t, o', some (.fault acc f)) => (t.updOp o.id.die o o').holdOp o' acc f
    | (t, o', some .failed) => t.updOp o.id.die o { o' with failed := true, redo := [] }
    | (t, o', _) => t.updOp o.id.die o o'

/-- ENGINE_OPERATION_COMPLETE: a transfer runs to its end, or a collective whose instance has moved ends.
A transfer that waits for a peer goes on as far as it can. -/
def execEngineOperationComplete (id : CtxId) (h : BitVec 16) (s : State) : Out :=
  match s.namedOp id h with
  | none => .next s
  | some o =>
    if o.kind.copies then .next (s.runCopy o false)
    else if !o.redo.isEmpty then .next (s.redoRank o)
    else if o.kind.collective ∧ o.started ∧ !s.opWrites o then
      if o.failed then .next (s.endOp o 3)
      else
        let (s, st) := s.engineStatus o
        .next (s.endOp o st)
    else .next s

/-- ENGINE_PIECE_FAULT: a transfer runs to the piece that faults and is held there (15 R377). -/
def execEnginePieceFault (id : CtxId) (h : BitVec 16) (s : State) : Out :=
  match s.namedOp id h with
  | none => .next s
  | some o => .next (if o.kind.copies then s.runCopy o true else s)

/-! ### The instructions -/

/-- A collective issues. -/
def State.startCollective (s : State) (k : EngineKind) (dst src len : W64) (d : BitVec 6) (pub : Bool) : State :=
  if s.engineFull s.cur then s.block s.cur .engineQueue
  else
    let s := s.commitEarly s.cur
    let o := s.newOp k dst src len 0 pub
    let g := vget s.joist.groups o.grp
    let s := s.takeHandle d
    match g.rankOf s.cur with
    | none => s.issueOp o (some 3)
    | some r =>
      if o.badOperand g.nrank then s.issueOp o (some 3)
      else
        let o := { o with comp := BitVec.ofNat 64 r }
        match State.namePages (spanPages dst (o.dstLen g.nrank)) s o with
        | (s, .error _) => s.issueOp o (some 3)
        | (s, .ok o) =>
          let k := vget g.counts (Fin.ofNat 16 r)
          let s := s.updJoist fun j =>
            { j with groups := vupd j.groups o.grp fun g => { g with counts := vset g.counts (Fin.ofNat 16 r) (k + 1) } }
          s.issueOp { o with inst := k } none

def execCred (g : BitVec 4) (a b : BitVec 3) (s1 d : BitVec 6) (p : BitVec 1) (s : State) : Out :=
  s.slotOp g (.cred g a b s1 d p) fun s => s.startCollective .cred (s.cx.rXP a) (s.cx.rXP b) (s.rS s1) d (p == 1)

def execCbc (g : BitVec 4) (a b : BitVec 3) (s1 d : BitVec 6) (p : BitVec 1) (s : State) : Out :=
  s.slotOp g (.cbc g a b s1 d p) fun s => s.startCollective .cbc (s.cx.rXP a) (s.cx.rXP b) (s.rS s1) d (p == 1)

def execCag (g : BitVec 4) (a b : BitVec 3) (s1 d : BitVec 6) (p : BitVec 1) (s : State) : Out :=
  s.slotOp g (.cag g a b s1 d p) fun s => s.startCollective .cag (s.cx.rXP a) (s.cx.rXP b) (s.rS s1) d (p == 1)

def execCbar (g : BitVec 4) (s1 d : BitVec 6) (s : State) : Out :=
  s.slotOp g (.cbar g s1 d) fun s => s.startCollective .cbar 0 0 (s.rS s1) d false

/-- The bits of the rank words that are not reserved. -/
def rankMask : BitVec 192 := BitVec.ofNat 192 ((List.range 16).foldl (fun m k => m + 0x1FF * 2 ^ (12 * k)) 0)

/-- A group's words written, unless an instance of it is in flight (R405). -/
def State.groupWrite (s : State) (g : Fin 16) (w : Nat) (v : W64) : State :=
  let busy := (fins 8).any fun d => (s.die d).engOps.any fun o => o.kind.collective && o.grp == g
  if busy then s
  else s.updJoist fun j => { j with groups := vupd j.groups g fun x =>
    let zero : Vector Nat 16 := Vector.replicate 16 0
    if w = 0 then { x with word0 := v &&& 0x3F, counts := zero }
    else { x with ranks := setField x.ranks (64 * (w - 1)) 64 v.toNat &&& rankMask, counts := zero } }

end Sys2Proof.Machine
end

