-- ==== Sys2Proof/Machine/Channels.lean ====
section
/-! DEFINITION. Timed channels (16 R386-R392): the meanings of the C slot, and the arrival of flits. -/

namespace Sys2Proof.Machine

/-! ### Descriptors and status (R386, R388) -/

def Channel.v (c : Channel) : Bool := bit c.desc 0
def Channel.own (c : Channel) : Nat := bitsOf c.desc 1 2
def Channel.ext (c : Channel) : Bool := bit c.desc 3
def Channel.lat (c : Channel) : Nat := bitsOf c.desc 32 16
def chanMask : W64 := 0x0000FFFF1FFFFFFF

def Channel.stat (c : Channel) : W64 :=
  BitVec.ofNat 64 (c.seqTx.toNat + 2 ^ 16 * c.seqRx.toNat + 2 ^ 32 * c.queue.length + 2 ^ 36 * b2n c.lost + 2 ^ 37 * b2n c.skew +
    2 ^ 40 * c.drop.toNat + 2 ^ 48 * c.disc.toNat)

/-- Cycles of a path within the package. -/
def pathLatency : Nat := 40

def State.chan (s : State) (d : Fin 8) (c : Fin 16) (n : Fin 32) : Channel := vget (s.core d c).channels n
def State.updChan (s : State) (d : Fin 8) (c : Fin 16) (n : Fin 32) (f : Channel → Channel) : State :=
  s.updCore d c fun k => { k with channels := vupd k.channels n f }
def State.myChan (s : State) (n : BitVec 5) : Channel := s.chan s.cur.die s.cur.core n.toFin
def State.updMyChan (s : State) (n : BitVec 5) (f : Channel → Channel) : State := s.updChan s.cur.die s.cur.core n.toFin f

/-! ### The timetable (R389, R391) -/

/-- The status word. -/
def slotStatus (now u e avail : Nat) : W64 :=
  BitVec.ofNat 64 (b2n (decide (u < e)) + 2 * b2n (decide (u < avail)) + 2 ^ 32 * Nat.min (now - u) 65535)

/-- The ready cycle of an operation: the cycle in which its bundle was first met. -/
def Ctx.readyAt (c : Ctx) (ch : BitVec 5) (t : W64) (now : Nat) : Nat :=
  match c.slotWait with
  | some w => if w.ch = ch.toFin ∧ w.stamp = t then w.ready else now
  | none => now

/-- The channel check, the skew alarm, the stall before the due cycle and SLOTLATE; an operation that passes
them all goes on with its ready cycle. -/
def State.slotGate (s : State) (ch : BitVec 5) (t : W64) (u : Nat) (body : Nat → State → State) : State :=
  let id := s.cur
  let c := s.myChan ch
  let now := s.gtime
  if !c.v ∨ c.own ≠ id.ctx.val then s.trapI cLINKLOST
  else if s.joist.gtAlarm ∧ c.ext then (s.updMyChan ch fun x => { x with skew := true }).trapI cSLOTLATE
  else
    let e := s.cx.readyAt ch t now
    if now < u then
      let s := s.updCx fun x => { x with slotWait := some ⟨ch.toFin, t, e, u, false⟩ }
      { s.setNext id.die id.core (s.cycle + (u - now)) with stalled := true }
    else if u + s.guard < e then
      (s.updMyChan ch fun x => { x with skew := false }).trapI cSLOTLATE
    else body e s

/-- A timed operation issues: its line, poisoned where its flit came so (02 R56), and its status become pending, and
its address register steps. -/
def State.slotDone (s : State) (r : BitVec 4) (m : BitVec 1) (st : BitVec 6) (lat : Nat) (ws : List Write) (flags : Flags)
    (bad : Bool) (status : W64) : State :=
  let s := s.updCx fun c =>
    { c with slotWait := none }.addPend
      ⟨s.cycle + lat, [], [], (if ws.isEmpty then LoadForm.given else LoadForm.popped) (ws ++ (if st = 0 then [] else [c.wS st status])), flags, bad, [], false, false⟩
  s.stepAddr (m == 1) r

/-! ### send (R390) -/

/-- The flit launched: within the package it arrives after the path's latency; through a port it goes to the
member of its circuit, or is dropped there, as it is in a gap and where the replay buffer has no room (log 109). -/
def State.launchFlit (s : State) (n : Fin 32) (c : Channel) (t : W64) (data : BitVec 2048) : State :=
  let id := s.cur
  let seq := c.seqTx + 1
  let die : Fin 8 := Fin.ofNat 8 (bitsOf c.desc 13 3)
  let core : Fin 16 := Fin.ofNat 16 (bitsOf c.desc 16 4)
  let rch : Fin 32 := Fin.ofNat 32 (bitsOf c.desc 20 5)
  if !c.ext then
    s.updJoist fun j => { j with flying := j.flying ++ [⟨s.cycle + pathLatency, die, core, rch, seq, t, data⟩] }
  else
    let q : Fin 16 := Fin.ofNat 16 (bitsOf c.desc 25 4)
    let m : BitVec 9 := field c.desc 4 9
    if s.joist.mvalid && s.joist.circuit m q then
      if s.portQuiet q || !s.joist.replayRoom q then s
      else
        let h : FlitHead := ⟨0, s.joist.member.toNat, m.toNat, id.die.val, die.val, core.val, id.ctx.val, rch.val, false, 32,
          seq.toNat, t.toNat⟩
        s.putFlit q ⟨⟨h.bits, data⟩, some (id, s.cx.task, n)⟩
    else s.updJoist fun j => j.updPort q fun p => { p with nocirc := satAdd p.nocirc 1 }

def execSend (g : BitVec 4) (v ch : BitVec 5) (r : BitVec 4) (m : BitVec 1) (s1 : BitVec 6) (s : State) : Out :=
  s.slotOp g (.send g v ch r m s1) fun s =>
    let t := s.rA r
    s.slotGate ch t t.toNat fun e s =>
      let s := s.launchFlit ch.toFin (s.myChan ch) t (s.cx.rV v)
      let s := s.updMyChan ch fun x => { x with seqTx := x.seqTx + 1 }
      s.slotDone r m s1 1 [] 0 false (slotStatus s.gtime t.toNat e 0)

/-! ### Receives (R387, R389, R390) -/

/-- Flits with a stamp below the receive's are discarded from the head of the queue. -/
def dropStale (t : W64) : List ChFlit → Nat × List ChFlit
  | [] => (0, [])
  | f :: rest => if f.stamp.toNat < t.toNat then let r := dropStale t rest; (r.1 + 1, r.2) else (0, f :: rest)

/-- The lanes of a line. -/
def lanes32 (x : BitVec 2048) : List Nat := (List.range 64).map fun k => bitsOf x (32 * k) 32

def fromLanes (xs : List Nat) : BitVec 2048 := BitVec.ofNat 2048 (xs.foldr (fun x acc => x + 2 ^ 32 * acc) 0)

/-- What a receive makes of its line and the payload, with its flags: 1 `recv`, 2 `recva`, 3 `recvm`. -/
def receiveLine (kind : Nat) (old pay : BitVec 2048) : BitVec 2048 × Flags :=
  match kind with
  | 1 => (pay, 0)
  | k =>
    let rs := ((lanes32 old).zip (lanes32 pay)).map fun x => fnew (if k = 2 then 0 else 2) x.1 x.2
    (fromLanes (rs.map Prod.fst), if k = 2 then rs.foldl (fun f r => f ||| r.2) 0 else 0)

/-- A receive: it takes the flit of its stamp, waits for it, or finds that it has missed it. -/
def State.receive (s : State) (kind : Nat) (v ch : BitVec 5) (r : BitVec 4) (m : BitVec 1) (st : BitVec 6) : State :=
  let t := s.rA r
  let u := t.toNat + (s.myChan ch).lat
  s.slotGate ch t u fun e s =>
    let last := u + s.guard
    let (n, q) := dropStale t (s.myChan ch).queue
    let s := s.updMyChan ch fun x => { x with queue := q, disc := satAdd x.disc n }
    let hit := match q with | f :: _ => f.stamp == t && decide (f.arrived ≤ last) | [] => false
    if hit then
      match q with
      | f :: rest =>
        let s := s.updMyChan ch fun x => { x with queue := rest }
        let (line, fl) := receiveLine kind (s.cx.rV v) f.payload
        s.slotDone r m st (if kind = 1 then 1 else 4) [.v v line (BitVec.allOnes 2048)] fl f.poison (slotStatus s.gtime u e f.arrived)
      | [] => s
    else if last < s.gtime then (s.updCx fun c => { c with slotWait := none }).trapI cSLOTMISS
    else (s.updCx fun c => { c with slotWait := some ⟨ch.toFin, t, e, u, true⟩ }).block s.cur .receive

def execRecv (g : BitVec 4) (v ch : BitVec 5) (r : BitVec 4) (m : BitVec 1) (s1 : BitVec 6) (s : State) : Out :=
  s.slotOp g (.recv g v ch r m s1) fun s => s.receive 1 v ch r m s1

def execRecva (g : BitVec 4) (v ch : BitVec 5) (r : BitVec 4) (m : BitVec 1) (s1 : BitVec 6) (s : State) : Out :=
  s.slotOp g (.recva g v ch r m s1) fun s => s.receive 2 v ch r m s1

def execRecvm (g : BitVec 4) (v ch : BitVec 5) (r : BitVec 4) (m : BitVec 1) (s1 : BitVec 6) (s : State) : Out :=
  s.slotOp g (.recvm g v ch r m s1) fun s => s.receive 3 v ch r m s1

/-- The record of a link loss by number; 0 where none is recorded (R392). -/
def Ctx.linkWord (c : Ctx) (n : Nat) : W64 :=
  match c.links.find? fun x => x.num == n with
  | some x => x.word
  | none => 0

/-- `lstat`: the channel's status or its record, or a port's record. -/
def execLstat (g : BitVec 4) (v ch : BitVec 5) (s1 : BitVec 6) (s : State) : Out :=
  s.slotOp g (.lstat g v ch s1) fun s =>
    if v = 2 then s.pendS s1 1 (s.cx.linkWord (32 + ch.toNat))
    else
      let c := s.myChan ch
      if !c.v ∨ c.own ≠ s.cur.ctx.val then s.trapI cLINKLOST
      else s.pendS s1 1 (if v = 0 then c.stat else s.cx.linkWord ch.toNat &&& 0x800000000000FFFF)

/-! ### Arrivals -/

/-- A flit enters a receive queue of 8, or is dropped and counted; a context that waits for it on the core is ready. -/
def State.flitArrives (s : State) (d : Fin 8) (c : Fin 16) (ch : Fin 32) (seq : BitVec 16) (stamp : W64) (poison : Bool)
    (data : BitVec 2048) : State :=
  if 8 ≤ (s.chan d c ch).queue.length then s.updChan d c ch fun x => { x with drop := satAdd x.drop 1 }
  else
    let s := s.updChan d c ch fun x => { x with seqRx := seq, queue := x.queue ++ [⟨seq, stamp, s.gtime, poison, data⟩] }
    (coreCtxs d c).foldl (fun s id => if (s.ctxOf id).status = .blocked .receive then s.wake id else s) s

/-- CHANNEL_FLIT_ARRIVAL. A flit launched within the package is no longer under way. -/
def execChannelFlitArrival (d : Fin 8) (c : Fin 16) (ch : Fin 32) (seq : BitVec 16) (stamp : BitVec 64) (payload : BitVec 2048)
    (s : State) : Out :=
  let mine (f : Flying) : Bool := f.die == d && f.core == c && f.ch == ch && f.seq == seq && f.stamp == stamp && f.payload == payload
  let s := match s.joist.flying.find? mine with
    | some f => s.updJoist fun j => { j with flying := j.flying.erase f }
    | none => s
  .next (s.flitArrives d c ch seq stamp false payload)

/-- SLOT_GUARD_EXPIRY: the guard of a waiting receive is past, and its bundle meets SLOTMISS. -/
def execSlotGuardExpiry (id : CtxId) (s : State) : Out :=
  let c := s.ctxOf id
  .next (match c.slotWait with
    | some w => if c.status = .blocked .receive ∧ w.slot + s.guard < s.gtime then s.wake id else s
    | none => s)

end Sys2Proof.Machine
end

