-- ==== Sys2Proof/Machine/Nop.lean ====
section
/-! DEFINITION. The empty bundle (10 R235, R240, R241): a header alone, in which only sticky slots issue. -/

namespace Sys2Proof.Machine

/-- The meanings of the operations that a sticky state can re-issue (R240). -/
def stickyMeaning : Meaning := fun i s =>
  match i with
  | .tld g t q r m s1 f => execTld g t q r m s1 f s
  | .tst g t q r m s1 f => execTst g t q r m s1 f s
  | .lld g d r m f x => execLld g d r m f x s
  | .lst g d r m f x => execLst g d r m f x s
  | .tldg g t q r m s1 f => execTldg g t q r m s1 f s
  | .tsts g t q r m s1 f => execTsts g t q r m s1 f s
  | .send g v c r m s1 => execSend g v c r m s1 s
  | .recv g v c r m s1 => execRecv g v c r m s1 s
  | .recva g v c r m s1 => execRecva g v c r m s1 s
  | .recvm g v c r m s1 => execRecvm g v c r m s1 s
  | _ => .next s

/-- A bundle without slots issues: its CLR, its mark, its stall and its repeats are those of any bundle. -/
def execNop (c : BitVec 6) (m : BitVec 1) (t : BitVec 5) (r : BitVec 6) (s : State) : Out :=
  issueBundle stickyMeaning ⟨c, m == 1, t, r, 0⟩ [] s

end Sys2Proof.Machine
end

