-- ==== Sys2Proof/Machine/Errors.lean ====
section
/-! DEFINITION. Invalidations, walks and scans as events (03 R70, R73, R82, R93, R94; 10 R248), single
pieces (06 R136), and errors with their freezes (02 R54-R66, 18 R433). -/

namespace Sys2Proof.Machine

/-! ### Invalidation (R93, R94) -/

/-- A write to TLBINV: refused with ERR for KIND 3, while one is under way, and for a page that is not
canonical. The page of KIND 0 is that of TLBINVVA at this write (log 85). -/
def State.startInv (s : State) (d : Fin 8) (kind : BitVec 2) (asid : Fin 64) (bcast : Bool) : State :=
  s.updDie d fun x =>
    if kind = 3 ∨ x.tlbInv.isSome ∨ (kind = 0 ∧ !canonical x.tlbinvva) then { x with tlbErr := true }
    else { x with tlbInv := some ⟨kind, asid, bcast, vpage x.tlbinvva⟩ }

def execTlbinvPage (d : Fin 8) (asid : Fin 64) (bcast : Bool) (s : State) : Out := .next (s.startInv d 0 asid bcast)
def execTlbinvAsid (d : Fin 8) (asid : Fin 64) (bcast : Bool) (s : State) : Out := .next (s.startInv d 1 asid bcast)
def execTlbinvAll (d : Fin 8) (bcast : Bool) (s : State) : Out := .next (s.startInv d 2 0 bcast)

/-- Whether an invalidation covers a cached leaf. -/
def TlbInv.hits (i : TlbInv) (e : TlbEntry) : Bool :=
  match i.kind.toNat with
  | 0 => e.covers i.asid i.page
  | 1 => e.asid == i.asid
  | _ => true

/-- Whether an invalidation covers an extent of a context. -/
def TlbInv.hitsExtent (i : TlbInv) (asid : Fin 64) (x : Extent) : Bool :=
  match i.kind.toNat with
  | 0 => asid == i.asid && decide (x.page ≤ i.page ∧ i.page < x.page + x.pages)
  | 1 => asid == i.asid
  | _ => true

/-- Whether an invalidation covers an entry of the walk cache: for a page, every entry that its walk passes. -/
def TlbInv.hitsTable (i : TlbInv) (e : TableEntry) : Bool :=
  match i.kind.toNat with
  | 0 => e.asid == i.asid && e.top == vaTop (BitVec.ofNat 64 (i.page * 65536)) e.level
  | 1 => e.asid == i.asid
  | _ => true

/-- Whether an invalidation covers the translation of a virtual address. -/
def TlbInv.hitsVa (i : TlbInv) (asid : Fin 64) (va : W64) : Bool :=
  match i.kind.toNat with
  | 0 => asid == i.asid && vpage va / 8192 == i.page / 8192
  | 1 => asid == i.asid
  | _ => true

/-- The cached translations of a die that an invalidation covers are removed. -/
def Die.purge (x : Die) (i : TlbInv) : Die :=
  { x with
    l2tlb := x.l2tlb.filter fun e => !i.hits e
    walks := x.walks.filter fun e => !i.hitsTable e
    cores := vmapAll x.cores fun _ k =>
      { k with
        l1tlb := k.l1tlb.filter fun e => !i.hits e
        ctxs := vmapAll k.ctxs fun _ c => { c with extents := c.extents.filter fun e => !i.hitsExtent c.asid e } } }

/-- The dies that an invalidation covers. -/
def TlbInv.dies (i : TlbInv) (d : Fin 8) : List (Fin 8) := if i.bcast then fins 8 else [d]

/-- Whether an invalidation covers a store that a context holds, which uses a translation that is removed (R94). -/
def Ctx.holdsUnder (c : Ctx) (i : TlbInv) : Bool := (c.held.flatMap HeldStore.runs).any fun r => i.hitsVa c.asid r.va

/-- The contexts of a die with held stores that an invalidation covers come to a mark at their next boundary, at which those
stores go home: stores go home at a mark, or early for a piece of their own context (06 R151, 18 R428). -/
def State.markUnder (s : State) (i : TlbInv) (d : Fin 8) : State :=
  (dieCtxs d).foldl (fun s id =>
    if (s.ctxOf id).holdsUnder i then s.updCtx id fun c => { c with markDue := true } else s) s

/-- Whether a store that an invalidation covers is still held, or a request that it covers has not left its die: it uses a
translation that is removed, of the address space under which it was issued. -/
def State.usesUnder (s : State) (i : TlbInv) (d : Fin 8) : Bool :=
  ((dieCtxs d).any fun id => (s.ctxOf id).holdsUnder i) ||
  s.joist.peerReqs.any fun r => r.id.die == d && r.place == .atDie && i.hitsVa r.asid r.va

/-- TLBINV_DONE: BUSY returns to 0, once nothing that the invalidation covers remains: no cached translation, no held
store and no request still at its die. -/
def execTlbinvDone (d : Fin 8) (s : State) : Out :=
  match (s.die d).tlbInv with
  | none => .next s
  | some i =>
    let s := (i.dies d).foldl (fun s e => (s.markUnder i e).updDie e fun y => y.purge i) s
    .next (if (i.dies d).any (s.usesUnder i) then s else s.updDie d fun y => { y with tlbInv := none })

/-! ### Walks and scans -/

/-- PAGE_WALK: a missing translation of a context is walked and installed with A set. A walk that faults
installs nothing: the access that needs it reports the fault. -/
def execPageWalk (id : CtxId) (va : BitVec 64) (s : State) : Out :=
  let r := (s.ctxOf id).req id .load true false
  .next (match s.cachedLeaf r va with
    | some _ => s
    | none =>
      match s.findLeaf r va with
      | (t, .ok _) => t
      | (_, .error _) => s)

/-- Whether a context stands at a boundary with a task's bundle before it. -/
def CtxStatus.stands : CtxStatus → Bool
  | .ready => true | .running => true | .blocked w => w != .halt | _ => false

/-- CODE_SCAN: the page of a context's next bundle is scanned before it is installed; a page that fails is
not installed, the driver hears of it, and the context is suspended. -/
def execCodeScan (id : CtxId) (va : BitVec 64) (s : State) : Out :=
  let c := s.ctxOf id
  let r := c.req id .fetch true false
  if (s.cachedLeaf r va).isSome then .next s
  else
    match s.findLeaf r va with
    | (t, .ok (leaf, _, _)) => .next (if lfX leaf then t else s)
    | (_, .error (.scan frame off check)) =>
      if c.status.stands ∧ vpage c.arch.pc = vpage va then
        let s := s.postEvent id.die 0x0D (s.srcOf id) (frame * 65536) (off + check * 65536)
        .next (s.takeTrap id ((s.ctxOf id).faultRec .fetch ⟨va, .scan frame off check⟩) false)
      else .next s
    | (_, .error _) => .next s

/-! ### Pieces (R136) -/

/-- Whether n bytes at an address are one piece of storage of the package. -/
def isPiece (pa n : Nat) : Bool :=
  isDev pa && decide (0 < n ∧ pa / atomSize .dev pa = (pa + n - 1) / atomSize .dev pa)

/-- Poison set by other than a write: no dirty bit is set (R64), and a write of the same cycle came before it (R59). -/
def State.scrubPoison (s : State) (pa : Nat) : State :=
  let u := pa / unitSize pa * unitSize pa
  { s with
    poison := insertNat u s.poison
    scrubbed := if s.scrubAt = s.cycle then u :: s.scrubbed else [u]
    scrubAt := s.cycle }

/-- An uncorrectable error arises: in a unit of the package's storage, found when it is next read, or in what the host
answers to the next read that a die makes of 64 bytes (R53, R56). -/
def State.failCell (s : State) (d : Fin 8) (pa : Nat) : State :=
  if isDev pa then s.scrubPoison pa
  else if region pa = .host ∧ !s.hostBad.contains (d, pa / 64 * 64) then { s with hostBad := s.hostBad ++ [(d, pa / 64 * 64)] }
  else s

/-- PIECE_PERFORM: one piece of a core of the owning die, performed at its home; or an error that arises there. -/
def execPiecePerform (pa : BitVec 52) (op : PieceOp) (s : State) : Out :=
  let a := pa.toNat
  let die := homeDie a
  let core := (homeCore a).val
  let atom (n : Nat) (f : Update) : State := if isPiece a n ∧ a % n = 0 then (s.updateAt a n f die core 4).1 else s
  .next (match op with
    | .read n => if isPiece a n then s.recordUnits a n 0 die core else s
    | .write bytes => if isPiece a bytes.length then s.devWrite a bytes else s
    | .amo w o x => let n := if w then 8 else 4; atom n (amoUpdate n o.toNat (x.toNat % 2 ^ (8 * n)))
    | .cas w c x => let n := if w then 8 else 4; atom n (casUpdate (c.toNat % 2 ^ (8 * n)) (x.toNat % 2 ^ (8 * n)))
    | .famo o x => atom 4 (famoUpdate o.toNat x.toNat)
    | .fail d => s.failCell d a)

/-! ### Errors (R54, R55, R59, R62) -/

/-- A field of ECCCNT raised by one, saturating. -/
def bumpEcc (w : W64) (k : Nat) : W64 := setField w (16 * k) 16 (satAdd (field w (16 * k) 16) 1).toNat

/-- A correctable error freezes the core that its data is bound for by 24 cc, and an overlapping one to the
later end. -/
def Core.eccFreeze (k : Core) (now g : Nat) : Core :=
  let old := Nat.max now k.frozenUntil
  let till := Nat.max old (now + 24)
  let k' := k.freeze now g (till - now)
  { k' with frzEcc := satAdd k.frzEcc (till - old) }

/-- CORRECTABLE_ERROR: counted by the die that owns the storage, and a core that the data is bound for, of that or
another die, is frozen. -/
def execCorrectableError (d : Fin 8) (place : ErrPlace) (core : Option (Fin 8 × Fin 16)) (s : State) : Out :=
  let k := match place with | .scratchpad => 0 | .dram => 1 | .regFile => 2
  let s := s.updDie d fun x => { x with ecccnt := bumpEcc x.ecccnt k }
  .next (match core with
    | some c => s.updCore c.1 c.2 fun x => x.eccFreeze s.cycle s.gtime
    | none => s)

/-- FREEZE_END: the end of a core's freeze. -/
def execFreezeEnd (d : Fin 8) (c : Fin 16) (s : State) : Out :=
  .next (s.updCore d c fun k => if k.frozenUntil ≤ s.cycle then { k with frozenUntil := 0 } else k)

/-- SCRUB_READ: a unit is read; a correctable error is rewritten and counted, an uncorrectable one poisons
the unit and is recorded. -/
def execScrubRead (pa : BitVec 52) (found : ScrubFinding) (s : State) : Out :=
  let a := pa.toNat
  let d := homeDie a
  if !isDev a ∨ !bit (s.die d).mscrub 0 then .next s
  else
    .next (match found with
      | .clean => s
      | .correctable =>
        s.updDie d fun x => { x with ecccnt := bumpEcc (bumpEcc x.ecccnt (if region a = .spad then 0 else 1)) 3 }
      | .uncorrectable => (s.scrubPoison a).recordAt a 5 d 0)

end Sys2Proof.Machine
end

