-- ==== Sys2Proof/Machine/Switch.lean ====
section
/-! DEFINITION. What happens to a context at a boundary by time alone: switches, quantum, pin limit and
watchdog (08 R198-R205), and the delivery of traps that had to wait (18 R424). -/

namespace Sys2Proof.Machine

/-- Whether a core stands still: a trap, a save or a switch waits for the end of its freeze (18 R433). -/
def State.frozen (s : State) (id : CtxId) : Bool := decide (s.cycle < (s.core id.die id.core).frozenUntil)

/-- CONTEXT_SWITCH: the first ready context of a core that idles takes it (R199). -/
def execContextSwitch (d : Fin 8) (c : Fin 16) (s : State) : Out := .next (if s.frozen ⟨d, c, 0⟩ then s else s.switchIn d c)

/-- QUANTUM_EXPIRY: the running context has issued its 4,096 bundles and another one is ready. -/
def execQuantumExpiry (d : Fin 8) (c : Fin 16) (s : State) : Out :=
  .next (match (s.core d c).running with
    | none => s
    | some x =>
      let id : CtxId := ⟨d, c, x⟩
      let k := s.ctxOf id
      if k.status = .running ∧ k.quantum = 0 ∧ !k.pin ∧ s.otherReady id ∧ !s.frozen id then s.giveUp id .ready else s)

/-- A pin of a context has lasted PINMAX (R201). -/
def State.pinOver (s : State) (id : CtxId) : Bool :=
  let c := s.ctxOf id
  c.pin && decide (Nat.max 1 (s.die id.die).pinmax.toNat ≤ s.cycle - c.pinStart)

/-- PINMAX_EXPIRY: the pin ends and PINOVR is set; a context that blocks gives up its core. -/
def execPinmaxExpiry (id : CtxId) (s : State) : Out :=
  if s.pinOver id then
    let s := s.updCtx id fun c => c.settleFixed s.cycle
    .next ((s.unpinNow id).updCtx id fun c => { c with pinOvr := true })
  else .next s

/-- A class A cause that a context that has not issued takes at its boundary; XREPORT waits for its next issue unless
it is pinned (09 R223). -/
def Ctx.nextStanding (c : Ctx) : Option (TrapRec × Ctx) :=
  let later := c.pendingA.xreport && !c.pin
  let c : Ctx := { c with pendingA := { c.pendingA with xreport := c.pendingA.xreport && !later } }
  c.nextA.map fun x => (x.1, { x.2 with pendingA := { x.2.pendingA with xreport := x.2.pendingA.xreport || later } })

/-- Whether a cause that goes before WATCHDOG is due at the context's boundary (18 R423). -/
def Ctx.trapPending (c : Ctx) : Bool := c.streamFault.isSome || (if c.status = .running then c.nextA else c.nextStanding).isSome

/-- Whether the watchdog of a context fires (R204, R205). A frozen core's counts stand still. -/
def State.wdFires (s : State) (id : CtxId) : Bool :=
  let c := s.ctxOf id
  ((s.die id.die).wdNow s.cycle).1 && c.wdRuns && c.task.isSome && c.status.stands && !c.trapPending && !s.frozen id &&
  decide (s.wdLimitOf id ≤ c.wdCount s.cycle)

/-- WATCHDOG. -/
def execWatchdog (id : CtxId) (s : State) : Out := .next (if s.wdFires id then s.fireWatchdog id else s)

/-- A cause that came while the context stood at a boundary is taken. -/
def State.standingTrap (s : State) (id : CtxId) : State :=
  let c := s.ctxOf id
  match c.streamFault, c.nextStanding with
  | some t, _ => (s.updCtx id fun c => { c with streamFault := none }).takeTrap id t true
  | none, some (t, c') => (s.updCtx id fun _ => c').takeTrap id t false
  | none, none => s

/-- An uncorrectable error of a register file, met by the bundle of a context: recorded with the register's number, and
the bundle takes ECCUNC (02 R53, R56, R60). R60 names no source for it: SRC 0 with the core (log 100). -/
def State.badRegister (s : State) (id : CtxId) (n : BitVec 8) : State :=
  let s := s.recordError id.die 5 0 id.core 0 (32 * n.toNat)
  s.takeTrap id ((s.ctxOf id).plainRec cECCUNC 0) false

/-- TRAP_DELIVERY: a capture or a save that waited goes on once nothing of the context is outside any
more, and a cause that came while the context stood at a boundary is taken; `x.bad` names a register whose read by the
bundle found two bits wrong. A frozen core takes no trap (18 R433). -/
def execTrapDelivery (x : TrapPoint) (s : State) : Out :=
  let id := x.id
  let c := s.ctxOf id
  .next (if s.frozen id then s else match c.status with
    | .saving =>
      if s.captureWaits id then s
      else match c.trapDue with
        | some t => s.finishTrap id t
        | none => s.finishSave id
    | st =>
      if !st.stands then s
      else match x.bad with
        | some n => s.badRegister id n
        | none => s.standingTrap id)

end Sys2Proof.Machine
end

