-- ==== Sys2Proof/Machine/RegRead.lean ====
section
/-! DEFINITION. The registers of control space and of BAR0 (01 R27-R29; 19 R444): where each lies, what it reads as, and what
the host reads through a BAR. -/

namespace Sys2Proof.Machine

/-- The registers of a die block, and those that only BAR0 reaches. -/
inductive DieReg where
  | capid | dieid | matom | msize | tcap | habase | asroot (n : Fin 64)
  | qbase (q : Fin 64) | qcfg (q : Fin 64) | qpos (q : Fin 64) | qkick (q : Fin 64) | qseqb (q : Fin 64)
  | pbtab | pbcfg | pbstat
  | kvbase | kvcfg | kvfrb | kvfrpos | kvrlb | kvrlpos | kvstat
  | merrs | merra | ecccnt | mscrub
  | scmd | sstat | scfg | svbase | svcfg | pinmax | wdcfg | ttstat (n : Fin 1024)
  | tlbinv | tlbinvva | tlbinvst
  | cestat (e : Fin 4) | cectl (e : Fin 4) | cebytes (e : Fin 4)
  | bscfg | bsstat (k : Fin 8) | bshold (k : Fin 8) | bsid (k : Fin 8) | bscap | mlcnt | rprcnt | rpfcnt | rvkcnt
  | xcalst (c : Fin 16) | calcfg (c : Fin 16) | xdesk (c : Fin 16) (l : Fin 8)
  | dirty (c : Fin 16) (n : Nat) | dtclr (c : Fin 16) | chan (c : Fin 16) (n : Fin 32) | chstat (c : Fin 16) (n : Fin 32)
  | frzcnt (c : Fin 16) | clim (c : Fin 16)
  | eqbase | eqcfg | eqpos | mbstat | mbcmd
deriving DecidableEq, Repr

/-- The registers of the Joist block. -/
inductive JoistReg where
  | ctlane (l : Fin 8) | ctstat | ctpwr | jloss (d : Fin 8) | eloss (q : Fin 16)
  | rman | rmannx | rpos | rgov
  | gtcfg | gtoff | veqcfg | group (g : Fin 16) (w : Fin 4)
  | combcfg | combstat (k : Fin 5) | combcmd
  | epcfg (q : Fin 16) | epstat (q : Fin 16) | epcirc (q : Fin 16) | eplat (q : Fin 16) | epgap (q : Fin 16) | epgapp (q : Fin 16)
  | eppwr (q : Fin 16) | eplane (q : Fin 16) (l : Fin 34) | pseqin (q : Fin 16) (n : Nat)
deriving DecidableEq, Repr

inductive Reg where
  | die (d : Fin 8) (r : DieReg)
  | joist (r : JoistReg)
  /-- Half `h` of MSI-X table entry `n`, and the pending-bit array. -/
  | msix (n : Fin 64) (h : Fin 2)
  | msixPba
deriving DecidableEq, Repr

/-! ### Places (01 R28; 17 R410, R419; 05 R133, R134; 16 R400) -/

/-- An element of an evenly spaced array of n. -/
def slotAt (n : Nat) (off base step : Nat) : Option (Fin n) :=
  if h : (off - base) / step < n then
    if base ≤ off ∧ (off - base) % step = 0 then some ⟨(off - base) / step, h⟩ else none
  else none

def queueRegAt (o : Nat) : Option DieReg :=
  let q : Fin 64 := Fin.ofNat 64 (o / 0x40)
  if 0x1000 ≤ o then none
  else match o % 0x40 with
    | 0x00 => some (.qbase q) | 0x08 => some (.qcfg q) | 0x10 => some (.qpos q) | 0x18 => some (.qkick q) | 0x20 => some (.qseqb q)
    | _ => none

def cmdRegAt (o : Nat) : Option DieReg :=
  match o with
  | 0xD00000 => some .pbtab | 0xD00008 => some .pbcfg | 0xD00010 => some .pbstat
  | 0xE00000 => some .kvbase | 0xE00008 => some .kvcfg | 0xE00010 => some .kvfrb | 0xE00018 => some .kvfrpos
  | 0xE00020 => some .kvrlb | 0xE00028 => some .kvrlpos | 0xE00030 => some .kvstat
  | 0xF00000 => some .merrs | 0xF00008 => some .merra | 0xF00010 => some .ecccnt | 0xF00018 => some .mscrub
  | _ => queueRegAt o

def schedRegAt (o : Nat) : Option DieReg :=
  match o with
  | 0x000 => some .scmd | 0x008 => some .sstat | 0x010 => some .scfg | 0x020 => some .svbase | 0x028 => some .svcfg
  | 0x100 => some .pinmax | 0x108 => some .wdcfg
  | _ => (slotAt 1024 o 0x1000 8).map .ttstat

def boardRegAt (o : Nat) : Option DieReg :=
  match o with
  | 0x000 => some .bscfg | 0x0C8 => some .bscap | 0x0D0 => some .mlcnt | 0x0D8 => some .rprcnt | 0x0E0 => some .rpfcnt
  | 0x0E8 => some .rvkcnt
  | _ => match slotAt 8 o 0x008 8, slotAt 8 o 0x048 8, slotAt 8 o 0x088 8 with
    | some k, _, _ => some (.bsstat k)
    | _, some k, _ => some (.bshold k)
    | _, _, some k => some (.bsid k)
    | _, _, _ => none

def pdeRegAt (o : Nat) : Option DieReg :=
  let c : Fin 16 := Fin.ofNat 16 (o / 0x100000)
  match o % 0x100000 with
  | 0x1000 => some (.xcalst c)
  | 0x1008 => some (.calcfg c)
  | r => (slotAt 8 r 0x1040 8).map (.xdesk c)

def windowRegAt (o : Nat) : Option DieReg :=
  let c : Fin 16 := Fin.ofNat 16 (o / 0x100000)
  let r := o % 0x100000
  if 0x80000 ≤ r ∧ r < 0x80800 then some (.dirty c ((r - 0x80000) / 8))
  else match r with
    | 0x80800 => some (.dtclr c)
    | 0x90200 => some (.frzcnt c)
    | 0x90208 => some (.clim c)
    | _ => match slotAt 32 r 0x90000 8, slotAt 32 r 0x90100 8 with
      | some n, _ => some (.chan c n)
      | _, some n => some (.chstat c n)
      | _, _ => none

def dieRegAt (o : Nat) : Option DieReg :=
  let r := o % 0x1000000
  match o / 0x1000000 with
  | 0 => match r with
    | 0x00 => some .capid | 0x08 => some .dieid | 0x10 => some .matom | 0x18 => some .msize | 0x20 => some .tcap | 0x28 => some .habase
    | _ => (slotAt 64 r 0x100000 8).map .asroot
  | 1 => cmdRegAt r
  | 2 => schedRegAt r
  | 3 => match r with | 0 => some .tlbinv | 8 => some .tlbinvva | 16 => some .tlbinvst | _ => none
  | 4 =>
    let e : Fin 4 := Fin.ofNat 4 (r / 0x400000)
    match r % 0x400000 with | 0 => some (.cestat e) | 8 => some (.cectl e) | 16 => some (.cebytes e) | _ => none
  | 5 => boardRegAt r
  | 6 => pdeRegAt r
  | 7 => windowRegAt r
  | _ => none

def portRegAt (o : Nat) : Option JoistReg :=
  let q : Fin 16 := Fin.ofNat 16 (o / 0x100000)
  let r := o % 0x100000
  match r with
  | 0x00 => some (.epcfg q) | 0x08 => some (.epstat q) | 0x10 => some (.epcirc q) | 0x18 => some (.eplat q)
  | 0x20 => some (.epgap q) | 0x28 => some (.epgapp q) | 0x30 => some (.eppwr q)
  | _ => match slotAt 34 r 0x100 8, slotAt 2560 r 0x10000 8 with
    | some l, _ => some (.eplane q l)
    | _, some n => some (.pseqin q n.val)
    | _, _ => none

def joistRegAt (o : Nat) : Option JoistReg :=
  let r := o % 0x1000000
  match o / 0x1000000 with
  | 0 => match r with
    | 0x40 => some .ctstat | 0x48 => some .ctpwr
    | _ => match slotAt 8 r 0 8, slotAt 8 r 0x80 8, slotAt 16 r 0x100 8 with
      | some l, _, _ => some (.ctlane l)
      | _, some d, _ => some (.jloss d)
      | _, _, some q => some (.eloss q)
      | _, _, _ => none
  | 1 => match r with | 0 => some .rman | 8 => some .rmannx | 16 => some .rpos | 24 => some .rgov | _ => none
  | 2 => match r with
    | 0 => some .gtcfg | 8 => some .gtoff | 0x20 => some .veqcfg
    | _ => (slotAt 64 r 0x1000 8).map fun n => .group (Fin.ofNat 16 (n.val / 4)) (Fin.ofNat 4 n.val)
  | 3 => match r with
    | 0 => some .combcfg | 0x40 => some .combcmd
    | _ => (slotAt 5 r 0x08 8).map .combstat
  | 4 => portRegAt r
  | _ => none

/-- The register of a control-space offset that is a multiple of 8. -/
def ctrlRegAt (off : Nat) : Option Reg :=
  let b := off / 0x10000000
  let o := off % 0x10000000
  if b < 8 then (dieRegAt o).map (.die (Fin.ofNat 8 b)) else if b = 8 then (joistRegAt o).map .joist else none

/-- The register of an 8-byte-aligned BAR0 offset (19 R444, R445, R447, R449). -/
def bar0DieReg (o : Nat) : Option DieReg :=
  match o with
  | 0 => some .mbstat | 8 => some .mbcmd
  | 0x200000 => some .eqbase | 0x200008 => some .eqcfg | 0x200010 => some .eqpos
  | _ => if 0x100000 ≤ o then queueRegAt (o - 0x100000) else none

def bar0RegAt (off : Nat) : Option Reg :=
  if off < 0x8000000 then (bar0DieReg (off % 0x1000000)).map (Reg.die (Fin.ofNat 8 (off / 0x1000000)))
  else if off = 0x8001000 then some .msixPba
  else (slotAt 128 off 0x8000000 8).map fun n => .msix (Fin.ofNat 64 (n.val / 2)) (Fin.ofNat 2 n.val)

/-! ### What the registers show -/

def descPrio (w : List W64) : Fin 8 := Fin.ofNat 8 (bitsOf (wordAt w 6) 0 3)
def Task.prio (t : Task) : Fin 8 := descPrio t.desc
def State.task (s : State) (d : Fin 8) (n : Nat) : Option Task := alookup n (s.die d).tasks
def State.queue (s : State) (d : Fin 8) (q : Fin 64) : Queue := vget (s.die d).queues q

/-- A command is in progress: a SUSPEND whose save is not over. -/
def Die.schedBusy (x : Die) : Bool := x.tasks.any fun p => p.2.state == .saving && p.2.suspendTo


/-- Least margin of a lane over its points, 0 while unlit; a comb that gives no light leaves a deficit. -/
def State.laneMargin (s : State) (l : Fin 8) : BitVec 16 :=
  let r := (vget s.joist.lanes l).reg
  if !laneLit r then 0
  else if s.joist.combDown l then Config.laneDeficit l.val s.cycle
  else match (s.joist.points r).map fun p => p.2.1 - p.2.2 with
    | [] => 0
    | x :: xs => BitVec.ofInt 16 (xs.foldl min x)

/-- CTLANE as it reads. -/
def State.laneRead (s : State) (l : Fin 8) : W64 :=
  (vget s.joist.lanes l).reg ||| ((s.laneMargin l).setWidth 64 <<< 32)

/-- COMBSTAT of a comb. -/
def State.combStat (s : State) (k : Fin 5) : W64 :=
  let c := vget s.joist.combs k
  BitVec.ofNat 64 (c.state.toNat + 0x10 * c.forC.toNat + 2 ^ 16 * c.power.toNat + 2 ^ 32 * (Config.combTemp k.val s.cycle).toNat +
    2 ^ 48 * c.swaps.toNat)

/-- SLOTW as it acts, and GTOFF as it reads (R382). -/
def Joist.slotw (j : Joist) : Nat := Nat.max 1 j.gtSlotw.toNat
def Joist.gtoff (j : Joist) : W64 := BitVec.ofNat 64 (j.gtOff.toNat + 2 ^ 32 * j.gtSkew.toNat)

/-- Spares that carry traffic, and EPSTAT (R400). -/
def Port.spares (p : Port) : Nat := ((fins 34).filter fun l => (vget p.lanes l).state == .carrying).length
def Port.epstat (p : Port) : W64 :=
  BitVec.ofNat 64 (b2n p.up + 2 * b2n p.degraded + 4 * p.spares + 2 ^ 8 * p.badf.toNat + 2 ^ 24 * p.nocirc.toNat + 2 ^ 40 * p.lost.toNat)

def State.mbBusy (s : State) (d : Fin 8) : Bool := s.mbQueue.any fun c => c.die == d

/-- MBSTAT. -/
def BootState.code : BootState → Nat
  | .reset => 0 | .rom => 1 | .selftest => 2 | .ready => 3 | .safe => 4

def State.mbstat (s : State) (d : Fin 8) : W64 :=
  let x := s.die d
  BitVec.ofNat 64 (s.boot.code + 0x10 * b2n (s.mbBusy d) + 0x20 * b2n x.mbDone + 0x40 * b2n x.mbErr +
    0x100 * (if s.boot = .safe then s.stage.toNat else 0) + 0x10000 * x.mbSeq.toNat)

/-- The failure record. -/
def State.failRecord (s : State) : BitVec 512 :=
  BitVec.ofNat 512 ((if s.boot = .safe then s.stage.toNat else 0) + 2 ^ 8 * s.failDie.toNat + 2 ^ 11 * s.failUnit.toNat +
    2 ^ 16 * s.failDetail.toNat + 2 ^ 64 * s.failTime.toNat)

/-! ### Reads -/

def Queue.qcfgWord (x : Queue) : W64 :=
  BitVec.ofNat 64 (b2n x.en + 2 * b2n x.err + 4 * b2n x.fault + 2 ^ 8 * x.asid.val + 2 ^ 16 * x.slog.toNat)

def TaskState.code : TaskState → Nat
  | .free => 0 | .dispatching => 1 | .dfault => 2 | .resident => 3 | .saving => 4 | .saved => 5 | .suspended => 6 | .ending => 7

/-- Whether a task has a context. -/
def TaskState.seated : TaskState → Bool
  | .dispatching => true | .resident => true | .saving => true | .ending => true | _ => false

/-- TTSTAT of a task. -/
def Task.stat (t : Task) : W64 :=
  BitVec.ofNat 64 (t.state.code + 2 ^ 4 * t.prio.val + 2 ^ 8 * t.queue.val +
    (if t.state.seated then 2 ^ 14 * t.ctx.val + 2 ^ 16 * t.core.val else 0) + 2 ^ 24 * t.cause.toNat)

/-- CESTAT of an engine (15 R375); QDEPTH is its 8 bits. -/
def Die.cestat (x : Die) (e : Fin 4) : W64 :=
  let g := vget x.engines e
  let ops := x.engOps.filter fun o => o.engine == some e
  let run := if g.hw then none else ops.head?
  let id : Nat × Nat := match run with | some o => (o.id.core.val, o.id.ctx.val) | none => (0, 0)
  BitVec.ofNat 64 (ops.length % 256 + 2 ^ 8 * b2n (g.hw || run.isSome) + 2 ^ 9 * b2n (run.any fun o => o.held) + 2 ^ 10 * b2n g.hw +
    2 ^ 16 * id.1 + 2 ^ 20 * id.2 + 2 ^ 32 * g.done.toNat)

def State.dieRegRead (s : State) (d : Fin 8) (r : DieReg) : W64 :=
  let x := s.die d
  match r with
  | .capid => capid | .dieid => s.dieid d | .matom => matom | .msize => msize | .tcap => tcap
  | .habase => x.habase
  | .asroot n => vget x.asroot n
  | .qbase q => (s.queue d q).qbase
  | .qcfg q => (s.queue d q).qcfgWord
  | .qpos q => BitVec.ofNat 64 ((s.queue d q).head.toNat + 2 ^ 32 * (s.queue d q).tail.toNat)
  | .qkick _ => 0
  | .qseqb q => (s.queue d q).qseqb
  | .pbtab => x.pbtab
  | .pbcfg => x.pbcfg
  | .pbstat => BitVec.ofNat 64 (b2n x.pbErr + 2 ^ 32 * x.pubcnt.toNat)
  | .kvbase => x.kvbase
  | .kvcfg => x.kvcfg
  | .kvfrb => x.kvfrb
  | .kvfrpos => frPos x
  | .kvrlb => x.kvrlb
  | .kvrlpos => rlPos x
  | .kvstat => BitVec.ofNat 64 (b2n x.kvErr + 2 * b2n x.kvEmpty + 4 * b2n x.kvFull + 2 ^ 16 * x.kvCows.toNat + 2 ^ 48 * x.kvMigs.toNat)
  | .merrs => x.merrs
  | .merra => x.merra
  | .ecccnt => x.ecccnt
  | .mscrub => x.mscrub
  | .scmd => 0
  | .sstat => BitVec.ofNat 64 (b2n x.schedBusy + 2 * b2n x.schedErr + 2 ^ 16 * x.tasks.length)
  | .scfg => BitVec.ofNat 64 (b2n x.schedEn + 2 ^ 8 * x.deppoll.toNat)
  | .svbase => x.svbase
  | .svcfg => x.svcfg.setWidth 64
  | .pinmax => x.pinmax.setWidth 64
  | .wdcfg => BitVec.ofNat 64 (b2n x.wdEn + 2 ^ 8 * x.wdLimit.toNat)
  | .ttstat n => match s.task d n.val with | some t => t.stat | none => 0
  | .tlbinv => 0
  | .tlbinvva => x.tlbinvva
  | .tlbinvst => BitVec.ofNat 64 (b2n x.tlbInv.isSome + 2 * b2n x.tlbErr)
  | .cestat e => x.cestat e
  | .cectl e => BitVec.ofNat 64 (b2n (vget x.engines e).en)
  | .cebytes e => (vget x.engines e).bytes
  | .bscfg => x.bscfg
  | .bsstat k => (s.slot d k).stat
  | .bshold k => (s.slot d k).hold
  | .bsid k => (s.slot d k).bsid
  | .bscap => x.bscap
  | .mlcnt => x.mlcnt
  | .rprcnt => x.rprcnt
  | .rpfcnt => x.rpfcnt
  | .rvkcnt => x.rvkcnt
  | .xcalst c => (s.core d c).xcalst s.cycle
  | .calcfg c => (s.core d c).calcfg
  | .xdesk c l => BitVec.ofNat 64 ((vget (s.core d c).xdeskDelay l).toNat + 2 ^ 16 * (vget (s.core d c).xdeskResid l).toNat)
  | .dirty c n => field ((s.core d c).dirtyRead s.cycle) (64 * n) 64
  | .dtclr _ => 0
  | .chan c n => (s.chan d c n).desc
  | .chstat c n => (s.chan d c n).stat
  | .frzcnt c =>
    let k := s.core d c
    BitVec.ofNat 64 (k.frzEcc.toNat + 2 ^ 24 * k.frzGov.toNat + 2 ^ 48 * k.frzDefer.toNat)
  | .clim c => (s.core d c).clim.setWidth 64
  | .eqbase => x.eqbase
  | .eqcfg => BitVec.ofNat 64 (b2n x.eqEn + 2 ^ 8 * x.eqSlog.toNat + 2 ^ 12 * x.eqVec.toNat + 2 ^ 32 * x.eqDrops.toNat)
  | .eqpos => BitVec.ofNat 64 (x.eqHead.toNat + 2 ^ 32 * x.eqTail.toNat)
  | .mbstat => s.mbstat d
  | .mbcmd => 0

def PortLane.word (x : PortLane) : W64 :=
  let code := match x.state with
    | .active => 0 | .weak => 1 | .pending => 2 | .swapping => 3 | .spared => 4 | .failed => 5 | .idle => 6 | .carrying => 7
  BitVec.ofNat 64 (code + 2 ^ 8 * x.margin.toNat + 2 ^ 32 * x.corr.toNat + 2 ^ 48 * x.map.toNat)

def State.joistRegRead (s : State) (r : JoistReg) : W64 :=
  let j := s.joist
  let rm (v : Bool) (b : W64) : W64 := setBit b 0 v
  match r with
  | .ctlane l => s.laneRead l
  | .ctstat => BitVec.ofNat 64 (b2n j.ctRefused + 2 * j.ctLane.toNat + 2 ^ 8 * j.ctWho.toNat)
  | .ctpwr => BitVec.ofNat 64 (launch.toNat + 2 ^ 16 * j.ctFloor.toNat + 2 ^ 32 * j.ctExtFloor.toNat)
  | .jloss d => BitVec.ofNat 64 (jloss d.val).toNat
  | .eloss q => BitVec.ofNat 64 (eloss q.val).toNat
  | .rman => rm j.rmanV j.rmanBase
  | .rmannx => rm j.rmannxV j.rmannxBase
  | .rpos => j.rpos
  | .rgov => j.rgov
  | .gtcfg => BitVec.ofNat 64 (j.gtGuard.toNat + 2 ^ 16 * j.gtMaster.toNat + 2 ^ 32 * j.gtSlotw.toNat)
  | .gtoff => j.gtoff
  | .veqcfg => j.veqcfg
  | .group g w => if w = 0 then (vget j.groups g).read0 else field (vget j.groups g).ranks (64 * (w.val - 1)) 64
  | .combcfg => BitVec.ofNat 64 (b2n j.combEn + 2 * b2n j.combAuto + 2 ^ 8 * j.combLoss.toNat)
  | .combstat k => s.combStat k
  | .combcmd => 0
  | .epcfg q => let p := vget j.ports q; BitVec.ofNat 64 (b2n p.en + 2 * b2n p.untimed + 2 ^ 8 * p.linkto.toNat)
  | .epstat q => (vget j.ports q).epstat
  | .epcirc q => let p := vget j.ports q; BitVec.ofNat 64 (p.member.toNat + 2 ^ 9 * b2n p.circ)
  | .eplat q => (vget j.ports q).lat.setWidth 64
  | .epgap q => (vget j.ports q).gap
  | .epgapp q => (vget j.ports q).gapp
  | .eppwr q => let p := vget j.ports q; BitVec.ofNat 64 (p.soft.toNat + 2 ^ 16 * p.hard.toNat + 2 ^ 32 * p.lpwr.toNat)
  | .eplane q l => (vget (vget j.ports q).lanes l).word
  | .pseqin q n => match alookup n (vget j.ports q).pseqin with | some x => BitVec.ofNat 64 (x.toNat + 2 ^ 16) | none => 0

/-- A register as it reads. -/
def State.regRead (s : State) (r : Reg) : W64 :=
  match r with
  | .die d r => s.dieRegRead d r
  | .joist r => s.joistRegRead r
  | .msix n h => field (s.msixEntry n.val) (64 * h.val) 64
  | .msixPba => s.msixPba

/-! ### Reads of control space and of the host (01 R29; 19 R444, R449, R451) -/

/-- Whether an access of 4 or 8 bytes is naturally aligned (01 R29). -/
def aligned48 (off : Nat) (wide : Bool) : Bool := off % (if wide then 8 else 4) == 0

/-- The n bytes of control space from an offset on, within one register; a reserved offset reads as zero. -/
def State.ctrlBytes (s : State) (off n : Nat) : List Byte :=
  let w : W64 := match ctrlRegAt (off / 8 * 8) with | some r => s.regRead r | none => 0
  ((leBytes 8 w.toNat).drop (off % 8)).take n

/-- Whether n bytes from an offset on reach an area of the mailbox: request, response or failure record. -/
def inMailbox (off n : Nat) : Bool := decide (off < 0x8000000 ∧ 0x100 < off % 0x1000000 + n ∧ off % 0x1000000 < 0x440)

/-- A byte of the mailbox areas of a die: request data, response data and the failure record. -/
def State.mailboxByte (s : State) (d : Fin 8) (o : Nat) : Byte :=
  if 0x100 ≤ o ∧ o < 0x200 then field (s.die d).mbReq (8 * (o - 0x100)) 8
  else if 0x200 ≤ o ∧ o < 0x400 then field (s.die d).mbResp (8 * (o - 0x200)) 8
  else if 0x400 ≤ o ∧ o < 0x440 then field s.failRecord (8 * (o - 0x400)) 8
  else 0

/-- Whether n bytes from an offset on have a size and an alignment that registers take (01 R29). -/
def readSize (off n : Nat) : Bool := (n == 4 && aligned48 off false) || (n == 8 && aligned48 off true)

/-- What the host reads from BAR0: the mailbox areas in any size, registers in 4 or 8 bytes; zeros elsewhere, and for another
size or alignment. -/
def State.bar0Read (s : State) (off n : Nat) : List Byte :=
  if inMailbox off n then (List.range n).map fun k => s.mailboxByte (Fin.ofNat 8 (off / 0x1000000)) (off % 0x1000000 + k)
  else if !readSize off n then List.replicate n 0
  else
    let w : W64 := match bar0RegAt (off / 8 * 8) with | some r => s.regRead r | none => 0
    ((leBytes 8 w.toNat).drop (off % 8)).take n

/-- What the host reads from BAR2, which is control space: zeros in SAFE, beyond its end, and for a size or an alignment that
no register takes. -/
def State.bar2Read (s : State) (off n : Nat) : List Byte :=
  if s.boot = .safe ∨ !readSize off n ∨ 2 ^ 32 ≤ off then List.replicate n 0 else s.ctrlBytes off n

end Sys2Proof.Machine
end

