-- ==== Sys2Proof/Machine/Sched.lean ====
section
/-! DEFINITION. The command processor and scheduler of a die: queues and descriptors, eligibility, dispatch and
resume, pre-emption, completion, and the driver's commands (17 R410-R420, 08 R182-R186, 19 R448). -/

namespace Sys2Proof.Machine

/-! ### Fields of a descriptor (R182) -/

def descPersist (w : List W64) : Bool := bit (wordAt w 6) 16
def descBoard (w : List W64) : Bool := bit (wordAt w 6) 18
/-- The cores that may run the tasks (R416). -/
def descCores (w : List W64) : BitVec 16 := if bit (wordAt w 6) 17 then field (wordAt w 6) 32 16 else 0xFFFF
def descSeg (w : List W64) : BitVec 16 := field (wordAt w 7) 0 16
def descDone (w : List W64) : W64 := wordAt w 11 &&& ~~~7#64
def descDoneKind (w : List W64) : Bool := bit (wordAt w 11) 0

/-- The ten declared ranges. -/
def descRanges (w : List W64) : List OpRange :=
  (List.range 10).map fun j =>
    let l := wordAt w (13 + 2 * j)
    ⟨wordAt w (12 + 2 * j), bitsOf l 0 40, bit l 40, bit l 41⟩

def Launch.prio (l : Launch) : Fin 8 := descPrio l.desc


/-! ### Queue registers (R410, R411) -/

/-- SLOG: 13 to 15 act as 12. -/
def Queue.log (x : Queue) : Nat := Nat.min 12 x.slog.toNat

/-- QKICK. -/
def execQkick (d : Fin 8) (q : Fin 64) (val : BitVec 64) (s : State) : Out :=
  .next (s.updQueue d q fun x =>
    let t : BitVec 32 := field val 0 32
    if 2 ^ x.log < (t - x.head).toNat ∨ (t - x.head).toNat < (x.tail - x.head).toNat then { x with err := true }
    else { x with tail := t })

/-- A write to QCFG; clearing EN ends the retries of a sequence word (19 R448). -/
def execQcfgWrite (d : Fin 8) (q : Fin 64) (val : BitVec 64) (s : State) : Out :=
  .next (s.updQueue d q fun x =>
    let asid : Fin 64 := Fin.ofNat 64 (bitsOf val 8 6)
    let slog : BitVec 4 := field val 16 4
    let bad := (asid != x.asid || slog != x.slog) && x.head != x.tail
    { x with
      en := bit val 0
      err := (x.err && !bit val 1) || bad
      fault := x.fault && !bit val 2
      asid := if bad then x.asid else asid
      slog := if bad then x.slog else slog
      seqTry := if bit val 0 then x.seqTry else 0 })

/-! ### Reads of the scheduler (R412, R413, R183) -/

/-- Bytes that the scheduler reads, or why it cannot: a fault, poison, or a peer without a circuit, for which it waits. -/
inductive SchedRead where
  | ok (bs : List Byte) | fault | poison | waits
deriving DecidableEq, Repr

/-- One part read by the scheduler: what another package holds is what that package answers (log 30), and a register
reads whole in 4 or 8 bytes (01 R29). -/
def State.schedPart (s : State) (d : Fin 8) (p : Part) : State × SchedRead :=
  let a := p.loc.addr
  match p.loc.space with
  | .dev => if s.poisoned a p.n then (s.recordUnits a p.n 0 d 0, .poison) else (s, .ok (s.devRead a p.n))
  | .host =>
    if s.hostPoisoned d a p.n then (s.hostArrive d a p.n 0 0, .poison) else (s, .ok (s.hostRead (s.hostAddr d a) p.n))
  | .peer m =>
    if !s.joist.mvalid then (s, .fault)
    else if s.isSelf m then
      if peerRefuses a then (s, .fault)
      else if s.poisoned a p.n then (s.recordLoop d m a p.n 0 0, .poison)
      else (s, .ok (s.devRead a p.n))
    else if s.peerWaits p then (s, .waits)
    else match s.peerBytes m a p.n with
      | some bs => (s, .ok bs)
      | none => (s, .fault)
  | .ctrl => (s, .ok (s.ctrlBytes (a - ctrlBase) p.n))

/-- What a check of a unit that no context runs leaves behind: poison met is recorded, and the driver hears of a page that
the scanner rejects (02 R58, 03 R82). -/
def State.noteUnit (s : State) (d : Fin 8) (src : EvSrc) (core : Nat) (f : XFault) : State :=
  match f with
  | .poison us => s.recordBad us 0 d core
  | .scan frame off check => s.postEvent d 0x0D src (frame * 65536) (off + check * 65536)
  | .trap _ _ _ => s
  | .waits => s

/-- A read through an address space of the die, with firmware's rights or a task's, and PKR 0. -/
def State.schedRead (s : State) (d : Fin 8) (asid : Fin 64) (fw : Bool) (va : W64) (n : Nat) : State × SchedRead :=
  let r : Req := ⟨d, none, asid, 0, fw, .load, true, false, none, false, false, []⟩
  match s.checkAccess r [⟨va, n⟩] with
  | (s, .error f) => (s.noteUnit d noSrc 0 f.fault, match f.fault with | .poison _ => .poison | _ => .fault)
  | (s, .ok ps) =>
    ps.foldl (fun x p => match x.2 with
      | .ok bs =>
        match x.1.schedPart d p with
        | (s, .ok more) => (s, .ok (bs ++ more))
        | y => y
      | _ => x) (s, .ok [])

/-! ### Checks of a descriptor (R183) -/

/-- Reserved bits of the words HDR to OPLEN. -/
def descReserved (w : List W64) : Bool :=
  bitsOf (wordAt w 0) 40 24 != 0 || bitsOf (wordAt w 2) 32 32 != 0 || bitsOf (wordAt w 3) 39 25 != 0 ||
  bitsOf (wordAt w 5) 40 24 != 0 || (wordAt w 6 &&& 0xFFFF0000FFF8C0F8#64) != 0 || bitsOf (wordAt w 7) 16 48 != 0 ||
  bitsOf (wordAt w 8) 32 32 != 0 || bitsOf (wordAt w 11) 1 2 != 0 ||
  (List.range 10).any fun j => bitsOf (wordAt w (13 + 2 * j)) 42 22 != 0

/-- WIDCFG as R183 takes it. -/
def widBad (c : W64) : Bool :=
  let nf := bitsOf c 36 3
  let ws := (List.range 6).map fun k => bitsOf c (6 * k) 6
  nf == 0 || nf == 7 || (ws.take nf).any (· == 0) || (ws.drop nf).any (· != 0) || decide (64 < ws.foldl (· + ·) 0)

/-- The reason 0 to 6 for which a descriptor is rejected (19 R446). -/
def descReason (w : List W64) (q : Fin 64) : Option Nat :=
  if bitsOf (wordAt w 0) 0 40 ≠ 0x14B544431 ∨ descReserved w then some 0
  else if widBad (wordAt w 3) then some 1
  else if bitsOf (wordAt w 1) 0 2 ≠ 0 ∨ bitsOf (wordAt w 2) 0 2 ≠ 0 then some 2
  else if bitsOf (wordAt w 6) 8 6 ≠ q.val then some 3
  else if bit (wordAt w 6) 17 ∧ bitsOf (wordAt w 6) 32 16 = 0 then some 4
  else if bitsOf (wordAt w 10) 0 3 ≠ 0 ∨ (descDoneKind w ∧ bitsOf (wordAt w 11) 3 3 ≠ 0) then some 5
  else if (descRanges w).any fun x => decide (x.len ≠ 0) && !x.rd && !x.wr then some 6
  else none

/-- The format entries of a descriptor, or the reason 7 to 9; no reason where the read waits. -/
def State.readFormats (s : State) (d : Fin 8) (asid : Fin 64) (va : W64) : State × Except (Option Nat) (List (BitVec 32)) :=
  if va = 0 then (s, .ok (List.replicate 16 0))
  else
    match s.schedRead d asid false va 64 with
    | (s, .fault) => (s, .error (some 8))
    | (s, .poison) => (s, .error (some 9))
    | (s, .waits) => (s, .error none)
    | (s, .ok bs) =>
      let es := (List.range 16).map fun k => BitVec.ofNat 32 (leNat ((bs.drop (4 * k)).take 4))
      (s, if es.any fun e => e &&& ~~~0x000F01FF#32 != 0 then .error (some 7) else .ok es)

/-! ### Taking a launch (R412, R413, R448) -/

/-- An accepted launch goes on from its dependency: to the boarding list, or eligible. -/
def State.passDependency (s : State) (d : Fin 8) (q : Fin 64) (l : Launch) : State :=
  if descBoard l.desc then (s.setStage d q .boarding).resolveLaunch d q { l with stage := .boarding }
  else s.setStage d q .eligible

/-- The entry at HEAD is rejected or accepted. -/
def State.takeEntry (s : State) (d : Fin 8) (q : Fin 64) (va : W64) (w : List W64) : State :=
  let x := s.queue d q
  let reject (s : State) (why : Nat) : State :=
    (s.postEvent d 0x04 noSrc (x.where_ q + why * 2 ^ 8) va.toNat).updQueue d q fun x => { x with head := x.head + 1 }
  match descReason w q with
  | some why => reject s why
  | none =>
    match s.readFormats d x.asid (wordAt w 9) with
    | (s, .error (some why)) => reject s why
    | (s, .error none) => s
    | (s, .ok ft) =>
      let n := bitsOf (wordAt w 5) 0 40
      if n = 0 then s.updQueue d q fun x => { x with head := x.head + 1 }
      else
        let l : Launch := ⟨.dependency, w, va, ft, 0, n, 0, false, false, s.cycle⟩
        let s := s.updQueue d q fun x => { x with launch := some l }
        if wordAt w 10 = 0 then s.passDependency d q l else s

/-- A read of the entry or of its sequence word that fails: FAULT, EN = 0, QFAULT. -/
def State.queueFault (s : State) (d : Fin 8) (q : Fin 64) (poison seqWord : Bool) (va : W64) : State :=
  let x := s.queue d q
  let s := s.updQueue d q fun x => { x with fault := true, en := false, seqTry := 0 }
  s.postEvent d 0x05 noSrc (x.where_ q + 2 ^ 8 * b2n poison + 2 ^ 9 * b2n seqWord) va.toNat

/-- Entry HEAD read after its sequence word, if any, which held `seen`. -/
def State.fetchEntry (s : State) (d : Fin 8) (q : Fin 64) (seen : Option (BitVec 32)) : State :=
  let x := s.queue d q
  let va := (x.qbase &&& ~~~0xFF#64) + BitVec.ofNat 64 (256 * (x.head.toNat % 2 ^ x.log))
  match s.schedRead d x.asid true va 256 with
  | (s, .fault) => s.queueFault d q false false va
  | (s, .poison) => s.queueFault d q true false va
  | (s, .waits) => s
  | (s, .ok bs) =>
    if seen.any fun w => w != x.head then
      if 63 ≤ x.seqTry then
        (s.updQueue d q fun x => { x with en := false, seqTry := 0 }).postEvent d 0x14 noSrc (x.where_ q) (seen.getD 0).toNat
      else s.updQueue d q fun x => { x with seqTry := x.seqTry + 1, seqAt := s.cycle + 2000 }
    else (s.updQueue d q fun x => { x with seqTry := 0 }).takeEntry d q va (dwords 32 bs)

/-- Whether a queue is served and has an entry to take. -/
def State.queueReady (s : State) (d : Fin 8) (q : Fin 64) : Bool :=
  let x := s.queue d q
  s.boot == .ready && x.en && x.asid != 0 && x.head != x.tail && x.launch.isNone

/-- The sequence word where QSEQB asks for it, then the entry. -/
def State.serveQueue (s : State) (d : Fin 8) (q : Fin 64) : State :=
  let x := s.queue d q
  if !bit x.qseqb 0 then s.fetchEntry d q none
  else
    let va := (x.qseqb &&& ~~~0xFF#64) + BitVec.ofNat 64 (4 * (x.head.toNat % 2 ^ x.log))
    match s.schedRead d x.asid true va 4 with
    | (s, .fault) => s.queueFault d q false true va
    | (s, .poison) => s.queueFault d q true true va
    | (s, .waits) => s
    | (s, .ok bs) => s.fetchEntry d q (some (BitVec.ofNat 32 (leNat bs)))

/-- DESCRIPTOR_FETCH: the first read of entry HEAD. -/
def execDescriptorFetch (d : Fin 8) (q : Fin 64) (s : State) : Out :=
  .next (if s.queueReady d q ∧ (s.queue d q).seqTry = 0 then s.serveQueue d q else s)

/-- SEQUENCE_RETRY: a later read, every 2,000 cc. -/
def execSequenceRetry (d : Fin 8) (q : Fin 64) (s : State) : Out :=
  let x := s.queue d q
  .next (if s.queueReady d q ∧ x.seqTry ≠ 0 ∧ x.seqAt ≤ s.cycle then s.serveQueue d q else s)

/-- DEPENDENCY_POLL: a read of a launch's counter that is due. -/
def execDependencyPoll (d : Fin 8) (q : Fin 64) (s : State) : Out :=
  let x := s.queue d q
  match x.launch with
  | none => .next s
  | some l =>
    if l.stage ≠ .dependency ∨ l.depFail ∨ s.cycle < l.depAt then .next s
    else
      let va := wordAt l.desc 10
      let fail (s : State) (poison : Bool) : State :=
        (s.postEvent d 0x06 noSrc (x.where_ q + 2 ^ 8 * b2n poison) va.toNat).updQueue d q fun x =>
          { x with launch := some { l with depFail := true } }
      .next (match s.schedRead d x.asid false va 8 with
        | (s, .fault) => fail s false
        | (s, .poison) => fail s true
        | (s, .waits) => s
        | (s, .ok bs) =>
          if leNat bs = 0 then s.passDependency d q l
          else s.updQueue d q fun x => { x with launch := some { l with depAt := s.cycle + Nat.max 1 (s.die d).deppoll.toNat } })

/-! ### Declared ranges (03 R85, R86, R73) -/

/-- The place that the rights of a leaf are checked for. -/
def leafLoc (leaf : W64) (setD : Option Nat) : Loc :=
  let pa := lfFrame leaf * 65536
  let sp : Space := if lfPbuf leaf then .dev else match region pa with
    | .ctrl => .ctrl | .host => .host | .peer => .peer 0 | _ => .dev
  ⟨sp, pa, leaf, setD⟩

/-- One page of a declared range, which is walked (R85): its leaf, with D set for a range that is written. A right refused
is told with the level of the walk (R91). -/
def State.translatePage (s : State) (r : Req) (va : W64) : State × Except XFault (W64 × Bool) :=
  match s.walkLeaf r va with
  | (s, .error f) => (s, .error f)
  | (s, .ok (leaf, big, setD)) =>
    let l := leafLoc leaf setD
    match rightsFault r l 4 with
    | some f => (s, .error (f.atLevel (if big then 2 else 3)))
    | none => (s.setDirtyLeaf r ⟨va, 1, l⟩, .ok (if r.wr then leaf ||| 0x100 else leaf, big))

/-- A page joins the last extent where frames and attributes go on, else opens one. -/
def addPage (xs : List Extent) (rng : BitVec 4) (page : Nat) (leaf : W64) (big : Bool) : List Extent :=
  let fresh := xs ++ [if big then ⟨page / 8192 * 8192, 8192, leaf, rng⟩ else ⟨page, 1, leaf, rng⟩]
  match xs.getLast? with
  | none => fresh
  | some x =>
    if x.range ≠ rng then fresh
    else if big then (if x.page ≤ page ∧ page < x.page + x.pages then xs else fresh)
    else if !lfPbuf leaf ∧ x.page + x.pages = page ∧ lfFrame leaf = lfFrame x.leaf + x.pages ∧
        setField leaf 16 36 0 = setField x.leaf 16 36 0 then
      xs.dropLast ++ [{ x with pages := x.pages + 1 }]
    else fresh

/-- A fault of a declared range: its address and the range. -/
structure RangeFault where
  va    : W64
  range : Nat
  fault : XFault
deriving DecidableEq, Repr

def State.translatePages (d : Fin 8) (asid : Fin 64) (j : Nat) (x : OpRange) :
    List W64 → State → List Extent → State × Except RangeFault (List Extent)
  | [], s, acc => (s, .ok acc)
  | p :: ps, s, acc =>
    let va := if p.toNat < x.va.toNat then x.va else p
    match s.translatePage ⟨d, none, asid, 0, false, .dispatch, x.rd, x.wr, none, false, false, []⟩ va with
    | (s, .error f) => (s, .error ⟨va, j, f⟩)
    | (s, .ok (leaf, big)) => State.translatePages d asid j x ps s (addPage acc (BitVec.ofNat 4 j) (vpage va) leaf big)

/-- Every page of every range in range order; the table holds the first 64 extents. -/
def State.translateRanges (d : Fin 8) (asid : Fin 64) :
    List (OpRange × Nat) → State → List Extent → State × Except RangeFault (List Extent)
  | [], s, acc => (s, .ok (acc.take 64))
  | (x, j) :: rest, s, acc =>
    if x.len = 0 then State.translateRanges d asid rest s acc
    else
      match State.translatePages d asid j x x.pages s acc with
      | (s, .error f) => (s, .error f)
      | (s, .ok acc) => State.translateRanges d asid rest s acc

/-- FINFO of a dispatch fault; KIND and LEVEL are 0 for poison and for a rejected page (log 87). -/
def RangeFault.finfo (f : RangeFault) (asid : Fin 64) : Nat :=
  let (kind, level) := match f.fault with | .trap _ k l => (k, l) | _ => (0, 0)
  kind + 0x10 * 7 + 0x80 * level + 0x1000 * f.range + 0x10000 * asid.val

/-! ### Starting a task (R416, R186, R440, R442) -/

/-- The context of a task dispatched for the first time (R186); its first bundle is a mark. -/
def Task.freshCtx (t : Task) : Ctx :=
  let w := t.desc
  let ft := t.ft
  { Ctx.reset with
    arch := { Arch.reset with
      s := vset (vset Arch.reset.s 1 t.wid) 2 t.descVa
      ft := vmapAll Arch.reset.ft fun n _ => ft.getD n.val 0
      pc := wordAt w 1 + BitVec.ofNat 64 (bitsOf (wordAt w 2) 0 32) }
    wid := t.wid, widcfg := wordAt w 3, persist := descPersist w
    asid := t.asid, ranges := descRanges w, status := .ready, markDue := true }

/-- HELD and CLEN of the 16 tile slots of a task's area are cleared. -/
def State.freshArea (s : State) (d : Fin 8) (n : Nat) : State :=
  let x := s.die d
  if !x.areaOk then s
  else (List.range 16).foldl (fun s k => s.devWrite (x.areaBase n + 0xA00 + 4224 * k) [0, 0, 0, 0]) s

/-- The dirty bits that a first dispatch clears (02 R65). -/
def State.freshDirty (s : State) (id : CtxId) : State :=
  let rs := s.saveRegions id
  s.updCore id.die id.core fun k => k.touchDirty s.cycle 0 (rs.foldl (fun m r => setBit m r true) 0)

/-- The holds of an image taken back: a slot that still shows the capture moves one from PARKED (05 R126). -/
def State.takeHolds (s : State) (id : CtxId) (hs : List HoldRec) : State :=
  hs.foldl (fun s h =>
    let k : Fin 8 := Fin.ofNat 8 h.slot
    let b := s.slot id.die k
    if !h.released ∧ b.bsid = h.bsid ∧ b.parked ≠ 0 then
      (s.grant id k).updSlot id.die k fun b => { b with parked := b.parked - 1 }
    else s) s

/-- The engine operations and block-table requests of a task follow it to its context; a held operation goes
on (15 R377, 13 R311). -/
def State.rebind (s : State) (id : CtxId) (n : Nat) : State :=
  let mine (t : Option (Fin 1024)) : Bool := t.any fun x => x.val == n
  let ops := (s.die id.die).engOps.filter fun o => mine o.task && !o.orphan
  let move (r : PeerReq) : PeerReq := if ops.any fun o => o.id == r.id && r.engine == some o.handle then { r with id := id } else r
  let s := s.updJoist fun j => { j with peerReqs := j.peerReqs.map move }
  s.updDie id.die fun x =>
    { x with
      engOps := x.engOps.map fun o => if mine o.task && !o.orphan then { o with id := id, held := false } else o
      kvReqs := x.kvReqs.map fun q => if mine q.task then { q with id := id } else q }

/-- The armed notices whose operation ended while the task was saved fire with the cycle of that end, those of one cycle in
the order in which they were armed (07 R177, R178). -/
def State.lateNotices (s : State) (id : CtxId) (ended : List (BitVec 16 × Nat)) : State :=
  (s.ctxOf id).notices.foldl (fun s n =>
    match (if n.fired.isNone then ended.find? fun x => x.1 == n.handle else none) with
    | some x => s.fireAt id n ((s.ctxOf id).statusOf n.handle) x.2
    | none => s) s

/-- A freeze deferred before a save is due again. The image keeps no length, and R434 bounds it by 64 cycles
(log 81). -/
def State.keepFreeze (s : State) (id : CtxId) : State :=
  let n := 1 + (Config.keptFreeze s.free).toNat
  ({ s with free := s.free + 1 } : State).updCore id.die id.core fun k => { k with deferred := n }

/-- A saved image restored into a context (18 R442 steps 2 and 3): its latches belong to the checkpoint, its watchdog count
goes on where it stood (08 R204), and the data that the image holds poisoned comes back poisoned (02 R56, log 103). -/
def State.restoreTask (s : State) (id : CtxId) (n : Nat) (t : Task) (xs : List Extent) : State :=
  let base := (s.die id.die).areaBase n
  let poison := s.imagePoison base
  let latchBad := s.imageLatchBad base
  let s := (s.recordBad (s.partsBad (s.imageData base)) 0 id.die id.core).restoreRegions base
  let c := s.readContext base
  let c := { c with
    asid := t.asid, task := some (Fin.ofNat 1024 n), extents := xs, ranges := descRanges t.desc, widcfg := wordAt t.desc 3
    pinStart := s.cycle, handles := t.handles, statuses := t.statuses, xwaited := t.xwaited, keepM := t.keepM, keepC := t.keepC
    pendingA := c.pendingA.restored t.faults, latchPend := t.latchPend, latchBad := t.latchBad ++ latchBad
    poison := t.poison ++ poison.filter fun r => !t.poison.contains r, wdHeld := t.wdCount
    markDue := true, ckpt := ⟨c.arch, c.latches⟩ }
  let s := (s.updCtx id fun _ => c).takeHolds id (s.readHolds base)
  let s := s.updTask id.die n fun t =>
    { t with
      handles := 0, statuses := [], xwaited := none, keepM := none, keepC := none, faults := [], latchPend := [], latchBad := []
      poison := [], doneAt := [], parked := [], wdCount := 0 }
  let s := if bit (s.dev64 (base + 0x7A0)) 1 then s.keepFreeze id else s
  (s.rebind id n).lateNotices id t.doneAt

/-- The fault of a dispatch in an identifier whose root is not valid, at the first declared range (01 R33); without a declared
range, RANGE 15 and VA 0 (log 87). -/
def State.noRoot (s : State) (d : Fin 8) (t : Task) : Option RangeFault :=
  if bit (vget (s.die d).asroot t.asid) 0 then none
  else
    match (descRanges t.desc).zipIdx.find? fun x => decide (x.1.len ≠ 0) with
    | some x => some ⟨x.1.va, x.2, .trap cPAGE 1 0⟩
    | none => some ⟨0, 15, .trap cPAGE 1 0⟩

/-- The ranges of a task that starts, translated, unless its identifier has no root. Poison in a part of its image that a
resume must know whole is a dispatch fault of no range (log 103). -/
def State.taskExtents (s : State) (d : Fin 8) (n : Nat) (t : Task) : State × Except RangeFault (List Extent) :=
  match s.noRoot d t with
  | some f => (s, .error f)
  | none =>
    match State.translateRanges d t.asid (descRanges t.desc).zipIdx s [] with
    | (s, .error f) => (s, .error f)
    | (s, .ok xs) =>
      let bad := if t.hasImage then s.partsBad (s.imageControl ((s.die d).areaBase n)) else []
      (s, if bad.isEmpty then .ok xs else .error ⟨0, 15, .poison bad⟩)

/-- A task starts on a context: its ranges are translated, and its state is set or restored. A dispatch
fault leaves it in DFAULT and the context idle. -/
def State.startTask (s : State) (id : CtxId) (n : Nat) (t : Task) : State :=
  let d := id.die
  match s.taskExtents d n t with
  | (s, .error f) =>
    let s := s.noteUnit d (CtxId.src id n) id.core f.fault
    let s := (fins 8).foldl (fun s k => s.dropHold id k) s
    (s.postEvent d 0x03 (CtxId.src id n) f.va.toNat (f.finfo t.asid)).updTask d n fun t => { t with state := .dfault }
  | (s, .ok xs) =>
    let seq := (s.die d).taskSeq
    let s := s.updDie d fun x => { x with taskSeq := seq + 1 }
    let s := s.updTask d n fun t => { t with state := .resident, core := id.core, ctx := id.ctx, seq := seq }
    if t.hasImage then s.restoreTask id n t xs
    else
      let s := (s.freshArea d n).updCtx id fun _ => { t.freshCtx with task := some (Fin.ofNat 1024 n), extents := xs }
      s.freshDirty id

/-! ### Choosing (R415, R416) -/

/-- Insertion by rising number. -/
def insertBy {α : Type} (f : α → Nat) (x : α) : List α → List α
  | [] => [x]
  | y :: ys => if f x < f y then x :: y :: ys else y :: insertBy f x ys

/-- Candidates of a level: saved tasks in the order of their saves, then queues in turn. -/
def Die.candsAt (x : Die) (lv : Fin 8) : List Cand :=
  let saved := (x.tasks.filter fun p => p.2.state == .saved && p.2.prio == lv).foldl (fun l p => insertBy (fun q => q.2.seq) p l) []
  let after := vget x.rr lv
  let qs := (fins 64).map fun k => after + 1 + k
  let live := qs.filter fun q => match (vget x.queues q).launch with
    | some l => l.stage == .eligible && l.prio == lv && decide (l.next < l.count)
    | none => false
  saved.map (fun p => Cand.saved p.1) ++ live.map Cand.queue

/-- The candidates of an opportunity: those of the highest level that has any (R415, log 56). -/
def Die.cands (x : Die) : List Cand :=
  ([7, 6, 5, 4, 3, 2, 1, 0].map x.candsAt).find? (fun l => !l.isEmpty) |>.getD []

def State.candDesc (s : State) (d : Fin 8) : Cand → List W64
  | .saved n => match s.task d n with | some t => t.desc | none => []
  | .queue q => match (s.queue d q).launch with | some l => l.desc | none => []

/-- The context that a candidate gets: on the core with the fewest that are not idle, the lowest core and the
lowest context on ties. -/
def State.spot (s : State) (d : Fin 8) (cores : BitVec 16) : Option CtxId :=
  let idle (id : CtxId) : Bool := (s.ctxOf id).status == .idle
  let best := ((fins 16).filter fun c => bit cores c.val).foldl (fun b c =>
    let n := ((coreCtxs d c).filter idle).length
    if n = 0 then b
    else match b with
      | none => some (c, n)
      | some y => if y.2 < n then some (c, n) else b) (none : Option (Fin 16 × Nat))
  best.bind fun x => (coreCtxs d x.1).find? idle

/-- The lowest free task number. -/
def Die.freeTask (x : Die) : Option Nat := (List.range 1024).find? fun n => (alookup n x.tasks).isNone

/-- A board-bound task takes its hold in the cycle of dispatch; none when the slot does not board its segment
any more (R414). -/
def State.takeHold (s : State) (id : CtxId) (w : List W64) : Option State :=
  if descBoard w then (s.slotIn id.die (descSeg w) .boarded).map fun k => s.grant id k else some s

/-- A launch returns to the boarding list with status MISSED (R414). -/
def State.backToBoarding (s : State) (d : Fin 8) (q : Fin 64) : State :=
  (s.missed d).updQueue d q fun x => { x with launch := x.launch.map fun l => { l with stage := .boarding, missed := true } }

/-- One candidate tried on a context: whether it is dispatched. -/
def State.place (s : State) (id : CtxId) (c : Cand) : State × Bool :=
  let d := id.die
  match c with
  | .saved n =>
    match s.task d n with
    | none => (s, false)
    | some t =>
      match (if t.hasImage then some s else s.takeHold id t.desc) with
      | none => (s, false)
      | some s => (s.startTask id n t, true)
  | .queue q =>
    match (s.queue d q).launch, (s.die d).freeTask with
    | some l, some n =>
      match s.takeHold id l.desc with
      | none => (s.backToBoarding d q, false)
      | some s =>
        let t : Task :=
          { state := .dispatching, core := id.core, ctx := id.ctx, queue := q, cause := 0
            wid := wordAt l.desc 4 + BitVec.ofNat 64 l.next, desc := l.desc, descVa := l.descVa, ft := l.ft
            asid := (s.queue d q).asid, seq := 0, hasImage := false, noResume := false, suspendTo := false
            saveFor := none, acted := false, handles := 0, statuses := [], xwaited := none, keepM := none, keepC := none
            faults := [], latchPend := [], poison := [], latchBad := [], doneAt := [], parked := [], wdCount := 0 }
        let s := s.updDie d fun x => { x with tasks := ainsert n t x.tasks, rr := vset x.rr l.prio q }
        let s := s.updQueue d q fun x =>
          { x with launch := some { l with next := l.next + 1, live := l.live + 1 } }
        (s.startTask id n t, true)
    | _, _ => (s, false)

/-- The first candidate that can be placed; a candidate without a context does not block those behind it. -/
def State.dispatchOne (d : Fin 8) : List Cand → State → State × Bool
  | [], s => (s, false)
  | c :: cs, s =>
    match s.spot d (descCores (s.candDesc d c)) with
    | none => State.dispatchOne d cs s
    | some id =>
      match s.place id c with
      | (s, true) => (s, true)
      | (s, false) => State.dispatchOne d cs s

/-- Whether the scheduler of a die may dispatch (R419; 19 R451). -/
def State.mayDispatch (s : State) (d : Fin 8) : Bool := s.boot == .ready && (s.die d).schedEn

/-- TASK_DISPATCH: at most one task every 8 cc, from the first 64 candidates. -/
def execTaskDispatch (d : Fin 8) (s : State) : Out :=
  .next (if s.mayDispatch d ∧ (s.die d).dispatchAt ≤ s.cycle then
      match State.dispatchOne d ((s.die d).cands.take 64) s with
      | (s, true) => s.updDie d fun x => { x with dispatchAt := s.cycle + 8 }
      | (s, false) => s
    else s)

/-! ### Pre-emption (R417, R418) -/

/-- The context of a resident task. -/
def Task.where_ (t : Task) (d : Fin 8) : CtxId := ⟨d, t.core, t.ctx⟩

/-- A due save is taken where its victim stands at a boundary, unpinned and without a trap before it, on a core that is not
frozen (R418, 18 R433). -/
def State.pushSave (s : State) (id : CtxId) : State :=
  let c := s.ctxOf id
  if s.saveDue id && c.status.stands && !c.pin && !c.trapPending && !s.frozen id then s.beginSave id else s

/-- The victim of a candidate: of the lowest level below its own, the most recently dispatched. It may be one that is being
saved already, for another candidate or for the driver (R417, R418). -/
def State.victim (s : State) (d : Fin 8) (w : List W64) : Option (Nat × Task) :=
  ((s.die d).tasks.filter fun p =>
    (p.2.state == .resident || p.2.state == .saving) && decide (p.2.prio < descPrio w) && bit (descCores w) p.2.core.val).foldl
    (fun best p => match best with
      | none => some p
      | some b => if p.2.prio < b.2.prio ∨ (p.2.prio = b.2.prio ∧ b.2.seq < p.2.seq) then some p else best) none

/-- PREEMPTION_SAVE: saves that are due are taken, and the first candidate without a context gets a victim; where that one is
being saved already there is one save, after which the earlier candidate takes the context (R418). -/
def execPreemptionSave (d : Fin 8) (s : State) : Out :=
  let s := (dieCtxs d).foldl (fun s id => s.pushSave id) s
  .next (if !s.mayDispatch d ∨ s.cycle < (s.die d).saveAt then s
    else
      match (s.die d).cands with
      | [] => s
      | c :: _ =>
        let w := s.candDesc d c
        if (s.spot d (descCores w)).isSome ∨ (s.die d).tasks.any fun p => p.2.saveFor == some c then s
        else
          match s.victim d w with
          | none => s
          | some (n, t) =>
            if t.state = .saving then s
            else (s.updTask d n fun t => { t with state := .saving, saveFor := some c }).pushSave (t.where_ d))

/-! ### The end of a task (08 R185, 12 R290) -/

/-- A task's number is freed, and its launch goes on or ends (R412). -/
def State.freeTask (s : State) (d : Fin 8) (n : Nat) : State :=
  match s.task d n with
  | none => s
  | some t =>
    let s := s.updDie d fun x => { x with tasks := aerase n x.tasks }
    s.updQueue d t.queue fun x => match x.launch with
      | none => x
      | some l =>
        let l := { l with live := l.live - 1 }
        if l.live = 0 ∧ l.count ≤ l.next then { x with launch := none, head := x.head + 1 }
        else { x with launch := some l }

/-- What a task still in the engines leaves behind: held operations are abandoned, others run on with their
status discarded (15 R377, 16 R407). -/
def State.leaveEngines (s : State) (d : Fin 8) (n : Nat) : State :=
  let mine (o : EngineOp) : Bool := (o.task.any fun x => x.val == n) && !o.orphan
  let s := s.updDie d fun x =>
    { x with
      engOps := x.engOps.map fun o => if mine o then { o with orphan := true } else o
      kvReqs := (x.kvReqs.filter fun q => !((q.task.any fun x => x.val == n) && q.status.isSome)).map fun q =>
        if q.task.any fun x => x.val == n then { q with task := none } else q }
  ((s.die d).engOps.filter fun o => o.orphan && o.held).foldl (fun s o =>
    if o.kind.collective then s.abandon (s.instance_ o.grp) o else (s.dropOp d o).assign d) s

/-- Every hold of a context is released as `unboard` would. -/
def State.dropHolds (s : State) (id : CtxId) : State := (fins 8).foldl (fun s k => s.dropHold id k) s

/-- The completion action, in the rights of the task; none where there is none or it faults (R185). Answers
whether an action was performed. -/
def State.completionAction (s : State) (id : CtxId) (n : Nat) (t : Task) : State × Bool :=
  let va := descDone t.desc
  let c := s.ctxOf id
  let fail (s : State) (f : PartFault) : State × Bool :=
    let s := match f.fault with
      | .poison us => s.recordBad us 4 id.die id.core
      | x => s.noteUnit id.die (CtxId.src id n) id.core x
    (s.postEvent id.die 0x07 (CtxId.src id n) (c.faultRec (if descDoneKind t.desc then .store else .rmw) f).finfo.toNat va.toNat, false)
  if va = 0 then (s, false)
  else if descDoneKind t.desc then
    match s.access id (c.barrierReq id .store false true) [⟨va, 64⟩] with
    | (s, .error f) => fail s f
    | (s, .ok ps) => (ps.foldl (fun s p => (s.arrival p.loc.addr id.die id.core).1) s, true)
  else
    match s.access id { c.req id .rmw true true with atom := some (8, true) } [⟨va, 8⟩] with
    | (s, .error f) => fail s f
    | (s, .ok ps) =>
      (ps.foldl (fun s p => (s.updatePart id .rmw p (amoUpdate 8 0 1) (opCode 2 0 0 true) (leBytes 8 1) false).1) s, true)

/-- After a completion action, every dependency of the die is read again in the next cycle (R413). -/
def State.pollSoon (s : State) (d : Fin 8) : State :=
  s.updDie d fun x => { x with queues := vmapAll x.queues fun _ q =>
    { q with launch := q.launch.map fun l => if l.stage == .dependency then { l with depAt := Nat.min l.depAt (s.cycle + 1) } else l } }

/-- Whether steps 3 and 4 of R290 are over: nothing outside, no stream, and engine operations completed or
their faults reported. -/
def State.haltDone (s : State) (id : CtxId) : Bool :=
  !s.captureWaits id && (s.opsOf id).all fun o => o.held

/-- COMPLETION_ACTION: the later steps of `halt`, the action, and the end of the task. An action at a peer
ends the task when it is acknowledged. -/
def execCompletionAction (d : Fin 8) (t : Fin 1024) (s : State) : Out :=
  match s.task d t.val with
  | none => .next s
  | some k =>
    let id := k.where_ d
    if k.state ≠ .ending ∨ !s.haltDone id then .next s
    else
      let (s, done) := if k.acted then (s, true) else (s.dropHolds id).completionAction id t.val k
      if s.captureWaits id then .next (s.updTask d t.val fun k => { k with acted := true })
      else
        let s := if done then s.pollSoon d else s
        .next (((s.leaveEngines d t.val).freeContext id).freeTask d t.val)

/-! ### Driver commands (R419, R420) -/

def State.schedFail (s : State) (d : Fin 8) : State := s.updDie d fun x => { x with schedErr := true }

/-- A command on a task: refused while one is in progress, and for a number that is free. -/
def State.command (s : State) (d : Fin 8) (n : Nat) (body : Task → State) : State :=
  if (s.die d).schedBusy then s.schedFail d
  else match s.task d n with
    | none => s.schedFail d
    | some t => body t

/-- SUSPEND. -/
def execSuspend (d : Fin 8) (t : Fin 1024) (s : State) : Out :=
  .next (s.command d t.val fun k =>
    match k.state with
    | .saved => s.updTask d t.val fun k => { k with state := .suspended }
    | .saving => s.updTask d t.val fun k => { k with suspendTo := true }
    | .resident => (s.updTask d t.val fun k => { k with state := .saving, suspendTo := true }).pushSave (k.where_ d)
    | _ => s.schedFail d)

/-- RESUME: a SUSPENDED or DFAULT task goes to the end of the saved list of its level; an image with
NORESUME is refused. -/
def execResume (d : Fin 8) (t : Fin 1024) (s : State) : Out :=
  .next (s.command d t.val fun k =>
    if (k.state = .suspended ∨ k.state = .dfault) ∧ !k.noResume then
      let seq := (s.die d).taskSeq
      (s.updTask d t.val fun k => { k with state := .saved, seq := seq }).updDie d fun x => { x with taskSeq := seq + 1 }
    else s.schedFail d)

/-- The parked holds of a task that is saved are released: those of slots that still show their capture (05 R126, R419). -/
def State.dropParked (s : State) (d : Fin 8) (hs : List HoldRec) : State :=
  hs.foldl (fun s h =>
    let k : Fin 8 := Fin.ofNat 8 h.slot
    let b := s.slot d k
    if !h.released ∧ b.bsid = h.bsid ∧ b.parked ≠ 0 then s.updSlot d k fun b => { b with parked := b.parked - 1 } else s) s

/-- END: no completion action; holds are released, the image is discarded, and the number is free. -/
def execEndTask (d : Fin 8) (t : Fin 1024) (s : State) : Out :=
  .next (s.command d t.val fun k =>
    let id := k.where_ d
    let here := match k.state with | .resident => true | .saving => true | .ending => true | _ => false
    let s :=
      if here then
        let s := ((s.dropWait id).dropHolds id).leaveEngines d t.val
        (s.updJoist fun j => { j with peerReqs := j.peerReqs.map fun r => if r.of id then { r with dead := true } else r }).freeContext id
      else
        (s.dropParked d k.parked).leaveEngines d t.val
    s.freeTask d t.val)

/-- ENDQ: the launch in progress ends for the tasks that are not dispatched. -/
def execEndq (d : Fin 8) (q : Fin 64) (s : State) : Out :=
  .next (if (s.die d).schedBusy ∨ (s.queue d q).launch.isNone then s.schedFail d else s.closeLaunch d q)

/-- A write to SCFG; a dependency read that faulted is tried again (R413). -/
def execScfgWrite (d : Fin 8) (val : BitVec 64) (s : State) : Out :=
  .next (s.updDie d fun x =>
    { x with
      schedEn := bit val 0
      deppoll := field val 8 24
      queues := vmapAll x.queues fun _ q =>
        { q with launch := q.launch.map fun l => if l.depFail then { l with depFail := false, depAt := s.cycle } else l } })

end Sys2Proof.Machine
end

