-- ==== Sys2Proof/Machine/Light.lean ====
section
/-! DEFINITION. Lanes and comb lasers (09 R210-R212, R228) and the laser power loop (19 R457). -/

namespace Sys2Proof.Machine

/-! ### Lanes -/

/-- The fields of CTLANE that are written. -/
def laneMask : W64 := 0x1FFF0F

def Joist.refuseLane (j : Joist) (l : Fin 8) (who : Nat) : Joist :=
  { j with ctRefused := true, ctLane := BitVec.ofNat 3 l.val, ctWho := BitVec.ofNat 5 who }

/-- A write to CTLANE (R211). -/
def State.laneWrite (s : State) (l : Fin 8) (v : W64) : State :=
  let new := v &&& laneMask
  let now := s.gtime
  let old := vget s.joist.lanes l
  let accept (j : Joist) : Joist :=
    { j with lanes := vset j.lanes l ⟨new, (now, old.reg) :: old.past.filter fun p => decide (now < p.1 + 8192)⟩ }
  s.updJoist fun j =>
    if !laneLit new then accept j
    else if laneLit old.reg ∨ lanePoints new = 0 then j.refuseLane l 8
    else match (j.points new).find? fun p => decide (p.2.1 < p.2.2) with
      | some p => j.refuseLane l p.1
      | none => accept j

/-- LANE_LIGHT and LANE_UNLIGHT are writes with LIT 1 and 0. -/
def execLaneLight (l : Fin 8) (val : BitVec 64) (s : State) : Out := .next (s.laneWrite l (setBit val 0 true))
def execLaneUnlight (l : Fin 8) (val : BitVec 64) (s : State) : Out := .next (s.laneWrite l (setBit val 0 false))

/-! ### Combs (R228) -/

def Joist.updComb (j : Joist) (k : Fin 5) (f : Comb → Comb) : Joist := { j with combs := vupd j.combs k f }
def Joist.spare (j : Joist) : Comb := vget j.combs 4

def swapCycles : Nat := 16384

def State.startSwap (s : State) (k : Fin 4) (toSpare commanded : Bool) : State :=
  s.updJoist fun j => { j with combSwap := some ⟨k, toSpare, commanded, s.cycle + swapCycles⟩ }

/-- Launch power of a comb at its set point, 0.1 dBm. -/
def setPoint : BitVec 16 := 60

/-- Whether a mean line power is LOSSLIM or more below the set point (R228). -/
def Joist.combWeak (j : Joist) (power : BitVec 16) : Bool := decide (power.toInt + j.combLoss.toNat ≤ setPoint.toInt)

/-- A comb fails: with AUTO the spare, if it stands by, takes its place. -/
def State.failComb (s : State) (k : Fin 5) : State :=
  let st := (vget s.joist.combs k).state
  if !s.joist.combEn ∨ st = 0 ∨ st = 3 then s
  else
    let s := s.updJoist fun j => j.updComb k fun c => { c with state := 3 }
    if h : k.val < 4 then
      if s.joist.combAuto ∧ s.joist.spare.state = 4 ∧ s.joist.combSwap.isNone ∧ s.joist.combFor ≠ some ⟨k.val, h⟩ then
        s.startSwap ⟨k.val, h⟩ true false
      else s
    else s

/-- COMB_FAILURE: a comb has lost its lock, or its mean power is measured, which has failed it at LOSSLIM or more below
the set point. -/
def execCombFailure (x : CombLoss) (s : State) : Out :=
  let k := x.comb
  .next (match x.power with
    | none => s.failComb k
    | some p =>
      let st := (vget s.joist.combs k).state
      let s := if st = 0 then s else s.updJoist fun j => j.updComb k fun c => { c with power := p }
      if s.joist.combWeak p then s.failComb k else s)

/-- COMB_SWAP: a command to swap a comb to the spare; refused while the spare carries another. It takes over from a
swap that is under way (log 64). -/
def execCombSwap (k : Fin 4) (s : State) : Out :=
  .next (if s.joist.combFor.isSome ∧ s.joist.combFor ≠ some k then s else s.startSwap k true true)

/-- COMB_RETURN: a command to return the spare's lanes; refused unless the spare carries them. -/
def execCombReturn (k : Fin 4) (s : State) : Out :=
  .next (if s.joist.combFor = some k then s.startSwap k false true else s)

/-- The lanes of a swap change over: the spare shows that it carries, and the comb that it replaces has failed, or is locked
where the swap was commanded (R228, log 64). -/
def Joist.endSwap (j : Joist) (x : CombSwap) : Joist :=
  let k : Fin 5 := ⟨x.comb.val, by omega⟩
  let j := { j with combSwap := none, combFor := if x.toSpare then some x.comb else none }
  if x.toSpare then
    (j.updComb 4 fun c => { c with state := 5, forC := BitVec.ofNat 3 x.comb.val, swaps := satAdd c.swaps 1 }).updComb k
      fun c => { c with state := if x.commanded then 2 else 3, swaps := satAdd c.swaps 1 }
  else j.updComb 4 fun c => { c with state := if c.state = 5 then 4 else c.state, forC := 0 }

/-- COMB_SWAP_COMPLETE: every calibration is void, and every die hears of it. -/
def execCombSwapComplete (s : State) : Out :=
  match s.joist.combSwap with
  | none => .next s
  | some x =>
    if s.cycle < x.ends then .next s
    else
      let s := s.updJoist fun j => j.endSwap x
      let s := (fins 8).foldl (fun s d => s.updDie d fun y => { y with cores := vmapAll y.cores fun _ k => { k with calValid := false } }) s
      .next (s.postAll 0x16 (x.comb.val + 0x100 * b2n x.toSpare) (s.combStat 4).toNat)

/-- COMB_LOCKED: a warming comb locks, and the spare stands by. -/
def execCombLocked (k : Fin 5) (s : State) : Out :=
  .next (s.updJoist fun j => j.updComb k fun c =>
    if j.combEn ∧ c.state = 1 then { c with state := if k = 4 then 4 else 2, power := setPoint } else c)

/-- Combs 0 to 3 lit, or all of them dark. -/
def Joist.lightCombs (j : Joist) (on : Bool) : Joist :=
  if on == j.combEn then j
  else
    { j with
      combEn := on, combSwap := none, combFor := none
      combs := vmapAll j.combs fun _ c => { c with state := if on then 1 else 0, forC := 0, power := 0 } }

/-- A write to COMBCFG. In SAFE it is ignored. -/
def execCombcfgWrite (val : BitVec 64) (s : State) : Out :=
  if s.boot = .safe then .next s
  else .next (s.updJoist fun j => ({ j with combAuto := bit val 1, combLoss := field val 8 8 } : Joist).lightCombs (bit val 0))

/-- A power one step of 0.1 dB nearer to another. -/
def stepTo (old new : BitVec 16) : BitVec 16 :=
  if new.toInt < old.toInt then old - 1 else if old.toInt < new.toInt then old + 1 else old

/-- LASER_POWER_LOOP: once in 4,096 cc every lit comb moves by at most one step towards the power the loop asks for, and one
that is then LOSSLIM or more below its set point has failed. -/
def execLaserPowerLoop (power : List (BitVec 16)) (s : State) : Out :=
  if s.cycle < s.joist.laserAt then .next s
  else
  let shines (c : Comb) : Bool := c.state == 2 || c.state == 5
  let move (k : Fin 5) (c : Comb) : Comb := if shines c then { c with power := stepTo c.power (power.getD k.val c.power) } else c
  let s := s.updJoist fun j => { j with combs := vmapAll j.combs move, laserAt := s.cycle + 4096 }
  .next ((fins 5).foldl (fun s k =>
    let c := vget s.joist.combs k
    if shines c && s.joist.combWeak c.power then s.failComb k else s) s)

end Sys2Proof.Machine
end

