-- ==== Sys2Proof/Machine/Timing.lean ====
section
/-! DEFINITION. Writes of DIEID and DTCLR (01 R36, 02 R65), and the global clock's alignment and skew
monitor (16 R383, R384). -/

namespace Sys2Proof.Machine

/-- DIEID_WRITE: one step for all eight dies. -/
def execDieidWrite (val : BitVec 64) (s : State) : Out :=
  .next (s.updJoist fun j =>
    if bitsOf val 4 9 ≤ 319 then { j with member := field val 4 9, mvalid := bit val 13 } else { j with mvalid := false })

/-- DTCLR: regions FIRST to FIRST + COUNT - 1 of a slice are clean, but for writes of this cycle (R66). -/
def execDtclr (d : Fin 8) (c : Fin 16) (val : BitVec 64) (s : State) : Out :=
  let first := bitsOf val 0 14
  let past := Nat.min 16384 (first + bitsOf val 16 15)
  .next (s.updCore d c fun k => k.touchDirty s.cycle 0 (BitVec.ofNat 16384 (2 ^ past - 2 ^ first)))

/-- A forward step of GTIME to `g`: a timed operation whose slot time it passes over has become ready late, and the
stalls of cores before a timed operation are shorter by the cycles stepped over (R383, R389). -/
def State.passSlots (s : State) (g n : Nat) : State :=
  allCtxs.foldl (fun s id =>
    match (s.ctxOf id).slotWait with
    | none => s
    | some w =>
      let s := if g - n < w.slot ∧ w.slot < g then
          s.updCtx id fun c => { c with slotWait := some { w with ready := g } }
        else s
      if (s.core id.die id.core).running = some id.ctx then
        s.updCore id.die id.core fun k => { k with nextIssue := Nat.max s.cycle (k.nextIssue - n) }
      else s) s

/-- GTIME steps forward, or holds, by an offset. -/
def State.stepTime (s : State) (delta : BitVec 32) : State :=
  let n := delta.toInt
  if n < 0 then s.updJoist fun j => { j with gtHold := n.natAbs }
  else
    let t := s.updJoist fun j => { j with gtAhead := j.gtAhead + n.toNat }
    t.passSlots t.gtime n.toNat

/-- A quotient rounded to the nearest integer, ties to even. -/
def rneQuot (x : Int) (n : Nat) : Int :=
  let q := x / (n : Int)
  let r := 2 * (x % (n : Int))
  if r < n then q else if (n : Int) < r then q + 1 else if q % 2 = 0 then q else q + 1

/-- The offset of the exchanges: the mean of half of each one's difference, rounded (R383). -/
def alignOffset (xs : List Exchange) : BitVec 32 :=
  BitVec.ofInt 32 (rneQuot ((xs.map fun x => (x.t2 - x.t1).toInt - (x.t4 - x.t3).toInt).foldl (· + ·) 0) (2 * xs.length))

/-- ALIGNMENT_COMPLETE: the cycles that the 16 exchanges with the master have recorded give the offset, which is
applied. It fails where the circuit to the master has gone; exchanges still to begin leave when the port takes them. -/
def execAlignmentComplete (_ : Unit) (s : State) : Out :=
  let j := s.joist
  .next (if !j.gtBusy then s
    else if (j.portTo j.gtMaster).isNone then s.alignFail j.gtDie noSrc
    else if j.gtExch.length < 16 then State.askTimes 16 s
    else (s.stepTime (alignOffset j.gtExch)).updJoist fun j => ({ j with gtOff := alignOffset j.gtExch } : Joist).aligned)

/-- Cycles between two skew measurements (R384). -/
def skewPeriod : Nat := 65536

/-- SKEW_MEASUREMENT: the exchange that is due every 65,536 cc begins, while aligned and with a circuit to the master. -/
def execSkewMeasurement (_ : Unit) (s : State) : Out :=
  let j := s.joist
  .next (if !j.gtAligned ∨ s.cycle < j.skewAt then s
    else match s.timePort with
      | none => s
      | some q =>
        let x := s.sendTime q 0
        x.1.updJoist fun j => { j with skewSent := some x.2, skewAt := s.cycle + skewPeriod })

/-- A measured skew: recorded, with the alarm where it passes SLOTW (R384). -/
def State.takeSkew (s : State) (skew : BitVec 32) : State :=
  let s := s.updJoist fun j => { j with gtSkew := skew, skewSent := none }
  if s.joist.slotw < skew.toInt.natAbs then
    (s.updJoist fun j => { j with gtAlarm := true, gtAligned := false }).postAll 0x12 s.joist.gtoff.toNat s.joist.gtSlotw.toNat
  else s

/-- The master's answer to a timing flit: the exchange is recorded with the cycle in which the answer arrives, for the
alignment under way or as a skew measurement (R383, R384). -/
def State.recordTime (s : State) (seq : BitVec 16) (t2 t3 : W64) : State :=
  let j := s.joist
  match j.gtSent.find? fun x => x.seq == seq with
  | some a => s.updJoist fun j => { j with gtSent := j.gtSent.erase a, gtExch := j.gtExch ++ [⟨a.t1, t2, t3, s.gtime64⟩] }
  | none => match j.skewSent with
    | some a => if a.seq = seq ∧ j.gtAligned then s.takeSkew (alignOffset [⟨a.t1, t2, t3, s.gtime64⟩]) else s
    | none => s

end Sys2Proof.Machine
end

