-- ==== Sys2Proof/Machine/Peers.lean ====
section
/-! DEFINITION. Flits on the Eosor links and peer memory traffic (16 R394-R399; 01 R15, R24; 03 R80). -/

namespace Sys2Proof.Machine

/-- Everything that waits for a member, or for every member, moves on. -/
def State.pumpTo (s : State) (m : BitVec 9) : State := State.pump m (s.joist.waiting m) s

/-- The members that flits wait for. -/
def Joist.waitingFor (j : Joist) : List (BitVec 9) :=
  dedup ((j.veq.map fun x => BitVec.ofNat 9 x.1) ++ j.replies.map Prod.fst ++ j.peerReqs.map fun r => r.member) []

def State.pumpAll (s : State) : State := s.joist.waitingFor.foldl State.pumpTo s

/-! ### Answers to requests -/

/-- The request that an answer names: the one of the context's own number with its sequence, sent. -/
def State.sentReq (s : State) (id : CtxId) (seq : BitVec 16) : Option PeerReq :=
  s.joist.peerReqs.find? fun r =>
    let h := readHead r.flit.header
    h.sdie == id.die.val && h.core == id.core.val && h.ctx == id.ctx.val && r.seq == seq &&
    (match r.place with | .sent _ => true | _ => false)

def State.dropReq (s : State) (r : PeerReq) : State := s.updJoist fun j => { j with peerReqs := j.peerReqs.erase r }

/-- Bytes laid into a run of bytes. -/
def putBytes (raw : List Byte) (pos : Nat) (bs : List Byte) : List Byte := raw.take pos ++ bs ++ raw.drop (pos + bs.length)

def PeerReq.awaits (r : PeerReq) (w : Await) : Bool := w.seq == r.seq && w.member == r.member

/-- The bytes of an answer that a part asked for: they lie in the payload as in their 8-byte units. -/
def PeerReq.bytes (r : PeerReq) (w : Await) (data : BitVec 2048) : List Byte :=
  ((bytesOf data 256).drop ((readHead r.flit.header).arg % 8)).take w.n

/-- The update that an atomic's flit asks for, by its group, index and OP (R394, log 31). -/
def flitUpdate (h : FlitHead) (data : BitVec 2048) : Nat × Update :=
  let code := h.arg / 2 ^ 48
  let n := if code / 128 % 2 = 1 then 8 else 4
  let bs := (bytesOf data 256).drop (h.arg % 8)
  let x := leNat (bs.take n)
  let op := code / 16 % 8
  let floats := if code / 4 % 4 = 2 then code % 4 = 2 else code % 2 = 1
  (n, if floats then famoUpdate op x
    else if code % 16 = 9 then casUpdate (leNat ((bs.drop n).take n)) x
    else amoUpdate n op x)

/-- The flags of the update that a request asked for, from the old value that comes back (13 R314). -/
def PeerReq.flags (r : PeerReq) (old : List Byte) : Flags :=
  let h := readHead r.flit.header
  if h.type = 4 then ((flitUpdate h r.flit.payload).2 (leNat old)).2 else 0

/-- A decoupled operation takes an answer. -/
def Pend.take (p : Pend) (now : Nat) (r : PeerReq) (data : BitVec 2048) (poison : Bool) : Pend :=
  match p.waits.find? r.awaits with
  | none => p
  | some w =>
    { p with
      raw := putBytes p.raw w.pos (r.bytes w data), waits := p.waits.erase w, poison := p.poison || poison
      flags := if poison then p.flags else p.flags ||| r.flags (r.bytes w data), due := Nat.max p.due now }

def Ctx.takeAnswer (c : Ctx) (now : Nat) (r : PeerReq) (data : BitVec 2048) (poison : Bool) : Ctx :=
  { c with pend := c.pend.map fun p => p.take now r data poison }

/-- What a request was to bring does not come: 0 is delivered, and no flag. -/
def Ctx.loseAnswer (c : Ctx) (now : Nat) (r : PeerReq) : Ctx :=
  { c with pend := c.pend.map fun p => { p.take now r 0 false with flags := p.flags } }

/-- The address of the peer aperture that a request reached. -/
def PeerReq.pa (r : PeerReq) : Nat := peerBase + r.member.toNat * 2 ^ 42 + (readHead r.flit.header).arg % 2 ^ 42

/-- The arrival that a reduction sends once its update has been acknowledged (06 R156). -/
def State.sendArrival (s : State) (r : PeerReq) : State :=
  match r.arrive with
  | some pa => (s.arrival pa r.id.die r.id.core).1
  | none => s

def State.reqOp (s : State) (r : PeerReq) : Option EngineOp :=
  match r.engine with
  | none => none
  | some h => (s.die r.id.die).engOps.find? fun o => o.id == r.id && o.handle == h

/-- An engine operation takes an answer to what it asked for. -/
def EngineOp.takeAnswer (o : EngineOp) (r : PeerReq) (data : BitVec 2048) (poison : Bool) : EngineOp :=
  match o.asks.find? r.awaits with
  | none => o
  | some w =>
    { o with
      raw := putBytes o.raw w.pos (r.bytes w data), asks := o.asks.erase w
      rawBad := if poison then o.rawBad ++ [(w.pos, w.n)] else o.rawBad }

/-- A request is answered: its read or returning atomic delivers, and poison is recorded by the receiving
die (02 R58). -/
def State.answer (s : State) (r : PeerReq) (data : BitVec 2048) (poison : Bool) : State :=
  let s := (s.dropReq r).sendArrival r
  let s := if poison ∧ r.read then
      s.recordError r.id.die 4 (if r.engine.isSome then 2 else 0) (if r.engine.isSome then 0 else r.id.core.val) 0 r.pa
    else s
  let s :=
    if r.dead then s
    else match r.engine with
      | none => (s.updCtx r.id fun c => c.takeAnswer s.cycle r data poison).latePublishes r.id
      | some _ => match s.reqOp r with
        | some o => s.updOp r.id.die o (o.takeAnswer r data poison)
        | none => s
  s.pumpTo r.member

/-- PEER_RESPONSE: data of a read or a returning atomic, or the acknowledgement of another request. -/
def execPeerResponse (id : CtxId) (seq : BitVec 16) (data : BitVec 2048) (poison : Bool) (s : State) : Out :=
  .next (match s.sentReq id seq with
    | some r => s.answer r data poison
    | none => s)

/-- What a write flit carried: its bytes, as they were sent. -/
def PeerReq.sentBytes (r : PeerReq) : List Byte :=
  let h := readHead r.flit.header
  let lo := ((List.range 8).find? fun k => h.arg / 2 ^ (48 + k) % 2 == 1).getD 0
  let hi := ((List.range 8).reverse.find? fun k => h.arg / 2 ^ (56 + k) % 2 == 1).getD 7
  ((bytesOf r.flit.payload 256).drop lo).take (8 * h.len - 8 + hi + 1 - lo)

/-- An engine operation at a piece that a peer has refused: a read is asked for again, and a write's piece is performed
again, when the operation goes on (15 R377). -/
def EngineOp.refused (o : EngineOp) (r : PeerReq) : EngineOp :=
  if r.read then { o with asked := 0, asks := [], raw := [], rawBad := [] }
  else { o with redo := o.redo ++ [(r.va, r.sentBytes, (readHead r.flit.header).poison)] }

/-- A refused request: 0 is delivered and PROT comes due (R80), or LINKLOST where the target has no valid identifier
(01 R15); a copy engine is held at the piece, and a completion action reports DONEFAULT (08 R185). -/
def State.refuseReq (s : State) (r : PeerReq) (noMember : Bool) : State :=
  let s := s.dropReq r
  let s :=
    if r.dead then s
    else match r.engine with
      | none =>
        let s := (s.updCtx r.id fun c => c.loseAnswer s.cycle r).latePublishes r.id
        match (s.ctxOf r.id).task.bind fun n => s.task r.id.die n.val with
        | some t =>
          if t.acted then
            s.postEvent r.id.die 0x07 (s.srcOf r.id) (finfoOf (s.ctxOf r.id) 11 r.acc.code 0 r.va).toNat r.va.toNat
          else (s.updCtx r.id fun c => if noMember then c.noMember else c.pendRefusal r.va r.acc r.issue).wake r.id
        | none => s
      | some _ => match s.reqOp r with
        | some o =>
          if noMember then
            let s := s.updOp r.id.die o { o.takeAnswer r 0 false with failed := true }
            if s.owns o.id o then (s.updCtx o.id Ctx.noMember).wake o.id else s
          else
            let o' := o.refused r
            (s.updOp r.id.die o o').holdOp o' r.acc ⟨r.va, .trap cPROT 11 0⟩
        | none => s
  s.pumpTo r.member

/-- PEER_REFUSED; `x.noMember` tells that the target has no valid identifier. -/
def execPeerRefused (id : CtxId) (x : PeerRefusal) (s : State) : Out :=
  .next (match s.sentReq id x.seq with
    | some r => s.refuseReq r x.noMember
    | none => s)

/-! ### Requests of peers (R398) -/

/-- The bytes that a write's enables select, each with its address (R394). -/
def writtenBytes (h : FlitHead) (data : BitVec 2048) : List (Nat × Byte) :=
  let base := h.arg % 2 ^ 42 / 8 * 8
  let bs := bytesOf data 256
  ((List.range (8 * h.len)).filter fun k =>
    (8 ≤ k || (h.arg / 2 ^ (48 + k)) % 2 == 1) && (k < 8 * h.len - 8 || (h.arg / 2 ^ (56 + k % 8)) % 2 == 1)).map fun k =>
      (base + k, bs.getD k 0)

/-- Bytes grouped into runs of successive addresses. -/
def runsOf : List (Nat × Byte) → List (Nat × List Byte)
  | [] => []
  | x :: xs =>
    match runsOf xs with
    | (a, bs) :: rest => if a = x.1 + 1 then (x.1, x.2 :: bs) :: rest else (x.1, [x.2]) :: (a, bs) :: rest
    | [] => [(x.1, [x.2])]

/-- What answers a request: TYPE, poison, payload, and the bits of ARG that tell of a refusal. -/
structure PeerAnswer where
  type    : Nat
  poison  : Bool
  data    : BitVec 2048
  refused : Nat
deriving DecidableEq, Repr

/-- Bits of ARG of an acknowledgement that reports a refusal, and one for want of a valid identifier (log 42). -/
def refusedArg : Nat := 2 ^ 63
def noMemberArg : Nat := 2 ^ 62

/-- A request performed at its home, under this package's rules; one that reaches no storage, or a package without a valid
identifier, is refused (01 R15, R24). A consumer on a peer package is recorded with SRC 6 (02 R58). An atomic whose operand
came poisoned leaves memory unchanged, and its answer is poisoned (R394, log 111). -/
def State.performPeer (s : State) (h : FlitHead) (data : BitVec 2048) : State × PeerAnswer :=
  let off := h.arg % 2 ^ 42
  let base := off / 8 * 8
  let no : PeerAnswer := ⟨6, false, 0, refusedArg⟩
  if !s.joist.mvalid then (s, ⟨6, false, 0, refusedArg + noMemberArg⟩)
  else match h.type with
    | 1 =>
      let ws := writtenBytes h data
      if ws.any fun x => peerRefuses x.1 then (s, no)
      else ((runsOf ws).foldl (fun s r => s.writeAtHome r.1 r.2 h.poison) s, ⟨6, false, 0, 0⟩)
    | 2 =>
      if peerRefuses base ∨ peerRefuses (base + 8 * h.len - 1) then (s, no)
      else
        let bad := s.poisoned base (8 * h.len)
        let s := (s.badUnits base (8 * h.len)).foldl (fun s u => s.recordError (homeDie u) (errKind u) 6 0 0 u) s
        (s, ⟨3, bad, BitVec.ofNat 2048 (leNat (s.devRead base (8 * h.len))), 0⟩)
    | _ =>
      let u := flitUpdate h data
      if peerRefuses off ∨ off % u.1 ≠ 0 then (s, no)
      else
        let bad := s.poisoned off u.1
        let old := leNat (s.devRead off u.1)
        let s := if bad then s.recordError (homeDie off) (errKind off) 6 0 0 off
          else if h.poison then s
          else match (u.2 old).1 with
            | some v => s.devWrite off (leBytes u.1 v)
            | none => s
        if h.arg / 2 ^ 50 % 4 = 2 then (s, ⟨5, bad || h.poison, BitVec.ofNat 2048 (if bad then 0 else old * 2 ^ (8 * (off % 8))), 0⟩)
        else (s, ⟨6, false, 0, 0⟩)

/-- A request accepted in its channel's sequence is performed and answered; any other is a duplicate. -/
def State.peerRequest (s : State) (q : Fin 16) (f : Flit) : State :=
  let h := readHead f.header
  let k := 8 * h.srcm + h.sdie
  let fresh := match alookup k (vget s.joist.ports q).pseqin with
    | some n => h.seq == (n + 1).toNat
    | none => true
  if !fresh ∨ !(h.type == 1 ∨ h.type == 2 ∨ h.type == 4) ∨ 32 < h.len then s
  else
    let s := s.updJoist fun j => j.updPort q fun p => { p with pseqin := ainsert k (BitVec.ofNat 16 h.seq) p.pseqin }
    let (s, a) := s.performPeer h f.payload
    let m : BitVec 9 := BitVec.ofNat 9 h.srcm
    let r : FlitHead := ⟨a.type, s.joist.member.toNat, h.srcm, h.ddie, h.sdie, h.core, h.ctx, 0, a.poison,
      if a.type = 3 then h.len else if a.type = 5 then 1 else 0, h.seq, h.arg % 2 ^ 42 + a.refused⟩
    (s.updJoist fun j => { j with replies := j.replies ++ [(m, ⟨r.bits, a.data⟩)] }).pumpTo m

/-- PEER_REQUEST: a request that a port has received, while its link carries traffic. -/
def execPeerRequest (q : Fin 16) (f : Flit) (s : State) : Out :=
  .next (if (vget s.joist.ports q).up then s.peerRequest q f else s)

/-! ### Links (R395, R399) -/

/-- LINKDOWN, posted to every die. -/
def State.postLinkdown (s : State) (q : Fin 16) (member : BitVec 9) (reason : Nat) : State :=
  s.postAll 0x13 (q.val + 0x10 * member.toNat + 0x2000 * reason) (vget s.joist.ports q).epstat.toNat

/-- A record of a link loss, in place of an older one of the same number. -/
def Ctx.recordLoss (c : Ctx) (x : LinkRec) : Ctx :=
  { c with links := c.links.filter (fun y => y.num != x.num) ++ [x], pendingA := { c.pendingA with linkLost := true } }

/-- A context whose request died with its link: the first records its sequence, reads deliver 0, and LINKLOST
comes due. -/
def State.loseReq (s : State) (q : Fin 16) (first : Bool) (r : PeerReq) : State :=
  let s := s.dropReq r
  if r.dead then s
  else match r.engine with
    | none =>
      (s.updCtx r.id fun c =>
        let c := c.loseAnswer s.cycle r
        if first then c.recordLoss ⟨32 + q.val, r.seq, r.member⟩ else c).latePublishes r.id
    | some _ => match s.reqOp r with
      | some o => s.updOp r.id.die o { o.takeAnswer r 0 false with failed := true }
      | none => s

/-- The sends of channels that died unacknowledged (R388, R392). -/
def State.loseSend (s : State) (x : CtxId × Option (Fin 1024) × Fin 32) (first : Bool) (f : Flit) : State :=
  let (id, t, n) := x
  let s := s.updChan id.die id.core n fun c => { c with lost := true }
  if first ∧ (s.ctxOf id).task = t ∧ t.isSome then
    (s.updCtx id fun c => c.recordLoss ⟨n.val, BitVec.ofNat 16 (readHead f.header).seq, 0⟩).wake id
  else s

/-- Elements of a list, each with whether it is the first with its key. -/
def firsts {α κ : Type} [BEq κ] (key : α → κ) : List α → List κ → List (α × Bool)
  | [], _ => []
  | x :: xs, seen => (x, !seen.contains (key x)) :: firsts key xs (key x :: seen)

/-- The timing exchanges under way with a member are lost: those of an alignment begin anew where a circuit to the master
is left, and a skew measurement is made at its next time (R383, R384, log 11). -/
def State.loseTimes (s : State) (m : BitVec 9) : State :=
  if m ≠ s.joist.gtMaster then s
  else s.updJoist fun j => { j with gtLeft := j.gtLeft + j.gtSent.length, gtSent := [], skewSent := none }

/-- A port's link dies: what was sent and not acknowledged is of unknown outcome, and what was not sent goes
to the queues. -/
def State.linkDeath (s : State) (q : Fin 16) (reason : Nat) : State :=
  let p := vget s.joist.ports q
  let s := s.updJoist fun j => j.updPort q fun p =>
    { p with up := false, training := false, trained := false, circ := false, member := 0x1FF, replay := [], fails := [], lost := satAdd p.lost 1 }
  let s := s.loseTimes p.member
  let s := s.postLinkdown q p.member reason
  let sent := s.joist.peerReqs.filter fun r => r.place == .sent q
  let s := (sent.filter fun r => r.dead).foldl State.dropReq s
  let reqs := sent.filter fun r => !r.dead
  let s := (firsts (fun r : PeerReq => (r.id, r.engine.isSome)) reqs []).foldl (fun s x => s.loseReq q x.2 x.1) s
  let sends := p.replay.filterMap fun x => x.chan.map fun c => (c, x.flit)
  let s := (firsts (fun x : (CtxId × Option (Fin 1024) × Fin 32) × Flit => x.1) sends []).foldl (fun s x => s.loseSend x.1.1 x.2 x.1.2) s
  s.pumpAll

/-- ACKNOWLEDGEMENT: every flit up to a link sequence has arrived, and the replay buffer lets it go. -/
def execAcknowledgement (q : Fin 16) (n : BitVec 32) (s : State) : Out :=
  let p := vget s.joist.ports q
  let left := (p.txSeq - n).toNat
  .next (if p.replay.length < left ∨ !p.trained then s
    else
      (s.updJoist fun j => j.updPort q fun p =>
        { p with replay := p.replay.drop (p.replay.length - left), lastAck := s.cycle }).pumpAll)

/-- LINKTO as it acts, in cycles (R395, R400). -/
def Port.timeout (p : Port) : Nat := 1024 * p.linkto.toNat

/-- Whether a port has waited too long for an acknowledgement. -/
def State.ackLate (s : State) (q : Fin 16) : Bool :=
  let p := vget s.joist.ports q
  p.trained && !p.replay.isEmpty && decide (p.lastAck + p.timeout ≤ s.cycle)

/-- ACK_TIMEOUT. -/
def execAckTimeout (q : Fin 16) (s : State) : Out := .next (if s.ackLate q then s.linkDeath q 1 else s)

end Sys2Proof.Machine
end

