-- ==== Sys2Proof/Machine/Ports.lean ====
section
/-! DEFINITION. Eosor ports: bring-up, flits received, telemetry, lane health, gaps and light
(16 R385, R393-R396, R400-R404; 19 R446, R454). -/

namespace Sys2Proof.Machine

/-! ### Bring-up (R385, R400, R454) -/

/-- A write to EPCFG: EN from 0 to 1 starts bring-up; EN to 0 takes the link down. -/
def State.epcfgWrite (s : State) (q : Fin 16) (v : W64) : State :=
  let p := vget s.joist.ports q
  let s := s.updJoist fun j => j.updPort q fun p =>
    { p with en := bit v 0, untimed := bit v 1, linkto := field v 8 16, training := if bit v 0 ∧ !p.en then true else p.training }
  if p.en ∧ !bit v 0 then
    if p.trained then s.linkDeath q 4 else s.updJoist fun j => j.updPort q fun p => { p with training := false }
  else s

/-- PORT_ENABLE and PORT_DISABLE are writes of EPCFG with EN 1 and 0. -/
def execPortEnable (q : Fin 16) (val : BitVec 64) (s : State) : Out := .next (s.epcfgWrite q (setBit val 0 true))
def execPortDisable (q : Fin 16) (val : BitVec 64) (s : State) : Out := .next (s.epcfgWrite q (setBit val 0 false))

/-- LINK_TRAINED: training and the key exchange end, and the link's sequences start anew; telemetry then decides whether the
port comes up (R385, logs 43, 113). -/
def execLinkTrained (q : Fin 16) (keysOk : Bool) (fibre : BitVec 16) (s : State) : Out :=
  let p := vget s.joist.ports q
  if !p.training then .next s
  else if keysOk then
    .next (s.updJoist fun j => j.updPort q fun p =>
      { p with training := false, trained := true, lat := satAdd fibre 600, telemetryAt := s.cycle, lastAck := s.cycle, fails := [], rxSeq := 0, txSeq := 0 })
  else
    .next ((s.updJoist fun j => j.updPort q fun p => { p with training := false }).postLinkdown q p.member 2)

/-- The member a package names in its telemetry (R385). -/
def Joist.srcm (j : Joist) : BitVec 9 := if j.mvalid then j.member else 0x1FF

/-- TELEMETRY_SEND: every 4,096 cc a trained port sends its lanes' state; a flit that finds the replay buffer full leaves once
it has room, and the period stands (log 109). -/
def execTelemetrySend (q : Fin 16) (s : State) : Out :=
  let p := vget s.joist.ports q
  if !p.trained ∨ s.cycle < p.telemetryAt ∨ !s.joist.replayRoom q then .next s
  else
    let h : FlitHead := ⟨7, s.joist.srcm.toNat, p.member.toNat, 0, 0, 0, 0, 0, false, 32, 0, 0⟩
    let s := s.updJoist fun j => j.updPort q fun p => { p with telemetryAt := p.telemetryAt + 4096 }
    .next (s.putFlit q ⟨⟨h.bits, Config.telemetry q.val s.gtime⟩, none⟩)

/-! ### Lanes (R402) -/

def Port.lane (p : Port) (l : Fin 34) : PortLane := vget p.lanes l
def Port.updLane (p : Port) (l : Fin 34) (f : PortLane → PortLane) : Port := { p with lanes := vupd p.lanes l f }

def spareLanes : List (Fin 34) := [32, 33]

/-- An idle spare, but for one reserved for another lane. -/
def Port.idleSpare (p : Port) (l : Fin 34) : Option (Fin 34) :=
  spareLanes.find? fun k => (p.lane k).state == .idle && !p.swaps.any fun x => x.2 == k && x.1 != l

/-- Whether a weak lane's request for a swap still stands, or a pending swap awaits its gap. -/
def Port.asks (p : Port) : Bool := (fins 34).any fun k => (p.lane k).state == .weak

/-- The request for a swap is withdrawn where no weak lane is left (R402). -/
def Port.settleAsk (p : Port) : Port := if p.asks then p else { p with swapAsked := none, gapOffer := none }

/-- The swap of a lane is no longer pending; the gap goes with the last one. -/
def Port.dropSwap (p : Port) (l : Fin 34) : Port :=
  let left := p.swaps.filter fun x => x.1 != l
  ({ p with swaps := left, gapAgreed := if left.isEmpty then none else p.gapAgreed } : Port).settleAsk

/-- A spare carries the data lane of another lane. -/
def Port.carry (p : Port) (l k : Fin 34) : Port :=
  let m := (p.lane l).map
  (p.updLane k fun x => { x with state := .carrying, map := m, run := 0 }).updLane l fun x => { x with map := 63 }

/-- A data lane has failed: a swap at once, which stops the link for 256 cc, or a degraded port. -/
def Port.failLane (p : Port) (now : Nat) (l : Fin 34) : Port :=
  let spare := p.idleSpare l
  let p := p.updLane l fun x => { x with state := .failed, run := 0 }
  let p := if p.swaps.any fun x => x.1 == l then p.dropSwap l else p.settleAsk
  match spare with
  | some k => { p.carry l k with heldUntil := now + 256 }
  | none => { p with degraded := true }

/-- A lane below HARD or without light. -/
def Port.loseLane (p : Port) (now : Nat) (l : Fin 34) : Port :=
  match (p.lane l).state with
  | .active => p.failLane now l
  | .weak => p.failLane now l
  | .pending => p.failLane now l
  | .carrying =>
    let m := (p.lane l).map
    let p := p.updLane l fun x => { x with state := .failed, map := 63, run := 0 }
    let d : Fin 34 := Fin.ofNat 34 m.toNat
    (p.updLane d fun x => { x with map := m }).failLane now d
  | _ => p

/-- Whether a lane carries data. -/
def LaneState.works : LaneState → Bool
  | .active => true | .weak => true | .pending => true | .carrying => true | _ => false

/-- Whether a port's list holds the gap that starts at a GTIME (R400, R403). -/
def Port.listsGap (p : Port) (g : Nat) : Bool :=
  p.gapsOn && decide (p.gap.toNat ≤ g) && (if p.gapPeriod = 0 then g == p.gap.toNat else (g - p.gap.toNat) % p.gapPeriod == 0)

/-- The first gap that an end takes at a GTIME or later: of its list, or the GTIME itself for a port without a timetable; none
where the list has none. -/
def Port.firstGap (p : Port) (t : Nat) : Option Nat :=
  if p.untimed then some t
  else if !p.gapsOn then none
  else if t ≤ p.gap.toNat then some p.gap.toNat
  else if p.gapPeriod = 0 then none
  else some (p.gap.toNat + (t - p.gap.toNat + p.gapPeriod - 1) / p.gapPeriod * p.gapPeriod)

/-- The distance of a gap from the request for a swap (R403). -/
def gapNotice : Nat := 8192

/-- A weak lane requests a swap, and the port proposes its first gap 8,192 cc or more after the request, unless a request
stands already (R402, R403). -/
def Port.askSwap (p : Port) (gtime : Nat) : Port :=
  if p.swapAsked.isSome then p else { p with swapAsked := some gtime, gapOffer := p.firstGap (gtime + gapNotice) }

/-- The periods below or above SOFT in a row, and what 16 of them do. -/
def Port.judgeLane (p : Port) (now gtime : Nat) (l : Fin 34) : Port :=
  let x := p.lane l
  let hard := decide (x.margin.toInt < p.hard.toInt)
  let weak := decide (x.margin.toInt < p.soft.toInt)
  if hard && x.state.works then p.loseLane now l
  else match x.state with
    | .active =>
      if !weak then p.updLane l fun x => { x with run := 0 }
      else if x.run < 15 then p.updLane l fun x => { x with run := x.run + 1 }
      else
        (p.updLane l fun x => { x with state := .weak, run := 0 }).askSwap gtime
    | .weak =>
      if weak then p.updLane l fun x => { x with run := 0 }
      else if x.run < 15 then p.updLane l fun x => { x with run := x.run + 1 }
      else
        (p.updLane l fun x => { x with state := .active, run := 0 }).settleAsk
    | _ => p

/-- The least margin of the lanes that carry data. -/
def Port.worst (p : Port) : Int :=
  match (fins 34).filterMap fun l => if (p.lane l).state.works then some (p.lane l).margin.toInt else none with
  | [] => 0
  | x :: xs => xs.foldl min x

/-- The arbitration cycle of light that a cycle belongs to (R404). -/
def lightCycle (now : Nat) : Nat := now / 64

/-- The error monitor asks for light when the worst lane is below SOFT (log 44). -/
def Port.monitor (p : Port) (now : Nat) : Port :=
  if p.askMore.isNone ∧ p.worst < p.soft.toInt then { p with askMore := some (lightCycle now) } else p

/-- The margins and corrected errors of a telemetry flit. -/
def Port.takeTelemetry (p : Port) (now gtime : Nat) (margins corr : List (BitVec 16)) : Port :=
  let p := (fins 34).foldl (fun p l => p.updLane l fun x =>
    { x with margin := margins.getD l.val x.margin, corr := satAdd x.corr (corr.getD l.val 0).toNat }) p
  ((fins 34).foldl (fun p l => p.judgeLane now gtime l) p).monitor now

/-- A telemetry flit: the first one sets the circuit and brings the port up, or keeps it down on a conflict
of members. -/
def State.takeTelemetry (s : State) (q : Fin 16) (srcm : BitVec 9) (margins corr : List (BitVec 16)) : State :=
  let p := vget s.joist.ports q
  if !p.trained then s
  else if !p.up ∧ (srcm = s.joist.member ∨ srcm = 0x1FF) then
    (s.updJoist fun j => j.updPort q fun p => { p with trained := false, replay := [] }).postLinkdown q p.member 3
  else
    let s := s.updJoist fun j => j.updPort q fun p =>
      let p := if p.up then p else { p with up := true, circ := true, member := srcm }
      p.takeTelemetry s.cycle s.gtime margins corr
    if p.up then s else s.pumpTo srcm

def execTelemetryFlit (q : Fin 16) (srcm : BitVec 9) (margins : List (BitVec 16)) (corr : List (BitVec 16)) (s : State) : Out :=
  .next (s.takeTelemetry q srcm margins corr)

/-- LOSS_OF_LIGHT. -/
def execLossOfLight (q : Fin 16) (lane : Fin 34) (s : State) : Out :=
  .next (s.updJoist fun j => j.updPort q fun p => p.loseLane s.cycle lane)

/-! ### Gaps (R402, R403) -/

/-- A weak lane with an idle spare waits for the agreed gap, its spare reserved (R402). -/
def Port.awaitGap (p : Port) (l : Fin 34) : Port :=
  if (p.lane l).state != .weak then p
  else match p.idleSpare l with
    | some k => { p.updLane l fun x => { x with state := .pending, run := 0 } with swaps := p.swaps ++ [(l, k)] }
    | none => p

/-- A gap is agreed, for every weak lane that has an idle spare (R402). -/
def Port.agreeGap (p : Port) (g : Nat) : Port :=
  ((fins 34).foldl Port.awaitGap { p with gapAgreed := some g }).settleAsk

/-- Whether an end takes a gap that is offered for a request: its list holds it; between two ports without a timetable it is
the one that starts 8,192 cc after the request, and a port without one takes any later gap of its far end's list (R403). -/
def Port.takesGap (p : Port) (x : GapOffer) : Bool :=
  if !p.untimed then p.listsGap x.start.toNat && decide (x.request.toNat + gapNotice ≤ x.start.toNat)
  else if x.untimed then x.start.toNat == x.request.toNat + gapNotice
  else decide (x.request.toNat + gapNotice ≤ x.start.toNat)

/-- GAP_NEGOTIATION: the other end's proposal or answer, for a request that this end or the other has made. This end takes the
gap, or answers with its first one that is 8,192 cc or more after the request and not before the offer (R403, log 112). -/
def execGapNegotiation (q : Fin 16) (x : GapOffer) (s : State) : Out :=
  .next (s.updJoist fun j => j.updPort q fun p =>
    if !p.up then p
    else if p.takesGap x then p.agreeGap x.start.toNat
    else { p with gapOffer := p.firstGap (Nat.max (x.request.toNat + gapNotice) x.start.toNat) })

/-- LANE_SWAP_GAP: the agreed gap begins, and the pending lanes and their spares fall quiet. -/
def execLaneSwapGap (q : Fin 16) (s : State) : Out :=
  .next (s.updJoist fun j => j.updPort q fun p =>
    match p.gapAgreed with
    | some g =>
      if g ≤ s.gtime ∧ p.swaps.any fun x => (p.lane x.1).state == .pending then
        { p.swaps.foldl (fun p x => p.updLane x.1 fun y => if y.state = .pending then { y with state := .swapping } else y) p with
          swapAt := s.cycle }
      else p
    | none => p)

/-- The cycles within which a spare is trained (R402). -/
def trainCycles : Nat := 256

/-- SPARE_TRAINING_DONE: the spare of the first lane that swaps carries it, or has failed; one that is not trained within 256 cc
has failed. -/
def execSpareTrainingDone (q : Fin 16) (ok : Bool) (s : State) : Out :=
  .next (s.updJoist fun j => j.updPort q fun p =>
    match p.swaps.find? fun x => (p.lane x.1).state == .swapping with
    | some (l, k) =>
      if ok ∧ s.cycle ≤ p.swapAt + trainCycles then ((p.carry l k).updLane l fun x => { x with state := .spared }).dropSwap l
      else ((p.updLane k fun x => { x with state := .failed }).updLane l fun x => { x with state := .weak, run := 0 }).dropSwap l
    | none => p)

/-! ### Light (R404) -/

/-- RECLAIM: the power manager asks to lower the launch power. -/
def Port.askReclaim (p : Port) (now : Nat) : Port :=
  if p.askLess.isNone then { p with askLess := some (lightCycle now) } else p

def execReclaim (q : Fin 16) (s : State) : Out := .next (s.updJoist fun j => j.updPort q fun p => p.askReclaim s.cycle)

def Port.more (p : Port) : Port := { p with lpwr := satAdd p.lpwr 1 }
def Port.less (p : Port) : Port := { p with lpwr := if p.lpwr = 0 then 0 else p.lpwr - 1 }

/-- One arbitration of light by what is pending. -/
def Port.arbitrate (p : Port) : Port :=
  match p.askMore, p.askLess with
  | none, none => p
  | some _, none => { p.more with askMore := none }
  | none, some _ => { p.less with askLess := none }
  | some a, some b =>
    if a = b then { p.more with askMore := none }
    else if p.worst < p.hard.toInt then { p.more with askMore := none, askLess := none }
    else { p.less with askMore := none, askLess := none }

/-- LIGHT_ARBITRATION: once in every 64 cc. -/
def execLightArbitration (q : Fin 16) (s : State) : Out :=
  .next (s.updJoist fun j => j.updPort q fun p =>
    if lightCycle s.cycle < p.lightAt then p else { p.arbitrate with lightAt := lightCycle s.cycle + 1 })

/-! ### Flits received (R394, R395) -/

/-- The request of this package that an answering flit names (log 42). -/
def State.answered (s : State) (h : FlitHead) : Option PeerReq :=
  s.joist.peerReqs.find? fun r =>
    r.id.die.val == h.ddie && r.member.toNat == h.srcm && r.seq.toNat == h.seq && (match r.place with | .sent _ => true | _ => false)

/-- The margins and corrected errors of the lanes that a telemetry flit carries (R401, log 45). -/
def flitMargins (x : BitVec 2048) : List (BitVec 16) := (List.range 34).map fun l => Config.flitMargin x l
def flitCorr (x : BitVec 2048) : List (BitVec 16) := (List.range 34).map fun l => Config.flitCorr x l

/-- The master answers a timing flit with the GTIME at which it came and that at which the answer leaves, unless its port is in
a quiet gap or has no room (R383, R403, log 11). -/
def State.answerTime (s : State) (q : Fin 16) (h : FlitHead) : State :=
  if s.portQuiet q ∨ !s.joist.replayRoom q then s
  else
    let r : FlitHead := ⟨8, s.joist.member.toNat, h.srcm, 0, h.sdie, 0, 0, 0, false, 1, h.seq, s.gtime⟩
    s.putFlit q ⟨⟨r.bits, BitVec.ofNat 2048 s.gtime⟩, none⟩

/-- A good flit by its TYPE. A timed flit that is due while a swap stops the link is lost (R402). -/
def State.takeFlit (s : State) (q : Fin 16) (f : Flit) : State :=
  let h := readHead f.header
  let p := vget s.joist.ports q
  match h.type with
  | 0 =>
    if !p.up ∨ !s.joist.mvalid ∨ s.cycle < p.heldUntil then s
    else s.flitArrives (Fin.ofNat 8 h.ddie) (Fin.ofNat 16 h.core) (Fin.ofNat 32 h.ch) (BitVec.ofNat 16 h.seq) (BitVec.ofNat 64 h.arg) h.poison f.payload
  | 7 => s.takeTelemetry q (BitVec.ofNat 9 h.srcm) (flitMargins f.payload) (flitCorr f.payload)
  | 8 =>
    if !p.up ∨ !s.joist.mvalid ∨ s.cycle < p.heldUntil then s
    else if s.joist.member = s.joist.gtMaster then s.answerTime q h
    else s.recordTime (BitVec.ofNat 16 h.seq) (field f.payload 0 64) (BitVec.ofNat 64 h.arg)
  | n =>
    if 9 ≤ n then s.updJoist fun j => j.updPort q fun p => { p with badf := satAdd p.badf 1 }
    else if !p.up then s
    else if n = 1 ∨ n = 2 ∨ n = 4 then s.peerRequest q f
    else
      match s.answered h with
      | some r => if n = 6 ∧ h.arg / refusedArg % 2 = 1 then s.refuseReq r (h.arg / noMemberArg % 2 == 1) else s.answer r f.payload h.poison
      | none => s

/-- Whether a flit's trailer holds the CRC-32C of its header and payload (R393; 05 R119). -/
def crcGood (f : Flit) (crc : BitVec 32) : Bool := crc32c (flitBytes f) == crc

/-- The failures in a row of a link sequence, and the list with one more. -/
def Port.failed (p : Port) (n : BitVec 32) : Nat := ((p.fails.find? fun x => x.1 == n).map Prod.snd).getD 0
def Port.fail (p : Port) (n : BitVec 32) : Port :=
  { p with fails := (n, p.failed n + 1) :: p.fails.filter fun x => x.1 != n }

/-- FLIT_RECEIVE: a flit that fails its CRC is discarded, to be replayed by its sender; the link dies when one fails 16
replays. A good flit is taken when it is the next of its link's sequence, which the port then acknowledges up to it; another is
a replay of one that was taken, or comes before one that is to be replayed (R393, R395, log 113). -/
def execFlitReceive (q : Fin 16) (f : Flit) (x : Trailer) (s : State) : Out :=
  let p := vget s.joist.ports q
  if !p.trained then .next s
  else if !crcGood f x.crc then
    .next (if 16 ≤ p.failed x.seq then s.linkDeath q 0 else s.updJoist fun j => j.updPort q fun p => p.fail x.seq)
  else if x.seq ≠ p.rxSeq + 1 then .next s
  else
    .next ((s.updJoist fun j => j.updPort q fun p =>
      { p with rxSeq := x.seq, fails := p.fails.filter fun y => y.1 != x.seq }).takeFlit q f)

end Sys2Proof.Machine
end

