-- ==== Sys2Proof/Machine/Sha.lean ====
section
/-! DEFINITION. SHA-512 (19 R451-R453 name it; its steps are those of FIPS 180-4, log 10). -/

namespace Sys2Proof.Machine

/-- Round constants 0 to 9. -/
def shaK0 : List W64 :=
  [0x428a2f98d728ae22, 0x7137449123ef65cd, 0xb5c0fbcfec4d3b2f, 0xe9b5dba58189dbbc,
   0x3956c25bf348b538, 0x59f111f1b605d019, 0x923f82a4af194f9b, 0xab1c5ed5da6d8118,
   0xd807aa98a3030242, 0x12835b0145706fbe]
/-- Round constants 10 to 19. -/
def shaK1 : List W64 :=
  [0x243185be4ee4b28c, 0x550c7dc3d5ffb4e2, 0x72be5d74f27b896f, 0x80deb1fe3b1696b1,
   0x9bdc06a725c71235, 0xc19bf174cf692694, 0xe49b69c19ef14ad2, 0xefbe4786384f25e3,
   0x0fc19dc68b8cd5b5, 0x240ca1cc77ac9c65]
/-- Round constants 20 to 29. -/
def shaK2 : List W64 :=
  [0x2de92c6f592b0275, 0x4a7484aa6ea6e483, 0x5cb0a9dcbd41fbd4, 0x76f988da831153b5,
   0x983e5152ee66dfab, 0xa831c66d2db43210, 0xb00327c898fb213f, 0xbf597fc7beef0ee4,
   0xc6e00bf33da88fc2, 0xd5a79147930aa725]
/-- Round constants 30 to 39. -/
def shaK3 : List W64 :=
  [0x06ca6351e003826f, 0x142929670a0e6e70, 0x27b70a8546d22ffc, 0x2e1b21385c26c926,
   0x4d2c6dfc5ac42aed, 0x53380d139d95b3df, 0x650a73548baf63de, 0x766a0abb3c77b2a8,
   0x81c2c92e47edaee6, 0x92722c851482353b]
/-- Round constants 40 to 49. -/
def shaK4 : List W64 :=
  [0xa2bfe8a14cf10364, 0xa81a664bbc423001, 0xc24b8b70d0f89791, 0xc76c51a30654be30,
   0xd192e819d6ef5218, 0xd69906245565a910, 0xf40e35855771202a, 0x106aa07032bbd1b8,
   0x19a4c116b8d2d0c8, 0x1e376c085141ab53]
/-- Round constants 50 to 59. -/
def shaK5 : List W64 :=
  [0x2748774cdf8eeb99, 0x34b0bcb5e19b48a8, 0x391c0cb3c5c95a63, 0x4ed8aa4ae3418acb,
   0x5b9cca4f7763e373, 0x682e6ff3d6b2b8a3, 0x748f82ee5defb2fc, 0x78a5636f43172f60,
   0x84c87814a1f0ab72, 0x8cc702081a6439ec]
/-- Round constants 60 to 69. -/
def shaK6 : List W64 :=
  [0x90befffa23631e28, 0xa4506cebde82bde9, 0xbef9a3f7b2c67915, 0xc67178f2e372532b,
   0xca273eceea26619c, 0xd186b8c721c0c207, 0xeada7dd6cde0eb1e, 0xf57d4f7fee6ed178,
   0x06f067aa72176fba, 0x0a637dc5a2c898a6]
/-- Round constants 70 to 79. -/
def shaK7 : List W64 :=
  [0x113f9804bef90dae, 0x1b710b35131c471b, 0x28db77f523047d84, 0x32caab7b40c72493,
   0x3c9ebe0a15c9bebc, 0x431d67c49c100d4c, 0x4cc5d4becb3e42b6, 0x597f299cfc657e2a,
   0x5fcb6fab3ad6faec, 0x6c44198c4a475817]

def shaK : List W64 := shaK0 ++ shaK1 ++ shaK2 ++ shaK3 ++ shaK4 ++ shaK5 ++ shaK6 ++ shaK7

/-- The eight words of the hash, and of a round's working state. -/
structure Sha where
  a : W64
  b : W64
  c : W64
  d : W64
  e : W64
  f : W64
  g : W64
  h : W64
deriving DecidableEq, Repr

def shaInit : Sha :=
  ⟨0x6a09e667f3bcc908, 0xbb67ae8584caa73b, 0x3c6ef372fe94f82b, 0xa54ff53a5f1d36f1,
   0x510e527fade682d1, 0x9b05688c2b3e6c1f, 0x1f83d9abfb41bd6b, 0x5be0cd19137e2179⟩

def ror (x : W64) (n : Nat) : W64 := x.rotateRight n

/-- One round with its constant and message word. -/
def Sha.round (s : Sha) (k w : W64) : Sha :=
  let t1 := s.h + (ror s.e 14 ^^^ ror s.e 18 ^^^ ror s.e 41) + ((s.e &&& s.f) ^^^ (~~~s.e &&& s.g)) + k + w
  let t2 := (ror s.a 28 ^^^ ror s.a 34 ^^^ ror s.a 39) + ((s.a &&& s.b) ^^^ (s.a &&& s.c) ^^^ (s.b &&& s.c))
  ⟨t1 + t2, s.a, s.b, s.c, s.d + t1, s.e, s.f, s.g⟩

/-- The message word that follows the last 16, which the window holds oldest first. -/
def shaNext (w : List W64) : W64 :=
  let s0 (x : W64) : W64 := ror x 1 ^^^ ror x 8 ^^^ x >>> 7
  let s1 (x : W64) : W64 := ror x 19 ^^^ ror x 61 ^^^ x >>> 6
  s1 (w.getD 14 0) + w.getD 9 0 + s0 (w.getD 1 0) + w.getD 0 0

/-- The rounds of one block: the window of 16 message words moves on by one each. -/
def shaRounds : List W64 → List W64 → Sha → Sha
  | [], _, s => s
  | k :: ks, w, s => shaRounds ks (w.drop 1 ++ [shaNext w]) (s.round k (w.getD 0 0))

/-- A block of 16 words taken in. -/
def Sha.block (s : Sha) (w : List W64) : Sha :=
  let r := shaRounds shaK w s
  ⟨s.a + r.a, s.b + r.b, s.c + r.c, s.d + r.d, s.e + r.e, s.f + r.f, s.g + r.g, s.h + r.h⟩

/-- Words of 8 bytes, highest byte first. -/
def beWords : Nat → List Byte → List W64
  | 0, _ => []
  | n + 1, bs => BitVec.ofNat 64 ((bs.take 8).foldl (fun acc b => 256 * acc + b.toNat) 0) :: beWords n (bs.drop 8)

/-- The padded message: a 1 bit, zeros, and the length in bits in 16 bytes. -/
def shaPad (bs : List Byte) : List Byte :=
  let n := bs.length
  bs ++ [0x80] ++ List.replicate ((239 - n % 128) % 128) 0 ++ (leBytes 16 (8 * n)).reverse

def shaBlocks : Nat → List Byte → Sha → Sha
  | 0, _, s => s
  | n + 1, bs, s => shaBlocks n (bs.drop 128) (s.block (beWords 16 bs))

/-- The digest as 64 bytes in memory order, first byte lowest. -/
def sha512 (bs : List Byte) : BitVec 512 :=
  let p := shaPad bs
  let s := shaBlocks (p.length / 128) p shaInit
  BitVec.ofNat 512 (leNat ([s.a, s.b, s.c, s.d, s.e, s.f, s.g, s.h].flatMap fun x => (leBytes 8 x.toNat).reverse))

end Sys2Proof.Machine
end

