-- ==== Sys2Proof/Machine/Boot.lean ====
section
/-! DEFINITION. Boot and the safe state (19 R450, R451), the mailbox commands (R449, R452, R453), resets
(R450, R455) and IDE keys (R454). -/

namespace Sys2Proof.Machine

/-! ### The mailbox (R449) -/

/-- A command ends: refused or failed with ERR, with or without a response. -/
def State.mbEnd (s : State) (c : MbCmd) (done err : Bool) : State :=
  ({ s with mbQueue := s.mbQueue.erase c }).updDie c.die fun x => { x with mbDone := done, mbErr := err, mbSeq := c.seq }

/-- A command joins the queue: arrival order, and ascending die order in one cycle (R449). -/
def queueCmd (c : MbCmd) : List MbCmd → List MbCmd
  | [] => [c]
  | y :: ys => if y.at_ = c.at_ ∧ c.die < y.die then c :: y :: ys else y :: queueCmd c ys

/-- A write to MBCMD: ignored with ERR while a command runs; an unknown command is refused. -/
def State.mbWrite (s : State) (d : Fin 8) (v : W64) : State :=
  let c : MbCmd := ⟨d, field v 0 8, field v 8 8, field v 16 16, s.cycle⟩
  if s.mbBusy d then s.updDie d fun x => { x with mbErr := true }
  else
    let s := s.updDie d fun x => { x with mbDone := false, mbErr := false }
    if c.op = 0 ∨ 3 < c.op.toNat ∨ (s.boot = .safe ∧ c.op ≠ 3) then s.mbEnd c false true
    else { s with mbQueue := queueCmd c s.mbQueue }

/-- The security unit serves the command that came first, in a later cycle than it came, so that all commands of a cycle are
there (R449); in SAFE it refuses all but CERT (R451). -/
def State.serve (s : State) (c : MbCmd) (body : State → State) : State :=
  if s.mbQueue.head? ≠ some c ∨ s.cycle ≤ c.at_ then s
  else if s.boot = .safe ∧ c.op ≠ 3 then s.mbEnd c false true
  else body s

/-- The first bytes of the response area replaced. -/
def Die.respond (x : Die) (bs : List Byte) : Die :=
  let n := 8 * bs.length
  { x with mbResp := BitVec.ofNat 4096 (leNat bs % 2 ^ n + x.mbResp.toNat / 2 ^ n * 2 ^ n) }

/-! ### Identity and attestation (R452, R453) -/

/-- The nonce, and the request bytes of EXTEND. -/
def Die.request64 (x : Die) : List Byte := (bytesOf x.mbReq 256).take 64

/-- Bytes 0x00 to 0xFF of a report. -/
def State.report (s : State) (d : Fin 8) : List Byte :=
  leBytes 8 (0x41545331 + 2 ^ 32) ++ leBytes 8 capid.toNat ++ leBytes 8 (s.dieid d).toNat ++
  leBytes 8 (Config.securityVersion.toNat + 0x10000 * b2n s.ideLink) ++ bytesOf s.meas0 64 ++ bytesOf s.meas1 64 ++
  (s.die d).request64 ++ leBytes 8 s.gtime ++ List.replicate 24 0

/-- A signature value of 66 bytes, highest first. -/
def signature (which : Nat) (digest : BitVec 512) (k : Nat) : List Byte := (bytesOf (Config.ecdsa which digest k) 66).reverse

/-- ATTEST. -/
def execAttest (d : Fin 8) (seq : BitVec 16) (s : State) : Out :=
  .next (((s.mbQueue.find? fun c => c.die == d && c.op == 1 && c.seq == seq).map fun c => s.serve c fun s =>
    let r := s.report d
    let g := sha512 r
    let s := s.updDie d fun x => x.respond (r ++ signature 0 g s.free ++ signature 1 g s.free)
    { s.mbEnd c true false with free := s.free + 1 }).getD s)

/-- EXTEND. -/
def execExtend (d : Fin 8) (seq : BitVec 16) (s : State) : Out :=
  .next (((s.mbQueue.find? fun c => c.die == d && c.op == 2 && c.seq == seq).map fun c => s.serve c fun s =>
    { s.mbEnd c true false with meas1 := sha512 (bytesOf s.meas1 64 ++ (s.die d).request64) }).getD s)

/-- A chunk of 512 bytes of the certificate chain, zeros after its end. -/
def certChunk (n : Nat) : List Byte :=
  (List.range 512).map fun k => if 512 * n + k < Config.certLength then Config.certByte (512 * n + k) else 0

/-- CERT. -/
def execCert (d : Fin 8) (chunk : BitVec 8) (seq : BitVec 16) (s : State) : Out :=
  .next (((s.mbQueue.find? fun c => c.die == d && c.op == 3 && c.arg == chunk && c.seq == seq).map fun c => s.serve c fun s =>
    (s.updDie d fun x => x.respond (certChunk chunk.toNat)).mbEnd c true
      (decide (Config.certLength ≤ 512 * chunk.toNat))).getD s)

/-! ### Boot (R450, R451) -/

/-- SAFE is entered: the record is kept, the lasers go off, and the driver hears of it where it listens. -/
def State.enterSafe (s : State) (stage : BitVec 8) (d : Fin 8) (unit : BitVec 5) (detail : BitVec 48) : State :=
  let s := { s with
    boot := .safe, stage := stage, failDie := BitVec.ofNat 3 d.val, failUnit := unit, failDetail := detail, failTime := s.gtime64 }
  let s := s.updJoist fun j => j.lightCombs false
  (fins 8).foldl (fun s d =>
    if (s.die d).eqEn then s.postEvent d 0x15 noSrc (bitsOf s.failRecord 0 64) (bitsOf s.failRecord 64 64) else s) s

/-- RESET_RELEASE: GTIME starts, PCIe trains, and the boot ROM checks the firmware image. -/
def execResetRelease (sigOk verOk : Bool) (s : State) : Out :=
  if s.boot ≠ .reset then .next s
  else
    let s := { s with boot := .rom }
    .next (if !sigOk then s.enterSafe 1 0 0 0
      else if !verOk then s.enterSafe 2 0 0 0
      else { s with boot := .selftest, stage := 3, meas0 := Config.firmwareDigest })

/-- Memory of a kind written with zeros, its poison gone. -/
def State.zeroRegion (s : State) (r : Region) : State :=
  { s with mem := s.mem.filter fun c => region c.1 != r, poison := s.poison.filter fun p => region p != r }

/-- SELFTEST_STAGE_DONE: the next stage, READY after the last, or SAFE. Firmware lights the combs for stage 7
(09 R228). -/
def execSelftestStageDone (ok : Bool) (d : Fin 8) (unit : BitVec 5) (detail : BitVec 48) (s : State) : Out :=
  if s.boot ≠ .selftest then .next s
  else if !ok then .next (s.enterSafe s.stage d unit detail)
  else
    let n := s.stage.toNat
    let s := if n = 4 then s.zeroRegion .hbm else if n = 5 then s.zeroRegion .lpddr
      else if n = 6 then s.updJoist fun j => j.lightCombs true
      else s
    .next (if 8 ≤ n then { s with boot := .ready, stage := 0 } else { s with stage := s.stage + 1 })

/-- A reset of the package: all volatile state is lost. Host memory is the host's; the agenda and the count
of free values are the model's own. -/
def State.packageReset (s : State) : State :=
  if s.boot = .safe ∨ s.boot = .ready then { State.reset with host := s.host, agenda := s.agenda, free := s.free } else s

def execPcieFundamentalReset (s : State) : Out := .next s.packageReset
def execSmbusReset (s : State) : Out := .next s.packageReset

/-- IDE_KM: keys are programmed for link IDE (stream 0) or the selective stream (1), which is enabled or
disabled. -/
def execIdeKm (enable : Bool) (stream : BitVec 1) (s : State) : Out :=
  .next (if s.boot = .reset then s else if stream = 0 then { s with ideLink := enable } else { s with ideSel := enable })

end Sys2Proof.Machine
end

