-- ==== Sys2Proof/Machine/Control.lean ====
section
/-! DEFINITION. The meanings of S-slot group 3: control transfer and context control (12 R285-R290). -/

namespace Sys2Proof.Machine

/-- Control goes to a target after the bundle (R285); its check is the fetch's (10 R250). -/
def State.transfer (s : State) (t : W64) : State := s.updCx fun c => { c with npc := t, jumped := true }

/-- Rel: bundle VA + 4 x sext(OFF, 16). -/
def State.rel (s : State) (o : BitVec 16) : W64 := s.cx.arch.pc + o.signExtend 64 * 4

def execBr (g p : BitVec 4) (n : BitVec 1) (o : BitVec 16) (s : State) : Out :=
  s.slotOp g (.br g p n o) fun s => if s.rP p != (n == 1) then s.transfer (s.rel o) else s

def execJmp (g a : BitVec 4) (o : BitVec 16) (s : State) : Out :=
  s.slotOp g (.jmp g a o) fun s => s.transfer (s.rA a + o.signExtend 64 * 4)

def execCall (g : BitVec 4) (l : BitVec 5) (o : BitVec 16) (s : State) : Out :=
  s.slotOp g (.call g l o) fun s => (s.putS (l.setWidth 6) 1 s.cx.npc).transfer (s.rel o)

def execRet (g : BitVec 4) (l : BitVec 5) (s : State) : Out :=
  s.slotOp g (.ret g l) fun s => s.transfer (s.rS (l.setWidth 6))

/-- A loop counter's result. -/
def State.putLC (s : State) (n : BitVec 2) (v : W64) : State := s.deliver 1 (.lc n v) 0

/-- `loop_step` (R286). -/
def execLoop (g : BitVec 4) (n : BitVec 2) (o : BitVec 16) (s : State) : Out :=
  s.slotOp g (.loop g n o) fun s =>
    let v := if s.cx.rLC n = 0 then 0 else s.cx.rLC n - 1
    let s' := s.putLC n v
    if v = 0 then s' else s'.transfer (s.rel o)

/-- `rotate` with the write of p8 through the rotated base (R287). -/
def State.rotate (s : State) (p8 : Bool) : State :=
  let rbs := s.cx.arch.rbs + 31
  let rbp := s.cx.arch.rbp + 7
  (s.deliver 1 (.rot rbs rbp) 0).deliver 1 (.p (BitVec.ofNat 4 (8 + rbp.toNat)) p8) 0

/-- `mloop_step` (R287). -/
def execMloop (g : BitVec 4) (o : BitVec 16) (s : State) : Out :=
  s.slotOp g (.mloop g o) fun s =>
    if s.cx.rLC 0 ≠ 0 then ((s.putLC 0 (s.cx.rLC 0 - 1)).rotate true).transfer (s.rel o)
    else if s.cx.rLC 1 ≠ 0 then ((s.putLC 1 (s.cx.rLC 1 - 1)).rotate false).transfer (s.rel o)
    else s

def execLexit (g : BitVec 4) (n : BitVec 2) (o : BitVec 16) (s : State) : Out :=
  s.slotOp g (.lexit g n o) fun s => (s.putLC n 0).transfer (s.rel o)

/-- The context is pinned from the next bundle on; a pin while pinned has no effect (08 R201). -/
def execPin (g : BitVec 4) (s : State) : Out :=
  s.slotOp g (.pin g) fun s =>
    s.updCx fun c => if c.pin then c else { c with pin := true, pinStart := s.cycle + 1 }

/-- The pin ends at the bundle's boundary (08 R201, 18 R434). -/
def execUnpin (g : BitVec 4) (s : State) : Out :=
  s.slotOp g (.unpin g) fun s => s.unpinNow s.cur

/-- The quantum ends at the bundle's boundary when another context is ready then; a pinned context goes on (R289). -/
def execYield (g : BitVec 4) (s : State) : Out :=
  s.slotOp g (.yield g) fun s => if s.cx.pin then s else s.updCx fun c => { c with yields := true }

/-- Steps 1 and 2 of R290 with the wait of the rest: the task is ENDING (17 R420), and
COMPLETION_ACTION takes the later steps. -/
def execHalt (g : BitVec 4) (s : State) : Out :=
  s.slotOp g (.halt g) fun s =>
    let id := s.cur
    let s := (s.flushHeld id).unpinNow id
    let s := s.updCtx id fun c => { c with notices := [], wdRuns := false, fencing := false }
    let s := match (s.ctxOf id).task with
      | some n => s.updTask id.die n.val fun t => { t with state := .ending }
      | none => s
    s.giveUp id (.blocked .halt)

/-- SOFTTRAP at the boundary after the bundle, with CAUSE.ARG the code (R288). -/
def execTrap (g : BitVec 4) (k : BitVec 16) (s : State) : Out :=
  s.slotOp g (.trap g k) fun s => s.trapC (s.cx.plainRec cSOFTTRAP k.toNat)

end Sys2Proof.Machine
end

