-- ==== Sys2Proof/Machine/Regs.lean ====
section
/-! DEFINITION. What a write to a register of control space or of BAR0 does (00 R7; 01 R29, R30; 19 R444). -/

namespace Sys2Proof.Machine

/-! ### Writes (00 R7) -/

/-- The bits of a register that a 1 clears. -/
def Reg.w1c : Reg → W64
  | .die _ (.qcfg _) => 6
  | .die _ .merrs => 3
  | .die _ .ecccnt => BitVec.allOnes 64
  | .die _ .pbstat => 1
  | .die _ .kvstat => 7
  | .die _ .sstat => 2
  | .die _ .tlbinvst => 2
  | .die _ .eqcfg => 0x0000FFFF00000000
  | .joist .ctstat => 1
  | .joist .rgov => 0x0000000400000000
  | _ => 0

/-- The bits that software writes of a register whose write acts; a write that covers none of them is ignored. -/
def Reg.acts : Reg → W64
  | .die _ (.qkick _) => 0xFFFFFFFF
  | .die _ (.qcfg _) => 0xF3F07
  | .die _ .scmd => 0x3FF000F
  | .die _ .scfg => 0xFFFFFF01
  | .die _ .tlbinv => 0x3F07
  | .die _ .mbcmd => 0xFFFFFFFF
  | .die _ (.dtclr _) => 0x7FFF3FFF
  | .die _ .pbcfg => pbcfgMask
  | .die _ .bscfg => bscfgMask
  | .die _ .kvfrpos => 0xFFFFFFFF00000000
  | .die _ .kvrlpos => 0xFFFFFFFF
  | .joist (.ctlane _) => laneMask
  | .joist .combcmd => 0x37
  | .joist (.group _ 0) => 0x3F
  | _ => BitVec.allOnes 64

/-- The state after an event. -/
def afterEvent (f : State → Out) (s : State) : State :=
  match f s with
  | .next t => t
  | _ => s

/-- A write to SCMD (17 R419). -/
def State.scmdWrite (s : State) (d : Fin 8) (v : W64) : State :=
  let t : Fin 1024 := Fin.ofNat 1024 (bitsOf v 16 10)
  match bitsOf v 0 4 with
  | 1 => afterEvent (execSuspend d t) s
  | 2 => afterEvent (execResume d t) s
  | 3 => afterEvent (execEndTask d t) s
  | 4 => if 64 ≤ t.val then s.schedFail d else afterEvent (execEndq d (Fin.ofNat 64 t.val)) s
  | _ => s.schedFail d

/-- A write to COMBCMD (09 R228). -/
def State.combcmdWrite (s : State) (v : W64) : State :=
  if 4 ≤ bitsOf v 0 3 then s
  else
    let k : Fin 4 := Fin.ofNat 4 (bitsOf v 0 3)
    match bitsOf v 4 2 with
    | 1 => afterEvent (execCombSwap k) s
    | 2 => afterEvent (execCombReturn k) s
    | _ => s

/-- A value written to a register of a die block: every field by its access code; registers with an event
of their own act as that event does. -/
def State.dieRegWrite (s : State) (d : Fin 8) (r : DieReg) (v : W64) : State :=
  match r with
  | .dieid => afterEvent (execDieidWrite v) s
  | .habase => s.updDie d fun x => { x with habase := v &&& 0xFFFFFC0000000000 }
  | .asroot n => s.updDie d fun x => { x with asroot := vset x.asroot n (v &&& 0x000FFFFFFFFF0001) }
  | .qbase q => s.updQueue d q fun x => { x with qbase := v &&& ~~~0xFF#64 }
  | .qcfg q => afterEvent (execQcfgWrite d q v) s
  | .qkick q => afterEvent (execQkick d q v) s
  | .qseqb q => s.updQueue d q fun x => { x with qseqb := v &&& ~~~0xFE#64 }
  | .pbtab => afterEvent (execPbtabWrite d v) s
  | .pbcfg => afterEvent (execPbcfgWrite d v) s
  | .pbstat => s.updDie d fun x => { x with pbErr := x.pbErr && !bit v 0 }
  | .kvbase => afterEvent (execKvcfgWrite d true v) s
  | .kvcfg => afterEvent (execKvcfgWrite d false v) s
  | .kvfrb => s.updDie d fun x => { x with kvfrb := v &&& 0x000FFFFFFFFFFFC0 }
  | .kvfrpos => afterEvent (execKvfrposWrite d v) s
  | .kvrlb => s.updDie d fun x => { x with kvrlb := v &&& 0x000FFFFFFFFFFFC0 }
  | .kvrlpos => afterEvent (execKvrlposWrite d v) s
  | .kvstat => s.updDie d fun x =>
    { x with kvErr := x.kvErr && !bit v 0, kvEmpty := x.kvEmpty && !bit v 1, kvFull := x.kvFull && !bit v 2 }
  | .merrs => s.updDie d fun x => x.merrsWrite s.cycle v
  | .ecccnt => s.updDie d fun x => { x with ecccnt := x.ecccnt &&& ~~~v }
  | .mscrub => s.updDie d fun x => { x with mscrub := v &&& 0xFF01 }
  | .scmd => s.scmdWrite d v
  | .sstat => s.updDie d fun x => { x with schedErr := x.schedErr && !bit v 1 }
  | .scfg => afterEvent (execScfgWrite d v) s
  | .svbase => s.updDie d fun x => { x with svbase := v &&& 0x000FFFFFFFFF0000 }
  | .svcfg => s.updDie d fun x => { x with svcfg := field v 0 5 }
  | .pinmax => s.updDie d fun x => { x with pinmax := field v 0 24 }
  | .wdcfg => s.updDie d fun x =>
    { x with wdEn := bit v 0, wdLimit := field v 8 32, wdAt := s.cycle, wdOld := if x.wdAt = s.cycle then x.wdOld else (x.wdEn, x.wdLimit) }
  | .tlbinv => s.startInv d (field v 0 2) (Fin.ofNat 64 (bitsOf v 8 6)) (bit v 2)
  | .tlbinvva => s.updDie d fun x => { x with tlbinvva := v &&& ~~~0xFFFF#64 }
  | .tlbinvst => s.updDie d fun x => { x with tlbErr := x.tlbErr && !bit v 1 }
  | .cectl e => (s.updDie d fun x => { x with engines := vupd x.engines e fun y => { y with en := bit v 0 } }).assign d
  | .cebytes e => s.updDie d fun x => { x with engines := vupd x.engines e fun y => { y with bytes := v } }
  | .bscfg => afterEvent (execBscfgWrite d v) s
  | .mlcnt => s.updDie d fun x => { x with mlcnt := v }
  | .rprcnt => s.updDie d fun x => { x with rprcnt := v }
  | .rpfcnt => s.updDie d fun x => { x with rpfcnt := v }
  | .rvkcnt => s.updDie d fun x => { x with rvkcnt := v }
  | .calcfg c => s.updCore d c fun k => { k with calcfg := v &&& 0x000000FFFFFFFFFF }
  | .xdesk c l => s.updCore d c fun k => k.writeDelay s.gtime l (field v 0 8)
  | .dtclr c => afterEvent (execDtclr d c v) s
  | .chan c n => s.updChan d c n fun x => { x with desc := v &&& chanMask }
  | .frzcnt c => s.updCore d c fun k => { k with frzEcc := field v 0 24, frzGov := field v 24 24, frzDefer := field v 48 16 }
  | .clim c => s.updCore d c fun k =>
    { k with clim := field v 0 16, climAt := s.cycle, climOld := if k.climAt = s.cycle then k.climOld else k.clim }
  | .eqbase => s.updDie d fun x => { x with eqbase := v &&& ~~~0xFFF#64 }
  | .eqcfg => s.updDie d fun x =>
    { x with eqEn := bit v 0, eqSlog := field v 8 4, eqVec := field v 12 3, eqDrops := x.eqDrops &&& ~~~field v 32 16 }
  | .eqpos => s.updDie d fun x => { x with eqHead := field v 0 32 }
  | .mbcmd => s.mbWrite d v
  | .capid | .matom | .msize | .tcap | .qpos _ | .merra | .ttstat _ | .cestat _ | .bsstat _ | .bshold _ | .bsid _ | .bscap
  | .xcalst _ | .dirty _ _ | .chstat _ _ | .mbstat => s

def State.joistRegWrite (s : State) (r : JoistReg) (v : W64) : State :=
  match r with
  | .ctlane l => s.laneWrite l v
  | .ctstat => s.updJoist fun j => { j with ctRefused := j.ctRefused && !bit v 0 }
  | .ctpwr => s.updJoist fun j => { j with ctFloor := field v 16 16, ctExtFloor := field v 32 16 }
  | .rman => s.rmanWrite v
  | .rmannx => s.rmannxWrite v
  | .rgov => s.rgovWrite v
  | .gtcfg => s.updJoist fun j =>
    { j with
      gtGuard := field v 0 9, gtMaster := field v 16 9, gtSlotw := field v 32 8
      gtGuardAt := s.cycle, gtGuardOld := if j.gtGuardAt = s.cycle then j.gtGuardOld else j.gtGuard }
  | .veqcfg => (s.updJoist fun j => { j with veqcfg := v &&& 0x00FFFFFFFFFF0001 }).pumpAll
  | .group g w => s.groupWrite g w v
  | .combcfg => afterEvent (execCombcfgWrite v) s
  | .combcmd => s.combcmdWrite v
  | .epcfg q => s.epcfgWrite q v
  | .epstat q => s.updJoist fun j => j.updPort q fun p => { p with badf := field v 8 16, nocirc := field v 24 16, lost := field v 40 16 }
  | .epgap q => s.updJoist fun j => j.updPort q fun p => { p with gap := v }
  | .epgapp q => s.updJoist fun j => j.updPort q fun p => { p with gapp := v &&& 0x0000FFFFFFFFFFFF }
  | .eppwr q => s.updJoist fun j => j.updPort q fun p =>
    let p := { p with soft := field v 0 16, hard := field v 16 16 }
    if bit v 40 then p.askReclaim s.cycle else p
  | .eplane q l => s.updJoist fun j => j.updPort q fun p => p.updLane l fun x => { x with corr := field v 32 16 }
  | .jloss _ | .eloss _ | .rpos | .gtoff | .combstat _ | .epcirc _ | .eplat _ | .pseqin _ _ => s

/-- A write to half an MSI-X entry; one that unmasks a pending vector sends its message (log 21). -/
def State.msixWrite (s : State) (n : Fin 64) (h : Fin 2) (v : W64) : State :=
  let s := { s with msixTab := ainsert n.val (setField (s.msixEntry n.val) (64 * h.val) 64 v.toNat) s.msixTab }
  if bit (s.msixEntry n.val) 96 ∨ !bit s.msixPba n.val then s
  else { s with msixPba := setBit s.msixPba n.val false }.sendMsix n.val

def State.regPut (s : State) (r : Reg) (v : W64) : State :=
  match r with
  | .die d r => s.dieRegWrite d r v
  | .joist r => s.joistRegWrite r v
  | .msix n h => s.msixWrite n h v
  | .msixPba => s

/-- A write of the bits that a mask selects; fields outside it stay as they are, and reserved bits are ignored. -/
def State.regWrite (s : State) (r : Reg) (v mask : W64) : State :=
  if r.acts &&& mask = 0 then s
  else s.regPut r ((v &&& mask) ||| (s.regRead r &&& ~~~r.w1c &&& ~~~mask))

/-- The bits that an access of 4 or 8 bytes at an offset covers, and its value in their place. -/
def laneOf (off : Nat) (wide : Bool) (v : W64) : W64 × W64 :=
  if wide then (v, BitVec.allOnes 64)
  else if off % 8 = 0 then (v &&& 0xFFFFFFFF, 0xFFFFFFFF) else (v <<< 32, 0xFFFFFFFF00000000)

/-- A write of 4 or 8 bytes that reaches control space; reserved offsets ignore it. -/
def State.ctrlWrite (s : State) (off : Nat) (wide : Bool) (v : W64) : State :=
  match ctrlRegAt (off / 8 * 8) with
  | some r => let (x, m) := laneOf off wide v; s.regWrite r x m
  | none => s

/-- The state in which the Joist takes a register write of a die: writes of one cycle come in ascending die order, so that one
of a lower die than the last comes in the next cycle (01 R30, log 110). -/
def State.joistTurn (s : State) (d : Fin 8) : State :=
  let s := if s.joist.wroteAt = s.cycle ∧ d < s.joist.wroteBy then s.advance (s.cycle + 1) else s
  s.updJoist fun j => { j with wroteAt := s.cycle, wroteBy := d }

/-- REGISTER_WRITE: a write by firmware or the driver of a die at a control-space address. -/
def execRegisterWrite (x : RegWrite) (val : BitVec 64) (wide : Bool) (s : State) : Out :=
  let a := x.pa.toNat
  .next (if region a = .ctrl ∧ aligned48 a wide then
      let off := a - ctrlBase
      (if off / 0x10000000 = 8 then s.joistTurn x.die else s).ctrlWrite off wide val
    else s)

end Sys2Proof.Machine
end

