-- ==== Sys2Proof/Machine/HostBus.lean ====
section
/-! DEFINITION. Inbound requests of the host to BAR0 and BAR2 (19 R444, R446, R451). -/

namespace Sys2Proof.Machine

/-- The die that an inbound request addressed (R446). -/
def barDie (bar2 : Bool) (off : Nat) : Fin 8 :=
  if bar2 then (if off / 0x10000000 < 8 then Fin.ofNat 8 (off / 0x10000000) else 0)
  else (if off < 0x8000000 then Fin.ofNat 8 (off / 0x1000000) else 0)

/-- A discarded request: BADPKT with its reason and the first 8 bytes of its data. -/
def State.badPacket (s : State) (bar2 : Bool) (off reason first : Nat) : State :=
  s.postEvent (barDie bar2 off) 0x0E noSrc (off + 2 ^ 36 * (if bar2 then 2 else 0) + 2 ^ 40 * reason) first

/-- The register that an 8-byte-aligned BAR offset names. -/
def barRegAt (bar2 : Bool) (off : Nat) : Option Reg :=
  if bar2 then (if off < 2 ^ 32 then ctrlRegAt off else none) else bar0RegAt off

/-- Whether n bytes from an offset on reach a register of BAR0. -/
def hitsBar0 (off n : Nat) : Bool :=
  (List.range ((off + n + 7) / 8 - off / 8)).any fun k => (bar0RegAt (8 * (off / 8 + k))).isSome

/-- Bytes written to the request area; the response area and the failure record ignore them. -/
def Die.requestWrite (x : Die) : Nat → List Byte → Die
  | _, [] => x
  | o, b :: bs =>
    Die.requestWrite
      (if 0x100 ≤ o ∧ o < 0x200 then { x with mbReq := setField x.mbReq (8 * (o - 0x100)) 8 b.toNat } else x) (o + 1) bs

/-- A register write of 4 or 8 bytes through a BAR. -/
def State.barWrite (s : State) (bar2 : Bool) (off : Nat) (data : List Byte) : State :=
  match barRegAt bar2 (off / 8 * 8) with
  | some r => let (x, m) := laneOf off (data.length == 8) (w64 data); s.regWrite r x m
  | none => s

/-- Whether a write has a size and an alignment that registers take. -/
def goodSize (off : Nat) (data : List Byte) : Bool := readSize off data.length

/-- Whether the package takes no request: PCIe has not trained, BAR2 is closed in SAFE (R451), or an IDE stream is
enabled and the request is outside it, an Unsupported Request (R454). -/
def State.hostShut (s : State) (bar2 inStream : Bool) : Bool :=
  s.boot == .reset || (bar2 && s.boot == .safe) || ((s.ideLink || s.ideSel) && !inStream)

/-- HOST_INBOUND_WRITE; `inStream` tells a request within an enabled IDE stream. -/
def execHostInboundWrite (bar2 : Bool) (off : BitVec 36) (data : List (BitVec 8)) (poisoned inStream : Bool) (s : State) : Out :=
  let o := off.toNat
  let n := data.length
  let first := leNat (data.take 8)
  if s.hostShut bar2 inStream then .next s
  else if bar2 then
    .next (if poisoned then s.badPacket bar2 o 0 first
      else if !goodSize o data then s.badPacket bar2 o 1 first
      else s.barWrite bar2 o data)
  else if inMailbox o n then
    .next (if poisoned then s.badPacket bar2 o 0 first
      else s.updDie (barDie bar2 o) fun x => x.requestWrite (o % 0x1000000) data)
  else if hitsBar0 o n then
    .next (if poisoned then s.badPacket bar2 o 0 first
      else if !goodSize o data then s.badPacket bar2 o 1 first
      else s.barWrite bar2 o data)
  else .next s

/-- What a 64-bit PCIe AtomicOp leaves in a register; none where a comparison fails. -/
def atomicNew (op : HostAtomic) (old : W64) : Option W64 :=
  match op with
  | .fetchAdd x => some (old + x)
  | .swap x => some x
  | .cas cmp x => if old = cmp.setWidth 64 then some (x.setWidth 64) else none

/-- The bytes of an operand of an AtomicOp. -/
def atomicBytes : AtomicSize → Nat
  | .b32 => 4 | .b64 => 8 | .b128 => 16

/-- The first 8 bytes of an AtomicOp's data: its operand, or the comparand and the value to swap in, one after the other. -/
def atomicData (size : AtomicSize) (op : HostAtomic) : Nat :=
  let n := 2 ^ (8 * atomicBytes size)
  (match op with
    | .fetchAdd x => x.toNat % n
    | .swap x => x.toNat % n
    | .cas cmp x => cmp.toNat % n + n * (x.toNat % n)) % 2 ^ 64

/-- HOST_ATOMICOP: one read-modify-write of a register, or an Unsupported Request. -/
def execHostAtomicop (bar2 : Bool) (off : BitVec 36) (size : AtomicSize) (op : HostAtomic) (inStream : Bool) (s : State) : Out :=
  let o := off.toNat
  if s.hostShut bar2 inStream then .next s
  else
    .next (match (if size = .b64 ∧ o % 8 = 0 then barRegAt bar2 o else none) with
      | none => s.badPacket bar2 o 2 (atomicData size op)
      | some r => match atomicNew op (s.regRead r) with
        | some v => s.regWrite r v (BitVec.allOnes 64)
        | none => s)

end Sys2Proof.Machine
end

