-- ==== Sys2Proof/Machine/Dispatch.lean ====
section
/-! DEFINITION. The meaning of every instruction: one arm per constructor, one call per arm. -/

namespace Sys2Proof.Machine

/-- Executes one instruction: a slot operation for the context that issues, or a hardware event. -/
def exec (i : Instr) (s : State) : Host.Outcome State Fault Refusal :=
  match i with
  | .add g d a b => Sys2Proof.Machine.execAdd g d a b s
  | .sub g d a b => Sys2Proof.Machine.execSub g d a b s
  | .mul g d a b => Sys2Proof.Machine.execMul g d a b s
  | .mulh g d a b f => Sys2Proof.Machine.execMulh g d a b f s
  | .div g d a b f => Sys2Proof.Machine.execDiv g d a b f s
  | .rem g d a b f => Sys2Proof.Machine.execRem g d a b f s
  | .and g d a b => Sys2Proof.Machine.execAnd g d a b s
  | .or g d a b => Sys2Proof.Machine.execOr g d a b s
  | .xor g d a b => Sys2Proof.Machine.execXor g d a b s
  | .andn g d a b => Sys2Proof.Machine.execAndn g d a b s
  | .shl g d a b => Sys2Proof.Machine.execShl g d a b s
  | .shr g d a b => Sys2Proof.Machine.execShr g d a b s
  | .sra g d a b => Sys2Proof.Machine.execSra g d a b s
  | .min g d a b f => Sys2Proof.Machine.execMin g d a b f s
  | .max g d a b f => Sys2Proof.Machine.execMax g d a b f s
  | .sel g d a b p => Sys2Proof.Machine.execSel g d a b p s
  | .addi g d a i1 => Sys2Proof.Machine.execAddi g d a i1 s
  | .andi g d a i1 => Sys2Proof.Machine.execAndi g d a i1 s
  | .ori g d a i1 => Sys2Proof.Machine.execOri g d a i1 s
  | .xori g d a i1 => Sys2Proof.Machine.execXori g d a i1 s
  | .shli g d a i1 => Sys2Proof.Machine.execShli g d a i1 s
  | .shri g d a i1 => Sys2Proof.Machine.execShri g d a i1 s
  | .srai g d a i1 => Sys2Proof.Machine.execSrai g d a i1 s
  | .movi g d i1 => Sys2Proof.Machine.execMovi g d i1 s
  | .movh g d i1 => Sys2Proof.Machine.execMovh g d i1 s
  | .clz g d a => Sys2Proof.Machine.execClz g d a s
  | .ctz g d a => Sys2Proof.Machine.execCtz g d a s
  | .popc g d a => Sys2Proof.Machine.execPopc g d a s
  | .sext g d a w => Sys2Proof.Machine.execSext g d a w s
  | .zext g d a w => Sys2Proof.Machine.execZext g d a w s
  | .cmp g p a b c => Sys2Proof.Machine.execCmp g p a b c s
  | .cmpi g p a i1 c => Sys2Proof.Machine.execCmpi g p a i1 c s
  | .lea g d a b h => Sys2Proof.Machine.execLea g d a b h s
  | .amov g d a => Sys2Proof.Machine.execAmov g d a s
  | .agetA g d a => Sys2Proof.Machine.execAgetA g d a s
  | .agetD g d a => Sys2Proof.Machine.execAgetD g d a s
  | .dset g d a => Sys2Proof.Machine.execDset g d a s
  | .aadd g d a i1 => Sys2Proof.Machine.execAadd g d a i1 s
  | .pand g d a b => Sys2Proof.Machine.execPand g d a b s
  | .por g d a b => Sys2Proof.Machine.execPor g d a b s
  | .pxor g d a b => Sys2Proof.Machine.execPxor g d a b s
  | .pnot g d a => Sys2Proof.Machine.execPnot g d a s
  | .pmov g d a => Sys2Proof.Machine.execPmov g d a s
  | .psetConst g d v => Sys2Proof.Machine.execPsetConst g d v s
  | .psetScalar g d a => Sys2Proof.Machine.execPsetScalar g d a s
  | .psetBit g d a n => Sys2Proof.Machine.execPsetBit g d a n s
  | .br g p n o => Sys2Proof.Machine.execBr g p n o s
  | .jmp g a o => Sys2Proof.Machine.execJmp g a o s
  | .call g l o => Sys2Proof.Machine.execCall g l o s
  | .ret g l => Sys2Proof.Machine.execRet g l s
  | .loop g n o => Sys2Proof.Machine.execLoop g n o s
  | .mloop g o => Sys2Proof.Machine.execMloop g o s
  | .lexit g n o => Sys2Proof.Machine.execLexit g n o s
  | .pin g => Sys2Proof.Machine.execPin g s
  | .unpin g => Sys2Proof.Machine.execUnpin g s
  | .yield g => Sys2Proof.Machine.execYield g s
  | .halt g => Sys2Proof.Machine.execHalt g s
  | .trap g k => Sys2Proof.Machine.execTrap g k s
  | .csrr g d k => Sys2Proof.Machine.execCsrr g d k s
  | .csrw g d k => Sys2Proof.Machine.execCsrw g d k s
  | .widf g d k => Sys2Proof.Machine.execWidf g d k s
  | .gtime g d => Sys2Proof.Machine.execGtime g d s
  | .realign g d => Sys2Proof.Machine.execRealign g d s
  | .tshapeImm g t r c f => Sys2Proof.Machine.execTshapeImm g t r c f s
  | .tshapeReg g t n => Sys2Proof.Machine.execTshapeReg g t n s
  | .tvalid g t r c => Sys2Proof.Machine.execTvalid g t r c s
  | .ftsetAbs g d n => Sys2Proof.Machine.execFtsetAbs g d n s
  | .ftsetCur g d n => Sys2Proof.Machine.execFtsetCur g d n s
  | .fbaseImm g n => Sys2Proof.Machine.execFbaseImm g n s
  | .fbaseReg g d => Sys2Proof.Machine.execFbaseReg g d s
  | .pkset g d => Sys2Proof.Machine.execPkset g d s
  | .pksetKey g k r w => Sys2Proof.Machine.execPksetKey g k r w s
  | .xpset g d n => Sys2Proof.Machine.execXpset g d n s
  | .beat g => Sys2Proof.Machine.execBeat g s
  | .uiret g => Sys2Proof.Machine.execUiret g s
  | .ld g d r m f s1 z x => Sys2Proof.Machine.execLd g d r m f s1 z x s
  | .st g d r m f z x => Sys2Proof.Machine.execSt g d r m f z x s
  | .lld g d r m f x => Sys2Proof.Machine.execLld g d r m f x s
  | .lst g d r m f x => Sys2Proof.Machine.execLst g d r m f x s
  | .pref g r m z x => Sys2Proof.Machine.execPref g r m z x s
  | .tld g t q r m s1 f => Sys2Proof.Machine.execTld g t q r m s1 f s
  | .tst g t q r m s1 f => Sys2Proof.Machine.execTst g t q r m s1 f s
  | .tldg g t q r m s1 f => Sys2Proof.Machine.execTldg g t q r m s1 f s
  | .tsts g t q r m s1 f => Sys2Proof.Machine.execTsts g t q r m s1 f s
  | .kvld g t q r s1 c => Sys2Proof.Machine.execKvld g t q r s1 c s
  | .kvapp g t r s1 => Sys2Proof.Machine.execKvapp g t r s1 s
  | .kvfree g r s1 => Sys2Proof.Machine.execKvfree g r s1 s
  | .amo g d r f b z o => Sys2Proof.Machine.execAmo g d r f b z o s
  | .cas g d r f b z => Sys2Proof.Machine.execCas g d r f b z s
  | .famo g d r f b o => Sys2Proof.Machine.execFamo g d r f b o s
  | .red g r f b z o => Sys2Proof.Machine.execRed g r f b z o s
  | .fred g r f b o => Sys2Proof.Machine.execFred g r f b o s
  | .redb g r f b z o q => Sys2Proof.Machine.execRedb g r f b z o q s
  | .fredb g r f b o q => Sys2Proof.Machine.execFredb g r f b o q s
  | .fence g k s1 => Sys2Proof.Machine.execFence g k s1 s
  | .barinit g r b => Sys2Proof.Machine.execBarinit g r b s
  | .arrive g d r => Sys2Proof.Machine.execArrive g d r s
  | .bwait g d r => Sys2Proof.Machine.execBwait g d r s
  | .btwait g d r b => Sys2Proof.Machine.execBtwait g d r b s
  | .pub g d r => Sys2Proof.Machine.execPub g d r s
  | .tadd g d a b c r s1 m => Sys2Proof.Machine.execTadd g d a b c r s1 m s
  | .tsub g d a b c r s1 m => Sys2Proof.Machine.execTsub g d a b c r s1 m s
  | .tmul g d a b c r s1 m => Sys2Proof.Machine.execTmul g d a b c r s1 m s
  | .tmin g d a b c r s1 m => Sys2Proof.Machine.execTmin g d a b c r s1 m s
  | .tmax g d a b c r s1 m => Sys2Proof.Machine.execTmax g d a b c r s1 m s
  | .tfma g d a b c r s1 => Sys2Proof.Machine.execTfma g d a b c r s1 s
  | .tfms g d a b c r s1 => Sys2Proof.Machine.execTfms g d a b c r s1 s
  | .tabs g d a c r s1 m => Sys2Proof.Machine.execTabs g d a c r s1 m s
  | .tneg g d a c r s1 m => Sys2Proof.Machine.execTneg g d a c r s1 m s
  | .tcpy g d a c m => Sys2Proof.Machine.execTcpy g d a c m s
  | .tscale g d a b c r s1 m => Sys2Proof.Machine.execTscale g d a b c r s1 m s
  | .tclamp g d a b c r s1 => Sys2Proof.Machine.execTclamp g d a b c r s1 s
  | .tcmp g d a b c k m => Sys2Proof.Machine.execTcmp g d a b c k m s
  | .tsel g d a b c => Sys2Proof.Machine.execTsel g d a b c s
  | .tcvt g d a c r s1 m => Sys2Proof.Machine.execTcvt g d a c r s1 m s
  | .tbcast g d a c r s1 m => Sys2Proof.Machine.execTbcast g d a c r s1 m s
  | .tiadd g d a b s1 u k m => Sys2Proof.Machine.execTiadd g d a b s1 u k m s
  | .tisub g d a b s1 u k m => Sys2Proof.Machine.execTisub g d a b s1 u k m s
  | .timul g d a b s1 u k m => Sys2Proof.Machine.execTimul g d a b s1 u k m s
  | .tand g d a b u k m => Sys2Proof.Machine.execTand g d a b u k m s
  | .tor g d a b u k m => Sys2Proof.Machine.execTor g d a b u k m s
  | .txor g d a b u k m => Sys2Proof.Machine.execTxor g d a b u k m s
  | .tshl g d a b u k m => Sys2Proof.Machine.execTshl g d a b u k m s
  | .tshr g d a b u k m => Sys2Proof.Machine.execTshr g d a b u k m s
  | .trget g t v s1 i1 => Sys2Proof.Machine.execTrget g t v s1 i1 s
  | .trput g t v s1 i1 => Sys2Proof.Machine.execTrput g t v s1 i1 s
  | .tcget g t v s1 i1 => Sys2Proof.Machine.execTcget g t v s1 i1 s
  | .tcput g t v s1 i1 => Sys2Proof.Machine.execTcput g t v s1 i1 s
  | .ttr g t a => Sys2Proof.Machine.execTtr g t a s
  | .tbrow g t v => Sys2Proof.Machine.execTbrow g t v s
  | .tbcol g t v => Sys2Proof.Machine.execTbcol g t v s
  | .tzero g t s1 => Sys2Proof.Machine.execTzero g t s1 s
  | .tredr g d a k o r s1 m => Sys2Proof.Machine.execTredr g d a k o r s1 m s
  | .tredc g d a k o r s1 m => Sys2Proof.Machine.execTredc g d a k o r s1 m s
  | .tred g d a k o r s1 m => Sys2Proof.Machine.execTred g d a k o r s1 m s
  | .tscan g d a k o r s1 m => Sys2Proof.Machine.execTscan g d a k o r s1 m s
  | .tdot g d a b r s1 x => Sys2Proof.Machine.execTdot g d a b r s1 x s
  | .tdots g d a b c r s1 x => Sys2Proof.Machine.execTdots g d a b c r s1 x s
  | .tsprs g d a b n => Sys2Proof.Machine.execTsprs g d a b n s
  | .trcpa g d a c r s1 m => Sys2Proof.Machine.execTrcpa g d a c r s1 m s
  | .trsqa g d a c r s1 m => Sys2Proof.Machine.execTrsqa g d a c r s1 m s
  | .trcpr g d a b c r s1 m => Sys2Proof.Machine.execTrcpr g d a b c r s1 m s
  | .trsqr g d a b c r s1 m => Sys2Proof.Machine.execTrsqr g d a b c r s1 m s
  | .texp2 g d a c r s1 m => Sys2Proof.Machine.execTexp2 g d a c r s1 m s
  | .tlog2 g d a c r s1 m => Sys2Proof.Machine.execTlog2 g d a c r s1 m s
  | .ttanh g d a c r s1 m => Sys2Proof.Machine.execTtanh g d a c r s1 m s
  | .tsigm g d a c r s1 m => Sys2Proof.Machine.execTsigm g d a c r s1 m s
  | .twelf g d a c r s1 m => Sys2Proof.Machine.execTwelf g d a c r s1 m s
  | .twmrg g d a b c r s1 m => Sys2Proof.Machine.execTwmrg g d a b c r s1 m s
  | .kand g d a b => Sys2Proof.Machine.execKand g d a b s
  | .kor g d a b => Sys2Proof.Machine.execKor g d a b s
  | .kxor g d a b => Sys2Proof.Machine.execKxor g d a b s
  | .knot g d a => Sys2Proof.Machine.execKnot g d a s
  | .kcnt g a d => Sys2Proof.Machine.execKcnt g a d s
  | .xdot g a b s1 t c k d => Sys2Proof.Machine.execXdot g a b s1 t c k d s
  | .xdots g a b s1 t c k d n => Sys2Proof.Machine.execXdots g a b s1 t c k d n s
  | .xbcast g a b s1 t => Sys2Proof.Machine.execXbcast g a b s1 t s
  | .xrep g s1 w => Sys2Proof.Machine.execXrep g s1 w s
  | .xrange g a s1 => Sys2Proof.Machine.execXrange g a s1 s
  | .xcal g => Sys2Proof.Machine.execXcal g s
  | .xdesk g l s1 => Sys2Proof.Machine.execXdesk g l s1 s
  | .xwait g s1 => Sys2Proof.Machine.execXwait g s1 s
  | .xprog g s1 => Sys2Proof.Machine.execXprog g s1 s
  | .xprogClear g => Sys2Proof.Machine.execXprogClear g s
  | .board g d s1 t => Sys2Proof.Machine.execBoard g d s1 t s
  | .unboard g d s1 => Sys2Proof.Machine.execUnboard g d s1 s
  | .rpos g d => Sys2Proof.Machine.execRpos g d s
  | .rposStat g d s1 => Sys2Proof.Machine.execRposStat g d s1 s
  | .rposId g d s1 => Sys2Proof.Machine.execRposId g d s1 s
  | .cpy g a b s1 d p => Sys2Proof.Machine.execCpy g a b s1 d p s
  | .cpy2 g a b s1 d p => Sys2Proof.Machine.execCpy2 g a b s1 d p s
  | .gath g a b s1 d p => Sys2Proof.Machine.execGath g a b s1 d p s
  | .scat g a b s1 d p => Sys2Proof.Machine.execScat g a b s1 d p s
  | .cpyp g a b s1 d p => Sys2Proof.Machine.execCpyp g a b s1 d p s
  | .kvmig g a s1 d => Sys2Proof.Machine.execKvmig g a s1 d s
  | .cwait g s1 d => Sys2Proof.Machine.execCwait g s1 d s
  | .cwaitAll g d => Sys2Proof.Machine.execCwaitAll g d s
  | .cnote g s1 d => Sys2Proof.Machine.execCnote g s1 d s
  | .cred g a b s1 d p => Sys2Proof.Machine.execCred g a b s1 d p s
  | .cbc g a b s1 d p => Sys2Proof.Machine.execCbc g a b s1 d p s
  | .cag g a b s1 d p => Sys2Proof.Machine.execCag g a b s1 d p s
  | .cbar g s1 d => Sys2Proof.Machine.execCbar g s1 d s
  | .send g v c r m s1 => Sys2Proof.Machine.execSend g v c r m s1 s
  | .recv g v c r m s1 => Sys2Proof.Machine.execRecv g v c r m s1 s
  | .recva g v c r m s1 => Sys2Proof.Machine.execRecva g v c r m s1 s
  | .recvm g v c r m s1 => Sys2Proof.Machine.execRecvm g v c r m s1 s
  | .lstat g v c s1 => Sys2Proof.Machine.execLstat g v c s1 s
  | .nop c m t r => Sys2Proof.Machine.execNop c m t r s
  | .registerWrite pa val wide => Sys2Proof.Machine.execRegisterWrite pa val wide s
  | .dieidWrite val => Sys2Proof.Machine.execDieidWrite val s
  | .dtclr d c val => Sys2Proof.Machine.execDtclr d c val s
  | .qkick d q val => Sys2Proof.Machine.execQkick d q val s
  | .qcfgWrite d q val => Sys2Proof.Machine.execQcfgWrite d q val s
  | .tlbinvPage d asid bcast => Sys2Proof.Machine.execTlbinvPage d asid bcast s
  | .tlbinvAsid d asid bcast => Sys2Proof.Machine.execTlbinvAsid d asid bcast s
  | .tlbinvAll d bcast => Sys2Proof.Machine.execTlbinvAll d bcast s
  | .tlbinvDone d => Sys2Proof.Machine.execTlbinvDone d s
  | .pageWalk id va => Sys2Proof.Machine.execPageWalk id va s
  | .codeScan id va => Sys2Proof.Machine.execCodeScan id va s
  | .loadDelivery id => Sys2Proof.Machine.execLoadDelivery id s
  | .piecePerform pa op => Sys2Proof.Machine.execPiecePerform pa op s
  | .pubPerform d idx kind latched => Sys2Proof.Machine.execPubPerform d idx kind latched s
  | .barrierArrival pa => Sys2Proof.Machine.execBarrierArrival pa s
  | .barrierPoll id => Sys2Proof.Machine.execBarrierPoll id s
  | .btwaitTimeout id => Sys2Proof.Machine.execBtwaitTimeout id s
  | .regionCommit id => Sys2Proof.Machine.execRegionCommit id s
  | .correctableError d place core => Sys2Proof.Machine.execCorrectableError d place core s
  | .freezeEnd d c => Sys2Proof.Machine.execFreezeEnd d c s
  | .scrubRead pa found => Sys2Proof.Machine.execScrubRead pa found s
  | .kvfrposWrite d val => Sys2Proof.Machine.execKvfrposWrite d val s
  | .kvrlposWrite d val => Sys2Proof.Machine.execKvrlposWrite d val s
  | .kvRequestDone id => Sys2Proof.Machine.execKvRequestDone id s
  | .kvmigComplete id h => Sys2Proof.Machine.execKvmigComplete id h s
  | .pbtabWrite d val => Sys2Proof.Machine.execPbtabWrite d val s
  | .pbcfgWrite d val => Sys2Proof.Machine.execPbcfgWrite d val s
  | .engineOperationComplete id h => Sys2Proof.Machine.execEngineOperationComplete id h s
  | .enginePieceFault id h => Sys2Proof.Machine.execEnginePieceFault id h s
  | .noticeEntry id => Sys2Proof.Machine.execNoticeEntry id s
  | .contextSwitch d c => Sys2Proof.Machine.execContextSwitch d c s
  | .quantumExpiry d c => Sys2Proof.Machine.execQuantumExpiry d c s
  | .pinmaxExpiry id => Sys2Proof.Machine.execPinmaxExpiry id s
  | .watchdog id => Sys2Proof.Machine.execWatchdog id s
  | .trapDelivery x => Sys2Proof.Machine.execTrapDelivery x s
  | .peerRefused id seq => Sys2Proof.Machine.execPeerRefused id seq s
  | .descriptorFetch d q => Sys2Proof.Machine.execDescriptorFetch d q s
  | .sequenceRetry d q => Sys2Proof.Machine.execSequenceRetry d q s
  | .dependencyPoll d q => Sys2Proof.Machine.execDependencyPoll d q s
  | .taskDispatch d => Sys2Proof.Machine.execTaskDispatch d s
  | .preemptionSave d => Sys2Proof.Machine.execPreemptionSave d s
  | .completionAction d t => Sys2Proof.Machine.execCompletionAction d t s
  | .suspend d t => Sys2Proof.Machine.execSuspend d t s
  | .resume d t => Sys2Proof.Machine.execResume d t s
  | .endTask d t => Sys2Proof.Machine.execEndTask d t s
  | .endq d q => Sys2Proof.Machine.execEndq d q s
  | .scfgWrite d val => Sys2Proof.Machine.execScfgWrite d val s
  | .ringTileArrival d wire => Sys2Proof.Machine.execRingTileArrival d wire s
  | .tileRepairDone d ok => Sys2Proof.Machine.execTileRepairDone d ok s
  | .segmentBoundary => Sys2Proof.Machine.execSegmentBoundary s
  | .dwellLimit d => Sys2Proof.Machine.execDwellLimit d s
  | .ringStart val => Sys2Proof.Machine.execRingStart val s
  | .ringStop val => Sys2Proof.Machine.execRingStop val s
  | .bscfgWrite d val => Sys2Proof.Machine.execBscfgWrite d val s
  | .laneLight l val => Sys2Proof.Machine.execLaneLight l val s
  | .laneUnlight l val => Sys2Proof.Machine.execLaneUnlight l val s
  | .modulatorWindowStart d => Sys2Proof.Machine.execModulatorWindowStart d s
  | .windowResult id => Sys2Proof.Machine.execWindowResult id s
  | .xcalComplete d c ok temp => Sys2Proof.Machine.execXcalComplete d c ok temp s
  | .combFailure x => Sys2Proof.Machine.execCombFailure x s
  | .combSwap k => Sys2Proof.Machine.execCombSwap k s
  | .combReturn k => Sys2Proof.Machine.execCombReturn k s
  | .combSwapComplete => Sys2Proof.Machine.execCombSwapComplete s
  | .alignmentComplete xs => Sys2Proof.Machine.execAlignmentComplete xs s
  | .skewMeasurement skew => Sys2Proof.Machine.execSkewMeasurement skew s
  | .portEnable q val => Sys2Proof.Machine.execPortEnable q val s
  | .portDisable q val => Sys2Proof.Machine.execPortDisable q val s
  | .linkTrained q keysOk fibre => Sys2Proof.Machine.execLinkTrained q keysOk fibre s
  | .telemetrySend q => Sys2Proof.Machine.execTelemetrySend q s
  | .telemetryFlit q srcm margins corr => Sys2Proof.Machine.execTelemetryFlit q srcm margins corr s
  | .flitReceive q f crcOk => Sys2Proof.Machine.execFlitReceive q f crcOk s
  | .channelFlitArrival d c ch seq stamp payload => Sys2Proof.Machine.execChannelFlitArrival d c ch seq stamp payload s
  | .peerRequest q f => Sys2Proof.Machine.execPeerRequest q f s
  | .peerResponse id seq data poison => Sys2Proof.Machine.execPeerResponse id seq data poison s
  | .acknowledgement q n => Sys2Proof.Machine.execAcknowledgement q n s
  | .ackTimeout q => Sys2Proof.Machine.execAckTimeout q s
  | .lossOfLight q lane => Sys2Proof.Machine.execLossOfLight q lane s
  | .gapNegotiation q offer => Sys2Proof.Machine.execGapNegotiation q offer s
  | .laneSwapGap q => Sys2Proof.Machine.execLaneSwapGap q s
  | .spareTrainingDone q ok => Sys2Proof.Machine.execSpareTrainingDone q ok s
  | .lightArbitration q => Sys2Proof.Machine.execLightArbitration q s
  | .reclaim q => Sys2Proof.Machine.execReclaim q s
  | .slotGuardExpiry id => Sys2Proof.Machine.execSlotGuardExpiry id s
  | .collectiveInstanceStart grp => Sys2Proof.Machine.execCollectiveInstanceStart grp s
  | .hostInboundWrite bar2 off data poisoned inStream => Sys2Proof.Machine.execHostInboundWrite bar2 off data poisoned inStream s
  | .hostAtomicop bar2 off wide op inStream => Sys2Proof.Machine.execHostAtomicop bar2 off wide op inStream s
  | .attest d seq => Sys2Proof.Machine.execAttest d seq s
  | .extend d seq => Sys2Proof.Machine.execExtend d seq s
  | .cert d chunk seq => Sys2Proof.Machine.execCert d chunk seq s
  | .resetRelease sigOk verOk => Sys2Proof.Machine.execResetRelease sigOk verOk s
  | .selftestStageDone ok d unit detail => Sys2Proof.Machine.execSelftestStageDone ok d unit detail s
  | .pcieFundamentalReset => Sys2Proof.Machine.execPcieFundamentalReset s
  | .smbusReset => Sys2Proof.Machine.execSmbusReset s
  | .windowFirstSymbol id => Sys2Proof.Machine.execWindowFirstSymbol id s
  | .kvcfgWrite d base val => Sys2Proof.Machine.execKvcfgWrite d base val s
  | .combcfgWrite val => Sys2Proof.Machine.execCombcfgWrite val s
  | .combLocked k => Sys2Proof.Machine.execCombLocked k s
  | .laserPowerLoop power => Sys2Proof.Machine.execLaserPowerLoop power s
  | .ideKm enable stream => Sys2Proof.Machine.execIdeKm enable stream s

end Sys2Proof.Machine
end

