-- ==== Sys2Proof/Machine/Progress.lean ====
section
/-! DEFINITION. The hardware events that come due by themselves, with the cycle of each (log 3, log 15). What
the outside world does, and what only a measurement decides, stands on the agenda alone. -/

namespace Sys2Proof.Machine

/-- The hardware events that come due by themselves. -/
inductive Auto where
  | kvRequestDone (id : CtxId)
  | loadDelivery (id : CtxId)
  | trapDelivery (id : CtxId)
  | btwaitTimeout (id : CtxId)
  | barrierPoll (id : CtxId)
  | pinmaxExpiry (id : CtxId)
  | watchdog (id : CtxId)
  | slotGuardExpiry (id : CtxId)
  | windowFirstSymbol (id : CtxId)
  | windowResult (id : CtxId)
  | xcalComplete (d : Fin 8) (c : Fin 16) (ok : Bool) (temp : BitVec 10)
  | freezeEnd (d : Fin 8) (c : Fin 16)
  | kvmigComplete (id : CtxId) (h : BitVec 16)
  | engineOperationComplete (id : CtxId) (h : BitVec 16)
  | enginePieceFault (id : CtxId) (h : BitVec 16)
  | descriptorFetch (d : Fin 8) (q : Fin 64)
  | sequenceRetry (d : Fin 8) (q : Fin 64)
  | dependencyPoll (d : Fin 8) (q : Fin 64)
  | completionAction (d : Fin 8) (t : Fin 1024)
  | taskDispatch (d : Fin 8)
  | preemptionSave (d : Fin 8)
  | ringTileArrival (d : Fin 8)
  | tileRepairDone (d : Fin 8) (ok : Bool)
  | dwellLimit (d : Fin 8)
  | modulatorWindowStart (d : Fin 8)
  | tlbinvDone (d : Fin 8)
  | telemetrySend (q : Fin 16)
  | ackTimeout (q : Fin 16)
  | lightArbitration (q : Fin 16)
  | laneSwapGap (q : Fin 16)
  | attest (d : Fin 8) (seq : BitVec 16)
  | extend (d : Fin 8) (seq : BitVec 16)
  | cert (d : Fin 8) (chunk : BitVec 8) (seq : BitVec 16)
  | channelFlitArrival (f : Flying)
  | segmentBoundary
  | combSwapComplete
  | collectiveInstanceStart (grp : Fin 16)
  | noticeEntry (id : CtxId)
  | alignmentComplete
  | skewMeasurement
  | spareTrainingDone (q : Fin 16) (ok : Bool)
  | regionCommit (id : CtxId)
deriving DecidableEq, Repr

/-- Such an event takes place: it is the instruction of its name. -/
def Auto.run (e : Auto) (s : State) : Out :=
  match e with
  | .kvRequestDone id => execKvRequestDone id s
  | .loadDelivery id => execLoadDelivery id s
  | .trapDelivery id => execTrapDelivery ⟨id, none⟩ s
  | .btwaitTimeout id => execBtwaitTimeout id s
  | .barrierPoll id => execBarrierPoll id s
  | .pinmaxExpiry id => execPinmaxExpiry id s
  | .watchdog id => execWatchdog id s
  | .slotGuardExpiry id => execSlotGuardExpiry id s
  | .windowFirstSymbol id => execWindowFirstSymbol id s
  | .windowResult id => execWindowResult id s
  | .xcalComplete d c ok temp => execXcalComplete d c ok temp s
  | .freezeEnd d c => execFreezeEnd d c s
  | .kvmigComplete id h => execKvmigComplete id h s
  | .engineOperationComplete id h => execEngineOperationComplete id h s
  | .enginePieceFault id h => execEnginePieceFault id h s
  | .descriptorFetch d q => execDescriptorFetch d q s
  | .sequenceRetry d q => execSequenceRetry d q s
  | .dependencyPoll d q => execDependencyPoll d q s
  | .completionAction d t => execCompletionAction d t s
  | .taskDispatch d => execTaskDispatch d s
  | .preemptionSave d => execPreemptionSave d s
  | .ringTileArrival d => execRingTileArrival d (some []) s
  | .tileRepairDone d ok => execTileRepairDone d ok s
  | .dwellLimit d => execDwellLimit d s
  | .modulatorWindowStart d => execModulatorWindowStart d s
  | .tlbinvDone d => execTlbinvDone d s
  | .telemetrySend q => execTelemetrySend q s
  | .ackTimeout q => execAckTimeout q s
  | .lightArbitration q => execLightArbitration q s
  | .laneSwapGap q => execLaneSwapGap q s
  | .attest d seq => execAttest d seq s
  | .extend d seq => execExtend d seq s
  | .cert d chunk seq => execCert d chunk seq s
  | .channelFlitArrival f => execChannelFlitArrival f.die f.core f.ch f.seq f.stamp f.payload s
  | .segmentBoundary => execSegmentBoundary s
  | .combSwapComplete => execCombSwapComplete s
  | .collectiveInstanceStart grp => execCollectiveInstanceStart grp s
  | .noticeEntry id => execNoticeEntry id s
  | .alignmentComplete => execAlignmentComplete () s
  | .skewMeasurement => execSkewMeasurement () s
  | .spareTrainingDone q ok => execSpareTrainingDone q ok s
  | .regionCommit id => execRegionCommit id s

/-- An event that may be due, by its place in time: its cycle, and its place within it (log 3). -/
structure Soon where
  key : Nat
  ev  : Auto
deriving DecidableEq, Repr

/-- The cycle of a place in time. -/
def Soon.cycle (e : Soon) : Nat := e.key / placesPer

/-- An event at a place of a cycle that is not earlier than now. -/
def State.place_ (s : State) (rank t : Nat) (i : Auto) : Soon := ⟨placesPer * Nat.max s.cycle t + rank, i⟩
/-- An event before the issues of a cycle. -/
def State.before (s : State) (t : Nat) (i : Auto) : Soon := s.place_ 0 t i
/-- An event after the issues of a cycle. -/
def State.after (s : State) (t : Nat) (i : Auto) : Soon := s.place_ rankAfter t i

/-- The cycle in which GTIME is expected to read a value. -/
def State.cycleOf (s : State) (g : Nat) : Nat := s.cycle + (g - s.gtime)

def optList {α β : Type} (o : Option α) (f : α → β) : List β := match o with | some x => [f x] | none => []
def whenList {α : Type} (b : Bool) (x : α) : List α := if b then [x] else []

/-! ### Contexts -/

def State.waitEvents (s : State) (id : CtxId) (w : Wait) : List Soon :=
  if w.result.isSome ∨ w.bar.isNone then []
  else
    optList w.limit (fun l => s.before (s.cycleOf (l.toNat + 1)) (.btwaitTimeout id)) ++
    whenList (!w.registered) (s.before (s.cycleOf ((s.gtime + 1023) / 1024 * 1024)) (.barrierPoll id))

/-- The events of a context. -/
def State.ctxEvents (s : State) (id : CtxId) : List Soon :=
  let c := s.ctxOf id
  let free := (s.core id.die id.core).frozenUntil
  let kv := optList (s.openReq id) fun _ => s.before s.cycle (.kvRequestDone id)
  if c.status = .idle then kv
  else
    let blocked := c.isBlocked
    let loads := if blocked then (c.pend.filter fun p => p.waits.isEmpty).map fun p => s.before p.due (.loadDelivery id) else []
    let parked := c.status.stands && c.status != .running
    let waiting := if c.status = .saving then !s.captureWaits id else parked && c.trapPending
    loads ++ kv ++ whenList waiting (s.before free (.trapDelivery id)) ++
    whenList (parked && c.markDue && !c.markWaits) (s.before s.cycle (.regionCommit id)) ++
    whenList (parked && c.entryDue) (s.before ((c.inflight.map Delivery.due).foldl Nat.max 0) (.noticeEntry id)) ++
    (if blocked then optList c.wait fun w => s.waitEvents id w else []).flatten ++
    (optList c.keepWait fun w => s.waitEvents id w).flatten ++
    whenList (c.pin && blocked) (s.before (c.pinStart + Nat.max 1 (s.die id.die).pinmax.toNat) (.pinmaxExpiry id)) ++
    whenList (c.wdRuns && c.task.isSome && c.status.stands)
      (s.after (Nat.max (c.wdStart + (s.wdLimitOf id - c.wdHeld)) free) (.watchdog id)) ++
    (match c.slotWait with
      | some w => whenList (c.status == .blocked .receive) (s.before (s.cycleOf (w.slot + s.guard + 1)) (.slotGuardExpiry id))
      | none => []) ++
    optList c.firstBegin (fun x => s.before (s.cycleOf (x.1.cycleOf x.2)) (.windowFirstSymbol id)) ++
    optList (c.firstResult.bind StreamOp.nextResult) (fun t => s.before (s.cycleOf t) (.windowResult id))

/-! ### Dies -/

/-- The events of a core's own. -/
def State.coreEvents (s : State) (d : Fin 8) (c : Fin 16) : List Soon :=
  let k := s.core d c
  optList k.calEnd (fun t => s.before t (.xcalComplete d c true (Config.dieTemp d.val t))) ++
  whenList (k.frozenUntil != 0) (s.before k.frozenUntil (.freezeEnd d c))

/-- Whether the next step of an engine operation publishes, or would. -/
def EngineOp.publishes (o : EngineOp) : Bool :=
  match o.kind with
  | .kvmig => o.started && o.pos == 1
  | .cpy | .cpy2 | .gath | .scat | .cpyp => o.pub && o.moved
  | _ => o.started

/-- The place of an engine operation's next step: that of its engine where it publishes; its moves, which resolve, come after
the publishes of the cycle (07 R166). -/
def EngineOp.place (o : EngineOp) : Nat :=
  if o.publishes then rankEngine + (match o.engine with | some e => e.val | none => 4) else rankAfter

/-- The events of an engine operation that waits for no peer. -/
def State.opEvents (s : State) (o : EngineOp) : List Soon :=
  let at_ := s.place_ o.place o.at_
  if o.kind = .kvmig then [at_ (.kvmigComplete o.id o.handle)]
  else if !o.asks.isEmpty ∨ s.opWrites o then []
  else if o.kind.copies then [at_ (.engineOperationComplete o.id o.handle), at_ (.enginePieceFault o.id o.handle)]
  else whenList o.started (at_ (.engineOperationComplete o.id o.handle))

def State.queueEvents (s : State) (d : Fin 8) (q : Fin 64) : List Soon :=
  let x := s.queue d q
  match x.launch with
  | some l => whenList (l.stage == .dependency && !l.depFail) (s.before l.depAt (.dependencyPoll d q))
  | none =>
    if !s.queueReady d q then []
    else if x.seqTry = 0 then [s.before s.cycle (.descriptorFetch d q)]
    else [s.before x.seqAt (.sequenceRetry d q)]

def State.taskEvents (s : State) (d : Fin 8) : List Soon :=
  let x := s.die d
  let tasks := x.tasks.filter fun p => p.2.state == .ending
  tasks.map (fun p => s.before s.cycle (.completionAction d (Fin.ofNat 1024 p.1))) ++
  whenList (s.mayDispatch d && !x.cands.isEmpty) (s.before x.dispatchAt (.taskDispatch d)) ++
  whenList (s.boot == .ready && !x.cands.isEmpty) (s.before x.saveAt (.preemptionSave d)) ++
  (x.tasks.filter fun p => s.boot == .ready && p.2.state == .saving).map fun p =>
    s.before (s.core d p.2.core).frozenUntil (.preemptionSave d)

def State.boardEvents (s : State) (d : Fin 8) : List Soon :=
  let slots := (fins 8).map fun k => s.slot d k
  whenList (s.tileNext d) (s.place_ rankBoard s.joist.tileAt (.ringTileArrival d)) ++
  whenList (slots.any fun b => !b.repairs.isEmpty) (s.place_ rankBoard s.cycle (.tileRepairDone d true)) ++
  (slots.filter fun b => b.state == .dwell && b.dwell != 0xFFFF).map fun b => s.after (b.dwellAt + 1024 * b.dwell.toNat) (.dwellLimit d)

def State.bankEvents (s : State) (d : Fin 8) : List Soon :=
  ((s.die d).bank.filter fun b => decide (b.begun < b.nwin)).map fun b =>
    s.before (s.cycleOf (b.start + b.begun * b.step - 4)) (.modulatorWindowStart d)

def State.dieEvents (s : State) (d : Fin 8) : List Soon :=
  let x := s.die d
  optList x.tlbInv (fun _ => s.before s.cycle (.tlbinvDone d)) ++ x.engOps.flatMap s.opEvents ++
  (fins 64).flatMap (s.queueEvents d) ++ s.taskEvents d ++ s.boardEvents d ++ s.bankEvents d ++ (fins 16).flatMap (s.coreEvents d)

/-! ### The Joist -/

def State.portEvents (s : State) (q : Fin 16) : List Soon :=
  let p := vget s.joist.ports q
  if !p.trained then []
  else
    [s.before p.telemetryAt (.telemetrySend q)] ++
    whenList (!p.replay.isEmpty) (s.before (p.lastAck + p.timeout) (.ackTimeout q)) ++
    whenList (p.askMore.isSome || p.askLess.isSome) (s.before (64 * Nat.max p.lightAt ((s.cycle + 63) / 64)) (.lightArbitration q)) ++
    whenList (p.swaps.any fun x => (p.lane x.1).state == .swapping) (s.after (p.swapAt + trainCycles) (.spareTrainingDone q false)) ++
    optList p.gapAgreed (fun g => s.before (s.cycleOf g) (.laneSwapGap q))

/-- The command that the security unit serves next. -/
def State.mailEvents (s : State) : List Soon :=
  optList s.mbQueue.head? fun c => s.before (c.at_ + 1)
    (match c.op.toNat with | 1 => .attest c.die c.seq | 2 => .extend c.die c.seq | _ => .cert c.die c.arg c.seq)

def State.joistEvents (s : State) : List Soon :=
  let j := s.joist
  j.flying.map (fun f => s.before f.due (.channelFlitArrival f)) ++
  whenList (!j.stopped && s.tileDies.isEmpty) (if j.injecting then s.after j.tileAt .segmentBoundary else s.before s.cycle .segmentBoundary) ++
  optList j.combSwap (fun x => s.before x.ends .combSwapComplete) ++ (fins 16).flatMap s.portEvents ++
  (fins 16).map (fun g => s.after s.cycle (.collectiveInstanceStart g)) ++ s.mailEvents ++
  whenList j.gtBusy (s.before s.cycle .alignmentComplete) ++
  whenList (j.gtAligned && (j.portTo j.gtMaster).isSome) (s.before j.skewAt .skewMeasurement)

/-! ### The order -/

/-- Insertion by place in time, after those of the same place. -/
def Soon.insert (x : Soon) : List Soon → List Soon
  | [] => [x]
  | y :: ys => if x.key < y.key then x :: y :: ys else y :: Soon.insert x ys

/-- The events that may be due, the earliest first; none while the package is in reset. -/
def State.soon (s : State) : List Soon :=
  if s.boot = .reset then []
  else (s.joistEvents ++ (fins 8).flatMap s.dieEvents ++ allCtxs.flatMap s.ctxEvents).foldl (fun acc x => x.insert acc) []

/-- An event takes place at its time. -/
def State.happen (s : State) (e : Soon) : Out := e.ev.run { s.advance e.cycle with taken := none }

/-- Whether an event has an effect at its time. -/
def State.counts (s : State) (e : Soon) : Bool :=
  match s.happen e with
  | .next t => decide (t ≠ { s.advance e.cycle with taken := none })
  | _ => true

/-- The first event with an effect that comes no later than a place in time. -/
def State.nextEvent (s : State) (limit : Option Nat) : Option Soon :=
  let due := match limit with | some k => s.soon.filter fun (e : Soon) => decide (e.key ≤ k) | none => s.soon
  due.find? s.counts

/-- The place in time of a core's next issue. -/
def State.issueKey (s : State) (d : Fin 8) (c : Fin 16) : Nat :=
  placesPer * Nat.max s.cycle (s.core d c).nextIssue + s.issuePlace d c

/-- One cycle of GTIME, which stands still in the boot state RESET. -/
def State.tick (s : State) : State := if s.boot = .reset then s else s.advance (s.cycle + 1)

end Sys2Proof.Machine
end

