-- ==== Sys2Proof/Machine/Step.lean ====
section
/-! DEFINITION. One step: the hardware event or the core's turn that comes first on the agenda, and
without an agenda what comes first in time: an event that is due, the core with the least next issue, or one
cycle (log 3). -/

namespace Sys2Proof.Machine

def step (s : State) : Host.Outcome State Fault Refusal :=
  match s.agenda with
  | .event i :: rest => exec i { s with agenda := rest, taken := none }
  | .core d c :: rest => State.turn exec { s with agenda := rest } d c
  | [] =>
    match s.nextCore with
    | some (d, c) =>
      match s.nextEvent (some (s.issueKey d c)) with
      | some e => s.happen e
      | none => s.turn exec d c
    | none =>
      match s.nextEvent none with
      | some e => s.happen e
      | none => .next s.tick

/-- The bundle that holds one code word: a header alone, or a header and one slot word. -/
def fetchBundle (w : BitVec 32) : List (BitVec 32) :=
  match decodeAny w with
  | some (.header, _) => [w]
  | some (.m, _) => [0xF0800000#32, w]
  | some (.v, _) => [0xF1000000#32, w]
  | some (.x, _) => [0xF4000000#32, w]
  | some (.c, _) => [0xF8000000#32, w]
  | _ => [0xF0400000#32, w]

/-- Where the next instruction is placed: VA and PA of a code page. -/
def fetchVa : Nat := 0x10000
def fetchPa : Nat := hbmBase

/-- An executable leaf for that page, as the walker installs it. -/
def fetchLeaf : W64 := BitVec.ofNat 64 (0x95 + fetchPa)

/-- The state with one instruction placed where the next step fetches: its bundle in memory, an
installed translation of its page, and a running context at it (log 7). -/
def State.withFetchWord (s : State) (_nbits w : Nat) : State :=
  let id := s.cur
  let s := { s with
    boot := .ready
    agenda := [.core id.die id.core]
    mem := memWrite s.mem fetchPa ((fetchBundle (BitVec.ofNat 32 w)).flatMap bytesOfWord) }
  let s := s.updCx fun c =>
    { c with
      status := .running
      asid := 1
      arch := { c.arch with pc := BitVec.ofNat 64 fetchVa, due := none, stickyM := none, stickyC := none } }
  s.updMyCore fun k =>
    { k with
      running := some id.ctx
      nextIssue := s.cycle
      l1tlb := tlbInsert 384 ⟨1, 1, false, fetchLeaf⟩ k.l1tlb }

end Sys2Proof.Machine
end

