-- ==== Sys2Proof/Safety.lean ====
section
/-! DEFINITION. What a safe run keeps: memory in its canonical form, and a legal next step. -/

namespace Sys2Proof.Machine

/-- The memories of the package and of the host are in their one form. -/
def State.MemOk (s : State) : Prop := memWf s.mem = true ∧ memWf s.host = true

/-- The step completes: no fault and no refusal. -/
def Completes (s : State) : Prop := ∃ t, step s = .next t

end Sys2Proof.Machine
end

