-- ==== Sys2Proof/Certificates/Slice0/Obligations.lean ====
section
/-! DEFINITION. The statements for the provers. What they need to be said is in the namespace Claims; every
statement about an instruction's own effect concludes that `exec` answers a next state, and which. -/

namespace Sys2Proof.Claims
open Machine

/-- An operation acts: its guard is true and it reads no poisoned register (10 R237, 02 R56). -/
def Acts (s : State) (g : BitVec 4) (i : Instr) : Prop := s.rP g = true ∧ s.cx.poisonHit i = false

/-- Where it acts, an operation completes in a given state. -/
def Runs (s : State) (g : BitVec 4) (i : Instr) (t : State) : Prop := Acts s g i → exec i s = .next t

/-- Where it acts, an operation completes in a state with a property. -/
def Reaches (s : State) (g : BitVec 4) (i : Instr) (P : State → Prop) : Prop :=
  Acts s g i → ∃ t, exec i s = .next t ∧ P t



/-- Quotient and remainder of 12 R280, with the integers themselves. -/
def quot (x y : Int) : Int := if y = 0 then -1 else x.tdiv y
def rest (x y : Int) : Int := if y = 0 then x else x.tmod y

/-- The condition cc of 12 R282; the reserved value 7 acts as 0 (10 R249). -/
def Cond (cc : BitVec 3) (a b : W64) : Prop :=
  match cc.toNat with
  | 1 => a ≠ b
  | 2 => a.toInt < b.toInt
  | 3 => b.toInt ≤ a.toInt
  | 4 => a.toNat < b.toNat
  | 5 => b.toNat ≤ a.toNat
  | 6 => a &&& b ≠ 0
  | _ => a = b

/-- The value of the low w bits of a word in two's complement. -/
def lowSigned (a : W64) (w : Nat) : Int :=
  if a.toNat % 2 ^ w < 2 ^ (w - 1) then (a.toNat % 2 ^ w : Nat) else (a.toNat % 2 ^ w : Nat) - 2 ^ w

/-- The state in which control goes to a target after the bundle (12 R285). -/
def goTo (s : State) (v : W64) : State := s.updCx fun c => { c with npc := v, jumped := true }

/-- Rel of 12 R285. -/
def relTarget (s : State) (o : BitVec 16) : W64 := BitVec.ofInt 64 (s.cx.arch.pc.toNat + 4 * o.toInt)

/-- Width of field j of a WID (08 R184). -/
def widWidth (cfg : W64) (j : Nat) : Nat := cfg.toNat / 2 ^ (6 * j) % 64

/-- A shape as R190 lays it out, configured. -/
def shapeOf (r c vr vc f : Nat) : BitVec 32 :=
  BitVec.ofNat 32 (r + c * 2 ^ 6 + vr * 2 ^ 12 + vc * 2 ^ 19 + f * 2 ^ 26 + 2 ^ 31)

/-- The conditions of 08 R191 on the fields of a shape. -/
def ShapeFits (r c vr vc f : Nat) : Prop :=
  1 ≤ f ∧ f ≤ 7 ∧ (r + 1) * (c + 1) * elemSize f ≤ 4096 ∧ vr ≤ r + 1 ∧ vc ≤ c + 1

/-- Field of n bits at bit i of a word. -/
def part (x i n : Nat) : Nat := x / 2 ^ i % 2 ^ n

/-- The effective address of R303: the base, and for AM = 2 its displacement in units of the access. -/
def ea (s : State) (r : BitVec 4) (m : BitVec 2) (x : BitVec 5) (unit : Nat) : W64 :=
  BitVec.ofInt 64 ((s.rA r).toNat + (if m = 2 then x.toInt * unit else 0))

/-- The address register after a stepping form (AM = 1), delivered at issue + 1. -/
def stepTo (s : State) (m : BitVec 2) (r : BitVec 4) : State :=
  if m = 1 then s.deliver 1 (.a r (BitVec.ofInt 64 ((s.rA r).toNat + (s.cx.rD r).toInt))) 0 else s

/-- A load of runs whose every part is allowed: `u` and `y` are the state and the bytes once they are read. -/
def Loads (s : State) (vs : List VRun) (ps : List Part) (u : State) (y : Gather) : Prop :=
  ∃ s', s.access s.cur (s.cx.req s.cur .load true false) vs = (s', .ok ps) ∧ s'.readParts s.cur .load ps = (u, y)

/-- The pending load of what was read (R298). -/
def loaded (s u : State) (ps : List Part) (y : Gather) (form : LoadForm) : State :=
  u.updCx fun c => c.addPend ⟨u.cycle + loadLatency s.cur ps, y.waits, y.bytes, form, 0, y.poison, [], true, false⟩

/-- A store over runs whose every part is allowed, in a context whose store buffer has room. -/
def Stores (s : State) (vs : List VRun) (ps : List Part) (u : State) : Prop :=
  s.cx.held.length < 64 ∧ s.access s.cur (s.cx.req s.cur .store false true) vs = (u, .ok ps)

/-- The store held for its region (18 R429). -/
def heldBack (s u : State) (ps : List Part) (bytes : List Byte) : State :=
  u.updCx fun c => { c with held := c.held ++ [⟨u.storeRuns s.cur.die ps bytes⟩] }

/-- Byte k of a word of any width. -/
def byteAt (x k : Nat) : Byte := BitVec.ofNat 8 (x / 256 ^ k)

/-- The low n bytes of a word, least significant first. -/
def lowBytes (n x : Nat) : List Byte := (List.range n).map (byteAt x)

/-- A tile operand is configured (08 R194). -/
def Configured (s : State) (ts : List (BitVec 4)) : Prop := ∀ t, t ∈ ts → (s.cx.rTS t).toNat / 2 ^ 31 = 1

/-- The slots of a `kvld`: those of the tokens K to K + VROWS − 1 that are below NTOK. -/
def slotsFor (vrows ntok k0 : Nat) : List Nat := kvSlots vrows ntok k0

/-- What a `kvld` has found out when it reads its rows (R308, R309): the sequence header, its slots and a
readable block for each. `b` is the state once the header has been read, `c` the one once the slots are checked too, and
`d` the one once the whole list has been read. -/
structure KvReads (s : State) (ts : BitVec 32) (list : W64) (k0 : Nat) where
  a     : State
  hp    : List Part
  b     : State
  h     : Gather
  c     : State
  sp    : List Part
  e     : State
  d     : State
  w     : Gather
  block : Nat → Nat

/-- NTOK and CAP of the header read, and the slots that the rows need. -/
def KvReads.ntok {s : State} {ts : BitVec 32} {list : W64} {k0 : Nat} (x : KvReads s ts list k0) : Nat := leNat (x.h.bytes.take 4)
def KvReads.cap {s : State} {ts : BitVec 32} {list : W64} {k0 : Nat} (x : KvReads s ts list k0) : Nat :=
  leNat ((x.h.bytes.drop 4).take 2)
def KvReads.slots {s : State} {ts : BitVec 32} {list : W64} {k0 : Nat} (x : KvReads s ts list k0) : List Nat :=
  slotsFor (part ts.toNat 12 7) x.ntok k0

/-- The block that the slot read k-th names. -/
def KvReads.index {s : State} {ts : BitVec 32} {list : W64} {k0 : Nat} (x : KvReads s ts list k0) (k : Nat) : Nat :=
  leNat ((x.w.bytes.drop (4 * k)).take 4) % 2 ^ 24

/-- The header is read, of good bytes. -/
def KvReads.Header {s : State} {ts : BitVec 32} {list : W64} {k0 : Nat} (x : KvReads s ts list k0) : Prop :=
  s.checkFor s.cur (s.cx.req s.cur .load true false) [⟨list, 8⟩] = (x.a, .ok x.hp) ∧
  (∀ p, p ∈ x.hp → x.a.peerWaits p = false) ∧ x.a.readList s.cur x.hp = (x.b, x.h) ∧ x.h.poison = false

/-- The slots that it needs are below CAP and are read, of good bytes, and no entry they name is poisoned. -/
def KvReads.Listed {s : State} {ts : BitVec 32} {list : W64} {k0 : Nat} (x : KvReads s ts list k0) : Prop :=
  x.Header ∧ x.cap ≠ 0 ∧ (∀ j, j ∈ x.slots → j < x.cap) ∧
  x.a.checkFor s.cur (s.cx.req s.cur .load true false)
    (x.slots.map fun j => ⟨BitVec.ofNat 64 (list.toNat + 8 + 4 * j), 4⟩) = (x.c, .ok x.sp) ∧
  (∀ p, p ∈ x.sp → x.c.peerWaits p = false) ∧ (x.c.readList s.cur x.hp).1 = x.e ∧
  x.e.readList s.cur x.sp = (x.d, x.w) ∧ x.w.poison = false ∧
  ∀ k j, x.slots[k]? = some j → x.index k < (x.d.die s.cur.die).nblk → x.d.kvBad s.cur.die (x.index k) = []

/-- The header and the slots are read, and every slot names a readable block. -/
def KvReads.Good {s : State} {ts : BitVec 32} {list : W64} {k0 : Nat} (x : KvReads s ts list k0) : Prop :=
  x.Listed ∧ ∀ k j, x.slots[k]? = some j → x.d.readableBlock s.cur.die (x.index k) = some (x.block j)

/-- A device byte as a context sees it: the newest of its held stores over it, else what memory holds. -/
def seen (s : State) (id : CtxId) (a : Nat) : Byte :=
  ((s.ctxOf id).held.flatMap HeldStore.runs).foldl (fun b r =>
    if r.space = .dev ∧ r.addr ≤ a ∧ a < r.addr + r.bytes.length then r.bytes.getD (a - r.addr) 0 else b) (memByte s.mem a)

/-- The parts of a list that an append or a release touches by its header's bytes: the header with the token's slot, or
with every slot in use (13 R310, R301). -/
def listRuns (append : Bool) (list : W64) (h : List Byte) : List VRun :=
  let ntok := leNat (h.take 4)
  let cap := leNat ((h.drop 4).take 2)
  if append then (if ntok / 16 < cap then [⟨list, 8⟩, ⟨BitVec.ofNat 64 (list.toNat + 8 + 4 * (ntok / 16)), 4⟩] else [⟨list, 8⟩])
  else if (ntok + 15) / 16 ≤ cap then [⟨list, 8 + 4 * ((ntok + 15) / 16)⟩] else [⟨list, 8⟩]

/-- A number below 2^w as a two's-complement integer. -/
def signedOf (w v : Nat) : Int := if 2 * v < 2 ^ w then v else v - 2 ^ w

/-- new(old, x, OP) of R312 as a relation. -/
def NewValue (w op old x v : Nat) : Prop :=
  match op with
  | 0 => v = (old + x) % 2 ^ w
  | 1 => v = x
  | 2 => ∀ k, v.testBit k = (old.testBit k && x.testBit k)
  | 3 => ∀ k, v.testBit k = (old.testBit k || x.testBit k)
  | 4 => (v = old ∨ v = x) ∧ signedOf w v ≤ signedOf w old ∧ signedOf w v ≤ signedOf w x
  | 5 => (v = old ∨ v = x) ∧ signedOf w old ≤ signedOf w v ∧ signedOf w x ≤ signedOf w v
  | 6 => (v = old ∨ v = x) ∧ v ≤ old ∧ v ≤ x
  | _ => (v = old ∨ v = x) ∧ old ≤ v ∧ x ≤ v

/-- Size in bytes that SZ selects. -/
def wide (z : BitVec 1) : Nat := if z = 1 then 8 else 4

/-- Bits 55:48 of the ARG of a flit that carries the operation (16 R394). -/
def flitOp (group index op : Nat) (z : BitVec 1) : Nat := index + 4 * (group % 4) + 16 * op + 128 * z.toNat

/-- A read-modify-write of n bytes at a register's address whose part is allowed: `u` is the state in which the
home performs it, after the held stores. -/
def Modifies (s : State) (acc : AccKind) (rd : Bool) (r : BitVec 4) (n : Nat) (host add : Bool) (p : Part) (u : State) : Prop :=
  ∃ s', s.access s.cur { s.cx.req s.cur acc rd true with atom := some (n, host), add := add } [⟨s.rA r, n⟩] = (s', .ok [p]) ∧
    u = s'.flushHeld s.cur

/-- The pending result of a returning atomic. -/
def answered (s v : State) (p : Part) (d : BitVec 6) (n : Nat) (y : Reply) : State :=
  v.updCx fun c => c.addPend ⟨v.cycle + loadLatency s.cur [p], y.waits, leBytes n y.old, .scalar (c.nameS d) n false,
    y.flags, y.poison, [], true, false⟩

/-- An access to a barrier object that every check allows; `u` is the state after it. -/
def AtBarrier (s : State) (acc : AccKind) (rd wr : Bool) (r : BitVec 4) (p : Part) (u : State) : Prop :=
  s.access s.cur { s.cx.req s.cur acc rd wr with barrier := true } [⟨s.rA r, 64⟩] = (u, .ok [p])

/-- The status scalar of a waiting bundle, as a save names it. -/
def statusReg (s : State) (d : BitVec 6) : BitVec 6 × Bool :=
  match s.cx.nameS d with
  | .hs k => (BitVec.ofNat 6 k.toNat, true)
  | .s k => (k, false)
  | _ => (0, false)

/-- Selection under a mask field (R327): everything with M = 0, else bit 64i + j. -/
def On (s : State) (m : BitVec 1) (k : BitVec 3) (i j : Nat) : Prop := m = 0 ∨ (s.cx.rK k).getLsbD (64 * i + j) = true

/-- A tile operation completes: after its latency it delivers to tile d exactly the given code at each chosen
position that the destination's valid extent holds, and exactly the given flags. -/
def Delivers (s : State) (g : BitVec 4) (i : Instr) (d : BitVec 4) (on : Nat → Nat → Prop) (code : Nat → Nat → Nat)
    (flags : Nat → Prop) : Prop :=
  Acts s g i → Configured s i.tileOps → ∃ x : Cells, exec i s = .next (s.putT i d x) ∧
    (∀ a b v, (a, b, v) ∈ x.cells ↔ (s.cx.tile d).present a b = true ∧ on a b ∧ v = code a b) ∧
    ∀ k, x.flags.getLsbD k = true ↔ flags k

/-- The same where each element's result brings its own flags. -/
def Computes (s : State) (g : BitVec 4) (i : Instr) (d : BitVec 4) (on : Nat → Nat → Prop) (res : Nat → Nat → Nat × Flags) : Prop :=
  Delivers s g i d on (fun a b => (res a b).1)
    fun k => ∃ a b, (s.cx.tile d).present a b = true ∧ on a b ∧ (res a b).2.getLsbD k = true

/-- A raw move: no flags. -/
def Moves (s : State) (g : BitVec 4) (i : Instr) (d : BitVec 4) (on : Nat → Nat → Prop) (raw : Nat → Nat → Nat) : Prop :=
  Delivers s g i d on (fun a b => raw a b % 2 ^ (8 * (s.cx.tile d).size)) fun _ => False

/-- An operation that writes a vector line whole: element m of the given width, zeros after n elements. -/
def WritesLine (s : State) (g : BitVec 4) (i : Instr) (v : BitVec 5) (w n : Nat) (elem : Nat → Nat) : Prop :=
  Acts s g i → Configured s i.tileOps → ∃ x : BitVec 2048,
    exec i s = .next (s.deliver (s.vecLat i) (.v v x (BitVec.allOnes 2048)) 0) ∧
    ∀ k, k * w + w ≤ 2048 → x.toNat / 2 ^ (k * w) % 2 ^ w = if k < n then elem k else 0

/-- The delivery of an exact result in a destination (R328). -/
def enc (s : State) (d : BitVec 4) (r : BitVec 3) (z : BitVec 1) (x : Res) : Nat × Flags :=
  let t := s.cx.tile d
  t.encode (s.cx.modeOf t r z) x

/-- The rounding mode in force at a destination. -/
def rmode (s : State) (d : BitVec 4) (r : BitVec 3) (z : BitVec 1) : RMode := (s.cx.modeOf (s.cx.tile d) r z).rm

/-- A mask number in a tile field. -/
def low3 (c : BitVec 4) : BitVec 3 := BitVec.ofNat 3 c.toNat

/-- Truncation of an exact integer to w bits, or its clamp, which sets SATF where it changes the value (R335). -/
def intCode (w : Nat) (sat u : BitVec 1) (r : Int) : Nat × Flags :=
  let lo : Int := if u = 1 then 0 else -2 ^ (w - 1)
  let hi : Int := if u = 1 then 2 ^ w - 1 else 2 ^ (w - 1) - 1
  let c := if sat = 1 then max lo (min hi r) else r
  ((c % 2 ^ w).toNat, if c = r then 0 else 16)

/-- The conditions of R332; the reserved value 7 acts as 0 (10 R249, log 19). -/
def Holds (cc : BitVec 3) (a b : Val) : Prop :=
  match cc.toNat with
  | 1 => veq a b = false
  | 2 => vlt a b = true
  | 3 => vlt a b = true ∨ veq a b = true
  | 4 => vlt b a = true
  | 5 => vlt b a = true ∨ veq a b = true
  | 6 => a = .nan ∨ b = .nan
  | _ => veq a b = true

/-- A tree of 2^n leaves: neighbours are combined first (R339). -/
def halfTree (f : Step → Step → Step) : Nat → (Nat → Step) → Step
  | 0, x => x 0
  | n + 1, x => halfTree f n fun k => f (x (2 * k)) (x (2 * k + 1))

/-- The tree of R339 over 64 leaves; the root alone may be exact. -/
def tree64 (k : Nat) (exact : Bool) (rm : RMode) (x : Nat → Step) : Step :=
  combine k exact rm (halfTree (combine k false rm) 5 x) (halfTree (combine k false rm) 5 fun n => x (32 + n))

/-- Kind of a reduction; 8 to 15 act as 0 (10 R249). -/
def kindOf (o : BitVec 4) : Nat := if o.toNat ≤ 7 then o.toNat else 0

/-- The best index of R340 among the listed places: the first that no other outranks; −1 among none. -/
def Best (value : Nat → Val) (taking : Nat → Prop) (bound : Nat) (x : Int) : Prop :=
  ((∀ n, n < bound → ¬taking n) ∧ x = -1) ∨
  ∃ n, n < bound ∧ taking n ∧ x = n ∧ (∀ k, k < bound → taking k → outranks (value k) (value n) = false) ∧
    ∀ k, k < n → taking k → outranks (value n) (value k) = true

/-- NaN delivered as an invalid result (R346, R273). -/
def invalid (rnd : Val → Nat × Flags) : Nat × Flags := ((rnd .nan).1, (rnd .nan).2 ||| 1)

/-- 1 / √a of R346: p / q lies within 2^−100 of the root by (p / q)² · a, and is the root where that is rational. -/
def InverseRoot (rnd : Val → Nat × Flags) (a : Val) (y : Nat × Flags) : Prop :=
  match a with
  | .nan => y = rnd .nan
  | .inf true => y = invalid rnd
  | .inf false => y = rnd .zero
  | .fin neg n d =>
    (n = 0 → y = rnd (.inf neg)) ∧ (n ≠ 0 → neg = true → y = invalid rnd) ∧
    (n ≠ 0 → neg = false → ∃ p q : Nat, 0 < q ∧ y = rnd (.fin false p q) ∧
      ((p * p * n : Int) - q * q * d).natAbs * 2 ^ 100 ≤ q * q * d ∧
      ∀ u v : Nat, 0 < v → u * u * n = v * v * d → p * v = u * q)

/-- The rows of R346's table for 2^a, and 2^a of an integer. -/
def ExpTable (rnd : Val → Nat × Flags) (a : Val) (y : Nat × Flags) : Prop :=
  (a = .nan → y = rnd .nan) ∧ (a = .inf true → y = rnd .zero) ∧ (a = .inf false → y = rnd (.inf false)) ∧
  ∀ (k d : Nat), 0 < d → k < 4000 →
    (a = .fin false (k * d) d → y = rnd (.fin false (2 ^ k) 1)) ∧ (a = .fin true (k * d) d → y = rnd (.fin false 1 (2 ^ k)))

/-- The rows of R346's table for log2 a, and log2 of a power of two. -/
def LogTable (rnd : Val → Nat × Flags) (a : Val) (y : Nat × Flags) : Prop :=
  (a = .nan → y = rnd .nan) ∧ (a = .inf false → y = rnd (.inf false)) ∧ (a = .inf true → y = invalid rnd) ∧
  ∀ (neg : Bool) (n d k : Nat), 0 < d → a = .fin neg n d →
    (n = 0 → y = rnd (.inf true)) ∧ (n ≠ 0 → neg = true → y = invalid rnd) ∧
    (n = d * 2 ^ k → neg = false → y = rnd (.fin false k 1)) ∧ (0 < k → n * 2 ^ k = d → n ≠ 0 → neg = false → y = rnd (.fin true k 1))

/-- The rows of R346's table for tanh a. -/
def TanhTable (rnd : Val → Nat × Flags) (a : Val) (y : Nat × Flags) : Prop :=
  (a = .nan → y = rnd .nan) ∧ (∀ neg, a = .inf neg → y = rnd (.fin neg 1 1)) ∧
  ∀ neg d, a = .fin neg 0 d → y = rnd (.fin neg 0 1)

/-- The rows of R346's table for 1 / (1 + e^−a), and its value at 0. -/
def SigmTable (rnd : Val → Nat × Flags) (a : Val) (y : Nat × Flags) : Prop :=
  (a = .nan → y = rnd .nan) ∧ (a = .inf true → y = rnd .zero) ∧ (a = .inf false → y = rnd .one) ∧
  ∀ neg d, a = .fin neg 0 d → y = rnd (.fin false 1 2)

/-- A row state of R348 with the flags of its steps. -/
structure RowState where
  n  : Val
  m  : Val
  q  : Val
  fl : Flags

/-- The inner statements of R348's loop. -/
def welford (s : RowState) (x : Val) : RowState :=
  let n := rne32 (vadd .rne s.n .one)
  let dl := rne32 (vadd .rne x s.m.neg)
  let t := rne32 (vdiv dl.1 n.1)
  let m := rne32 (vadd .rne s.m t.1)
  let u := rne32 (vadd .rne x m.1.neg)
  let w := rne32 (vmul dl.1 u.1)
  let q := rne32 (vadd .rne s.q w.1)
  ⟨n.1, m.1, q.1, s.fl ||| n.2 ||| dl.2 ||| t.2 ||| m.2 ||| u.2 ||| w.2 ||| q.2⟩

/-- The inner statements of R349's loop. -/
def mergeRows (a b : RowState) : RowState :=
  let n := rne32 (vadd .rne a.n b.n)
  if n.1.isZero then ⟨n.1, .zero, .zero, n.2⟩
  else
    let dl := rne32 (vadd .rne b.m a.m.neg)
    let x := rne32 (vdiv b.n n.1)
    let t := rne32 (vmul dl.1 x.1)
    let m := rne32 (vadd .rne a.m t.1)
    let qq := rne32 (vadd .rne a.q b.q)
    let d2 := rne32 (vmul dl.1 dl.1)
    let nn := rne32 (vmul a.n b.n)
    let f := rne32 (vdiv nn.1 n.1)
    let w := rne32 (vmul d2.1 f.1)
    let q := rne32 (vadd .rne qq.1 w.1)
    ⟨n.1, m.1, q.1, n.2 ||| dl.2 ||| x.2 ||| t.2 ||| m.2 ||| qq.2 ||| d2.2 ||| nn.2 ||| f.2 ||| w.2 ||| q.2⟩

/-- What an `xdot` needs to be accepted (R355, R357-R359, R362): geometry, its source and destination, and windows
left to run. -/
def DotAllowed (s : State) (a b : BitVec 3) (x : BitVec 6) (srck dst : BitVec 1) (n : Nat) : Prop :=
  let geom := s.cx.rXP a
  let src := s.cx.rXP b
  geomBad geom = false ∧ (n ≠ 0 → geomT geom * geomW geom % 32 = 0) ∧
  (srck = 1 → part src.toNat 41 23 = 0 ∧ ∃ k, s.heldSlot s.cur (part src.toNat 0 16) = some k ∧
    part src.toNat 16 25 + geomWin geom * streamLen (geomT geom) (geomW geom) n ≤ (s.slot s.cur.die k).len * 65536) ∧
  (dst = 1 → s.accumBad (s.cx.req s.cur .engWrite false true) (s.cx.rS (x + 1)) = false) ∧
  (part s.cx.xpr.toNat 16 1 = 1 → part s.cx.xpr.toNat 0 16 < geomWin geom)

/-- A stamp of 0 is 64 cycles on (R355). -/
def firstCycle (s : State) (x : W64) : Nat := if x = 0 then s.gtime + 64 else x.toNat

/-- The effect of a stream operation's issue: no more than four outstanding, an FP32 tile for a tile destination,
a new operation at the end of the queue or one refused. -/
def DotIssues (s : State) (g : BitVec 4) (i : Instr) (a b : BitVec 3) (x : BitVec 6) (t : BitVec 4) (acc srck dst : BitVec 1)
    (n : Nat) : Prop :=
  (4 ≤ s.cx.streams.length → Reaches s g i (fun u => (u.ctxOf s.cur).status = .blocked .streamQueue)) ∧
  (s.cx.streams.length < 4 →
    (dst = 0 → part (s.cx.rTS t).toNat 31 1 = 1 ∧ part (s.cx.rTS t).toNat 26 4 = 1) →
    (DotAllowed s a b x srck dst n → Reaches s g i (fun u => ∃ (old : List StreamOp) (o : StreamOp),
      let valid := part s.cx.xpr.toNat 16 1 = 1
      let w0 := if valid then part s.cx.xpr.toNat 0 16 else 0
      u.cx.streams = old ++ [o] ∧ old.length = s.cx.streams.length ∧ u.cx.arch = s.cx.arch ∧
      part u.cx.xpr.toNat 16 1 = 0 ∧ o.kind = (if n = 0 then 0 else 1) ∧ o.geom = s.cx.rXP a ∧ o.src = s.cx.rXP b ∧
      o.srck = decide (srck = 1) ∧ o.sparse = n ∧
      o.dst = (if dst = 1 then .accum (s.cx.rS (x + 1)) else .tile t) ∧ o.shape = s.cx.rTS t ∧
      (o.acc = true ↔ acc = 1 ∨ (valid ∧ part s.cx.xpr.toNat 17 1 = 1)) ∧ o.issue = s.gtime ∧
      o.start = firstCycle s (s.cx.rS x) ∧ o.first = w0 ∧ o.next = w0 ∧ o.begun = [] ∧ o.sums = [] ∧ o.waiting = false)) ∧
    (¬DotAllowed s a b x srck dst n → Reaches s g i (fun u => u.cx.streams = s.cx.streams ∧ u.cx.arch = s.cx.arch ∧
      ∃ v, u.cx.xwaited = some v ∧ 1 ≤ v.toNat)))

/-- The pending result of `board`: the status, and the held slot with its V bit. -/
def boarded (s : State) (d : BitVec 6) (st : Nat) (held : Option (Fin 8)) : State :=
  s.pendS d 40 (BitVec.ofNat 64 (match held with | some k => st + 0x10 * k.val + 0x80 | none => st))

/-- GTSTAT as R295 lays it out. -/
def statWord (j : Joist) : W64 :=
  BitVec.ofNat 64 ((if j.gtBusy then 1 else 0) + (if j.gtAligned then 2 else 0) + (if j.gtAlarm then 4 else 0) +
    j.gtLastMaster.toNat * 2 ^ 16 + j.gtGen.toNat * 2 ^ 32)

/-- The context's count of operations raised, the statuses kept those of its last 64 operations (R374), and the handle
delivered. -/
def handed (s : State) (d : BitVec 6) : State :=
  let u := s.updCx fun c => { c with
    handles := s.cx.handles + 1
    statuses := c.statuses.filter fun x => decide ((s.cx.handles - x.1).toNat < 64) }
  if d = 0 then u else u.putS d 1 (BitVec.ofNat 64 s.cx.handles.toNat)

/-- An operation taken by the die's engines. -/
def queued (s : State) (o : EngineOp) : State :=
  (s.updDie o.id.die fun x => { x with engOps := x.engOps ++ [o] }).assign o.id.die

/-- What an engine operation of a bundle finds: stores of the bundle's earlier slots have gone home (10 R249, 06 R153). -/
def storesHome (s : State) : State :=
  if s.cx.held = [] then s else { (s.flushHeld s.cur).updCtx s.cur fun c => { c with markDue := true } with early := true }

/-- A transfer's issue: with a size that R376 does not take the status is 3; with no bytes it is queued; else the
pages it names are checked and it is queued. -/
def CopyIssues (s : State) (g : BitVec 4) (i : Instr) (k : EngineKind) (a b : BitVec 3) (x d : BitVec 6) (p : BitVec 1) : Prop :=
  let o := (storesHome s).newOp k (s.cx.rXP a) (s.cx.rXP b) (s.rS x) (s.cx.rXP (b + 1)) (decide (p = 1))
  let u := handed (storesHome s) d
  (8 ≤ (s.opsOf s.cur).length → Reaches s g i (fun t => (t.ctxOf s.cur).status = .blocked .engineQueue)) ∧
  ((s.opsOf s.cur).length < 8 →
    (o.badSize = true → Runs s g i (u.giveStatus o 3)) ∧
    (o.badSize = false → o.total = 0 → Runs s g i (queued u o)) ∧
    (o.badSize = false → o.total ≠ 0 →
      (∀ v o', State.namePages o.namedPages u o = (v, .ok o') → Runs s g i (queued v o')) ∧
      (∀ v e, State.namePages o.namedPages u o = (v, .error e) → Runs s g i (v.giveStatus o 3))))

/-- A collective's issue: a context outside the group, or operands that R406 does not take, give status 3; else the
pages of its destination are checked, the rank's count of collectives goes up, and it is queued. -/
def CollectiveIssues (s : State) (g : BitVec 4) (i : Instr) (k : EngineKind) (dst src len : W64) (d : BitVec 6) (pub : Bool) : Prop :=
  let o := (storesHome s).newOp k dst src len 0 pub
  let u := handed (storesHome s) d
  let n : Fin 16 := Fin.ofNat 16 len.toNat
  let grp := vget s.joist.groups n
  (8 ≤ (s.opsOf s.cur).length → Reaches s g i (fun t => (t.ctxOf s.cur).status = .blocked .engineQueue)) ∧
  ((s.opsOf s.cur).length < 8 →
    (grp.rankOf s.cur = none → Runs s g i (u.giveStatus o 3)) ∧
    ∀ r, grp.rankOf s.cur = some r →
      let q : Fin 16 := Fin.ofNat 16 r
      let o1 := { o with comp := BitVec.ofNat 64 r }
      let named := State.namePages (spanPages dst (o1.dstLen grp.nrank)) u o1
      (o.badOperand grp.nrank = true → Runs s g i (u.giveStatus o 3)) ∧
      (o.badOperand grp.nrank = false → ∀ v e, named = (v, .error e) → Runs s g i (v.giveStatus o1 3)) ∧
      (o.badOperand grp.nrank = false → ∀ v o', named = (v, .ok o') → o'.grp = n →
        Runs s g i (queued (v.updJoist fun j => { j with groups := vupd j.groups n fun y =>
          { y with counts := vset y.counts q (vget grp.counts q + 1) } }) { o' with inst := vget grp.counts q })))

/-- GUARD as a timed operation meets it: 16 to 256, and in the cycle of a write to GTCFG what it was before (16 R382). -/
def guardOf (s : State) : Nat :=
  max 16 (min 256 (if s.joist.gtGuardAt = s.cycle then s.joist.gtGuardOld else s.joist.gtGuard).toNat)

/-- A timed operation whose channel is its context's own and whose due cycle u has come in time; `e` is the cycle in
which it was first ready. -/
def OnTime (s : State) (ch : BitVec 5) (t : W64) (u e : Nat) : Prop :=
  let x := (s.myChan ch).desc.toNat
  part x 0 1 = 1 ∧ part x 1 2 = s.cur.ctx.val ∧ ¬(s.joist.gtAlarm = true ∧ part x 3 1 = 1) ∧
  e = s.cx.readyAt ch t s.gtime ∧ u ≤ s.gtime ∧ e ≤ u + guardOf s

/-- The end of a timed operation: the writes and the status pending, and the address register stepped. -/
def slotEnds (s : State) (r : BitVec 4) (m : BitVec 1) (d : BitVec 6) (lat : Nat) (ws : List Write) (flags : Flags)
    (bad : Bool) (status : Nat) : State :=
  let u := s.updCx fun c => { c with slotWait := none }.addPend
    ⟨s.cycle + lat, [], [], (if ws = [] then LoadForm.given else LoadForm.popped)
      (ws ++ (if d = 0 then [] else [c.wS d (BitVec.ofNat 64 status)])), flags, bad, [], false, false⟩
  if m = 1 then u.deliver 1 (.a r (BitVec.ofInt 64 ((u.rA r).toNat + (u.cx.rD r).toInt))) 0 else u

/-- The status word of R391. -/
def slotWord (now u e arrived : Nat) : Nat :=
  (if u < e then 1 else 0) + (if u < arrived then 2 else 0) + 2 ^ 32 * min (now - u) 65535

/-- FP32 codes added or the greater taken, lane by lane. -/
def laneOf (x : BitVec 2048) (k : Nat) : Nat := x.toNat / 2 ^ (32 * k) % 2 ^ 32

/-- An event completes in a given state. -/
def Gives (s : State) (i : Instr) (t : State) : Prop := exec i s = .next t

/-- An event completes in a state with a property. -/
def Leads (s : State) (i : Instr) (P : State → Prop) : Prop := ∃ t, exec i s = .next t ∧ P t

/-- A write fits an aligned register of its size. -/
def Aligned (a : Nat) (wide : Bool) : Prop := a % (if wide then 8 else 4) = 0

/-- n bytes at an address of the package's storage within one unit of single-copy atomicity (01 R37). -/
def OnePiece (a n : Nat) : Prop :=
  (region a = .spad ∨ region a = .hbm ∨ region a = .lpddr) ∧ 0 < n ∧
    a / (if region a = .spad then 64 else 32) = (a + n - 1) / (if region a = .spad then 64 else 32)

/-- Rings of the block table: 2^4 to 2^20 records by KVCFG (04 R103). -/
def ringSize (cfg : W64) (bit : Nat) : Nat := 2 ^ ringLog (part cfg.toNat bit 5)

/-- A publishable-buffer table of n descriptors fits a die's scratchpad (07 R160). -/
def TableFits (d : Fin 8) (base n : Nat) : Prop :=
  d.val * 2 ^ 30 ≤ base ∧ base < (d.val + 1) * 2 ^ 30 ∧ base + 64 * n ≤ (d.val + 1) * 2 ^ 30

/-- PCIe has trained, BAR2 is open, and the request is inside the stream that an enabled IDE asks for (19 R451, R454). -/
def HostOpen (s : State) (bar2 inStream : Bool) : Prop :=
  s.boot ≠ .reset ∧ (bar2 = true → s.boot ≠ .safe) ∧ (s.ideLink = true ∨ s.ideSel = true → inStream = true)

/-- An operation has stopped at its next window, and its continuation is recorded (09 R231, R232). -/
def Stopped (k t : Ctx) (o : StreamOp) : Prop :=
  part t.xpr.toNat 0 16 = o.next % 65536 ∧ part t.xpr.toNat 16 1 = 1 ∧ (part t.xpr.toNat 17 1 = 1 ↔ 0 < o.next) ∧
    t.arch = k.arch ∧ t.reports = k.reports

/-- Nothing of a context is outside: no answer awaited, no stream, no request at a peer (18 R424). -/
def NothingOut (s : State) (id : CtxId) : Prop :=
  (∀ p, p ∈ (s.ctxOf id).pend → p.waits = []) ∧ (s.ctxOf id).streams = [] ∧
  ∀ r, r ∈ s.joist.peerReqs → r.of id = false

/-- Place of a context in the order of 08 R199 after the one that ran last. -/
def turnOf (last x : Fin 4) : Nat := (x - last - 1).val

/-- The named operation of a context is the first of its handle, a transfer that may not run being passed over. -/
def Outstanding (s : State) (id : CtxId) (h : BitVec 16) (o : EngineOp) : Prop :=
  (s.die id.die).engOps.find? (fun y => y.id == id && y.handle == h && (!y.kind.copies || s.mayRun y)) = some o

/-- Tile i of a slot holds what its source held (05 R125). -/
def TileCopied (s t : State) (d k : Fin 8) (src i : Nat) : Prop :=
  ∀ n, n < 65536 → memByte t.mem ((s.die d).slotBase d k.val + 65536 * i + n) = memByte s.mem (src + n)

/-- One step of a power towards another (19 R457). -/
def stepped (old new : BitVec 16) : BitVec 16 :=
  if new.toInt < old.toInt then old - 1 else if old.toInt < new.toInt then old + 1 else old

/-- A port with its registers replaced. -/
def portIs (s : State) (q : Fin 16) (p : Port) : State :=
  { s with joist := { s.joist with ports := vset s.joist.ports q p } }

/-- The states in which a lane carries data (16 R402). -/
def Works (x : LaneState) : Prop := x = .active ∨ x = .weak ∨ x = .pending ∨ x = .carrying

/-- A lane that fails: a spare takes over at once, which stops the link for 256 cc, or the port is degraded. -/
def Failed (p t : Port) (now : Nat) (l : Fin 34) : Prop :=
  (t.lane l).state = .failed ∧
  (∀ k, p.idleSpare l = some k → k ≠ l → (t.lane k).state = .carrying ∧ (t.lane k).map = (p.lane l).map ∧ t.heldUntil = now + 256) ∧
  (p.idleSpare l = none → t.degraded = true)

/-- The next turn is core c's of die d, in the state u: it heads the agenda, or the agenda is empty, that core
issues first, and no event is due before it (log 3). -/
def TurnOf (s u : State) (d : Fin 8) (c : Fin 16) : Prop :=
  (∃ rest, s.agenda = .core d c :: rest ∧ u = { s with agenda := rest }) ∨
  (s.agenda = [] ∧ s.nextCore = some (d, c) ∧ s.nextEvent (some (s.issueKey d c)) = none ∧ u = s)

/-- A running context at its next issue: the clock is there, and what is due by then is delivered. -/
def atIssue (s : State) (id : CtxId) : State :=
  let u := { s.advance (s.core id.die id.core).nextIssue with cur := id, taken := none, stalled := false, early := false }
  u.updCx fun c => c.settle u.cycle

/-- The bytes at the pc are a bundle: a word at an aligned pc is a header, and the header's bytes decode. The
second state is the one after both fetches, which may have walked and scanned. -/
def FetchesBundle (s u : State) (id : CtxId) (h : Header) (ws : List (Slot × BitVec 32)) : Prop :=
  ∃ hd w h0 v bs, s.fetchBytes id s.cx.arch.pc 4 = (v, .ok hd) ∧ (wordsOf hd).head? = some w ∧
    s.cx.arch.pc.toNat % 4 = 0 ∧ decodeHeader w = some h0 ∧ h0.present ≠ [] ∧
    v.fetchBytes id s.cx.arch.pc h0.size = (u, .ok bs) ∧ decodeBundle bs = some (h, ws)

/-- A bundle of one operation, with nothing sticky, no mark due and nothing that holds it up. -/
def OneOperation (s : State) (h : Header) (sl : Slot) (w : BitVec 32) (i : Instr) : Prop :=
  decodeRun sl.unit w = some i ∧ s.cx.arch.stickyM = none ∧ s.cx.arch.stickyC = none ∧ s.cx.markDue = false ∧
    s.taken = none ∧
    needsMark s.cx h [⟨sl, i, false⟩] = false ∧ wantsCommit exec (liveOps s.cx [⟨sl, i, false⟩]) s = false ∧
    s.endFence s.cur = s ∧ s.cx.latches = [] ∧ (s.cx.publishing = false ∨ Op.afterPub ⟨sl, i, false⟩ = false) ∧
    s.holdUp [⟨sl, i, false⟩] = none

/-- What the step does before it runs a hardware event of the agenda. -/
def eventState (s : State) (rest : List Turn) : State := { s with agenda := rest, taken := none }

/-- A context has been captured for a trap: it is idle without a task, its CAUSE, FVA and FINFO are the trap's
(12 R296, 03 R91), and its core is free of it. -/
def Captured (t : State) (id : CtxId) (r : TrapRec) : Prop :=
  let k := t.ctxOf id
  k.status = .idle ∧ k.task = none ∧ k.cause = BitVec.ofNat 64 (r.cause.toNat + r.arg.toNat * 2 ^ 16) ∧
    k.fva = r.fva ∧ k.finfo = r.finfo ∧ (t.core id.die id.core).running ≠ some id.ctx

/-- Its task is SUSPENDED with the cause (18 R420, R424): with an image, or not to be resumed where SVBASE names other storage
than scratchpad or HBM4's direct window, so that none is written (18 R436). -/
def Suspended (s t : State) (id : CtxId) (r : TrapRec) : Prop :=
  ∀ n x, (s.ctxOf id).task = some n → alookup n.val (s.die id.die).tasks = some x →
    ∃ y, alookup n.val (t.die id.die).tasks = some y ∧ y.state = .suspended ∧ y.cause = r.cause ∧ y.desc = x.desc ∧
      if (s.die id.die).areaOk = true then y.hasImage = true else y.noResume = true

/-- The operations that only deliver register results and choose where the context goes on: the S slot without
context control, `realign`, `beat`, `uiret` and `trap`; and the vector slots. -/
def RegisterOnly (i : Instr) : Bool :=
  match i.codeUnit with
  | some .s =>
    match i with
    | .pin _ | .unpin _ | .yield _ | .halt _ | .trap _ _ | .realign _ _ | .beat _ | .uiret _ => false
    | _ => true
  | some .v => true
  | _ => false

/-- The special registers that an operation delivers to, by its own rule. -/
def Special (s : State) (i : Instr) (r : RegName) : Prop :=
  match i with
  | .loop _ n _ | .lexit _ n _ => r = .lc n
  | .mloop _ _ => r = .lc 0 ∨ r = .lc 1 ∨ r = .rot ∨
      r = .p (BitVec.ofNat 4 (8 + (s.cx.arch.rbp.toNat + 7) % 8))
  | .csrw _ _ k => r = .csr k ∨ (0x10 ≤ k.toNat ∧ k.toNat < 0x14 ∧ r = .lc (k.setWidth 2))
  | .tshapeImm _ t _ _ _ | .tshapeReg _ t _ | .tvalid _ t _ _ => r = .ts t
  | .ftsetAbs _ _ _ | .ftsetCur _ _ _ => ∃ n, r = .ft n
  | .fbaseImm _ _ | .fbaseReg _ _ => r = .fbase
  | .pkset _ _ | .pksetKey _ _ _ _ => r = .pkr
  | .xpset _ _ n => r = .xp n
  | _ => False

/-- The cached leaf of every byte of an access of the issuing context is there, with D = 1 for a store. -/
def PagesCached (s : State) (wr : Bool) (va : W64) (n : Nat) : Prop :=
  ∀ k, k < n → ∃ l big,
    s.cachedLeaf (s.cx.req s.cur (if wr then .store else .load) (!wr) wr) (va + BitVec.ofNat 64 k) = some (l, big) ∧
      (wr = true → l.getLsbD 8 = true)

/-- Memory, the registers of a checkpoint, tiles, lines and masks of the issuing context, and every other context are as
they were. -/
def Untouched (s t : State) : Prop :=
  t.mem = s.mem ∧ t.cycle = s.cycle ∧ t.cx.arch = s.cx.arch ∧ t.cx.tiles = s.cx.tiles ∧ t.cx.lines = s.cx.lines ∧
    t.cx.masks = s.cx.masks ∧ t.cx.fstat = s.cx.fstat ∧ ∀ id, id ≠ s.cur → t.ctxOf id = s.ctxOf id

/-- A form that completed without a trap left everything of `Untouched` as it was. -/
def Quiet (s : State) (i : Instr) : Prop := ∀ t, exec i s = .next t → t.taken = none → Untouched s t

end Sys2Proof.Claims

open Sys2Proof Sys2Proof.Machine Sys2Proof.Claims

/-! ### S slot -/

/-- 12 R279, R280: the arithmetic of group 0. For a reserved F the form acts as with F = 0 (10 R249). 12 R279: the
bit operations, shifts and choices of group 0. 12 R281: the immediates of group 1, and the extensions. 12 R281:
the bit counts. -/
def Obligations.ScalarResults : Prop :=
  (∀ (s : State) (g : BitVec 4) (d a b : BitVec 6) (f : BitVec 3),
     Runs s g (.add g d a b) (s.putS d 1 (BitVec.ofNat 64 ((s.rS a).toNat + (s.rS b).toNat))) ∧
     Runs s g (.sub g d a b) (s.putS d 1 (BitVec.ofInt 64 ((s.rS a).toNat - (s.rS b).toNat))) ∧
     Runs s g (.mul g d a b) (s.putS d 3 (BitVec.ofNat 64 ((s.rS a).toNat * (s.rS b).toNat))) ∧
     Runs s g (.mulh g d a b f) (s.putS d 3 (BitVec.ofInt 64
       ((if f = 1 ∨ f = 2 then (s.rS a).toInt else (s.rS a).toNat) *
         (if f = 1 then (s.rS b).toInt else (s.rS b).toNat) / 2 ^ 64))) ∧
     Runs s g (.div g d a b f) (s.putS d 24 (BitVec.ofInt 64
       (if f = 1 then quot (s.rS a).toInt (s.rS b).toInt else quot (s.rS a).toNat (s.rS b).toNat))) ∧
     Runs s g (.rem g d a b f) (s.putS d 24 (BitVec.ofInt 64
       (if f = 1 then rest (s.rS a).toInt (s.rS b).toInt else rest (s.rS a).toNat (s.rS b).toNat)))) ∧
  (∀ (s : State) (g : BitVec 4) (d a b : BitVec 6) (f : BitVec 3),
     Reaches s g (.and g d a b) (fun t => ∃ v, t = s.putS d 1 v ∧
       ∀ k, v.getLsbD k = ((s.rS a).getLsbD k && (s.rS b).getLsbD k)) ∧
     Reaches s g (.or g d a b) (fun t => ∃ v, t = s.putS d 1 v ∧
       ∀ k, v.getLsbD k = ((s.rS a).getLsbD k || (s.rS b).getLsbD k)) ∧
     Reaches s g (.xor g d a b) (fun t => ∃ v, t = s.putS d 1 v ∧
       ∀ k, v.getLsbD k = ((s.rS a).getLsbD k ^^ (s.rS b).getLsbD k)) ∧
     Reaches s g (.andn g d a b) (fun t => ∃ v, t = s.putS d 1 v ∧
       ∀ k, v.getLsbD k = ((s.rS a).getLsbD k && !(s.rS b).getLsbD k)) ∧
     Runs s g (.shl g d a b) (s.putS d 1
       (if (s.rS b).toNat < 64 then BitVec.ofNat 64 ((s.rS a).toNat * 2 ^ (s.rS b).toNat) else 0)) ∧
     Runs s g (.shr g d a b) (s.putS d 1
       (if (s.rS b).toNat < 64 then BitVec.ofNat 64 ((s.rS a).toNat / 2 ^ (s.rS b).toNat) else 0)) ∧
     Runs s g (.sra g d a b) (s.putS d 1 (BitVec.ofInt 64 ((s.rS a).toInt / 2 ^ (Nat.min (s.rS b).toNat 63)))) ∧
     Reaches s g (.min g d a b f) (fun t => ∃ v, t = s.putS d 1 v ∧ (v = s.rS a ∨ v = s.rS b) ∧
       (if f = 1 then v.toNat ≤ (s.rS a).toNat ∧ v.toNat ≤ (s.rS b).toNat
         else v.toInt ≤ (s.rS a).toInt ∧ v.toInt ≤ (s.rS b).toInt)) ∧
     Reaches s g (.max g d a b f) (fun t => ∃ v, t = s.putS d 1 v ∧ (v = s.rS a ∨ v = s.rS b) ∧
       (if f = 1 then (s.rS a).toNat ≤ v.toNat ∧ (s.rS b).toNat ≤ v.toNat
         else (s.rS a).toInt ≤ v.toInt ∧ (s.rS b).toInt ≤ v.toInt)) ∧
     Runs s g (.sel g d a b f) (s.putS d 1 (if s.rP (BitVec.ofNat 4 f.toNat) then s.rS a else s.rS b))) ∧
  (∀ (s : State) (g : BitVec 4) (d a : BitVec 6) (i : BitVec 9) (j : BitVec 15),
     Runs s g (.addi g d a i) (s.putS d 1 (BitVec.ofInt 64 ((s.rS a).toNat + i.toInt))) ∧
     Runs s g (.andi g d a i) (s.putS d 1 (s.rS a &&& BitVec.ofInt 64 i.toInt)) ∧
     Runs s g (.ori g d a i) (s.putS d 1 (s.rS a ||| BitVec.ofInt 64 i.toInt)) ∧
     Runs s g (.xori g d a i) (s.putS d 1 (s.rS a ^^^ BitVec.ofInt 64 i.toInt)) ∧
     Runs s g (.shli g d a i) (s.putS d 1 (BitVec.ofNat 64 ((s.rS a).toNat * 2 ^ i.toNat))) ∧
     Runs s g (.shri g d a i) (s.putS d 1 (BitVec.ofNat 64 ((s.rS a).toNat / 2 ^ i.toNat))) ∧
     Runs s g (.srai g d a i) (s.putS d 1 (BitVec.ofInt 64 ((s.rS a).toInt / 2 ^ i.toNat))) ∧
     Runs s g (.movi g d j) (s.putS d 1 (BitVec.ofInt 64 j.toInt)) ∧
     Runs s g (.movh g d j) (s.putS d 1 (BitVec.ofNat 64 ((s.rS d).toNat * 2 ^ 15 + j.toNat))) ∧
     Runs s g (.sext g d a i) (s.putS d 1 (BitVec.ofInt 64 (lowSigned (s.rS a) (i.toNat + 1)))) ∧
     Runs s g (.zext g d a i) (s.putS d 1 (BitVec.ofNat 64 ((s.rS a).toNat % 2 ^ (i.toNat + 1))))) ∧
  (∀ (s : State) (g : BitVec 4) (d a : BitVec 6),
     Reaches s g (.clz g d a) (fun t => ∃ n, n ≤ 64 ∧ t = s.putS d 1 (BitVec.ofNat 64 n) ∧
       (∀ k, 64 - n ≤ k → (s.rS a).getLsbD k = false) ∧ (n < 64 → (s.rS a).getLsbD (63 - n) = true)) ∧
     Reaches s g (.ctz g d a) (fun t => ∃ n, n ≤ 64 ∧ t = s.putS d 1 (BitVec.ofNat 64 n) ∧
       (∀ k, k < n → (s.rS a).getLsbD k = false) ∧ (n < 64 → (s.rS a).getLsbD n = true)) ∧
     Runs s g (.popc g d a) (s.putS d 1 (BitVec.ofNat 64 ((List.range 64).countP fun k => (s.rS a).getLsbD k))))

/-- 12 R280: the quotient and the remainder of `div` and `rem`, unsigned for F = 0 and signed for F = 1. Division by
zero gives all ones and leaves the dividend; the signed quotient truncates, so −2^63 by −1 gives 2^63 again and
0. -/
def Obligations.DivisionResults : Prop :=
  ∀ (s : State) (g : BitVec 4) (d a b : BitVec 6),
    let ux := (s.rS a).toNat
    let uy := (s.rS b).toNat
    let sx := (s.rS a).toInt
    let sy := (s.rS b).toInt
    (uy = 0 → ∀ f, Runs s g (.div g d a b f) (s.putS d 24 (BitVec.allOnes 64)) ∧
      Runs s g (.rem g d a b f) (s.putS d 24 (s.rS a))) ∧
    (uy ≠ 0 → Runs s g (.div g d a b 0) (s.putS d 24 (BitVec.ofNat 64 (ux / uy))) ∧
      Runs s g (.rem g d a b 0) (s.putS d 24 (BitVec.ofNat 64 (ux % uy)))) ∧
    (uy ≠ 0 → ∃ q r : Int, sx = q * sy + r ∧ r.natAbs < sy.natAbs ∧ (r = 0 ∨ (r < 0 ↔ sx < 0)) ∧
      Runs s g (.div g d a b 1) (s.putS d 24 (BitVec.ofInt 64 q)) ∧
      Runs s g (.rem g d a b 1) (s.putS d 24 (BitVec.ofInt 64 r))) ∧
    (sx = -2 ^ 63 → sy = -1 → Runs s g (.div g d a b 1) (s.putS d 24 (BitVec.ofNat 64 (2 ^ 63))) ∧
      Runs s g (.rem g d a b 1) (s.putS d 24 0))

/-- 12 R282: `cmp` and `cmpi` write a predicate with their condition; the 6-bit immediate is signed for cc 0 to 3
(and the reserved 7, which acts as 0: 10 R249, log 19) and unsigned for cc 4 to 6. -/
def Obligations.CompareResults : Prop :=
  ∀ (s : State) (g p : BitVec 4) (a b i : BitVec 6) (c : BitVec 3),
    Reaches s g (.cmp g p a b c) (fun t => ∃ v, t = s.putP p 1 v ∧ (v = true ↔ Cond c (s.rS a) (s.rS b))) ∧
    Reaches s g (.cmpi g p a i c) (fun t => ∃ v, t = s.putP p 1 v ∧
      (v = true ↔ Cond c (s.rS a)
        (if c.toNat < 4 ∨ c.toNat = 7 then BitVec.ofInt 64 i.toInt else BitVec.ofNat 64 i.toNat)))

/-- 12 R283, R284: the address and predicate operations. -/
def Obligations.AddressPredicateResults : Prop :=
  ∀ (s : State) (g x y z : BitVec 4) (d a n : BitVec 6) (h : BitVec 3) (i : BitVec 9) (v : BitVec 1),
    Runs s g (.lea g x y a h)
      (s.deliver 1 (.a x (BitVec.ofNat 64 ((s.rA y).toNat + (s.rS a).toNat * 2 ^ h.toNat))) 0) ∧
    Runs s g (.amov g x a) (s.deliver 1 (.a x (s.rS a)) 0) ∧
    Runs s g (.agetA g d y) (s.putS d 1 (s.rA y)) ∧
    Runs s g (.agetD g d y) (s.putS d 1 (BitVec.ofInt 64 (s.cx.rD y).toInt)) ∧
    Runs s g (.dset g x a) (s.deliver 1 (.d x (BitVec.ofNat 32 (s.rS a).toNat)) 0) ∧
    Runs s g (.aadd g x y i) (s.deliver 1 (.a x (BitVec.ofInt 64 ((s.rA y).toNat + 64 * i.toInt))) 0) ∧
    Runs s g (.pand g x y z) (s.putP x 1 (s.rP y && s.rP z)) ∧
    Runs s g (.por g x y z) (s.putP x 1 (s.rP y || s.rP z)) ∧
    Runs s g (.pxor g x y z) (s.putP x 1 (s.rP y != s.rP z)) ∧
    Runs s g (.pnot g x y) (s.putP x 1 (!s.rP y)) ∧
    Runs s g (.pmov g x y) (s.putP x 1 (s.rP y)) ∧
    Runs s g (.psetConst g x v) (s.putP x 1 (decide (v = 1))) ∧
    Runs s g (.psetScalar g x a) (s.putP x 1 (decide (s.rS a ≠ 0))) ∧
    Runs s g (.psetBit g x a n) (s.putP x 1 (decide ((s.rS a).toNat / 2 ^ n.toNat % 2 = 1)))

/-- 12 R285: the transfers. 12 R286: `loop` counts lcN down and transfers while it is not 0; `lexit` clears it and
transfers (R285). -/
def Obligations.TransferResults : Prop :=
  (∀ (s : State) (g p : BitVec 4) (n : BitVec 1) (l : BitVec 5) (o : BitVec 16),
     Runs s g (.br g p n o) (if s.rP p = decide (n = 0) then goTo s (relTarget s o) else s) ∧
     Runs s g (.jmp g p o) (goTo s (BitVec.ofInt 64 ((s.rA p).toNat + 4 * o.toInt))) ∧
     Runs s g (.call g l o) (goTo (s.putS (BitVec.ofNat 6 l.toNat) 1 s.cx.npc) (relTarget s o)) ∧
     Runs s g (.ret g l) (goTo s (s.rS (BitVec.ofNat 6 l.toNat)))) ∧
  (∀ (s : State) (g : BitVec 4) (n : BitVec 2) (o : BitVec 16),
     Reaches s g (.loop g n o) (fun t => ∃ v : W64, v.toNat = (s.cx.rLC n).toNat - 1 ∧
       t = if v = 0 then s.deliver 1 (.lc n v) 0 else goTo (s.deliver 1 (.lc n v) 0) (relTarget s o)) ∧
     Runs s g (.lexit g n o) (goTo (s.deliver 1 (.lc n 0) 0) (relTarget s o)))

/-- 12 R287: `mloop` counts lc0, then lc1, rotates the registers and writes p8 through the new base. 12 R287, 08
R188: what the delivered rotation does to the names. The value that s(32 + i) or p(8 + i) named before is named
s(33 + i) or p(9 + i) after it, s63 and p15 wrap, and p8 then has its new value. -/
def Obligations.ModuloLoop : Prop :=
  (∀ (s : State) (g : BitVec 4) (o : BitVec 16) (u : State) (rbs : BitVec 5) (rbp : BitVec 3),
     rbs.toNat = (s.cx.arch.rbs.toNat + 31) % 32 → rbp.toNat = (s.cx.arch.rbp.toNat + 7) % 8 →
     let turned (u : State) (p8 : Bool) : State :=
       goTo ((u.deliver 1 (.rot rbs rbp) 0).deliver 1 (.p (BitVec.ofNat 4 (8 + rbp.toNat)) p8) 0) (relTarget s o)
     (0 < (s.cx.rLC 0).toNat → u = s.deliver 1 (.lc 0 (BitVec.ofNat 64 ((s.cx.rLC 0).toNat - 1))) 0 →
       Runs s g (.mloop g o) (turned u true)) ∧
     ((s.cx.rLC 0).toNat = 0 → 0 < (s.cx.rLC 1).toNat →
       u = s.deliver 1 (.lc 1 (BitVec.ofNat 64 ((s.cx.rLC 1).toNat - 1))) 0 → Runs s g (.mloop g o) (turned u false)) ∧
     ((s.cx.rLC 0).toNat = 0 → (s.cx.rLC 1).toNat = 0 → Runs s g (.mloop g o) s)) ∧
  (∀ (s : State) (p8 : Bool) (rbs : BitVec 5) (rbp : BitVec 3),
     s.cx.inflight = [] → s.cx.pend = [] →
     rbs.toNat = (s.cx.arch.rbs.toNat + 31) % 32 → rbp.toNat = (s.cx.arch.rbp.toNat + 7) % 8 →
     let c := ((s.deliver 1 (.rot rbs rbp) 0).deliver 1 (.p (BitVec.ofNat 4 (8 + rbp.toNat)) p8) 0).cx.settle (s.cycle + 1)
     (∀ i : Nat, i < 31 → c.rS (BitVec.ofNat 6 (33 + i)) = s.cx.rS (BitVec.ofNat 6 (32 + i))) ∧
     c.rS 32 = s.cx.rS 63 ∧
     (∀ i : Nat, i < 32 → c.rS (BitVec.ofNat 6 i) = s.cx.rS (BitVec.ofNat 6 i)) ∧
     (∀ i : Nat, i < 7 → c.rP (BitVec.ofNat 4 (9 + i)) = s.cx.rP (BitVec.ofNat 4 (8 + i))) ∧
     c.rP 8 = p8 ∧ (∀ i : Nat, i < 8 → c.rP (BitVec.ofNat 4 i) = s.cx.rP (BitVec.ofNat 4 i)))

/-- 12 R289, R290, 08 R201, 18 R434: `pin`, `unpin`, `yield` and `halt`. A context whose quantum is over, or whose bundle
held a `yield`, gives up the core at its boundary to a context that is ready then (08 R199, 12 R289). 12 R288: `trap`
completes its bundle, which counts against the quantum (08 R203), and takes SOFTTRAP with its code as CAUSE.ARG. 07 R179, R180: `uiret` outside a handler has no effect; inside one,
the held stores go home, INH clears, the sticky states put aside come back, and the program resumes at UIRET
with its issues still due. -/
def Obligations.ContextControl : Prop :=
  (∀ (s : State) (g : BitVec 4),
     Reaches s g (.pin g) (fun t => (s.cx.pin = true → t = s) ∧
       (s.cx.pin = false → t = s.updCx fun c => { c with pin := true, pinStart := s.cycle + 1 })) ∧
     Reaches s g (.unpin g) (fun t => t.cx.pin = false ∧ t.cx.arch = s.cx.arch ∧ t.mem = s.mem ∧
       (s.cx.pin = false → t = s) ∧
       (s.cx.pin = true → t.myCore.deferred = 0 ∧ t.myCore.frzGov = satAdd s.myCore.frzGov s.myCore.deferred)) ∧
     Runs s g (.yield g) (if s.cx.pin then s else s.updCx fun c => { c with yields := true }) ∧
     Reaches s g (.halt g) (fun t =>
       let u := s.flushHeld s.cur
       (t.ctxOf s.cur).status = .blocked .halt ∧ (t.ctxOf s.cur).notices = [] ∧ (t.ctxOf s.cur).pin = false ∧
       t.mem = u.mem ∧ t.host = u.host ∧
       ∀ n, (u.ctxOf s.cur).task = some n → alookup n.val (t.die s.cur.die).tasks =
         (alookup n.val (u.die s.cur.die).tasks).map fun x => { x with state := .ending })) ∧
  (∀ (s : State) (g : BitVec 4) (k : BitVec 16),
     let r : TrapRec := ⟨0x0F, k, s.cx.fva, s.cx.finfo⟩
     Runs s g (.trap g k)
       { ((s.updCx fun c => { c with
             wdStart := if c.wasBlocked then c.wdStart else s.cycle
             wdHeld := if c.wasBlocked then c.wdHeld else 0
             quantum := c.quantum - 1
             arch := { c.arch with pc := c.npc, due := none } }).takeTrap s.cur r false) with
         taken := some ⟨r, 1⟩ }) ∧
  (∀ (s : State) (id : CtxId), let c := s.ctxOf id
     c.streamFault = none → c.nextA = none → c.pin = false → s.saveDue id = false →
     c.quantum = 0 ∨ c.yields = true → (∃ x, x ≠ id.ctx ∧ (s.ctxOf ⟨id.die, id.core, x⟩).status = .ready) →
     ∃ t, s.boundary id false = some t ∧ (t.ctxOf id).status = .ready ∧ (t.ctxOf id).yields = false ∧ (t.ctxOf id).arch = c.arch ∧
       ((s.core id.die id.core).running = some id.ctx →
         (t.core id.die id.core).running = none ∧ (t.core id.die id.core).lastRan = id.ctx)) ∧
  (∀ (s : State) (g : BitVec 4),
     (s.cx.inh = false → Runs s g (.uiret g) s) ∧
     (s.cx.inh = true → Runs s g (.uiret g) ((s.flushHeld s.cur).updCtx s.cur fun c =>
       { c with
         inh := false, markDue := true, keepM := none, keepC := none
         wait := c.keepWait, kvReq := c.keepKv, boarding := c.keepBoard, keepWait := none, keepKv := none, keepBoard := none
         npc := uiretVa c.uiret, jumped := true, nextDue := some (BitVec.ofNat 6 (part c.uiret.toNat 56 6))
         arch := { c.arch with stickyM := c.keepM, stickyC := c.keepC } })))

/-- 12 R294, R295, 08 R184: `csrr`, `csrw`, `widf`, `gtime` and `beat` (08 R204). 12 R295, 16 R383: `realign`
delivers GTSTAT and asks for an alignment: no effect without a member identity or while one is under way,
complete at once on the master itself, failed with an event without a master or a circuit to it, else begun with 16
timing flits to the master; the requests of one cycle are one, and that a failure is posted once, from the die of the context that
issues it and naming it, is log 29 (what leaves when a flit cannot go yet, log 11). 12 R291, 08 R196, R197, 03 R84, 15 R352: format entries, FBASE, keys and stream parameters. -/
def Obligations.SystemRegisters : Prop :=
  (∀ (s : State) (g : BitVec 4) (d : BitVec 6) (k : BitVec 12) (j : BitVec 3),
     Runs s g (.csrr g d k) (s.putS d 1 (s.csrRead k)) ∧
     Runs s g (.csrw g d k) (s.deliver 1
       (if 0x10 ≤ k.toNat ∧ k.toNat ≤ 0x13 then .lc (BitVec.ofNat 2 (k.toNat - 0x10)) (s.rS d) else .csr k (s.rS d)) 0) ∧
     Runs s g (.widf g d j) (s.putS d 1 (BitVec.ofNat 64
       (if j.toNat < part s.cx.widcfg.toNat 36 3 then
         s.cx.wid.toNat / 2 ^ ((List.range j.toNat).map (widWidth s.cx.widcfg)).sum % 2 ^ widWidth s.cx.widcfg j.toNat
       else 0))) ∧
     Runs s g (.gtime g d) (s.putS d 1 (BitVec.ofNat 64 (s.cycle + s.joist.gtAhead - s.joist.gtBehind))) ∧
     Runs s g (.beat g) (s.updCx fun c =>
       { c with wdStart := max s.cycle s.myCore.frozenUntil, wdHeld := 0 })) ∧
  (∀ (s : State) (g : BitVec 4) (d : BitVec 6),
     let j := s.joist
     let asked := ∃ v, j.gtAsked = some (s.cycle, v)
     let alone := ∀ q, j.circuit j.gtMaster q = false
     let a : Joist := { j with gtAsked := some (s.cycle, statWord j) }
     let u := s.putS d 1 (statWord j)
     let ended : Joist := { a with gtBusy := false, gtLeft := 0, gtSent := [], gtExch := [] }
     let w : State := { u with joist := ended }
     (∀ v, j.gtAsked = some (s.cycle, v) → Runs s g (.realign g d) (s.putS d 1 v)) ∧
     (¬asked → j.mvalid = false ∨ j.gtBusy = true → Runs s g (.realign g d) u) ∧
     (¬asked → j.mvalid = true → j.gtBusy = false →
       (j.member = j.gtMaster → Runs s g (.realign g d)
         { u with joist := { ended with
           gtLastMaster := j.gtMaster, gtAligned := true, gtAlarm := false, gtGen := j.gtGen + 1, skewSent := none } }) ∧
       (j.member ≠ j.gtMaster → j.gtMaster = 0x1FF → Runs s g (.realign g d)
         (w.postEvent s.cur.die 0x11 (w.srcOf s.cur) 0x1FF 0)) ∧
       (j.member ≠ j.gtMaster → j.gtMaster ≠ 0x1FF → alone → Runs s g (.realign g d)
         (w.postEvent s.cur.die 0x11 (w.srcOf s.cur) (j.gtMaster.toNat + 0x100) 0)) ∧
       (j.member ≠ j.gtMaster → j.gtMaster ≠ 0x1FF → ∀ q, j.circuit j.gtMaster q = true →
         (∀ p, p < q → j.circuit j.gtMaster p = false) →
         ((s.portQuiet q = true ∨ 512 ≤ (vget j.ports q).replay.length) → Runs s g (.realign g d)
           { u with joist := { ended with gtBusy := true, gtDie := s.cur.die, gtLeft := 16 } }) ∧
         (s.portQuiet q = false → (vget j.ports q).replay.length + 16 ≤ 512 → Reaches s g (.realign g d) (fun t =>
           let seq (k : Nat) : BitVec 16 := j.gtSeq + 1 + BitVec.ofNat 16 k
           let flit (k : Nat) : Sent := ⟨⟨FlitHead.bits
             ⟨8, j.member.toNat, j.gtMaster.toNat, s.cur.die.val, 0, 0, 0, 0, false, 0, (seq k).toNat, s.gtime⟩, 0⟩, none⟩
           t.joist.gtBusy = true ∧ t.joist.gtDie = s.cur.die ∧ t.joist.gtAsked = a.gtAsked ∧ t.cx = u.cx ∧
           t.joist.gtLeft = 0 ∧ t.joist.gtExch = [] ∧
           t.joist.gtSent = (List.range 16).map (fun k => ⟨seq k, BitVec.ofNat 64 s.gtime⟩) ∧
           (vget t.joist.ports q).replay = (vget j.ports q).replay ++ (List.range 16).map flit ∧
           (vget t.joist.ports q).txSeq = (vget j.ports q).txSeq + 16 ∧
           ∀ p, p ≠ q → vget t.joist.ports p = vget j.ports p))))) ∧
  (∀ (s : State) (g n : BitVec 4) (d : BitVec 6) (k : BitVec 5) (r w : BitVec 1) (x : BitVec 3),
     let v := (s.rS d).toNat
     let entry : BitVec 32 := BitVec.ofNat 32 (part v 0 9 + part v 16 4 * 2 ^ 16)
     let key := s.cx.arch.pkr.toNat
     Runs s g (.ftsetAbs g d n) (s.deliver 1 (.ft n entry) 0) ∧
     Runs s g (.ftsetCur g d n) (s.deliver 1
       (.ft (BitVec.ofNat 4 (s.cx.arch.fbase.toNat + (s.cx.rLC 0).toNat + n.toNat)) entry) 0) ∧
     Runs s g (.fbaseImm g n) (s.deliver 1 (.fbase n) 0) ∧
     Runs s g (.fbaseReg g d) (s.deliver 1 (.fbase (BitVec.ofNat 4 v)) 0) ∧
     Runs s g (.pkset g d) (s.deliver 1 (.pkr (s.rS d)) 0) ∧
     Runs s g (.pksetKey g k r w) (s.deliver 1 (.pkr (BitVec.ofNat 64
       (key % 2 ^ (2 * k.toNat) + (r.toNat + 2 * w.toNat) * 2 ^ (2 * k.toNat) +
         key / 2 ^ (2 * k.toNat + 2) * 2 ^ (2 * k.toNat + 2)))) 0) ∧
     Runs s g (.xpset g d x) (s.deliver 1 (.xp x (s.rS d)) 0))

/-- 12 R292, R293, 08 R191: shapes are written where R191 holds and raise SHAPE where it does not;
`tvalid` on a tile without a shape takes UNCONF (12 R293). -/
def Obligations.ShapeResults : Prop :=
  ∀ (s : State) (g t : BitVec 4) (r c n m : BitVec 6) (f : BitVec 3),
    (ShapeFits r.toNat c.toNat (r.toNat + 1) (c.toNat + 1) f.toNat →
      Runs s g (.tshapeImm g t r c f)
        (s.deliver 1 (.ts t (shapeOf r.toNat c.toNat (r.toNat + 1) (c.toNat + 1) f.toNat)) 0)) ∧
    (¬ShapeFits r.toNat c.toNat (r.toNat + 1) (c.toNat + 1) f.toNat →
      Runs s g (.tshapeImm g t r c f) (s.trapI 0x04)) ∧
    (let x := (s.rS n).toNat % 2 ^ 30
     let fits := ShapeFits (part x 0 6) (part x 6 6) (part x 12 7) (part x 19 7) (part x 26 4)
     (x = 0 → Runs s g (.tshapeReg g t n) (s.deliver 1 (.ts t 0) 0)) ∧
     (x ≠ 0 → fits → Runs s g (.tshapeReg g t n)
       (s.deliver 1 (.ts t (shapeOf (part x 0 6) (part x 6 6) (part x 12 7) (part x 19 7) (part x 26 4))) 0)) ∧
     (x ≠ 0 → ¬fits → Runs s g (.tshapeReg g t n) (s.trapI 0x04))) ∧
    (let x := (s.cx.rTS t).toNat
     (part x 31 1 = 0 → Runs s g (.tvalid g t n m) (s.trapI 0x03)) ∧
     (part x 31 1 = 1 → Runs s g (.tvalid g t n m) (s.deliver 1 (.ts t (BitVec.ofNat 32
       (part x 0 12 + Nat.min (s.rS n).toNat (part x 0 6 + 1) * 2 ^ 12 +
        Nat.min (s.rS m).toNat (part x 6 6 + 1) * 2 ^ 19 + part x 26 6 * 2 ^ 26))) 0)))

/-! ### M slot -/

/-- 13 R301-R304, R306, R307: a load whose every part is allowed reads and leaves its destination pending; a
stepping form advances its address register. 13 R305: `pref` installs a translation and reads nothing; where the
translation faults it installs nothing. The cycle in which a load is due is the model's choice (log 5). -/
def Obligations.LoadResults : Prop :=
  (∀ (s : State) (g : BitVec 4) (d : BitVec 6) (l : BitVec 5) (t r : BitVec 4) (m q z : BitVec 2) (f e : BitVec 1) (x : BitVec 5)
     (n : BitVec 6) (k : BitVec 3) (v : BitVec 5) (ps : List Part) (u : State) (y : Gather),
     (Loads s [⟨ea s r m x (2 ^ z.toNat), 2 ^ z.toNat⟩] ps u y → Runs s g (.ld g d r m f e z x)
       (stepTo (loaded s u ps y (.scalar (s.cx.nameS d) (2 ^ z.toNat) (decide (e = 1)))) m r)) ∧
     (Loads s [⟨ea s r m x 256, 256⟩] ps u y →
       Runs s g (.lld g l r m f x) (stepTo (loaded s u ps y (.line l)) m r)) ∧
     (Configured s [t] →
       (Loads s (tileRuns (s.cx.rTS t) (s.rA r) (decide (q = 1)) (if n = 0 then none else some (s.rS n))) ps u y →
         Runs s g (.tld g t q r m n k) (stepTo (loaded s u ps y (.tile t (s.cx.rTS t))) m r)) ∧
       (Loads s (gatherRuns (s.cx.rTS t) (s.rA r) q (s.cx.rV v)) ps u y →
         Runs s g (.tldg g t q r m v k) (stepTo (loaded s u ps y (.tile t (s.cx.rTS t))) m r)))) ∧
  (∀ (s : State) (g r : BitVec 4) (m z : BitVec 2) (x : BitVec 5) (u : State) (p : W64 × Bool × Option Nat)
     (cause kind level : Nat),
     let found := s.findLeaf (s.cx.req s.cur .load false false) (ea s r m x (2 ^ z.toNat))
     (∀ v, found = (u, .ok p) → u.fillL2 (s.cx.req s.cur .load false false) (ea s r m x (2 ^ z.toNat)) = (v, none) →
       Runs s g (.pref g r m z x) (Claims.stepTo v m r)) ∧
     (found = (u, .error (.trap cause kind level)) → Runs s g (.pref g r m z x) (Claims.stepTo s m r)))

/-- 13 R301, 18 R429: a store whose every part is allowed is held; a stepping form advances its register. 03 R92, 18
R421, R424: an access that a part refuses performs nothing: a load or store takes the trap of its part, which is
class R. -/
def Obligations.StoreResults : Prop :=
  (∀ (s : State) (g : BitVec 4) (d : BitVec 6) (l : BitVec 5) (t r : BitVec 4) (m q z : BitVec 2) (f : BitVec 1) (x : BitVec 5)
     (n : BitVec 6) (k : BitVec 3) (v : BitVec 5) (ps : List Part) (u : State),
     (Stores s [⟨ea s r m x (2 ^ z.toNat), 2 ^ z.toNat⟩] ps u → Runs s g (.st g d r m f z x)
       (stepTo (heldBack s u ps (lowBytes (2 ^ z.toNat) (s.rS d).toNat)) m r)) ∧
     (Stores s [⟨ea s r m x 256, 256⟩] ps u →
       Runs s g (.lst g l r m f x) (stepTo (heldBack s u ps (lowBytes 256 (s.cx.rV l).toNat)) m r)) ∧
     (Configured s [t] →
       (Stores s (tileRuns (s.cx.rTS t) (s.rA r) (decide (q = 1)) (if n = 0 then none else some (s.rS n))) ps u →
         Runs s g (.tst g t q r m n k) (stepTo (heldBack s u ps (tileBytes (s.cx.rT t) (s.cx.rTS t))) m r)) ∧
       (Stores s (gatherRuns (s.cx.rTS t) (s.rA r) q (s.cx.rV v)) ps u →
         Runs s g (.tsts g t q r m v k) (stepTo (heldBack s u ps (tileBytes (s.cx.rT t) (s.cx.rTS t))) m r))) ∧
     (64 ≤ s.cx.held.length → Runs s g (.st g d r m f z x) (s.trapI 0x11) ∧ Runs s g (.lst g l r m f x) (s.trapI 0x11))) ∧
  (∀ (s : State) (g : BitVec 4) (d : BitVec 6) (r : BitVec 4) (m z : BitVec 2) (f e : BitVec 1) (x : BitVec 5) (u : State)
     (a : PartFault) (cause kind level : Nat), a.fault = .trap cause kind level →
     let run : List VRun := [⟨ea s r m x (2 ^ z.toNat), 2 ^ z.toNat⟩]
     let rec_ (c : Ctx) (acc : AccKind) : TrapRec := ⟨BitVec.ofNat 8 cause, 0, a.va, finfoOf c kind acc.code level a.va⟩
     let trapped (acc : AccKind) : State :=
       { u.takeTrap u.cur (rec_ u.cx acc) true with taken := some ⟨rec_ u.cx acc, 3⟩ }
     (s.access s.cur (s.cx.req s.cur .load true false) run = (u, .error a) →
       Runs s g (.ld g d r m f e z x) (trapped .load)) ∧
     (s.cx.held.length < 64 → s.access s.cur (s.cx.req s.cur .store false true) run = (u, .error a) →
       Runs s g (.st g d r m f z x) (trapped .store)))

/-- 13 R298, R304, R307, 18 R429: what a load of device and host storage reads. A byte of device storage that held
stores of the context cover is the newest of theirs. 13 R304, R307: what the bytes of a load become. A scalar
form extends by zero or, with S = 1, by the sign. 13 R306, R307: the runs of a tile transfer. With no valid
column there is none. -/
def Obligations.LoadedValues : Prop :=
  (∀ (s : State) (id : CtxId) (p : Part) (ps : List Part),
     (p.loc.space = .dev → lfOrd p.loc.leaf ≠ 0 → s.MemOk → s.poisoned p.loc.addr p.n = false →
       s.readParts id .load [p] = (s, ⟨(List.range p.n).map fun k =>
         (((s.ctxOf id).held.flatMap HeldStore.runs).foldl (fun b r =>
           if r.space = .dev ∧ r.addr ≤ p.loc.addr + k ∧ p.loc.addr + k < r.addr + r.bytes.length
           then r.bytes.getD (p.loc.addr + k - r.addr) 0 else b) (memByte s.mem (p.loc.addr + k))), false, []⟩)) ∧
     ((∀ x, x ∈ ps → (x.loc.space = .dev ∧ s.poisoned x.loc.addr x.n = false) ∨
         (x.loc.space = .host ∧ s.hostPoisoned id.die x.loc.addr x.n = false)) →
       (s.ctxOf id).held = [] → s.MemOk →
       s.readParts id .load ps = (s, ⟨ps.flatMap fun x => (List.range x.n).map fun k =>
         (if x.loc.space = .dev then memByte s.mem (x.loc.addr + k)
           else memByte s.host (s.hostAddr id.die x.loc.addr + k)), false, []⟩))) ∧
  (∀ (r : RegName) (n : BitVec 6) (l : BitVec 5) (z : Nat) (raw : List Byte),
     r = .s n → z ≤ 3 →
     let v := (List.range (2 ^ z)).foldl (fun acc k => acc + (raw.getD k 0).toNat * 256 ^ k) 0
     (LoadForm.scalar r (2 ^ z) false).writes raw = [.s n (BitVec.ofNat 64 v)] ∧
     (LoadForm.scalar r (2 ^ z) true).writes raw = [.s n (BitVec.ofInt 64 (if 2 * v < 256 ^ 2 ^ z then v else v - 256 ^ 2 ^ z))] ∧
     ∃ x : BitVec 2048, (LoadForm.line l).writes raw = [.v l x (BitVec.allOnes 2048)] ∧
       ∀ k, k < 256 → k < raw.length → x.toNat / 256 ^ k % 256 = (raw.getD k 0).toNat) ∧
  (∀ (ts : BitVec 32) (a : W64) (pitch : Option W64) (q : BitVec 2) (offs : BitVec 2048) (i j : Nat),
     let x := ts.toNat
     let sz := elemSize (part x 26 4)
     let vr := part x 12 7
     let vc := part x 19 7
     let off : Int := BitVec.toInt (BitVec.ofNat 32 (offs.toNat / 2 ^ (32 * i)))
     (i < vr → j < vc →
       (tileRuns ts a false pitch)[i]? =
         some ⟨BitVec.ofNat 64 (a.toNat + i * (pitch.getD (BitVec.ofNat 64 ((part x 6 6 + 1) * sz))).toNat), vc * sz⟩ ∧
       (tileRuns ts a true pitch)[i * vc + j]? =
         some ⟨BitVec.ofNat 64 (a.toNat + j * (pitch.getD (BitVec.ofNat 64 ((part x 0 6 + 1) * sz))).toNat + i * sz), sz⟩ ∧
       (gatherRuns ts a q offs)[i]? = some ⟨BitVec.ofInt 64 (a.toNat + off * 2 ^ (4 * q.toNat)), vc * sz⟩) ∧
     (vc = 0 → tileRuns ts a false pitch = [] ∧ tileRuns ts a true pitch = [] ∧ gatherRuns ts a q offs = []))

/-- 18 R427, R429: a mark hands every held store to its home in program order and takes a new checkpoint. -/
def Obligations.MarkCommitsStores : Prop :=
  ∀ (s : State) (id : CtxId),
    (∀ r, r ∈ (s.ctxOf id).held.flatMap HeldStore.runs → r.space = .dev) →
    let t := s.mark id
    t.mem = ((s.ctxOf id).held.flatMap HeldStore.runs).foldl (fun m r => memWrite m r.addr r.bytes) s.mem ∧
    (t.ctxOf id).held = [] ∧ (t.ctxOf id).ckpt.arch = (s.ctxOf id).arch ∧ (t.ctxOf id).arch = (s.ctxOf id).arch ∧
    (t.ctxOf id).readT = 0 ∧ (t.ctxOf id).readV = 0 ∧ (t.ctxOf id).readK = 0 ∧ (t.ctxOf id).confT = 0 ∧
    (t.ctxOf id).confV = 0 ∧ (t.ctxOf id).confK = 0 ∧ (t.ctxOf id).markDue = false

/-- 13 R308, R309: `kvld` delivers, for each valid row, the run of its token from the token's block, and zeros where
the sequence has no such token; with it the number of rows that hold a token. With the unit off the status is
KVOFF, with a misaligned list BADSEQ, and so where the header does not fit; a slot without a readable block
gives BADBLK. 13 R310, R311: `kvapp` and `kvfree` hand a request to the unit and hold their bundle, once every part of
the list that they touch is allowed; once the unit has a status for it, the bundle issues again and delivers the
status. 04 R108, R111: the steps of an append on its list, but for a block with more than one reference. 04 R112: the list
that a release does not take. `hd` is the sequence header. The model's choices: the cycle in which a `kvld` is due (log 5),
BADBLK for a block that cannot be read (log 88) and for a bad record of the free ring (log 106), BADSEQ for a part that
fails once the request is under way (log 89), a list of another package (log 30), poison of entries and records (log 96). -/
def Obligations.BlockTable : Prop :=
  (∀ (s : State) (g t : BitVec 4) (q : BitVec 2) (r : BitVec 4) (n : BitVec 6) (c : BitVec 3), Configured s [t] →
     let ts := s.cx.rTS t
     let vr := part ts.toNat 12 7
     let k0 := (s.rS n).toNat
     let run := part ts.toNat 19 7 * elemSize (part ts.toNat 26 4)
     let status (v : Int) : State := s.updCx fun x =>
       x.addPend ⟨s.cycle + 1, [], [], .given [x.wS n (BitVec.ofInt 64 v)], 0, false, [], true, false⟩
     (s.myDie.kvcfg.toNat % 2 = 0 → Runs s g (.kvld g t q r n c) (status (-1))) ∧
     (s.myDie.kvcfg.toNat % 2 = 1 → (s.rA r).toNat % 8 ≠ 0 → Runs s g (.kvld g t q r n c) (status (-2))) ∧
     (s.myDie.kvcfg.toNat % 2 = 1 → (s.rA r).toNat % 8 = 0 → ∀ x : KvReads s ts (s.rA r) k0,
       let failed (u : State) (ps : List Part) (v : Int) : State := u.updCx fun y => (y.countRequests s.cur.die ps).addPend
         ⟨u.cycle + 1, [], [], .given [y.wS n (BitVec.ofInt 64 v)], 0, false, [], true, false⟩
       (x.Header → x.cap = 0 ∨ (∃ j, j ∈ x.slots ∧ x.cap ≤ j) → Runs s g (.kvld g t q r n c) (failed x.b x.hp (-2))) ∧
       (x.Listed → (∃ k j, x.slots[k]? = some j ∧ x.d.readableBlock s.cur.die (x.index k) = none) →
         Runs s g (.kvld g t q r n c) (failed x.d (x.hp ++ x.sp) (-4))) ∧
       (x.Good → x.d.MemOk →
         let at_ (i : Nat) : Nat := x.block ((k0 + i) / 16) + q.toNat * 32768 + (k0 + i) % 16 * 2048 + c.toNat * 256
         let rows := (List.range vr).filter fun i => decide (k0 + i < x.ntok)
         (∀ i, i ∈ rows → x.d.poisoned (at_ i) run = false) →
         let parts : List Part := if run = 0 then [] else rows.map fun i => ⟨0, run, ⟨.dev, at_ i, 0, none⟩⟩
         Runs s g (.kvld g t q r n c) (x.d.updCx fun v => (v.countRequests s.cur.die (x.hp ++ x.sp ++ parts)).addPend
           ⟨x.d.cycle + loadLatency s.cur (parts ++ (x.hp ++ x.sp)), [], [],
             .kv [tileWrite t ts ((List.range vr).flatMap fun i =>
                 if k0 + i < x.ntok then (List.range run).map fun k => seen x.d s.cur (at_ i + k) else List.replicate run 0),
               v.wS n (BitVec.ofNat 64 (min vr (x.ntok - k0)))], 0, false, [], true, false⟩)))) ∧
  (∀ (s : State) (g t r : BitVec 4) (n : BitVec 6),
     let rq := s.cx.req s.cur .store true true
     let checked (append : Bool) (v : State) : Prop := ∃ u ps qs, s.checkFor s.cur rq [⟨s.rA r, 8⟩] = (u, .ok ps) ∧
       (∀ p, p ∈ ps → u.peerWaits p = false) ∧
       u.checkFor s.cur rq (listRuns append (s.rA r) (u.readList s.cur ps).2.bytes) = (v, .ok qs)
     let handed (v : State) (append : Bool) (data : BitVec 32768) (u : State) : Prop :=
       (∃ home order, (u.die s.cur.die).kvReqs = (v.die s.cur.die).kvReqs ++
         [⟨(v.die s.cur.die).kvNext, s.cur, v.cx.task, append, s.rA r, v.cx.asid, v.cx.arch.pkr, data, home, order,
           none, none, false, [], none, 0, false, none, false⟩] ∧
         ∀ d p, p ∈ (v.die d).kvReqs → p.order < order) ∧
       (u.ctxOf s.cur).status = .blocked .blockTable ∧
       ∃ w, (u.ctxOf s.cur).kvReq = some w ∧ w.num = (v.die s.cur.die).kvNext
     (s.cx.kvReq = none → s.myDie.kvcfg.toNat % 2 = 0 →
       (Configured s [t] → Runs s g (.kvapp g t r n) (s.putS n 1 (BitVec.ofInt 64 (-1)))) ∧
       Runs s g (.kvfree g r n) (s.putS n 1 (BitVec.ofInt 64 (-1)))) ∧
     (s.cx.kvReq = none → s.myDie.kvcfg.toNat % 2 = 1 → (s.rA r).toNat % 8 ≠ 0 →
       (Configured s [t] → Runs s g (.kvapp g t r n) (s.putS n 1 (BitVec.ofInt 64 (-2)))) ∧
       Runs s g (.kvfree g r n) (s.putS n 1 (BitVec.ofInt 64 (-2)))) ∧
     (s.cx.kvReq = none → s.myDie.kvcfg.toNat % 2 = 1 → (s.rA r).toNat % 8 = 0 → ∀ v,
       (Configured s [t] → checked true v → Reaches s g (.kvapp g t r n) (handed v true (s.cx.rT t))) ∧
       (checked false v → Reaches s g (.kvfree g r n) (handed v false 0))) ∧
     (∀ w x v, s.cx.kvReq = some w → s.myDie.kvReqs.find? (fun q => q.num == w.num && q.status.isSome) = some x →
       x.status = some v → x.poison = false →
       let u := (s.updDie x.id.die fun d => { d with kvReqs := d.kvReqs.filter fun q => q.num != x.num }).updCx
         fun c => { c with kvReq := none }
       (Configured s [t] → Runs s g (.kvapp g t r n) (u.putS n 1 v)) ∧ Runs s g (.kvfree g r n) (u.putS n 1 v))) ∧
  (∀ (s u : State) (q : KvReq) (hd : List Byte), s.unitRead q q.list 8 = (u, .got hd) →
     let d := q.id.die
     let ntok := leNat (hd.take 4)
     let cap := leNat ((hd.drop 4).take 2)
     let slot : W64 := BitVec.ofNat 64 (q.list.toNat + 8 + 4 * (ntok / 16))
     let may (v w : State) := u.unitMay q q.list 8 = (v, .got []) ∧ v.unitMay q slot 4 = (w, .got [])
     let written (v : State) (pa : Nat) : State :=
       ((v.devWrite (pa + 2048 * (ntok % 16)) (lowBytes 2048 q.data.toNat)).devWrite
         (pa + 32768 + 2048 * (ntok % 16)) (lowBytes 2048 (q.data.toNat / 2 ^ 16384))).unitWrite q q.list (lowBytes 4 (ntok + 1))
     let named (v : State) (b : Nat) : Prop := b ≠ 0xFFFFFF ∧ b < (v.die d).nblk
     (q.append = true → q.copying = none → q.placed = none →
       (cap = 0 → s.kvStep q = .done (-2) u) ∧
       (cap ≠ 0 → cap ≤ ntok / 16 → s.kvStep q = .done (-3) u) ∧
       (ntok / 16 < cap → ∀ v, u.unitMay q q.list 8 = (v, .fault) → s.kvStep q = .done (-2) v) ∧
       (ntok / 16 < cap → ∀ v w, u.unitMay q q.list 8 = (v, .got []) → v.unitMay q slot 4 = (w, .fault) →
         s.kvStep q = .done (-2) w) ∧
       (ntok / 16 < cap → ntok % 16 = 0 → ∀ v w, may v w →
         ((w.die d).kvfrHead = (w.die d).kvfrTail →
           ∃ x, s.kvStep q = .wait x ∧ (x.die d).kvEmpty = true ∧ x.mem = w.mem) ∧
         (∀ b, w.nextFree d = some b → w.badUnits (w.die d).freeRecord 4 = [] → w.kvBad d b = [] →
           (¬named w b ∨ (w.kvEntry d b).state = 3 → s.kvStep q = .done (-4) w) ∧
           (∀ pa, named w b → (w.kvEntry d b).state ≠ 3 → w.blockAddr d (w.kvEntry d b) = some pa →
             s.kvStep q = .done ntok (written ((w.takeFree d b).unitWrite q slot (lowBytes 4 b)) pa)))) ∧
       (ntok / 16 < cap → ntok % 16 ≠ 0 → ∀ v w x bs, may v w → w.unitRead q slot 4 = (x, .got bs) →
         let b := leNat bs % 2 ^ 24
         let e := x.kvEntry d b
         let valid := named x b ∧ e.v = true ∧ e.refs ≠ 0 ∧ e.state ≠ 3
         x.kvBad d b = [] →
         (¬valid → s.kvStep q = .done (-4) x) ∧
         (valid → e.state ≠ 0 → s.kvStep q = .wait x) ∧
         (valid → e.state = 0 → e.refs = 1 → ∀ pa, x.blockAddr d e = some pa →
           s.kvStep q = .done ntok (written x pa)))) ∧
     (q.append = false → q.begun = false →
       (cap = 0 ∨ cap < (ntok + 15) / 16 → s.kvStep q = .done (-2) u) ∧
       (cap ≠ 0 → (ntok + 15) / 16 ≤ cap → ∀ v, u.unitMay q q.list 8 = (v, .fault) → s.kvStep q = .done (-2) v)))

/-- 13 R313, R315: a returning atomic performs its update at the home of its address and leaves the old value
pending in its destination. 13 R316, R317: a reduction performs its update and returns nothing; one that names a
barrier checks both addresses first and arrives at the barrier after the update, of data in another package's memory
once that package has acknowledged it (06 R156). 07 R170, 13 R312, R314: an
update at the home. It reads the old value, writes the new one whole and answers the old one; a compare that
differs writes nothing; a poisoned unit stays as it is (02 R56). The reserved values of OP act as 0 before an operation runs
(10 R249, log 19), and nothing is said of them here. The order of the operands of `cas` in a flit (log 31) and the cycle in
which an answer is due (log 5) are the model's. -/
def Obligations.AtomicResults : Prop :=
  (∀ (s : State) (g : BitVec 4) (d : BitVec 6) (r : BitVec 4) (f : BitVec 2) (b : BitVec 5) (z : BitVec 1) (o : BitVec 3)
     (p : Part) (u v : State) (y : Reply),
     let n := wide z
     let x := (s.rS (BitVec.ofNat 6 b.toNat)).toNat % 2 ^ (8 * n)
     (Modifies s .rmw true r n (decide (o.toNat ≤ 1)) false p u →
       u.updatePart s.cur .rmw p (amoUpdate n o.toNat x) (flitOp 2 0 o.toNat z) (lowBytes n x) true = (v, y) →
       Runs s g (.amo g d r f b z o) (answered s v p d n y)) ∧
     (Modifies s .rmw true r n true false p u →
       let cmp := (s.rS d).toNat % 2 ^ (8 * n)
       u.updatePart s.cur .rmw p (casUpdate cmp x) (flitOp 2 1 0 z) (lowBytes n x ++ lowBytes n cmp) true = (v, y) →
       Runs s g (.cas g d r f b z) (answered s v p d n y)) ∧
     (o.toNat ≤ 2 → Modifies s .rmw true r 4 false false p u →
       let w := (s.rS (BitVec.ofNat 6 b.toNat)).toNat % 2 ^ 32
       u.updatePart s.cur .rmw p (famoUpdate o.toNat w) (flitOp 2 2 o.toNat 0) (lowBytes 4 w) true = (v, y) →
       Runs s g (.famo g d r f b o) (answered s v p d 4 y))) ∧
  (∀ (s : State) (g r q : BitVec 4) (f : BitVec 1) (b : BitVec 6) (z : BitVec 1) (o : BitVec 3) (p e : Part) (u v w : State),
     let n := wide z
     let x := (s.rS b).toNat % 2 ^ (8 * n)
     let y := (s.rS b).toNat % 2 ^ 32
     let req (n : Nat) (add : Bool) : Req := { s.cx.req s.cur .reduction false true with atom := some (n, false), add := add }
     let breq : Req := { s.cx.req s.cur .store false true with barrier := true }
     let both (n : Nat) (add : Bool) : Prop :=
       s.checkFor s.cur (req n add) [⟨s.rA r, n⟩] = (v, .ok [p]) ∧ v.checkFor s.cur breq [⟨s.rA q, 64⟩] = (w, .ok [e]) ∧
       u = (((w.setDirtyLeaves (req n add) [p]).setDirtyLeaves breq [e]).updCx fun c =>
         c.countRequests s.cur.die [p, e]).flushHeld s.cur
     let away (x : State) : Prop := ∃ m, p.loc.space = .peer m ∧ x.joist.mvalid = true ∧ m ≠ x.joist.member
     let refused (x : State) : Prop := ∃ m, p.loc.space = .peer m ∧
       (x.joist.mvalid = false ∨ m = x.joist.member ∧ peerRefuses p.loc.addr = true)
     let arrives (i : Instr) (x : State) : Prop :=
       (refused x → Runs s g i x) ∧
       (¬refused x → ¬away x → Runs s g i (x.arrival e.loc.addr s.cur.die s.cur.core).1) ∧
       (away x → ∀ rs k, x.joist.peerReqs = rs ++ [k] →
         Runs s g i { x with joist := { x.joist with peerReqs := rs ++ [{ k with arrive := some e.loc.addr }] } })
     (o ≠ 1 → Modifies s .reduction false r n (decide (o = 0)) (decide (o = 0)) p u → Runs s g (.red g r f b z o)
       (u.updatePart s.cur .reduction p (amoUpdate n o.toNat x) (flitOp 3 0 o.toNat z) (lowBytes n x) false).1) ∧
     (o.toNat ≤ 2 → Modifies s .reduction false r 4 false false p u → Runs s g (.fred g r f b o)
       (u.updatePart s.cur .reduction p (famoUpdate o.toNat y) (flitOp 3 1 o.toNat 0) (lowBytes 4 y) false).1) ∧
     (o ≠ 1 → both n (decide (o = 0)) → arrives (.redb g r f b z o q)
       (u.updatePart s.cur .reduction p (amoUpdate n o.toNat x) (flitOp 3 2 o.toNat z) (lowBytes n x) false).1) ∧
     (o.toNat ≤ 2 → both 4 false → arrives (.fredb g r f b o q)
       (u.updatePart s.cur .reduction p (famoUpdate o.toNat y) (flitOp 3 3 o.toNat 0) (lowBytes 4 y) false).1)) ∧
  (∀ (s : State) (id : CtxId) (acc : AccKind) (p : Part) (op x cmp code : Nat) (data : List Byte) (ret : Bool),
     p.loc.space = .dev → p.n = 4 ∨ p.n = 8 → x < 2 ^ (8 * p.n) → op < 8 → s.MemOk →
     let old := (List.range p.n).foldl (fun v k => v + (memByte s.mem (p.loc.addr + k)).toNat * 256 ^ k) 0
     (s.poisoned p.loc.addr p.n = false →
       (∃ v, NewValue (8 * p.n) op old x v ∧
         s.updatePart id acc p (amoUpdate p.n op x) code data ret =
           (s.devWrite p.loc.addr (lowBytes p.n v), ⟨old, 0, false, []⟩)) ∧
       s.updatePart id acc p (casUpdate cmp x) code data ret =
         (if old = cmp then s.devWrite p.loc.addr (lowBytes p.n x) else s, ⟨old, 0, false, []⟩) ∧
       (p.n = 4 → op ≤ 2 → s.updatePart id acc p (famoUpdate op x) code data ret =
         (s.devWrite p.loc.addr (lowBytes 4 (fnew op old x).1), ⟨old, (fnew op old x).2, false, []⟩))) ∧
     (s.poisoned p.loc.addr p.n = true → ∀ f : Update,
       let t := s.updatePart id acc p f code data ret
       t.1.poison = s.poison ∧ t.1.mem = s.mem ∧ t.2 = ⟨0, 0, true, []⟩))

/-- 13 R318-R320, 18 R428: a fence hands the held stores over; inside a region a mark is then due at the next
boundary. After a SYS fence a bundle with an M, X or C operation whose guard is true waits while a peer has a piece of
the context to perform or to answer. 13 R323: `pub` on a page that is no publishable buffer delivers PUBINV (1); on
one, with the rights to write it, the context's stores go home, and the descriptor takes the step of R164 there once no
engine operation of the context has the buffer latched and every earlier piece is performed; a poisoned descriptor stays
as it is (02 R56). 07 R164: a publish at its home flips SEL, advances
GEN and counts on a valid descriptor that its publisher owns (a context's kind 0 and an engine's kind 3 one that
nobody owns, kind 1 the boarding unit's, kind 2 the block-table unit's); it is refused with PUBOWN (2) where
another owns it, with PUBINV (1) outside the table, and with PBRACE (3) where the generation an engine latched
has passed. The hardware event performs this same step. The cycle in which the status is due (log 5), a poisoned descriptor
met by an engine's publish (log 93) and what waits behind a publish (log 104) are the model's. -/
def Obligations.FencePublish : Prop :=
  (∀ (s : State) (g : BitVec 4) (k : BitVec 3) (n : BitVec 1),
     (k ≠ 4 → s.cx.held = [] → Runs s g (.fence g k n) s) ∧
     (k ≠ 4 → s.cx.held ≠ [] → Runs s g (.fence g k n)
       { (s.flushHeld s.cur).updCtx s.cur fun c => { c with markDue := true } with early := true }) ∧
     (k = 4 → Runs s g (.fence g k n) ((s.flushHeld s.cur).updCx fun c =>
       { c with fencing := decide (0 < ((s.flushHeld s.cur).joist.peerReqs.filter fun r => r.of s.cur).length) }))) ∧
  (∀ (s : State) (ops : List Op), s.cx.fencing = true → (∃ r, r ∈ s.joist.peerReqs ∧ r.of s.cur = true) →
     (∃ o, o ∈ ops ∧ s.rP o.instr.guard = true ∧ (o.slot = .m ∨ o.slot = .x ∨ o.slot = .c)) →
     s.holdUp ops = some (s.setNext s.cur.die s.cur.core (s.cycle + 1))) ∧
  (∀ (s u : State) (g r : BitVec 4) (d : BitVec 6) (leaf : W64) (big : Bool) (e : Option Nat),
     let reply (s : State) (st : Nat) (bad : Bool) (ws : List Await) (l : Nat) : State := s.updCx fun c =>
       c.addPend ⟨s.cycle + l, ws, lowBytes 8 st, if d = 0 then .given [] else .scalar (c.nameS d) 8 false, 0, bad, [], true, false⟩
     s.findLeaf (s.cx.req s.cur .store false false) (s.rA r) = (u, .ok (leaf, big, e)) →
     (part leaf.toNat 58 1 = 0 → Runs s g (.pub g d r) (reply u 1 false [] 1)) ∧
     (part leaf.toNat 58 1 = 1 → part leaf.toNat 3 1 = 0 → part leaf.toNat 1 1 = 1 →
       part s.cx.arch.pkr.toNat (2 * part leaf.toNat 52 5 + 1) 1 = 0 →
       let hd : Fin 8 := Fin.ofNat 8 (part leaf.toNat 16 3)
       let idx := part leaf.toNat 19 12
       let home : Loc := ⟨.dev, (u.die hd).pbAddr idx, 0, none⟩
       let v := (u.flushHeld s.cur).updCx fun c =>
         if s.cur.die = hd then { c with mrql := c.mrql + 1 } else { c with mrqr := c.mrqr + 1 }
       let ready := (∀ o, o ∈ v.opsOf s.cur → ∀ l, l ∈ o.latches → ¬(l.die = hd ∧ l.idx.toNat = idx)) ∧
         ∀ q, q ∈ v.joist.peerReqs → q.of s.cur = false
       let w := v.publish hd idx s.cur.die s.cur.core
       (ready → Runs s g (.pub g d r) (reply w.1 w.2.1 w.2.2 [] (placeLatency s.cur home))) ∧
       (¬ready → Runs s g (.pub g d r)
         (reply v 0 false (⟨BitVec.ofNat 16 (idx + hd.val * 4096), 0x1FF, 0, 8⟩ ::
           (v.joist.peerReqs.filter fun q => q.of s.cur).map fun q => ⟨q.seq, q.member, 0, 0⟩) (placeLatency s.cur home))))) ∧
  (∀ (s : State) (hd : Fin 8) (idx kind core : Nat) (latched : BitVec 32) (die : Fin 8),
     let x := s.die hd
     let t := s.publish hd idx die core
     let b := s.pubStep hd idx kind latched die core
     let bad := x.pbcfg.toNat % 2 = 1 ∧ idx < min 4096 (part x.pbcfg.toNat 4 13) ∧ s.poisoned (x.pbAddr idx) 64 = true
     (bad → b.2 = 4 ∧ b.1.mem = s.mem ∧ b.1.poison = s.poison ∧ t.2 = (0, true) ∧ t.1.mem = s.mem ∧ t.1.poison = s.poison) ∧
     (¬bad → kind = 0 → latched = 0 → t = (b.1, b.2, false))) ∧
  (∀ (s : State) (hd : Fin 8) (idx : BitVec 12) (kind : Fin 4) (latched : BitVec 32), s.MemOk →
     let x := s.die hd
     let b := s.pbDesc hd idx.toNat
     let t := s.pubStep hd idx.toNat kind.val latched hd 0
     let b' := t.1.pbDesc hd idx.toNat
     let inside := x.pbcfg.toNat % 2 = 1 ∧ idx.toNat < min 4096 (part x.pbcfg.toNat 4 13) ∧ b % 2 = 1
     let owned := part b 2 2 = (if kind = 1 then 1 else if kind = 2 then 2 else 0)
     let raced := kind = 3 ∧ part b 32 32 ≠ latched.toNat
     Gives s (.pubPerform hd idx kind latched) t.1 ∧
     (s.poisoned (x.pbAddr idx.toNat) 64 = false →
     (¬inside → t = (s, 1)) ∧ (inside → ¬owned → t = (s, 2)) ∧ (inside → owned → raced → t = (s, 3)) ∧
     (inside → owned → ¬raced → t.2 = 0 ∧ (t.1.die hd).pubcnt = x.pubcnt + 1 ∧ part b' 1 1 = 1 - part b 1 1 ∧
       part b' 32 32 = (part b 32 32 + 1) % 2 ^ 32 ∧ b' % 2 = 1 ∧ part b' 2 30 = part b 2 30 ∧ b' / 2 ^ 64 = b / 2 ^ 64)))

/-- 13 R320, R321: `barinit` and `arrive` act at the home of their object; with D ≠ 0 `arrive` leaves its reply
pending. 07 R174: the steps of a barrier object, whose units hold no poison. The object counts an arrival; the
one that completes the phase flips PHASE, advances GEN and clears ARRIVED; an arrival at an object without INIT
or with EXPECT = 0 sets BERR. 13 R322, 07 R175, R176: a wait whose phase has passed ends at once with status 0,
at an object without INIT with 3; a `btwait` past its limit ends with 1; else the bundle blocks with its wait
recorded. At a poisoned object the status is poisoned (02 R56). A wait that has been answered delivers its status.
06 R157: a wait that finds its phase ended by a flip at GTIME C ends with 0 if C is within its limit, else with 1.
Held stores go home first where the object is strong, or in other storage than the package's (06 R151, 18 R428). The cycle
in which the reply of `arrive` is due is the model's choice (log 5). -/
def Obligations.BarrierWaits : Prop :=
  (∀ (s : State) (g r : BitVec 4) (b d : BitVec 6) (p : Part) (u v : State) (bits : Nat) (bad : Bool),
     (AtBarrier s .store false true r p u → Runs s g (.barinit g r b)
       ((u.flushHeld s.cur).barrierInit p.loc.addr ((s.rS b).toNat % 2 ^ 32) s.cur.die s.cur.core)) ∧
     (AtBarrier s .store false true r p u →
       (u.flushHeld s.cur).arrival p.loc.addr s.cur.die s.cur.core = (v, bits, bad) →
       (d = 0 → Runs s g (.arrive g d r) v) ∧
       (d ≠ 0 → Runs s g (.arrive g d r) (v.updCx fun c =>
         c.addPend ⟨v.cycle + placeLatency s.cur p.loc, [], [], .given [c.wS d (BitVec.ofNat 64 bits)], 0, bad, [], true,
           false⟩)))) ∧
  (∀ (s : State) (pa expect core : Nat) (die : Fin 8),
     s.MemOk → s.poisoned pa 64 = false → expect < 2 ^ 32 →
     let b := s.barrier pa
     (s.barrierInit pa expect die core).barrier pa =
       { b with expect := expect, arrived := 0, init := true, berr := false, lwait := 0, dwait := 0 } ∧
     let x := s.arrival pa die core
     (b.init = false ∨ b.expect = 0 → x.1.barrier pa = { b with berr := true } ∧ x.2.1 = (if b.phase then 5 else 4)) ∧
     (b.init = true → b.expect = (b.arrived + 1) % 2 ^ 32 → b.expect ≠ 0 →
       x.1.barrier pa = { b with arrived := 0, phase := !b.phase, gen := b.gen + 1, lwait := 0, dwait := 0 } ∧
       x.2.1 = (if b.phase then 3 else 2)) ∧
     (b.init = true → b.expect ≠ (b.arrived + 1) % 2 ^ 32 → b.expect ≠ 0 →
       x.1.barrier pa = { b with arrived := (b.arrived + 1) % 2 ^ 32 } ∧ x.2.1 = (if b.phase then 1 else 0))) ∧
  (∀ (s u : State) (g r : BitVec 4) (d b : BitVec 6) (p : Part) (i : Instr) (limit : Option W64),
     (i = .bwait g d r ∧ limit = none) ∨ (i = .btwait g d r b ∧ limit = some (s.rS b)) →
     (∀ w code, s.cx.wait = some w → w.result = some code → w.bad = false →
       Runs s g i ((s.updCx fun c => { c with wait := none }).putS d 1 (BitVec.ofNat 64 code.toNat))) ∧
     (s.cx.wait = none → AtBarrier s .load true false r p u →
       let near := ∃ x, x ∈ (u.ctxOf s.cur).held.flatMap HeldStore.runs ∧
         x.space = .dev ∧ x.addr < p.loc.addr + 64 ∧ p.loc.addr < x.addr + x.bytes.length
       ∀ v, v = (if (p.loc.space ≠ .dev ∨ lfOrd p.loc.leaf = 0 ∨ near) ∧ (u.ctxOf s.cur).held ≠ [] then
           { (u.flushHeld s.cur).updCtx s.cur fun c => { c with markDue := true } with early := true }
         else u) →
       let o := v.barrier p.loc.addr
       let phase := decide ((v.rS d).toNat % 2 = 1)
       let late := ∃ l, limit = some l ∧ l.toNat < v.gtime
       let ended (code : W64) : State := (v.updCx fun c => { c with wait := none }).putS d 1 code
       (v.poisoned p.loc.addr 64 = false →
         (o.init = false → Runs s g i (ended 3)) ∧
         (o.init = true → late → Runs s g i (ended 1)) ∧
         (o.init = true → ¬late → o.phase ≠ phase → Runs s g i (ended 0)) ∧
         (o.init = true → ¬late → o.phase = phase → Reaches s g i (fun t =>
           (t.ctxOf s.cur).status = .blocked .barrier ∧ ∃ reg, (t.ctxOf s.cur).wait =
             some ⟨some p.loc.addr, phase, o.gen, limit, reg, none, false, (statusReg v d).1, (statusReg v d).2⟩))) ∧
       (v.poisoned p.loc.addr 64 = true → Reaches s g i (fun t => t.cx.wait = none ∧ t.mem = v.mem ∧
         ∃ k, t.cx.pend = k ++ [⟨v.cycle + 1, [], [], .given [v.cx.wS d 0], 0, true, [], true, false⟩]))) ∧
     (∀ w, s.cx.wait = some w → w.result = none → w.bar ≠ none →
       Reaches s g i (fun t => (t.ctxOf s.cur).status = .blocked .barrier ∧ t.cx.wait = some w))) ∧
  (∀ (b : Barrier) (phase : Bool) (g0 : BitVec 32) (l : W64) (now c : Nat), b.init = true → b.gen ≠ g0 →
     waitStatus b phase g0 (some l) now (some c) = some (if l.toNat < c then 1 else 0) ∧
     waitStatus b phase g0 none now (some c) = some 0)

/-! ### Vector slots -/

/-- 14 R331: the arithmetic of group 0. An absent source reads as the identity of its operation (R327); what is
delivered is one rounding of the exact result. 14 R331, R334: the forms with three sources, and `tscale`. An
absent factor removes the product; the addend passes. -/
def Obligations.TileArithmetic : Prop :=
  (∀ (s : State) (g d a b c : BitVec 4) (r : BitVec 3) (z m : BitVec 1),
     let on := On s m (low3 c)
     let va (v : Val) := fun i j => (s.cx.tile a).val i j v
     let vb (v : Val) := fun i j => (s.cx.tile b).val i j v
     let out (f : Nat → Nat → Res) := fun i j => enc s d r z (f i j)
     let rm := rmode s d r z
     Computes s g (.tadd g d a b c r z m) d on (out fun i j => vadd rm (va .zero i j) (vb .zero i j)) ∧
     Computes s g (.tsub g d a b c r z m) d on (out fun i j => vadd rm (va .zero i j) (vb .zero i j).neg) ∧
     Computes s g (.tmul g d a b c r z m) d on (out fun i j => vmul (va .one i j) (vb .one i j)) ∧
     Computes s g (.tmin g d a b c r z m) d on (out fun i j => (vmin (va (.inf false) i j) (vb (.inf false) i j), false)) ∧
     Computes s g (.tmax g d a b c r z m) d on (out fun i j => (vmax (va (.inf true) i j) (vb (.inf true) i j), false)) ∧
     Computes s g (.tabs g d a c r z m) d on (out fun i j => ((va .zero i j).abs, false)) ∧
     Computes s g (.tneg g d a c r z m) d on (out fun i j => ((va .zero i j).neg, false)) ∧
     Computes s g (.tcvt g d a c r z m) d on (out fun i j => (va .zero i j, false)) ∧
     Computes s g (.tbcast g d a c r z m) d on (out fun _ _ => (va .zero 0 0, false))) ∧
  (∀ (s : State) (g d a b c : BitVec 4) (r : BitVec 3) (z m : BitVec 1),
     let every := fun _ _ : Nat => True
     let va (v : Val) := fun i j => (s.cx.tile a).val i j v
     let vb (v : Val) := fun i j => (s.cx.tile b).val i j v
     let vc (v : Val) := fun i j => (s.cx.tile c).val i j v
     let rm := rmode s d r z
     let fused (x y z : Val) : Res := if x.isNaN || y.isNaN || z.isNaN then (.nan, false)
       else ((vadd rm (vmul x y).1 z).1, (vmul x y).2 || (vadd rm (vmul x y).1 z).2)
     let sum (sign : Val → Val) := fun i j =>
       if (s.cx.tile a).present i j && (s.cx.tile b).present i j then fused (va .zero i j) (vb .zero i j) (sign (vc .zero i j))
       else (sign (vc .zero i j), false)
     let scaled (x y : Val) : Res := match y, x with
       | .nan, _ => (.nan, false)
       | _, .fin neg n q =>
         let e : Int := match y with
           | .inf neg => if neg then -1024 else 1024
           | .fin neg n q => max (-1024) (min 1024 (if neg then -((n / q : Nat) : Int) else (n / q : Nat)))
           | .nan => 0
         (if 0 ≤ e then .fin neg (n * 2 ^ e.toNat) q else .fin neg n (q * 2 ^ (-e).toNat), false)
       | _, v => (v, false)
     Computes s g (.tfma g d a b c r z) d every (fun i j => enc s d r z (sum (fun v => v) i j)) ∧
     Computes s g (.tfms g d a b c r z) d every (fun i j => enc s d r z (sum Val.neg i j)) ∧
     Computes s g (.tclamp g d a b c r z) d every (fun i j =>
       enc s d r z (vmin (vmax (va .zero i j) (vb (.inf true) i j)) (vc (.inf false) i j), false)) ∧
     Computes s g (.tscale g d a b c r z m) d (On s m (low3 c)) (fun i j =>
       enc s d r z (scaled (va .zero i j) (vb .zero i j))))

/-- 14 R333, R336: the raw moves of groups 0 and 2. An absent element reads as 0. 14 R335: the integer and bit
operations of group 1. -/
def Obligations.TileMoves : Prop :=
  (∀ (s : State) (g d a b c : BitVec 4) (n i : BitVec 6) (v : BitVec 5) (m : BitVec 1),
     let every := fun _ _ : Nat => True
     let raw (t : BitVec 4) := fun i j => if (s.cx.tile t).present i j then (s.cx.tile t).rawIn i j else 0
     let td := s.cx.tile d
     let w := 8 * td.size
     let line := fun k => (s.cx.rV v).toNat / 2 ^ (w * k)
     let at_ := (s.rS n).toNat + i.toNat
     Moves s g (.tcpy g d a c m) d (On s m (low3 c)) (raw a) ∧
     Moves s g (.tsel g d a b c) d every (fun i j => if (s.cx.rK (low3 c)).getLsbD (64 * i + j) then raw a i j else raw b i j) ∧
     Moves s g (.trput g d v n i) d (fun i _ => i = at_) (fun _ j => line j) ∧
     Moves s g (.tcput g d v n i) d (fun _ j => j = at_) (fun i _ => line i) ∧
     Moves s g (.ttr g d a) d every (fun i j => raw a j i) ∧
     Moves s g (.tbrow g d v) d every (fun _ j => line j) ∧
     Moves s g (.tbcol g d v) d every (fun i _ => line i) ∧
     Moves s g (.tzero g d n) d every (fun _ _ => (s.rS n).toNat) ∧
     WritesLine s g (.trget g d v n i) v w td.cols (fun j => raw d at_ j) ∧
     WritesLine s g (.tcget g d v n i) v w td.rows (fun j => raw d j at_)) ∧
  (∀ (s : State) (g d a b : BitVec 4) (z u m : BitVec 1) (k : BitVec 3),
     let on := On s m k
     let w := 8 * (s.cx.tile d).size
     let int (t : BitVec 4) (absent : Int) := fun i j =>
       let x := s.cx.tile t
       if x.present i j then (if u = 1 then (x.rawIn i j : Int) else signedOf (8 * x.size) (x.rawIn i j)) else absent
     let bits (f : W64 → W64 → W64) (id : Int) := fun i j =>
       ((f (BitVec.ofInt 64 (int a 0 i j)) (BitVec.ofInt 64 (int b id i j))).toNat % 2 ^ w, (0 : Flags))
     let shift (n : Int) : Prop := 0 ≤ n ∧ n < w
     Computes s g (.tiadd g d a b z u k m) d on (fun i j => intCode w z u (int a 0 i j + int b 0 i j)) ∧
     Computes s g (.tisub g d a b z u k m) d on (fun i j => intCode w z u (int a 0 i j - int b 0 i j)) ∧
     Computes s g (.timul g d a b z u k m) d on (fun i j => intCode w z u (int a 0 i j * int b 1 i j)) ∧
     Computes s g (.tand g d a b u k m) d on (bits (· &&& ·) (-1)) ∧
     Computes s g (.tor g d a b u k m) d on (bits (· ||| ·) 0) ∧
     Computes s g (.txor g d a b u k m) d on (bits (· ^^^ ·) 0) ∧
     (∀ res : Nat → Nat → Nat × Flags,
       (∀ i j, (shift (int b 0 i j) → res i j = intCode w 0 u (int a 0 i j * 2 ^ (int b 0 i j).toNat)) ∧
         (¬shift (int b 0 i j) → res i j = (0, 0))) → Computes s g (.tshl g d a b u k m) d on res) ∧
     (∀ res : Nat → Nat → Nat × Flags,
       (∀ i j, (shift (int b 0 i j) → res i j = intCode w 0 u (int a 0 i j / 2 ^ (int b 0 i j).toNat)) ∧
         (¬shift (int b 0 i j) → res i j = intCode w 0 u (if int a 0 i j < 0 then -1 else 0))) →
       Computes s g (.tshr g d a b u k m) d on res))

/-- 14 R332, R350: masks. `tcmp` writes the bits of the selected present elements of its first source, which lies
within 64 rows and columns (08 R191), the reserved condition 7 acting as 0 (10 R249, log 19); the logic writes whole masks. 08 R189, 14 R325, R327: the elements that an
operation delivers lie in a tile at (i · COLS + j) · size, and the bits of every other element stay as they are. -/
def Obligations.TileMasks : Prop :=
  (∀ (s : State) (g a b c : BitVec 4) (d x y cc : BitVec 3) (n : BitVec 6) (m : BitVec 1),
     let ta := s.cx.tile a
     let whole (f : Bool → Bool → Bool) (i : Instr) : Prop := Reaches s g i (fun t => ∃ v : BitVec 4096,
       t = s.deliver 4 (.k d v (BitVec.allOnes 4096)) 0 ∧ ∀ k, k < 4096 → v.getLsbD k = f ((s.cx.rK x).getLsbD k) ((s.cx.rK y).getLsbD k))
     (Configured s [a, b] → ta.vr ≤ 64 → ta.vc ≤ 64 →
       Reaches s g (.tcmp g d a b c cc m) (fun t => ∃ v mask : BitVec 4096,
         t = s.deliver (s.vecLat (.tcmp g d a b c cc m)) (.k d v mask) 0 ∧
         ∀ i j, i < 64 → j < 64 →
           (mask.getLsbD (64 * i + j) = true ↔ ta.present i j = true ∧ On s m (low3 c) i j) ∧
           (v.getLsbD (64 * i + j) = true ↔ ta.present i j = true ∧ On s m (low3 c) i j ∧
             Holds cc (ta.val i j .zero) ((s.cx.tile b).val i j .zero)))) ∧
     whole (fun p q => p && q) (.kand g d x y) ∧
     whole (fun p q => p || q) (.kor g d x y) ∧
     whole (fun p q => p ^^ q) (.kxor g d x y) ∧
     whole (fun p _ => !p) (.knot g d x) ∧
     Runs s g (.kcnt g x n) (s.putS n 4 (BitVec.ofNat 64 ((List.range 4096).countP fun k => (s.cx.rK x).getLsbD k)))) ∧
  (∀ (t : Tile) (n : BitVec 4) (x : Cells), t.rows * t.cols * t.size ≤ 4096 →
     (∀ i j v, (i, j, v) ∈ x.cells → i < t.rows ∧ j < t.cols ∧ v < 2 ^ (8 * t.size)) →
     (x.cells.map fun c => (c.1, c.2.1)).Nodup →
     ∃ data mask : BitVec 32768, t.write n x = .t n data mask ∧ ∀ i j, i < t.rows → j < t.cols →
       let field (y : BitVec 32768) := y.toNat / 2 ^ (8 * ((i * t.cols + j) * t.size)) % 2 ^ (8 * t.size)
       (∀ v, (i, j, v) ∈ x.cells → field data = v ∧ field mask = 2 ^ (8 * t.size) - 1) ∧
       ((∀ v, (i, j, v) ∉ x.cells) → field data = 0 ∧ field mask = 0))

/-- 14 R337-R340: reductions by the fixed tree. With kind 7 the result is the index of the greatest value. 14 R339:
`tscan` delivers the prefixes along each row, combined one element after the other; the flags are those of every
step of a row and of the deliveries. The reserved kind 7 acts as 0. -/
def Obligations.TileReductions : Prop :=
  (∀ (s : State) (g d a : BitVec 4) (k : BitVec 3) (o : BitVec 4) (r : BitVec 3) (z m : BitVec 1),
     let ta := s.cx.tile a
     let td := s.cx.tile d
     let mode := s.cx.modeOf td r z
     let kind := kindOf o
     let leaf := fun i j => ta.leaf kind (s.cx.maskOf m k) i j
     let code (x : Step) := td.foldCode kind mode (decide (z = 1)) x
     let row (i : Nat) : Step := if i < ta.vr then tree64 kind false mode.rm (leaf i) else (foldIdentity kind, 0)
     let in_ (i j : Nat) : Prop := ta.present i j = true ∧ On s m k i j
     let val := fun i j => ta.val i j Val.zero
     (kind ≠ 7 →
       Computes s g (.tredr g d a k o r z m) d (fun _ j => j = 0) (fun i _ => code (tree64 kind true mode.rm (leaf i))) ∧
       Computes s g (.tredc g d a k o r z m) d (fun i _ => i = 0)
         (fun _ j => code (tree64 kind true mode.rm fun i => leaf i j)) ∧
       Computes s g (.tred g d a k o r z m) d (fun i j => i = 0 ∧ j = 0) (fun _ _ => code (tree64 kind true mode.rm row))) ∧
     (kind = 7 → ta.vr ≤ 64 → ta.vc ≤ 64 → ∀ best : Nat → Nat → Int,
       ((∀ i, Best (val i) (in_ i) 64 (best i 0)) →
         Computes s g (.tredr g d a k o r z m) d (fun _ j => j = 0) (fun i j => code (Val.ofInt (best i j), 0))) ∧
       ((∀ j, Best (fun i => val i j) (fun i => in_ i j) 64 (best 0 j)) →
         Computes s g (.tredc g d a k o r z m) d (fun i _ => i = 0) (fun i j => code (Val.ofInt (best i j), 0))) ∧
       (Best (fun n => val (n / 64) (n % 64)) (fun n => in_ (n / 64) (n % 64)) 4096 (best 0 0) →
         Computes s g (.tred g d a k o r z m) d (fun i j => i = 0 ∧ j = 0) (fun i j => code (Val.ofInt (best i j), 0))))) ∧
  (∀ (s : State) (g d a : BitVec 4) (k : BitVec 3) (o : BitVec 4) (r : BitVec 3) (z m : BitVec 1),
     let ta := s.cx.tile a
     let td := s.cx.tile d
     let kind := if kindOf o = 7 then 0 else kindOf o
     let sum (i j : Nat) : Step := (List.range (j + 1)).foldl
       (fun acc n => combine kind false .rne acc (ta.leaf kind (s.cx.maskOf m k) i n)) (foldIdentity kind, 0)
     let res (i j : Nat) := td.foldCode kind (s.cx.modeOf td r z) (decide (z = 1)) (sum i j)
     td.vc ≤ 64 → Delivers s g (.tscan g d a k o r z m) d (fun _ _ => True) (fun i j => (res i j).1)
       fun f => ∃ i, i < td.vr ∧ 0 < td.vc ∧
         ((∃ j, j < 64 ∧ (sum i j).2.getLsbD f = true) ∨ ∃ j, j < td.vc ∧ (res i j).2.getLsbD f = true))

/-- 14 R341-R345: dot products, dense and compressed, at columns 0 to 3, and the compression itself. A compressed
operand whose masks do not agree with its shape delivers the default NaN with NV; where its shape is refused, NV is set
whatever the destination holds (R343). A term that is a NaN sets NV (log 48); the reserved N = 3 of `tsprs` acts as 0 (10 R249, log 19). -/
def Obligations.DotProducts : Prop :=
  ∀ (s : State) (g d a b c : BitVec 4) (r : BitVec 3) (z x : BitVec 1) (n : BitVec 2),
    let ta := s.cx.tile a
    let tb := s.cx.tile b
    let tc := s.cx.tile c
    let td := s.cx.tile d
    let mode := s.cx.modeOf td r z
    let exact := ta.fmt.isInt && tb.fmt.isInt && (decide (x = 0) || td.fmt.isInt)
    let start := fun i j => if x = 1 then some (td.val i j .zero) else none
    let dense := fun i j => ((List.range 64).filter fun k => ta.present i k && tb.present k j).map fun k =>
      (k, ta.val i k .zero, tb.val k j .zero)
    let groups := tc.vr
    let per := tb.vr / groups
    let shaped := (groups = 1 ∨ groups = 2) ∧ tb.vr = per * groups ∧ (per = 4 ∨ per = 8 ∨ per = 16)
    let agrees (j : Nat) := shaped ∧ ∀ q, q < groups → (List.range 32).countP (fun k => (tc.maskWord q j).testBit k) = per
    Computes s g (.tdot g d a b r z x) d (fun _ j => j ≤ 3)
      (fun i j => td.dotCode mode (dotValue exact (start i j) (dense i j))) ∧
    (∀ res : Nat → Nat → Nat × Flags,
      (∀ i j, (agrees j → res i j = td.dotCode mode (dotValue exact (start i j) (sparseTerms ta tb tc groups per i j))) ∧
        (¬agrees j → res i j = td.encode mode (.nan, true))) →
      Delivers s g (.tdots g d a b c r z x) d (fun _ j => j ≤ 3) (fun i j => (res i j).1)
        fun k => (¬shaped ∧ k = 0) ∨ ∃ i j, td.present i j = true ∧ j ≤ 3 ∧ (res i j).2.getLsbD k = true) ∧
    (let cnt := if n = 1 then 8 else if n = 2 then 16 else 4
     let places := fun q j => (List.range 32).filter fun k => (tb.maskWord q j).testBit k
     Delivers s g (.tsprs g d a b n) d (fun i _ => i < cnt * min tb.vr 2)
       (fun i j => (if (places (i / cnt) j).length = cnt
         then ta.raw (32 * (i / cnt) + (places (i / cnt) j).getD (i % cnt) 0) j else 0) % 2 ^ (8 * td.size))
       fun f => f = 0 ∧ ∃ q j, q < min tb.vr 2 ∧ j < td.vc ∧ (places q j).length ≠ cnt)

/-- 14 R346: the approximations, whose absent source reads as +0: 1 / a; 1 / √a by a rational within 2^−100 of it, and
by the root itself where it is rational; and 2^a, log2 a, tanh a and 1 / (1 + e^−a) on their special inputs and
where the result is rational, elsewhere by the model's enclosures. 14 R347: the refinements. 14 R348, R349: running
moments. A row's count, mean and sum of squares stand in columns 0 to 2; `twelf` folds the selected elements of its
source in, `twmrg` merges two such states. -/
def Obligations.TileFunctions : Prop :=
  (∀ (s : State) (g d a b c : BitVec 4) (r : BitVec 3) (z m : BitVec 1),
     let on := On s m (low3 c)
     let td := s.cx.tile d
     let mode := s.cx.modeOf td r z
     let rnd (x : Val) : Nat × Flags :=
       if td.code = 1 then FloatFmt.round ⟨12, 127, true, true, true, 32, 12⟩ mode.rm mode.sat x else td.fmt.round mode.rm mode.sat x
     let va := fun i j => (s.cx.tile a).val i j .zero
     let vb := fun i j => (s.cx.tile b).val i j .zero
     let rm := rmode s d r z
     let each (i : Instr) (rule : Val → Nat × Flags → Prop) : Prop :=
       ∃ res, Computes s g i d on res ∧ ∀ x y, rule (va x y) (res x y)
     Computes s g (.trcpa g d a c r z m) d on (fun i j => rnd (match va i j with
       | .nan => .nan
       | .inf neg => .fin neg 0 1
       | .fin neg n q => if n = 0 then .inf neg else .fin neg q n)) ∧
     each (.trsqa g d a c r z m) (InverseRoot rnd) ∧
     each (.texp2 g d a c r z m) (fun x y => ExpTable rnd x y ∧ y = apx .exp2 rnd x) ∧
     each (.tlog2 g d a c r z m) (fun x y => LogTable rnd x y ∧ y = apx .log2 rnd x) ∧
     each (.ttanh g d a c r z m) (fun x y => TanhTable rnd x y ∧ y = apx .tanh rnd x) ∧
     each (.tsigm g d a c r z m) (fun x y => SigmTable rnd x y ∧ y = apx .sigm rnd x) ∧
     Computes s g (.trcpr g d a b c r z m) d on (fun i j =>
       let x := va i j
       let y := vb i j
       enc s d r z (if y.isNaN then (.nan, false)
         else if y.isZero || y.isInf || x.isZero || x.isInf || x.isNaN then (y, false)
         else vmul y (vadd rm (.fin false 2 1) (vmul x y).1.neg).1)) ∧
     Computes s g (.trsqr g d a b c r z m) d on (fun i j =>
       let x := va i j
       let y := vb i j
       enc s d r z (if y.isNaN then (.nan, false)
         else if y.isZero || y.isInf || x.isZero || x.isInf || x.isNaN || x.sign then (y, false)
         else vdiv (vmul y (vadd rm (.fin false 3 1) (vmul (vmul x y).1 y).1.neg).1).1 (.fin false 2 1)))) ∧
  (∀ (s : State) (g d a b c : BitVec 4) (r : BitVec 3) (z m : BitVec 1),
     let ta := s.cx.tile a
     let tb := s.cx.tile b
     let td := s.cx.tile d
     let columns (t : Tile) (i : Nat) : RowState := ⟨t.val i 0 .zero, t.val i 1 .zero, t.val i 2 .zero, 0⟩
     let folded (i : Nat) := (((List.range 64).filter fun j => ta.present i j && selects (s.cx.maskOf m (low3 c)) i j).map
       fun j => ta.val i j .zero).foldl welford (columns td i)
     let merged (i : Nat) := mergeRows (columns ta i) (columns tb i)
     let value (x : RowState) (j : Nat) : Val := if j = 0 then x.n else if j = 1 then x.m else x.q
     let code (f : Nat → RowState) := fun i j => enc s d r z (value (f i) j, false)
     let flags (f : Nat → RowState) (on : Nat → Prop) := fun k => ∃ i, i < td.vr ∧ on i ∧
       ((f i).fl.getLsbD k = true ∨ ∃ j, j ≤ 2 ∧ j < td.vc ∧ (code f i j).2.getLsbD k = true)
     Delivers s g (.twelf g d a c r z m) d (fun _ j => j ≤ 2) (fun i j => (code folded i j).1) (flags folded fun _ => True) ∧
     Delivers s g (.twmrg g d a b c r z m) d (fun i j => On s m (low3 c) i 0 ∧ j ≤ 2) (fun i j => (code merged i j).1)
       (flags merged fun i => On s m (low3 c) i 0))

/-! ### X and C slots -/

/-- 15 R355-R362: `xdot` and `xdots` join the context's stream operations, are refused, or wait for room. 15 R363,
R364: `xbcast` is accepted when every lane of its geometry is lit and driven by the context's die: the bank
takes the broadcast and the operation is outstanding; else it is refused. -/
def Obligations.StreamIssue : Prop :=
  (∀ (s : State) (g : BitVec 4) (a b : BitVec 3) (x : BitVec 6) (t : BitVec 4) (acc srck dst : BitVec 1) (n : BitVec 2),
     DotIssues s g (.xdot g a b x t acc srck dst) a b x t acc srck dst 0 ∧
     DotIssues s g (.xdots g a b x t acc srck dst n) a b x t acc srck dst (if n = 1 then 8 else if n = 2 then 16 else 4)) ∧
  (∀ (s : State) (g : BitVec 4) (a b : BitVec 3) (x : BitVec 6) (t : BitVec 4),
     let ts := s.cx.rTS t
     let geom := s.cx.rXP a
     let ok := geomBad geom = false ∧ part (s.cx.rXP b).toNat 36 28 = 0 ∧
       ∀ l, l ∈ geomLanes geom → laneLit (vget s.joist.lanes l).reg = true ∧ laneDrv (vget s.joist.lanes l).reg = s.cur.die
     s.cx.streams.length < 4 → part ts.toNat 31 1 = 1 → part ts.toNat 26 4 ≠ 4 → part ts.toNat 26 4 ≠ 5 →
     (ok → Reaches s g (.xbcast g a b x t) (fun u => ∃ (o : StreamOp) (old : List Broadcast) (w : Broadcast),
       u.cx.streams = s.cx.streams ++ [o] ∧ o.kind = 2 ∧ o.lanes = geomWin geom ∧ o.issue = s.gtime ∧
       (u.die s.cur.die).bank = old ++ [w] ∧ w.id = s.cur ∧ w.start = firstCycle s (s.cx.rS x) ∧ w.nwin = geomWin geom ∧
       w.lanes = geomLanes geom ∧ w.begun = 0 ∧ (o.partialSent = true ↔ w.unsent ≠ []))) ∧
     (¬ok → Reaches s g (.xbcast g a b x t) (fun u => u.cx.streams = s.cx.streams ∧ (u.die s.cur.die).bank = s.myDie.bank ∧
       ∃ v, u.cx.xwaited = some v ∧ 1 ≤ v.toNat)))

/-- 15 R365-R370: reports, ranges, calibration, delays, waits and progress. 09 R227: a delay counts for the windows that
start 8 cycles or more after its write; an earlier window has the delay that stood before. -/
def Obligations.StreamStatusResults : Prop :=
  ∀ (s : State) (g : BitVec 4) (a l : BitVec 3) (x : BitVec 6) (w : BitVec 1),
    (∀ r rest, s.cx.reports = r :: rest → Runs s g (.xrep g x w)
      ((s.updCx fun c => { c with reports := rest }).putS x 1 (BitVec.ofNat 64 (r.toNat + 2 ^ 32)))) ∧
    (s.cx.reports = [] → w = 0 ∨ s.cx.streams = [] → Runs s g (.xrep g x w) (s.putS x 1 0)) ∧
    (s.cx.reports = [] → w = 1 → s.cx.streams ≠ [] →
      Reaches s g (.xrep g x w) (fun t => (t.ctxOf s.cur).status = .blocked .report)) ∧
    (let n := geomT (s.cx.rXP a) * geomW (s.cx.rXP a)
     Reaches s g (.xrange g a x) (fun t => ∃ v, t = s.putS x 1 (BitVec.ofNat 64 v) ∧
      ((v < 16 ∧ 2 * 16129 * n ≤ 16383 * 2 ^ v ∧ ∀ k, k < v → 16383 * 2 ^ k < 2 * 16129 * n) ∨
       (v = 0x10F ∧ ∀ k, k < 16 → 16383 * 2 ^ k < 2 * 16129 * n)))) ∧
    (s.cx.streams.length < 4 → Reaches s g (.xcal g) (fun t => ∃ o : StreamOp, t.cx.streams = s.cx.streams ++ [o] ∧
      o.kind = 3 ∧ (o.waiting = true ↔ s.myCore.calEnd ≠ none) ∧
      t.myCore.calEnd = some (s.myCore.calEnd.getD (s.cycle + 8192)))) ∧
    Reaches s g (.xdesk g l x) (fun t => ∃ past, t = s.updMyCore (fun k =>
      { k with
        xdeskDelay := vset k.xdeskDelay l.toFin (BitVec.ofNat 8 (s.rS x).toNat), xdeskPast := vset k.xdeskPast l.toFin past }) ∧
      past.head? = some (s.gtime, vget s.myCore.xdeskDelay l.toFin)) ∧
    (∀ start, s.gtime + 8 ≤ start →
      (s.myCore.writeDelay s.gtime l.toFin (BitVec.ofNat 8 (s.rS x).toNat)).delayAt l.toFin start = BitVec.ofNat 8 (s.rS x).toNat) ∧
    ((vget s.myCore.xdeskPast l.toFin).Pairwise (fun p q => q.1 ≤ p.1) → ∀ start, s.gtime ≤ start → start < s.gtime + 8 →
      (s.myCore.writeDelay s.gtime l.toFin (BitVec.ofNat 8 (s.rS x).toNat)).delayAt l.toFin start =
        s.myCore.delayAt l.toFin start) ∧
    (s.cx.streams = [] → Runs s g (.xwait g x)
      ((s.updCx fun c => { c with xwaited := none }).putS x 1 (BitVec.ofNat 64 (s.cx.xwaited.getD 0).toNat))) ∧
    (s.cx.streams ≠ [] → Reaches s g (.xwait g x) (fun t => (t.ctxOf s.cur).status = .blocked .xwait)) ∧
    Runs s g (.xprog g x) (s.updCx fun c => { c with xpr := BitVec.ofNat 18 (s.rS x).toNat }) ∧
    Runs s g (.xprogClear g) (s.updCx fun c => { c with xpr := 0 })

/-- 15 R371, 05 R126, R129, R131: `board`, against the slots as the recycle check and the revocations of its cycle leave
them. An unknown or unmasked segment answers its status; one held already answers 0; one that is boarded grants a
hold; one that faulted takes BOARDFAULT; one still to come answers at once with TRY = 1, else the bundle waits. A
settled wait answers with its status, and takes BOARDFAULT where its segment was faulted. 15 R372, R373: `unboard`
posts the release of a hold behind the stream operations that read the segment and the engine operations that go
through the slot's buffer; that held stores to the slot go home first, and a mark is due then, is log 25; the position and slot
queries deliver after 48 cycles. -/
def Obligations.CaravanResults : Prop :=
  (∀ (s : State) (g : BitVec 4) (d n : BitVec 6) (t : BitVec 1) (st : BitVec 3) (k : Fin 8) (f : Option (Fin 8)),
     let seg : BitVec 16 := BitVec.ofNat 16 (s.rS n).toNat
     let i : Instr := .board g d n t
     let v := s.boardView s.cur.die
     let now := v.heldNow s.cur seg.toNat
     (s.boundaryNow = false → (∀ k, (s.slot s.cur.die k).state ≠ .dwell) → v = s) ∧
     ((∀ w, s.cx.boarding = some w → w.segid ≠ seg) →
       (v.resolve s.cur.die seg = .none st → Runs s g i (boarded s d st.toNat none)) ∧
       ((∀ x, v.resolve s.cur.die seg ≠ .none x) → now = some k → Runs s g i (boarded s d 0 (some k))) ∧
       (now = none →
         (v.resolve s.cur.die seg = .fault f → Runs s g i (s.trapI 0x0C)) ∧
         (v.resolve s.cur.die seg = .hit k → Runs s g i (boarded (s.updSlot s.cur.die k fun b =>
           { b with hold := setBit b.hold (CtxId.bitNo s.cur) true }) d 0 (some k))) ∧
         (v.resolve s.cur.die seg = .wait st → t = 1 → Runs s g i (boarded s d st.toNat none)) ∧
         (v.resolve s.cur.die seg = .wait st → t = 0 → Reaches s g i (fun u =>
           (u.ctxOf s.cur).status = .blocked .boarding ∧ (u.ctxOf s.cur).boarding = some ⟨seg, st, none, false⟩ ∧
           (u.die s.cur.die).mlcnt = s.myDie.mlcnt + (if st = 2 then 1 else 0))))) ∧
     (∀ w, s.cx.boarding = some w → w.segid = seg →
       let u := s.updCx fun c => { c with boarding := none }
       (w.fault = true → Runs s g i (u.trapI 0x0C)) ∧
       (w.fault = false → w.done = some st →
         Runs s g i (boarded u d st.toNat (if st = 3 ∨ st = 4 then none else s.heldSlot s.cur seg.toNat))) ∧
       (w.fault = false → w.done = none → Reaches s g i (fun u => (u.ctxOf s.cur).status = .blocked .boarding)))) ∧
  (∀ (s : State) (g : BitVec 4) (d n : BitVec 6) (k : Fin 8),
     let seg : BitVec 16 := BitVec.ofNat 16 (s.rS n).toNat
     let x := s.myDie
     let base := x.slotBase s.cur.die k.val
     let buf := part x.bscfg.toNat 16 12 + k.val
     let give (s : State) (v : W64) : State := if d = 0 then s else s.pendS d 40 v
     let of (f : BSlot → W64) : W64 := if (s.rS n).toNat % 8 < s.myDie.nslot then f (s.slot s.cur.die (Fin.ofNat 8 (s.rS n).toNat)) else 0
     (s.heldSlot s.cur seg.toNat = none → Runs s g (.unboard g d n) (give s 0)) ∧
     (s.heldSlot s.cur seg.toNat = some k → (∃ u, u ∈ s.cx.unboards ∧ u.seg = seg) → Runs s g (.unboard g d n) (give s 0)) ∧
     (s.heldSlot s.cur seg.toNat = some k → (∀ u, u ∈ s.cx.unboards → u.seg ≠ seg) → ∀ v,
       (v = s ∧ (∀ r, r ∈ s.cx.held.flatMap HeldStore.runs →
           r.space = .dev → r.addr < base + 0x2000000 → r.addr + r.bytes.length ≤ base) ∨
         v = { (s.flushHeld s.cur).updCtx s.cur (fun c => { c with markDue := true }) with early := true } ∧
           ∃ r, r ∈ s.cx.held.flatMap HeldStore.runs ∧ r.space = .dev ∧ r.addr < base + 0x2000000 ∧ base < r.addr + r.bytes.length) →
       let reads := v.cx.streams.filter fun o => v.streamUses s.cur o seg buf
       let moves := (v.opsOf s.cur).filter fun o => v.opUses o s.cur.die buf
       (reads ≠ [] ∨ moves ≠ [] → Reaches s g (.unboard g d n) (fun t =>
         (⟨seg, reads.map fun o => o.issue, moves.map fun o => o.handle⟩ : Unboard) ∈ t.cx.unboards)) ∧
       (reads = [] → moves = [] → v.cx.unboards = [] → v.heldSlot s.cur seg.toNat = some k →
         Runs s g (.unboard g d n) (give (v.updSlot s.cur.die k fun b =>
           { b with hold := setBit b.hold (CtxId.bitNo s.cur) false }) 1))) ∧
     Runs s g (.rpos g d) (s.pendS d 48 (BitVec.ofNat 64 (s.joist.seg.toNat + 2 ^ 16 * s.joist.lap.toNat))) ∧
     Runs s g (.rposStat g d n) (s.pendS d 48 (of BSlot.stat)) ∧
     Runs s g (.rposId g d n) (s.pendS d 48 (of BSlot.bsid)))

/-- 15 R374-R377: the copy operations issue. 16 R405-R407: the collectives issue. The handle is the count of the operations
before it (log 39); a ROOT at or above NRANK and reserved fields of `cbar` are log 49. -/
def Obligations.EngineIssue : Prop :=
  (∀ (s : State) (g : BitVec 4) (a b : BitVec 3) (x d : BitVec 6) (p : BitVec 1),
     CopyIssues s g (.cpy g a b x d p) .cpy a b x d p ∧ CopyIssues s g (.cpy2 g a b x d p) .cpy2 a b x d p ∧
     CopyIssues s g (.gath g a b x d p) .gath a b x d p ∧ CopyIssues s g (.scat g a b x d p) .scat a b x d p ∧
     CopyIssues s g (.cpyp g a b x d p) .cpyp a b x d p) ∧
  (∀ (s : State) (g : BitVec 4) (a b : BitVec 3) (x d : BitVec 6) (p : BitVec 1),
     CollectiveIssues s g (.cred g a b x d p) .cred (s.cx.rXP a) (s.cx.rXP b) (s.rS x) d (decide (p = 1)) ∧
     CollectiveIssues s g (.cbc g a b x d p) .cbc (s.cx.rXP a) (s.cx.rXP b) (s.rS x) d (decide (p = 1)) ∧
     CollectiveIssues s g (.cag g a b x d p) .cag (s.cx.rXP a) (s.cx.rXP b) (s.rS x) d (decide (p = 1)) ∧
     CollectiveIssues s g (.cbar g x d) .cbar 0 0 (s.rS x) d false)

/-- 15 R378-R380, 07 R177: `kvmig` issues; `cwait` and `cwaitAll` deliver statuses once operations are over, a
handle out of reach giving 7; `cnote` arms a notice for an outstanding operation. The handle delivered is log 39, that the
limit of notices counts those that are armed is log 40. -/
def Obligations.EngineStatusResults : Prop :=
  ∀ (s : State) (g : BitVec 4) (a : BitVec 3) (x d : BitVec 6),
    let v := storesHome s
    let o := v.newOp .kvmig (s.cx.rXP a) 0 (s.rS x) 0 false
    let blk := part (s.rS x).toNat 0 24
    let h : BitVec 16 := BitVec.ofNat 16 (s.rS x).toNat
    let out := (s.opsOf s.cur).find? fun o => o.handle == h
    let recent := (s.cx.handles - 1 - h).toNat < 64
    let kept (st : BitVec 3) : Prop := (s.cx.statuses.find? fun y => y.1 == h) = some (h, st) ∨
      ((s.cx.statuses.find? fun y => y.1 == h) = none ∧ st = 7)
    (8 ≤ (s.opsOf s.cur).length → Reaches s g (.kvmig g a x d) (fun t => (t.ctxOf s.cur).status = .blocked .engineQueue)) ∧
    ((s.opsOf s.cur).length < 8 →
      (v.migBad s.cur.die blk (s.cx.rXP a) = true →
        Runs s g (.kvmig g a x d) (((handed v d).noteMig s.cur blk).giveStatus o 3)) ∧
      (v.migBad s.cur.die blk (s.cx.rXP a) = false → Runs s g (.kvmig g a x d) (queued (handed v d) o))) ∧
    (out = none → ∀ st, kept st → Runs s g (.cwait g x d) (s.putS d 1 (BitVec.ofNat 64 st.toNat))) ∧
    (out ≠ none → recent → Reaches s g (.cwait g x d) (fun t => (t.ctxOf s.cur).status = .blocked (.copy (some h)))) ∧
    (out ≠ none → ¬recent → Runs s g (.cwait g x d) (s.putS d 1 7)) ∧
    (s.opsOf s.cur = [] → Reaches s g (.cwaitAll g d) (fun t => ∃ v, t = s.putS d 1 (BitVec.ofNat 64 v) ∧
      (∀ y, y ∈ s.cx.statuses → y.2.toNat ≤ v) ∧ (v = 0 ∨ ∃ y, y ∈ s.cx.statuses ∧ y.2.toNat = v))) ∧
    (s.opsOf s.cur ≠ [] → Reaches s g (.cwaitAll g d) (fun t => (t.ctxOf s.cur).status = .blocked (.copy none))) ∧
    (8 ≤ (s.cx.notices.filter fun n => n.fired.isNone).length →
      Reaches s g (.cnote g x d) (fun t => (t.ctxOf s.cur).status = .blocked .notice)) ∧
    (let n : Notice := ⟨h, BitVec.ofNat 16 (s.rS d).toNat, none, 0⟩
     let u := s.updCx fun c => { c with notices := c.notices ++ [n] }
     (s.cx.notices.filter fun n => n.fired.isNone).length < 8 →
      (out ≠ none → recent → Runs s g (.cnote g x d) u) ∧
      (out ≠ none → ¬recent → Runs s g (.cnote g x d) (u.fire s.cur n 7)) ∧
      (out = none → ∀ st, kept st → Runs s g (.cnote g x d) (u.fire s.cur n st)))

/-- 16 R386, R389-R391: `send` in its slot launches its line on its channel; before its slot it stalls its bundle,
and past the guard it takes SLOTLATE. Within the package the flit arrives 40 cycles on. 16 R387, R389-R391: a
receive takes the flit of its stamp once its slot has come: `recv` the payload, `recva` the FP32 sums with its
line, `recvm` the greater values. Flits of earlier stamps are discarded. With no such flit it waits, and past
the guard it takes SLOTMISS. 16 R388, R392: `lstat` delivers the status of the context's channel (variant 0), or
the record of a link loss. That selectors 0 and 1 check their channel as `send` does is log 50. -/
def Obligations.ChannelResults : Prop :=
  (∀ (s : State) (g : BitVec 4) (v ch : BitVec 5) (r : BitVec 4) (m : BitVec 1) (d : BitVec 6) (e : Nat),
     let t := s.rA r
     let x := s.myChan ch
     let u := (s.launchFlit ch.toFin x t (s.cx.rV v)).updMyChan ch fun y => { y with seqTx := y.seqTx + 1 }
     (OnTime s ch t t.toNat e → Runs s g (.send g v ch r m d) (slotEnds u r m d 1 [] 0 false (slotWord u.gtime t.toNat e 0))) ∧
     (part x.desc.toNat 3 1 = 0 → u.joist.flying = s.joist.flying ++ [⟨s.cycle + 40, Fin.ofNat 8 (part x.desc.toNat 13 3),
       Fin.ofNat 16 (part x.desc.toNat 16 4), Fin.ofNat 32 (part x.desc.toNat 20 5), x.seqTx + 1, t, s.cx.rV v⟩]) ∧
     (part x.desc.toNat 0 1 = 1 → part x.desc.toNat 1 2 = s.cur.ctx.val → s.joist.gtAlarm = false → s.gtime < t.toNat →
       Reaches s g (.send g v ch r m d) (fun y => y.stalled = true ∧ y.joist = s.joist ∧
         y.myCore.nextIssue = s.cycle + (t.toNat - s.gtime))) ∧
     (part x.desc.toNat 0 1 = 0 ∨ part x.desc.toNat 1 2 ≠ s.cur.ctx.val → Runs s g (.send g v ch r m d) (s.trapI 0x0B))) ∧
  (∀ (s : State) (g : BitVec 4) (v ch : BitVec 5) (r : BitVec 4) (m : BitVec 1) (d : BitVec 6) (e n : Nat) (f : ChFlit)
     (rest : List ChFlit),
     let t := s.rA r
     let due := t.toNat + part (s.myChan ch).desc.toNat 32 16
     let last := due + guardOf s
     let u := s.updMyChan ch fun x => { x with queue := rest, disc := satAdd x.disc n }
     let word := slotWord s.gtime due e f.arrived
     OnTime s ch t due e →
     (dropStale t (s.myChan ch).queue = (n, f :: rest) → f.stamp = t → f.arrived ≤ last →
       Runs s g (.recv g v ch r m d) (slotEnds u r m d 1 [.v v f.payload (BitVec.allOnes 2048)] 0 f.poison word) ∧
       Reaches s g (.recva g v ch r m d) (fun w => ∃ (x : BitVec 2048) (fl : Flags),
         w = slotEnds u r m d 4 [.v v x (BitVec.allOnes 2048)] fl f.poison word ∧
         ∀ k, k < 64 → laneOf x k = (fp32.round .rne false (vadd .rne (fp32.value (laneOf (s.cx.rV v) k)) (fp32.value (laneOf f.payload k))).1).1) ∧
       Reaches s g (.recvm g v ch r m d) (fun w => ∃ x : BitVec 2048,
         w = slotEnds u r m d 4 [.v v x (BitVec.allOnes 2048)] 0 f.poison word ∧
         ∀ k, k < 64 → laneOf x k = (fp32.round .rne false (vmax (fp32.value (laneOf (s.cx.rV v) k)) (fp32.value (laneOf f.payload k)))).1)) ∧
     (dropStale t (s.myChan ch).queue = (n, []) → s.gtime ≤ last →
       Reaches s g (.recv g v ch r m d) (fun w => (w.ctxOf s.cur).status = .blocked .receive ∧
         (w.ctxOf s.cur).slotWait = some ⟨ch.toFin, t, e, due, true⟩))) ∧
  (∀ (s : State) (g : BitVec 4) (v ch : BitVec 5) (d : BitVec 6),
     let c := s.myChan ch
     let mine := part c.desc.toNat 0 1 = 1 ∧ part c.desc.toNat 1 2 = s.cur.ctx.val
     (v = 2 → Runs s g (.lstat g v ch d) (s.pendS d 1 (s.cx.linkWord (32 + ch.toNat)))) ∧
     (v ≠ 2 → ¬mine → Runs s g (.lstat g v ch d) (s.trapI 0x0B)) ∧
     (v = 0 → mine → Runs s g (.lstat g v ch d) (s.pendS d 1 (BitVec.ofNat 64 (c.seqTx.toNat + 2 ^ 16 * c.seqRx.toNat +
       2 ^ 32 * c.queue.length + 2 ^ 36 * (if c.lost then 1 else 0) + 2 ^ 37 * (if c.skew then 1 else 0) +
       2 ^ 40 * c.drop.toNat + 2 ^ 48 * c.disc.toNat)))) ∧
     (v = 1 → mine → Runs s g (.lstat g v ch d) (s.pendS d 1 (s.cx.linkWord ch.toNat &&& 0x800000000000FFFF))))

/-- 10 R235, R238, R239: a header alone advances the pc by 4, or counts a repeat of itself down, and takes 1 + STALL
cycles; nothing of the context changes besides, but what its mark commits, or the mark that is due (18 R428). A mark
waits while an `xdot` is outstanding, or a publish of the context before stores that are held (log 104). -/
def Obligations.EmptyBundleResult : Prop :=
  ∀ (s : State) (clr : BitVec 6) (m : BitVec 1) (stall : BitVec 5) (rep : BitVec 6),
    let waits := (∃ o, o ∈ s.cx.streams ∧ o.kind.toNat ≤ 1) ∨ (s.cx.publishing = true ∧ s.cx.held ≠ [])
    let marks := m = 1 ∧ s.cx.arch.due = none
    let e := if s.cx.fencing = true ∧ (∀ r, r ∈ s.joist.peerReqs → r.of s.cur = false)
      then s.updCx fun c => { c with fencing := false } else s
    (marks → waits → ∃ t, exec (.nop clr m stall rep) s = .next t ∧ (t.ctxOf s.cur).status = .blocked .mark) ∧
    ∀ u, (u = e.mark s.cur ∧ (marks ∨ s.cx.markDue = true) ∧ ¬waits) ∨ (u = e ∧ ¬marks ∧ (s.cx.markDue = false ∨ waits)) →
    let left := match s.cx.arch.due with | some n => min n.toNat rep.toNat | none => rep.toNat
    s.cx.arch.stickyM = none → s.cx.arch.stickyC = none → s.cx.jumped = false → s.cx.latches = [] → u.taken = none →
    weightAt u.myCore.weights s.cycle ≤
      max 26 (if u.myCore.climAt = s.cycle then u.myCore.climOld else u.myCore.clim).toNat →
    ∃ t, exec (.nop clr m stall rep) s = .next t ∧ t.myCore.nextIssue = s.cycle + 1 + stall.toNat ∧
      t.mem = u.mem ∧ t.cx.quantum = s.cx.quantum - 1 ∧ t.cx.inflight = u.cx.inflight ∧ t.cx.tiles = u.cx.tiles ∧
      (left = 0 → t.cx.arch = { s.cx.arch with pc := s.cx.arch.pc + 4, due := none }) ∧
      (left ≠ 0 → t.cx.arch = { s.cx.arch with due := some (BitVec.ofNat 6 (left - 1)) })

/-! ### Hardware events -/

/-- 01 R7, R36, 02 R65, 04 R103, R104, 07 R160: writes to registers by firmware, the driver or the host, and the
writes that a unit refuses, which set its error bit. How the die of a write of the Joist's registers orders it is log 110. -/
def Obligations.RegisterEvents : Prop :=
  ∀ (s : State) (d : Fin 8) (c : Fin 16) (pa : BitVec 52) (val : W64) (wide : Bool),
    let v := val.toNat
    let x := s.die d
    (let off := pa.toNat - ctrlBase
     let late := if s.joist.wroteAt = s.cycle ∧ d < s.joist.wroteBy then s.advance (s.cycle + 1) else s
     region pa.toNat = .ctrl → Aligned pa.toNat wide →
       (off / 0x10000000 ≠ 8 → Gives s (.registerWrite ⟨d, pa⟩ val wide) (s.ctrlWrite off wide val)) ∧
       (off / 0x10000000 = 8 → Gives s (.registerWrite ⟨d, pa⟩ val wide)
         (State.ctrlWrite { late with joist := { late.joist with wroteAt := late.cycle, wroteBy := d } } off wide val))) ∧
    (region pa.toNat ≠ .ctrl ∨ ¬Aligned pa.toNat wide → Gives s (.registerWrite ⟨d, pa⟩ val wide) s) ∧
    (part v 4 9 ≤ 319 → Gives s (.dieidWrite val)
      { s with joist := { s.joist with member := BitVec.ofNat 9 (part v 4 9), mvalid := decide (part v 13 1 = 1) } }) ∧
    (319 < part v 4 9 → Gives s (.dieidWrite val) { s with joist := { s.joist with mvalid := false } }) ∧
    (let k := s.core d c
     let set (r : Nat) : Bool := decide (k.dirtyAt = s.cycle) && k.dirtyNew.getLsbD r
     ∃ m old new, Gives s (.dtclr d c val) (s.updCore d c fun k =>
        { k with dirty := m, dirtyOld := old, dirtyNew := new, dirtyAt := s.cycle }) ∧
      (∀ r, r < 16384 → new.getLsbD r = set r ∧
        m.getLsbD r = (set r || k.dirty.getLsbD r && !decide (part v 0 14 ≤ r ∧ r < part v 0 14 + part v 16 15))) ∧
      old = if k.dirtyAt = s.cycle then k.dirtyOld else k.dirty) ∧
    (x.kvBusy = false →
      Gives s (.kvcfgWrite d true val) (s.updDie d fun y => { y with kvbase := val &&& 0x000FFFFFFFFFFFF0 }) ∧
      Gives s (.kvcfgWrite d false val) (s.updDie d fun y => { y with kvcfg := val &&& 0x0000003FFFFFFFF1 })) ∧
    (x.kvBusy = true → ∀ base, Gives s (.kvcfgWrite d base val) (s.updDie d fun y => { y with kvErr := true })) ∧
    (let t : BitVec 32 := BitVec.ofNat 32 (part v 32 32)
     let fits := (t - x.kvfrHead).toNat ≤ ringSize x.kvcfg 28
     (fits → Gives s (.kvfrposWrite d val) (s.updDie d fun y =>
       { y with kvfrTail := t, kvEmptyEpisode := x.kvEmptyEpisode && decide (t = x.kvfrHead) })) ∧
     (¬fits → Gives s (.kvfrposWrite d val) (s.updDie d fun y => { y with kvErr := true }))) ∧
    (let h : BitVec 32 := BitVec.ofNat 32 (part v 0 32)
     let used := (x.kvrlTail - h).toNat
     (used ≤ ringSize x.kvcfg 33 → Gives s (.kvrlposWrite d val) (s.updDie d fun y =>
       { y with kvrlHead := h, kvFullEpisode := x.kvFullEpisode && decide (used = ringSize x.kvcfg 33) })) ∧
     (ringSize x.kvcfg 33 < used → Gives s (.kvrlposWrite d val) (s.updDie d fun y => { y with kvErr := true }))) ∧
    (let npb := min 4096 (part x.pbcfg.toNat 4 13)
     let ok := x.pbcfg.toNat % 2 = 0 ∧ TableFits d (part v 6 46 * 64) npb
     (ok → Gives s (.pbtabWrite d val) (s.updDie d fun y => { y with pbtab := val &&& 0x000FFFFFFFFFFFC0 })) ∧
     (¬ok → Gives s (.pbtabWrite d val) (s.updDie d fun y => { y with pbErr := true }))) ∧
    (let n := min 4096 (part v 4 13)
     let ok := ¬(x.pbcfg.toNat % 2 = 1 ∧ v % 2 = 1) ∧
       (v % 2 = 1 ∨ 0 < n → TableFits d (part x.pbtab.toNat 6 46 * 64) n)
     (ok → Gives s (.pbcfgWrite d val) (s.updDie d fun y => { y with pbcfg := val &&& 0x000000000001FFF1 })) ∧
     (¬ok → Gives s (.pbcfgWrite d val) (s.updDie d fun y => { y with pbErr := true })))

/-- 19 R444, R446, R454: an inbound host write reaches the register, or the mailbox's request area, that its offset
names; a poisoned or wrongly sized one, and an atomic at no 64-bit register, is discarded with BADPKT and the first 8
bytes of its data; outside the enabled stream nothing happens (that the stream is an argument of the event, and what an
Unsupported Request leaves, is log 73; the single bytes of a mailbox, log 77). A host read gives the register's bytes,
and zeros for another size or alignment and from BAR2 in SAFE (19 R451). -/
def Obligations.HostEvents : Prop :=
  ∀ (s : State) (bar2 inStream enable poisoned : Bool) (size : AtomicSize) (off : BitVec 36) (data : List Byte) (op : HostAtomic)
    (r : Reg) (stream : BitVec 1),
    let o := off.toNat
    let n := data.length
    let sized := n = 4 ∧ o % 4 = 0 ∨ n = 8 ∧ o % 8 = 0
    let first := (data.take 8).foldr (fun b acc => b.toNat + 256 * acc) 0
    let w : W64 := BitVec.ofNat 64 (first * 2 ^ (8 * (o % 8)))
    let mask : W64 := BitVec.ofNat 64 ((2 ^ (8 * n) - 1) * 2 ^ (8 * (o % 8)))
    (¬HostOpen s bar2 inStream → Gives s (.hostInboundWrite bar2 off data poisoned inStream) s ∧
      Gives s (.hostAtomicop bar2 off size op inStream) s) ∧
    (HostOpen s bar2 inStream → (bar2 = false → inMailbox o n = false) → sized →
      barRegAt bar2 (o / 8 * 8) = some r →
      Gives s (.hostInboundWrite bar2 off data false inStream) (s.regWrite r w mask) ∧
      Gives s (.hostInboundWrite bar2 off data true inStream) (s.badPacket bar2 o 0 first)) ∧
    (HostOpen s false inStream → ∀ (d : Fin 8) (b : Byte), o = d.val * 0x1000000 + 0x100 + o % 0x100 →
      Gives s (.hostInboundWrite false off [b] false inStream)
        (s.updDie d fun x => { x with mbReq := setField x.mbReq (8 * (o % 0x100)) 8 b.toNat })) ∧
    (HostOpen s true inStream → ¬sized →
      Gives s (.hostInboundWrite true off data false inStream) (s.badPacket true o 1 first)) ∧
    (HostOpen s bar2 inStream → o % 8 = 0 → barRegAt bar2 o = some r →
      (∀ x, op = .fetchAdd x →
        Gives s (.hostAtomicop bar2 off .b64 op inStream) (s.regWrite r (s.regRead r + x) (BitVec.allOnes 64))) ∧
      (∀ x, op = .swap x → Gives s (.hostAtomicop bar2 off .b64 op inStream) (s.regWrite r x (BitVec.allOnes 64))) ∧
      (∀ cmp x, op = .cas cmp x → Gives s (.hostAtomicop bar2 off .b64 op inStream)
        (if s.regRead r = cmp.setWidth 64 then s.regWrite r (x.setWidth 64) (BitVec.allOnes 64) else s))) ∧
    (HostOpen s bar2 inStream →
      (∀ x, op = .fetchAdd x ∨ op = .swap x →
        Gives s (.hostAtomicop bar2 off .b32 op inStream) (s.badPacket bar2 o 2 (x.toNat % 2 ^ 32))) ∧
      (∀ cmp x, op = .cas cmp x →
        Gives s (.hostAtomicop bar2 off .b32 op inStream)
          (s.badPacket bar2 o 2 (cmp.toNat % 2 ^ 32 + 2 ^ 32 * (x.toNat % 2 ^ 32))) ∧
        Gives s (.hostAtomicop bar2 off .b128 op inStream) (s.badPacket bar2 o 2 (cmp.toNat % 2 ^ 64)))) ∧
    (sized →
      (s.boot ≠ .safe → o < 2 ^ 32 → ctrlRegAt (o / 8 * 8) = some r →
        s.bar2Read o n = lowBytes n ((s.regRead r).toNat / 2 ^ (8 * (o % 8)))) ∧
      (inMailbox o n = false → bar0RegAt (o / 8 * 8) = some r →
        s.bar0Read o n = lowBytes n ((s.regRead r).toNat / 2 ^ (8 * (o % 8))))) ∧
    (s.boot = .safe ∨ ¬sized → s.bar2Read o n = List.replicate n 0) ∧
    (inMailbox o n = false → ¬sized → s.bar0Read o n = List.replicate n 0) ∧
    (s.boot ≠ .reset →
      Gives s (.ideKm enable stream) (if stream = 0 then { s with ideLink := enable } else { s with ideSel := enable }))

/-- 03 R93, R94: an invalidation starts with the page that TLBINVVA names then (log 85), or is refused; at its end no
cached translation that it covers remains, and it is not over before the held stores that it covers have gone home, for
which their contexts come to a mark, and the requests that it covers have left their dies. 03 R70, R83, R88, 10 R248, 03 R82: a missing translation is walked and cached; a page with X = 1
is scanned first, and where its context stands at it a page that fails takes SCAN. -/
def Obligations.TranslationEvents : Prop :=
  (∀ (s : State) (d : Fin 8) (asid : Fin 64) (bcast : Bool) (i : TlbInv),
     let x := s.die d
     let onePage := -(2 ^ 54 : Int) ≤ x.tlbinvva.toInt ∧ x.tlbinvva.toInt < 2 ^ 54
     let start (k : BitVec 2) (a : Fin 64) : State := s.updDie d fun y => { y with tlbInv := some ⟨k, a, bcast, x.tlbinvva.toNat / 65536⟩ }
     let refused : State := s.updDie d fun y => { y with tlbErr := true }
     (x.tlbInv = none →
       (onePage → Gives s (.tlbinvPage d asid bcast) (start 0 asid)) ∧
       (¬onePage → Gives s (.tlbinvPage d asid bcast) refused) ∧
       Gives s (.tlbinvAsid d asid bcast) (start 1 asid) ∧ Gives s (.tlbinvAll d bcast) (start 2 0)) ∧
     (x.tlbInv ≠ none → Gives s (.tlbinvPage d asid bcast) refused ∧ Gives s (.tlbinvAsid d asid bcast) refused ∧
       Gives s (.tlbinvAll d bcast) refused) ∧
     (x.tlbInv = some i → Leads s (.tlbinvDone d) (fun t =>
       let on (e : Fin 8) : Prop := i.bcast = true ∨ e = d
       let clear (id : CtxId) : Prop := ∀ h r, h ∈ (s.ctxOf id).held → r ∈ h.runs → i.hitsVa (s.ctxOf id).asid r.va = false
       ((t.die d).tlbInv = none ↔ (∀ id : CtxId, on id.die → clear id) ∧
         ∀ r, r ∈ s.joist.peerReqs → on r.id.die → r.place = .atDie → i.hitsVa r.asid r.va = false) ∧
       t.mem = s.mem ∧ ∀ e, on e →
         (∀ y, y ∈ (t.die e).l2tlb ↔ y ∈ (s.die e).l2tlb ∧ i.hits y = false) ∧
         (∀ y, y ∈ (t.die e).walks ↔ y ∈ (s.die e).walks ∧ i.hitsTable y = false) ∧
         ∀ c, (∀ y, y ∈ (t.core e c).l1tlb ↔ y ∈ (s.core e c).l1tlb ∧ i.hits y = false) ∧
           ∀ k, (t.ctxOf ⟨e, c, k⟩).held = (s.ctxOf ⟨e, c, k⟩).held ∧
             (¬clear ⟨e, c, k⟩ → (t.ctxOf ⟨e, c, k⟩).markDue = true) ∧ ∀ y, y ∈ (t.ctxOf ⟨e, c, k⟩).extents ↔
               y ∈ (s.ctxOf ⟨e, c, k⟩).extents ∧ i.hitsExtent (s.ctxOf ⟨e, c, k⟩).asid y = false))) ∧
  (∀ (s t : State) (id : CtxId) (va : W64) (leaf : W64) (big : Bool) (e : Option Nat),
     let c := s.ctxOf id
     (s.cachedLeaf (c.req id .load true false) va = none →
       s.findLeaf (c.req id .load true false) va = (t, .ok (leaf, big, e)) →
       Gives s (.pageWalk id va) t ∧ t.cachedLeaf (c.req id .load true false) va = some (leaf, big) ∧ part leaf.toNat 7 1 = 1) ∧
     (s.cachedLeaf (c.req id .fetch true false) va = none →
       s.findLeaf (c.req id .fetch true false) va = (t, .ok (leaf, big, e)) →
       Gives s (.codeScan id va) (if part leaf.toNat 2 1 = 1 then t else s)) ∧
     (∀ frame off check u, s.cachedLeaf (c.req id .fetch true false) va = none →
       s.findLeaf (c.req id .fetch true false) va = (u, .error (.scan frame off check)) →
       c.status = .ready → c.arch.pc.toNat / 65536 = va.toNat / 65536 →
       Gives s (.codeScan id va) ((s.postEvent id.die 0x0D (s.srcOf id) (frame * 65536) (off + check * 65536)).takeTrap id
         ⟨0x13, 0, va, finfoOf c 0 AccKind.fetch.code 0 va⟩ false)))

/-- 02 R53, R54, R56, R59, R62, 06 R136, 18 R433: pieces performed at their homes, errors that arise in storage and in
what the host answers, errors corrected, counted by the storage's die and met by a core of any, and the end of a
freeze. -/
def Obligations.StorageEvents : Prop :=
  ∀ (s : State) (d : Fin 8) (c : Fin 16) (pa : BitVec 52) (bytes : List Byte) (x cmp : W64) (o : BitVec 3) (w : Bool),
    let a := pa.toNat
    let die := homeDie a
    let n := if w then 8 else 4
    let xn := x.toNat % 2 ^ (8 * n)
    let cn := cmp.toNat % 2 ^ (8 * n)
    let read (n : Nat) := (List.range n).foldl (fun v k => v + (memByte s.mem (a + k)).toNat * 256 ^ k) 0
    (OnePiece a bytes.length → Gives s (.piecePerform pa (.write bytes)) (s.devWrite a bytes)) ∧
    (∀ n, OnePiece a n → Gives s (.piecePerform pa (.read n)) (s.recordUnits a n 0 die (homeCore a).val) ∧
      (s.poisoned a n = false → Gives s (.piecePerform pa (.read n)) s)) ∧
    (region a = .spad ∨ region a = .hbm ∨ region a = .lpddr → Leads s (.piecePerform pa (.fail d)) (fun t =>
      t.poisoned a 1 = true ∧ t.mem = s.mem ∧ t.dies = s.dies)) ∧
    (region a = .host → Leads s (.piecePerform pa (.fail d)) (fun t =>
      (d, a / 64 * 64) ∈ t.hostBad ∧ t.poison = s.poison ∧ t.mem = s.mem ∧ t.dies = s.dies)) ∧
    (s.MemOk → OnePiece a n → a % n = 0 → s.poisoned a n = false →
      (∃ v, NewValue (8 * n) o.toNat (read n) xn v ∧
        Gives s (.piecePerform pa (.amo w o x)) (s.devWrite a (lowBytes n v))) ∧
      Gives s (.piecePerform pa (.cas w cmp x)) (if read n = cn then s.devWrite a (lowBytes n xn) else s)) ∧
    (∀ y v, s.MemOk → OnePiece a 4 → a % 4 = 0 → s.poisoned a 4 = false →
      (famoUpdate o.toNat y.toNat (read 4)).1 = some v →
      Gives s (.piecePerform pa (.famo o y)) (s.devWrite a (lowBytes 4 v))) ∧
    (let bump (y : Die) (k : Nat) : W64 := setField y.ecccnt (16 * k) 16 (min 65535 (part y.ecccnt.toNat (16 * k) 16 + 1))
     (∀ p k, (p = .scratchpad ∧ k = 0) ∨ (p = .dram ∧ k = 1) ∨ (p = .regFile ∧ k = 2) →
       Gives s (.correctableError d p none) (s.updDie d fun y => { y with ecccnt := bump y k }) ∧
       ∀ e, Leads s (.correctableError d p (some (e, c))) (fun t => (t.die d).ecccnt = bump (s.die d) k ∧
         (e ≠ d → (t.die e).ecccnt = (s.die e).ecccnt) ∧
         (t.core e c).frozenUntil = max (max s.cycle (s.core e c).frozenUntil) (s.cycle + 24))) ∧
     (region a = .spad ∨ region a = .hbm ∨ region a = .lpddr → (s.die die).mscrub.toNat % 2 = 1 →
       Gives s (.scrubRead pa .clean) s ∧
       Leads s (.scrubRead pa .correctable) (fun t => t.mem = s.mem ∧ t.poison = s.poison ∧
         part (t.die die).ecccnt.toNat 48 16 = min 65535 (part (s.die die).ecccnt.toNat 48 16 + 1) ∧
         let k := if region a = .spad then 0 else 16
         part (t.die die).ecccnt.toNat k 16 = min 65535 (part (s.die die).ecccnt.toNat k 16 + 1)) ∧
       Leads s (.scrubRead pa .uncorrectable) (fun t => t.mem = s.mem ∧ t.poisoned a 1 = true ∧
         ((s.die die).merrV = false → (t.die die).merrV = true ∧ (t.die die).merra.toNat = a / 32 * 32)))) ∧
    ((s.core d c).frozenUntil ≤ s.cycle → Gives s (.freezeEnd d c) (s.updCore d c fun k => { k with frozenUntil := 0 }))

/-- 08 R198, R199, R201, 12 R298, 18 R424, R428, 07 R179, 09 R223: what hardware does to a context at a boundary:
deliveries land, and a context that waited for none but those is ready; marks, switches, quanta and pins end, notices
enter the handler as at a mark where IUVEC.EN is 1 (07 R180), and causes that are due are taken one by one (18 R423), an
XREPORT of an unpinned context not before it next issues. A frozen core switches and takes no trap (18 R433). -/
def Obligations.ContextEvents : Prop :=
  ∀ (s : State) (d : Fin 8) (c : Fin 16) (x : Fin 4) (id : CtxId),
    let k := s.ctxOf id
    (∀ p, p ∈ k.pend → p.waits = [] → p.due ≤ s.cycle → Leads s (.loadDelivery id) (fun t =>
      (t.ctxOf id).arch = (k.settle s.cycle).arch ∧ (t.ctxOf id).tiles = (k.settle s.cycle).tiles ∧
      (t.ctxOf id).lines = (k.settle s.cycle).lines ∧ t.mem = s.mem ∧
      (∀ q, q ∈ (t.ctxOf id).pend ↔ q ∈ k.pend ∧ ¬(q.waits = [] ∧ q.due ≤ s.cycle)) ∧
      (k.status = .blocked .pending → k.pin = false → (∀ r, r ∈ k.waitRegs → (k.settle s.cycle).isPending r = false) →
        (t.ctxOf id).status = .ready) ∧
      (k.status = .blocked .pending → (∃ r, r ∈ k.waitRegs ∧ (k.settle s.cycle).isPending r = true) →
        (k.settle s.cycle).entryDue = false → (t.ctxOf id).status = .blocked .pending))) ∧
    (k.markDue = true → (∀ o, o ∈ k.streams → 2 ≤ o.kind.toNat) → k.publishing = false ∨ k.held = [] →
      Gives s (.regionCommit id) ((s.updCtx id fun y => y.settle s.cycle).mark id)) ∧
    ((s.core d c).frozenUntil ≤ s.cycle → (s.core d c).running = none → (s.ctxOf ⟨d, c, x⟩).status = .ready →
      (∀ y, (s.ctxOf ⟨d, c, y⟩).status = .ready → turnOf (s.core d c).lastRan x ≤ turnOf (s.core d c).lastRan y) →
      Leads s (.contextSwitch d c) (fun t => (t.core d c).running = some x ∧
        (t.ctxOf ⟨d, c, x⟩).status = .running ∧ (t.ctxOf ⟨d, c, x⟩).quantum = 4096 ∧
        (t.ctxOf ⟨d, c, x⟩).arch = (s.ctxOf ⟨d, c, x⟩).arch ∧
        (t.core d c).nextIssue = max s.cycle (s.core d c).nextIssue + 2)) ∧
    ((s.core d c).frozenUntil ≤ s.cycle → (s.core d c).running = some x → (s.ctxOf ⟨d, c, x⟩).status = .running →
      (s.ctxOf ⟨d, c, x⟩).quantum = 0 →
      (s.ctxOf ⟨d, c, x⟩).pin = false → (∃ y, y ≠ x ∧ (s.ctxOf ⟨d, c, y⟩).status = .ready) →
      Leads s (.quantumExpiry d c) (fun t => (t.core d c).running = none ∧ (t.core d c).lastRan = x ∧
        (t.ctxOf ⟨d, c, x⟩).status = .ready ∧ (t.ctxOf ⟨d, c, x⟩).arch = (s.ctxOf ⟨d, c, x⟩).arch)) ∧
    (k.pin = true → max 1 (s.die id.die).pinmax.toNat ≤ s.cycle - k.pinStart →
      Leads s (.pinmaxExpiry id) (fun t => (t.ctxOf id).pin = false ∧ (t.ctxOf id).pinOvr = true ∧
        (t.ctxOf id).arch = (k.settleFixed s.cycle).arch)) ∧
    (((s.die id.die).wdNow s.cycle).1 = true → k.wdRuns = true → k.task ≠ none → k.status = .running → k.streamFault = none →
      k.pendingA = PendingA.none → (s.core id.die id.core).frozenUntil ≤ s.cycle →
      s.wdLimitOf id ≤ k.wdCount s.cycle → Gives s (.watchdog id) (s.fireWatchdog id)) ∧
    ((s.core id.die id.core).frozenUntil ≤ s.cycle → k.status = .saving → NothingOut s id →
      (∀ r, k.trapDue = some r → Gives s (.trapDelivery ⟨id, none⟩) (s.finishTrap id r)) ∧
      (k.trapDue = none → Gives s (.trapDelivery ⟨id, none⟩) (s.finishSave id))) ∧
    ((s.core id.die id.core).frozenUntil ≤ s.cycle → k.status = .running ∨ k.status = .ready →
      (∀ n, let u := s.recordError id.die 5 0 id.core.val 0 (32 * n.toNat)
        Gives s (.trapDelivery ⟨id, some n⟩) (u.takeTrap id ⟨0x10, 0, k.fva, k.finfo⟩ false)) ∧
      (∀ r, k.streamFault = some r → Gives s (.trapDelivery ⟨id, none⟩)
        ((s.updCtx id fun y => { y with streamFault := none }).takeTrap id r true)) ∧
      (k.streamFault = none → k.pendingA.linkLost = true → Gives s (.trapDelivery ⟨id, none⟩)
        ((s.updCtx id fun y => { y with pendingA := { k.pendingA with linkLost := false } }).takeTrap id
          ⟨0x0B, 0, k.fva, k.finfo⟩ false)) ∧
      (k.streamFault = none → k.pendingA.linkLost = false → ∀ f rest, k.pendingA.faults = f :: rest →
        Gives s (.trapDelivery ⟨id, none⟩)
          ((s.updCtx id fun y => { y with pendingA := { k.pendingA with faults := rest, taken := some f } }).takeTrap id
            f.trap false)) ∧
      (k.streamFault = none → k.pendingA = { PendingA.none with xreport := true } → k.status = .ready → k.pin = false →
        Gives s (.trapDelivery ⟨id, none⟩) s)) ∧
    (∀ n, k.status = .ready ∨ (∃ w, k.status = .blocked w ∧ w ≠ .halt) → k.inh = false → k.pin = false →
      (∀ o, o ∈ k.streams → 2 ≤ o.kind.toNat) →
      let y := k.settle s.cycle
      y.inflight = [] → y.latches = [] → y.iuvec.toNat % 2 = 1 → y.publishing = false ∨ y.held = [] → y.firstFired = some n → Leads s (.noticeEntry id) (fun t =>
        let z := t.ctxOf id
        z.status = .ready ∧ z.inh = true ∧ z.markDue = false ∧ z.held = [] ∧ z.ckpt.arch = z.arch ∧
        part z.uiret.toNat 0 56 = y.arch.pc.toNat % 2 ^ 56 / 4 * 4 ∧
        part z.uiret.toNat 56 6 = (match y.arch.due with | some n => n.toNat | none => (s.updCtx id fun _ => y).repAt id) ∧
        z.notices = k.notices.erase n ∧ z.arch.pc = BitVec.ofNat 64 (y.iuvec.toNat / 4 * 4) ∧
        z.arch.hs = vset (vset y.arch.hs 1 (BitVec.ofNat 64 n.tag.toNat)) 2
          (BitVec.ofNat 64 (match n.fired with | some v => v.toNat | none => 0)) ∧
        z.arch.s = y.arch.s ∧ z.keepM = y.arch.stickyM ∧ z.keepC = y.arch.stickyC ∧ z.arch.stickyM = none ∧
        z.arch.stickyC = none ∧ z.keepWait = y.wait ∧ z.keepKv = y.kvReq ∧ z.keepBoard = y.boarding ∧ z.wait = none ∧
        z.kvReq = none ∧ z.boarding = none))

/-- 06 R157, 07 R175, R176, 02 R56, 16 R389: a waiter whose barrier has flipped, or whose limit has passed, has its
status recorded and its registration dropped, timed out where the flip came past the limit; one whose barrier is
poisoned ends with its status poisoned; a receive whose guard has passed issues again to find it. An arrival that reaches
its home is performed there. -/
def Obligations.WaitEvents : Prop :=
  ∀ (s : State) (id : CtxId) (w : Wait) (pa : Nat) (a : BitVec 52),
    let k := s.ctxOf id
    let o := s.barrier pa
    let past (t : Nat) := ∃ l, w.limit = some l ∧ l.toNat < t
    let late := past s.gtime
    let flipped := o.phase ≠ w.phase ∨ o.gen ≠ w.g0
    let flip := (s.flipOf pa w.g0).getD s.gtime
    let ended (i : Instr) (code : BitVec 2) : Prop := Leads s i (fun t =>
      (t.ctxOf id).wait = some { w with registered := false, result := some code } ∧
      (k.status = .blocked .barrier → k.pin = false → (t.ctxOf id).status = .ready))
    (s.MemOk → k.wait = some w → k.keepWait = none → w.bar = some pa → w.result = none → s.poisoned pa 64 = false →
      (w.registered = false →
        (o.init = false → ended (.barrierPoll id) 3) ∧
        (o.init = true → flipped → ¬past flip → ended (.barrierPoll id) 0) ∧
        (o.init = true → flipped → past flip → ended (.barrierPoll id) 1) ∧
        (o.init = true → ¬flipped → late → ended (.barrierPoll id) 1) ∧
        (o.init = true → ¬flipped → ¬late → Gives s (.barrierPoll id) s)) ∧
      (late → o.init = true → ¬flipped → ended (.btwaitTimeout id) 1) ∧
      (late → o.init = true → flipped → past flip → ended (.btwaitTimeout id) 1) ∧
      (late → o.init = true → flipped → ¬past flip → ended (.btwaitTimeout id) 0) ∧
      (¬late → w.limit ≠ none → Gives s (.btwaitTimeout id) s)) ∧
    (k.wait = some w → k.keepWait = none → w.bar = some pa → w.result = none → w.registered = false →
      s.poisoned pa 64 = true → Leads s (.barrierPoll id) (fun t =>
        (t.ctxOf id).wait = some { w with result := some 0, bad := true } ∧ t.mem = s.mem ∧
        (k.status = .blocked .barrier → k.pin = false → (t.ctxOf id).status = .ready))) ∧
    (region a.toNat = .spad → a.toNat % 64 = 0 → Gives s (.barrierArrival a)
      (s.arrival a.toNat (homeDie a.toNat) (homeCore a.toNat).val).1) ∧
    (∀ v, k.slotWait = some v → k.status = .blocked .receive → v.slot + guardOf s < s.gtime →
      Leads s (.slotGuardExpiry id) (fun t => (t.ctxOf id).arch = k.arch ∧
        (t.ctxOf id).status = if k.pin then .running else .ready))

/-- 09 R207-R209, R219, R222-R224, R228, R232, 15 R354, R360-R364, R367: windows begin, end, and leave their sums and
reports; a fault at a window or at its destination, or a revoked hold, stops the operation there with XPR recorded;
broadcasts start on their lanes; a calibration ends. -/
def Obligations.StreamEvents : Prop :=
  ∀ (s u : State) (id : CtxId) (o : StreamOp) (n : Nat) (d : Fin 8) (c : Fin 16) (ok : Bool) (temp : BitVec 10)
    (out : WindowOut) (vals : List (BitVec 32)) (rep : BitVec 32) (rest : List WindowOut) (e : Nat),
    let first := o.start + (n - o.first) * (part o.geom.toNat 0 9 + 1)
    ((s.ctxOf id).firstBegin = some (o, n) → first ≤ s.gtime → o.first ≤ n → s.openWindow id o n = (u, out) →
      Gives s (.windowFirstSymbol id) (u.updCtx id fun k => { k with
        streams := updFirst (· == o) (fun p => { p with begun := p.begun ++ [out] }) k.streams })) ∧
    ((s.ctxOf id).firstResult = some o → o.first ≤ o.next →
      o.start + (o.next - o.first + 1) * (part o.geom.toNat 0 9 + 1) + 15 ≤ s.gtime → s.resultHeld id o = false →
      (o.void = false → o.begun = .ran vals rep :: rest →
        (∀ t, s.resultParts id o = (u, .error t) → Gives s (.windowResult id) (u.faultStream id o t)) ∧
        (∀ ps, s.resultParts id o = (u, .ok ps) → o.next + 1 < part o.geom.toNat 16 16 → o.halting = false →
          let old := if o.sums = [] then u.firstSums id o ps else (u, o.sums, o.spoilt)
          let sums := old.2.1.zipWith (fun a b => BitVec.ofNat 32
            (fp32.round .rne false (vadd .rne (fp32.value a.toNat) (fp32.value b.toNat)).1).1) vals
          let o' := { o with next := o.next + 1, begun := rest, sums := sums, spoilt := old.2.2 }
          Gives s (.windowResult id) (((old.1.writeSums id o' ps).reportWindow id
            (rep + BitVec.ofNat 32 (65536 * (o.next % 65536)))).updCtx id fun k => { k with
              streams := updFirst (· == o) (fun _ => o') k.streams }))) ∧
      (∀ t, o.begun = .fault t :: rest → Gives s (.windowResult id) (s.faultStream id o t)) ∧
      (o.begun = .revoked :: rest → Gives s (.windowResult id) (s.loseHold id o))) ∧
    (∀ t, (s.ctxOf id).unboards = [] → o.void = false → Stopped (s.ctxOf id) ((s.faultStream id o t).ctxOf id) o ∧
      ((s.ctxOf id).streamFault = none → ((s.faultStream id o t).ctxOf id).streamFault = some t) ∧
      Stopped (s.ctxOf id) ((s.loseHold id o).ctxOf id) o ∧
      (part (s.die id.die).bscfg.toNat 0 1 = 0 → ((s.loseHold id o).ctxOf id).pendingA.boardFault = true)) ∧
    (Leads s (.modulatorWindowStart d) (fun t =>
      ∀ b, b ∈ (s.die d).bank → ∃ b', b' ∈ (t.die d).bank ∧ b'.id = b.id ∧ b'.start = b.start ∧
        b'.begun = max b.begun (b.started s.gtime))) ∧
    ((s.core d c).calEnd = some e → e ≤ s.cycle → Leads s (.xcalComplete d c ok temp) (fun t =>
      let k := t.core d c
      k.calValid = ok ∧ k.calFail = !ok ∧ k.calTstep = false ∧
      k.calTemp = (if ok then temp else (s.core d c).calTemp) ∧
      k.calAt = (if ok then s.cycle else (s.core d c).calAt) ∧ (k.calEnd = none ∨ k.calEnd = some (s.cycle + 8192))))

/-- 09 R216-R218: the converter code of one receiver, for a sum S and a range g: within 1 of S / 2^g where the
window is calibrated and unsaturated, and the nearest integer where that is 0.45 or more from a boundary; at its
limit where it saturates; in range in any case. -/
def Obligations.ConverterCodes : Prop :=
  ∀ (sum : Int) (g free : Nat),
    let d : Int := 2 ^ g
    let code := converterCode sum g
    (16383 * d < 2 * sum → ∀ cal, code cal free = 8191) ∧
    (2 * sum < -16383 * d → ∀ cal, code cal free = -8192) ∧
    (-16383 * d ≤ 2 * sum → 2 * sum ≤ 16383 * d →
      code true free * d - sum ≤ d ∧ sum - code true free * d ≤ d ∧
      (20 * (sum % d) ≤ d ∨ 19 * d ≤ 20 * (sum % d) →
        2 * (code true free * d - sum) ≤ d ∧ 2 * (sum - code true free * d) ≤ d)) ∧
    ∀ cal, -8192 ≤ code cal free ∧ code cal free ≤ 8191

/-- 07 R153, R169, R177, 04 R107, R110, R113, R114, 13 R311, 15 R377, 16 R407: the engines go on with their operations
and end them. A transfer runs on until it ends, waits or faults; a migration begins when its block is idle, copies its
64 KiB, or fails where its frame is no storage, publishes, and waits for a full release ring only with its record; collectives start together once every rank
has issued, and all fail where they disagree. The requests on one list are performed in the order in which they came,
and the status of one is kept while a context or a saved task waits for it. -/
def Obligations.EngineEvents : Prop :=
  ∀ (s t : State) (id : CtxId) (h : BitVec 16) (o : EngineOp) (q : KvReq) (v : Int) (grp : Fin 16),
    (Outstanding s id h o → o.kind.copies = true →
      Gives s (.engineOperationComplete id h) (s.runCopy o false) ∧
      Gives s (.enginePieceFault id h) (s.runCopy o true)) ∧
    (Outstanding s id h o → o.kind.collective = true → o.started = true → o.redo = [] →
      (∀ r, r ∈ s.joist.peerReqs → ¬(r.id = o.id ∧ r.engine = some o.handle ∧ r.read = false)) →
      (o.failed = true → Gives s (.engineOperationComplete id h) (s.endOp o 3)) ∧
      (o.failed = false → o.pub = false →
        Gives s (.engineOperationComplete id h) (s.endOp o (if o.poison then 1 else 0)))) ∧
    ((s.die id.die).engOps.find? (fun y => y.id == id && y.handle == h && y.kind == .kvmig) = some o →
      let e := s.kvEntry id.die o.block
      let x := s.die id.die
      let at_ (n : Nat) := o.started = true ∧ o.pos = n
      (o.started = false → s.mayRun o = false → Gives s (.kvmigComplete id h) s) ∧
      (o.started = false → s.mayRun o = true →
        (s.migBad id.die o.block o.dst = true → Gives s (.kvmigComplete id h) ((s.noteMig id o.block).endOp o 3)) ∧
        (s.migBad id.die o.block o.dst = false → e.state ≠ 0 → Gives s (.kvmigComplete id h) s) ∧
        (s.migBad id.die o.block o.dst = false → e.state = 0 → Gives s (.kvmigComplete id h) (s.startMig o))) ∧
      (at_ 0 → x.freeEngine = none → Gives s (.kvmigComplete id h) s) ∧
      (∀ g, at_ 0 → x.freeEngine = some g → isDev (e.frame * 65536) = false → Gives s (.kvmigComplete id h)
        ((s.setKvLo id.die o.block fun w => setField w 2 2 0).endOp o 3)) ∧
      (∀ g, at_ 0 → x.freeEngine = some g → isDev (e.frame * 65536) = true → s.MemOk → Leads s (.kvmigComplete id h) (fun u =>
        (∀ n, n < 65536 → memByte u.mem (o.target * 65536 + n) = memByte s.mem (e.frame * 65536 + n)) ∧
        (vget (u.die id.die).engines g).hw = true)) ∧
      (at_ 1 → Gives s (.kvmigComplete id h) (s.publishMig o)) ∧
      (at_ 1 → o.poison = true → Leads s (.kvmigComplete id h) (fun u => (u.die id.die).kvMigs = x.kvMigs ∧
        (u.die id.die).pubcnt = x.pubcnt)) ∧
      (at_ 1 → o.poison = false → o.migOwned = true → x.pbEn = true → e.pbidx < x.npb →
        Leads s (.kvmigComplete id h) (fun u => (u.die id.die).kvMigs = x.kvMigs + 1 ∧
          (u.die id.die).pubcnt = x.pubcnt + 1 ∧ (u.die id.die).kvFull = x.kvFull)) ∧
      (at_ 2 → x.rlFull = false → Gives s (.kvmigComplete id h) ((s.pushRelease id.die o.comp.toNat).endOp o 0)) ∧
      (at_ 2 → x.rlFull = true → Leads s (.kvmigComplete id h) (fun u =>
        (u.die id.die).kvFull = true ∧ u.mem = s.mem ∧ (u.die id.die).engOps = x.engOps))) ∧
    (s.openReq id = some q →
      (s.kvBehind q = true → Gives s (.kvRequestDone id) s) ∧
      (s.kvBehind q = false →
        let ends (t : State) (v : Int) (bad : Bool) : Prop := Leads s (.kvRequestDone id) (fun u => u.mem = t.mem ∧
          let wanted := q.task ≠ none ∨ (∃ w, (t.ctxOf id).kvReq = some w ∧ w.num = q.num) ∨
            ∃ w, (t.ctxOf id).keepKv = some w ∧ w.num = q.num
          (wanted → (u.die id.die).kvReqs = (t.die id.die).kvReqs.map
            fun p => if p.num = q.num then { q with status := some (BitVec.ofInt 64 v), poison := bad } else p) ∧
          (¬wanted → (u.die id.die).kvReqs = (t.die id.die).kvReqs.filter fun p => p.num != q.num))
        (s.kvStep q = .wait t → Gives s (.kvRequestDone id) t) ∧ (s.kvStep q = .done v t → ends t v false) ∧
        (s.kvStep q = .poison t → ends t 0 true))) ∧
    (let ops := s.instance_ grp
     ops ≠ [] → ops.length = (vget s.joist.groups grp).nrank →
      (agree ops = false → Gives s (.collectiveInstanceStart grp) (ops.foldl (fun s o => s.endOp o 3) s)) ∧
      (agree ops = true → (∀ o, o ∈ ops → s.mayRun o = true) →
        (∀ u, s.gatherRanks ops = (u, none) → Gives s (.collectiveInstanceStart grp) u) ∧
        ∀ u srcs, s.gatherRanks ops = (u, some srcs) →
          Gives s (.collectiveInstanceStart grp) (u.moveRanks ops.length ops srcs)))

/-- 17 R410-R413, R419, 19 R448: the registers of queues, the fetch of a descriptor and of its sequence word, the
dependency of a launch, and its end. -/
def Obligations.QueueEvents : Prop :=
  ∀ (s u v : State) (d : Fin 8) (q : Fin 64) (val : W64) (l : Launch) (bs word : List Byte),
    let x := s.queue d q
    let size := 2 ^ min 12 x.slog.toNat
    let entry := BitVec.ofNat 64 (x.qbase.toNat / 256 * 256 + 256 * (x.head.toNat % size))
    let seqWord := BitVec.ofNat 64 (x.qseqb.toNat / 256 * 256 + 4 * (x.head.toNat % size))
    let served := s.boot = .ready ∧ x.en = true ∧ x.asid ≠ 0 ∧ x.head ≠ x.tail ∧ x.launch = none
    (let t : BitVec 32 := BitVec.ofNat 32 (part val.toNat 0 32)
     let fits := (t - x.head).toNat ≤ size ∧ (x.tail - x.head).toNat ≤ (t - x.head).toNat
     (fits → Gives s (.qkick d q val) (s.updQueue d q fun y => { y with tail := t })) ∧
     (¬fits → Gives s (.qkick d q val) (s.updQueue d q fun y => { y with err := true }))) ∧
    (let moves := part val.toNat 8 6 ≠ x.asid.val ∨ part val.toNat 16 4 ≠ x.slog.toNat
     Leads s (.qcfgWrite d q val) (fun t =>
      let y := t.queue d q
      (y.en = true ↔ val.toNat % 2 = 1) ∧ y.head = x.head ∧ y.tail = x.tail ∧ y.qbase = x.qbase ∧
      (y.fault = true ↔ x.fault = true ∧ part val.toNat 2 1 = 0) ∧
      (moves ∧ x.head ≠ x.tail → y.err = true ∧ y.asid = x.asid ∧ y.slog = x.slog) ∧
      (¬(moves ∧ x.head ≠ x.tail) → (y.err = true ↔ x.err = true ∧ part val.toNat 1 1 = 0) ∧
        y.asid.val = part val.toNat 8 6 ∧ y.slog.toNat = part val.toNat 16 4))) ∧
    (Leads s (.scfgWrite d val) (fun t =>
      ((t.die d).schedEn = true ↔ val.toNat % 2 = 1) ∧ (t.die d).deppoll.toNat = part val.toNat 8 24 ∧
      (t.queue d q).head = x.head ∧
      (x.launch = some l → (t.queue d q).launch =
        some (if l.depFail = true then { l with depFail := false, depAt := s.cycle } else l)))) ∧
    (served → x.seqTry = 0 → x.qseqb.toNat % 2 = 0 → s.schedRead d x.asid true entry 256 = (u, .ok bs) →
      let w := dwords 32 bs
      (∀ why, descReason w q = some why → Leads s (.descriptorFetch d q) (fun t =>
        (t.queue d q).head = x.head + 1 ∧ (t.queue d q).launch = none ∧ t.mem = u.mem)) ∧
      (descReason w q = none → wordAt w 9 = 0 → wordAt w 10 ≠ 0 → part (wordAt w 5).toNat 0 40 ≠ 0 →
        Leads s (.descriptorFetch d q) (fun t => (t.queue d q).head = x.head ∧ t.mem = u.mem ∧
          (t.queue d q).launch = some ⟨.dependency, w, entry, List.replicate 16 0, 0, part (wordAt w 5).toNat 0 40, 0,
            false, false, u.cycle⟩))) ∧
    (served → x.seqTry = 0 → x.qseqb.toNat % 2 = 0 → s.schedRead d x.asid true entry 256 = (u, .fault) →
      Leads s (.descriptorFetch d q) (fun t => (t.queue d q).en = false ∧ (t.queue d q).fault = true ∧
        (t.queue d q).head = x.head)) ∧
    (served → 0 < x.seqTry → x.seqAt ≤ s.cycle → x.qseqb.toNat % 2 = 1 →
      s.schedRead d x.asid true seqWord 4 = (u, .ok word) → u.schedRead d x.asid true entry 256 = (v, .ok bs) →
      leNat word ≠ x.head.toNat → word.length = 4 →
      (x.seqTry < 63 → Gives s (.sequenceRetry d q) (v.updQueue d q fun y =>
        { y with seqTry := x.seqTry + 1, seqAt := v.cycle + 2000 })) ∧
      (63 ≤ x.seqTry → Leads s (.sequenceRetry d q) (fun t => (t.queue d q).en = false ∧ (t.queue d q).seqTry = 0 ∧
        (t.queue d q).head = x.head))) ∧
    (x.launch = some l → l.stage = .dependency → l.depFail = false → l.depAt ≤ s.cycle →
      (s.schedRead d x.asid false (wordAt l.desc 10) 8 = (u, .ok bs) →
        (leNat bs = 0 → part (wordAt l.desc 6).toNat 18 1 = 0 → Gives s (.dependencyPoll d q)
          (u.updQueue d q fun y => { y with launch := some { l with stage := .eligible } })) ∧
        (leNat bs ≠ 0 → Gives s (.dependencyPoll d q) (u.updQueue d q fun y =>
          { y with launch := some { l with depAt := u.cycle + max 1 (u.die d).deppoll.toNat } }))) ∧
      (s.schedRead d x.asid false (wordAt l.desc 10) 8 = (u, .fault) → Leads s (.dependencyPoll d q) (fun t =>
        (t.queue d q).launch = some { l with depFail := true }))) ∧
    (x.launch = some l → (s.die d).schedBusy = false →
      Gives s (.endq d q) (s.updQueue d q fun y =>
        if l.live = 0 then { y with launch := none, head := y.head + 1 }
        else { y with launch := some { l with count := l.next, stage := .eligible } })) ∧
    (x.launch = none ∨ (s.die d).schedBusy = true →
      Gives s (.endq d q) (s.updDie d fun y => { y with schedErr := true }))

/-- 08 R185, R186, 12 R290, 17 R415-R420, 01 R33: tasks are dispatched onto contexts, which fails in an identifier
without a root; they are saved for others, suspended, resumed and ended; a command that meets none, or one still at work, sets ERR. -/
def Obligations.TaskEvents : Prop :=
  ∀ (s u : State) (d : Fin 8) (n : Fin 1024) (t : Task) (id : CtxId) (xs : List Extent),
    let busy := (s.die d).schedBusy = true
    let failed : State := s.updDie d fun y => { y with schedErr := true }
    (s.boot = .ready → (s.die d).schedEn = true → (s.die d).dispatchAt ≤ s.cycle →
      (State.dispatchOne d ((s.die d).cands.take 64) s = (u, true) →
        Gives s (.taskDispatch d) (u.updDie d fun y => { y with dispatchAt := u.cycle + 8 })) ∧
      ((s.die d).cands = [] → Gives s (.taskDispatch d) s)) ∧
    (part (vget (s.die id.die).asroot t.asid).toNat 0 1 = 0 → s.task id.die n.val ≠ none →
      ∃ y, (s.startTask id n.val t).task id.die n.val = some y ∧ y.state = .dfault) ∧
    (s.taskExtents id.die n.val t = (u, .ok xs) → t.hasImage = false →
      let c := (s.startTask id n.val t).ctxOf id
      c.status = .ready ∧ c.task = some n ∧ c.extents = xs ∧ c.wid = t.wid ∧ c.widcfg = wordAt t.desc 3 ∧
      c.asid = t.asid ∧ c.markDue = true ∧ c.arch.p = 1 ∧ c.arch.rbs = 0 ∧ c.arch.rbp = 0 ∧
      c.arch.pc = BitVec.ofNat 64 ((wordAt t.desc 1).toNat + part (wordAt t.desc 2).toNat 0 32) ∧
      (∀ k : Fin 64, vget c.arch.s k = if k = 1 then t.wid else if k = 2 then t.descVa else 0) ∧
      ∀ k : Fin 16, vget c.arch.ft k = t.ft.getD k.val 0) ∧
    (let v := (dieCtxs d).foldl (fun s id => s.pushSave id) s
     ∀ c rest m k, v.boot = .ready → (v.die d).schedEn = true → (v.die d).saveAt ≤ v.cycle → (v.die d).cands = c :: rest →
      v.spot d (descCores (v.candDesc d c)) = none → (∀ p, p ∈ (v.die d).tasks → p.2.saveFor ≠ some c) →
      v.victim d (v.candDesc d c) = some (m, k) → k.state = .resident →
      Gives s (.preemptionSave d)
        ((v.updTask d m fun y => { y with state := .saving, saveFor := some c }).pushSave ⟨d, k.core, k.ctx⟩)) ∧
    (s.task d n.val = some t → t.state = .ending → t.acted = false → t.desc.length = 32 →
      part (wordAt t.desc 11).toNat 3 61 = 0 → NothingOut s ⟨d, t.core, t.ctx⟩ →
      (∀ o, o ∈ s.opsOf ⟨d, t.core, t.ctx⟩ → o.held = true) →
      Leads s (.completionAction d n) (fun w => w.task d n.val = none ∧
        (w.ctxOf ⟨d, t.core, t.ctx⟩).status = .idle ∧ (w.ctxOf ⟨d, t.core, t.ctx⟩).task = none)) ∧
    (¬busy → s.task d n.val = some t →
      (t.state = .saved → Gives s (.suspend d n) (s.updTask d n.val fun y => { y with state := .suspended })) ∧
      (t.state = .saving → Gives s (.suspend d n) (s.updTask d n.val fun y => { y with suspendTo := true })) ∧
      (t.state = .resident → Gives s (.suspend d n)
        ((s.updTask d n.val fun y => { y with state := .saving, suspendTo := true }).pushSave ⟨d, t.core, t.ctx⟩)) ∧
      (t.state = .suspended ∨ t.state = .dfault → t.noResume = false → Gives s (.resume d n)
        ((s.updTask d n.val fun y => { y with state := .saved, seq := (s.die d).taskSeq }).updDie d fun y =>
          { y with taskSeq := y.taskSeq + 1 })) ∧
      (t.state = .suspended → t.noResume = true → Gives s (.resume d n) failed) ∧
      Leads s (.endTask d n) (fun w => w.task d n.val = none ∧
        (t.state = .resident → (w.ctxOf ⟨d, t.core, t.ctx⟩).status = .idle))) ∧
    (busy ∨ s.task d n.val = none →
      Gives s (.suspend d n) failed ∧ Gives s (.resume d n) failed ∧ Gives s (.endTask d n) failed)

/-- 05 R119-R134: tiles are captured, those of a shared share as they were read once, or left to a repair where they are
missing, poisoned or fail their CRC; repairs
end, segments and laps begin and end, dwells are cut at their limit, and the ring is started, stopped and configured. -/
def Obligations.CaravanEvents : Prop :=
  ∀ (s : State) (d k : Fin 8) (src i : Nat) (rest : List Nat) (val : W64) (m : Manifest),
    let b := s.slot d k
    (s.tileNext d = true → s.fillingSlot d = some k → b.failed = false → b.tileSrc b.next = src → s.MemOk →
      s.joist.wire = none → s.poisoned src 65536 = false →
      (b.got + 1 ≠ b.len → Leads s (.ringTileArrival d (some [])) (fun t =>
        TileCopied s t d k src b.next ∧ t.slot d k = { b with next := b.next + 1, got := b.got + 1 })) ∧
      (b.got + 1 = b.len → Leads s (.ringTileArrival d (some [])) (fun t => (t.slot d k).state = .boarded))) ∧
    (∀ g bs, s.tileNext d = true → s.fillingSlot d = some k → b.failed = false → s.joist.curSeg = some g → g.shared = true →
      s.joist.wire = some (b.next, bs, false) → bs.length = 65536 → s.MemOk → b.got + 1 ≠ b.len →
      Leads s (.ringTileArrival d (some [])) (fun t => (t.slot d k).got = b.got + 1 ∧
        ∀ n, n < 65536 → memByte t.mem ((s.die d).slotBase d k.val + 65536 * b.next + n) = bs.getD n 0)) ∧
    (∀ wire g, s.tileNext d = true → s.fillingSlot d = some k → s.joist.curSeg = some g → s.joist.wire = none →
      wire = none ∨ s.poisoned (b.tileSrc b.next) 65536 = true ∨ (∃ flips, wire = some flips ∧
        tileTaken g d b.next s.joist.lap.toNat (s.devRead (b.tileSrc b.next) 65536) flips = none) →
      Leads s (.ringTileArrival d wire) (fun t =>
        (t.slot d k).next = b.next + 1 ∧ (t.slot d k).got = b.got ∧ (t.slot d k).repairs = b.repairs ++ [b.next] ∧
        t.mem = s.mem)) ∧
    (s.tileNext d = false → ∀ wire, Gives s (.ringTileArrival d wire) s) ∧
    (let u := s.startRepairs d
     let c := u.slot d k
     (fins 8).find? (fun k => (u.slot d k).repairOn.isSome) = some k → c.repairs = i :: rest →
      (u.poisoned (c.tileSrc i) 65536 = true → ∀ ok, Leads s (.tileRepairDone d ok) (fun t =>
        (t.slot d k).failed = true ∧ (t.slot d k).repairs = [])) ∧
      (u.poisoned (c.tileSrc i) 65536 = false →
      (c.failed = false → c.got + 1 ≠ c.len → Leads s (.tileRepairDone d true) (fun t =>
        (t.slot d k).repairs = rest ∧ (t.slot d k).got = c.got + 1 ∧ (t.die d).rprcnt = (s.die d).rprcnt + 1)) ∧
      (c.tries = 0 → Gives s (.tileRepairDone d false) (u.updSlot d k fun b => { b with tries := 1 })) ∧
      (c.tries ≠ 0 → Leads s (.tileRepairDone d false) (fun t =>
        (t.slot d k).failed = true ∧ (t.slot d k).repairs = [])))) ∧
    (s.joist.stopped = false → s.joist.injecting = true →
      (s.joist.seg.toNat + 1 < s.joist.segs.length → Leads s .segmentBoundary (fun t =>
        t.joist.seg = s.joist.seg + 1 ∧ t.joist.lap = s.joist.lap ∧ t.joist.stopped = false)) ∧
      (s.joist.segs.length ≤ s.joist.seg.toNat + 1 → Leads s .segmentBoundary (fun t =>
        t.joist.seg = 0 ∧ t.joist.lap = s.joist.lap + 1 ∧ t.joist.rmannxV = false ∧
        (t.joist.stopped = true ↔ s.joist.run = false)))) ∧
    (s.joist.stopped = false → s.joist.injecting = false → Gives s .segmentBoundary s.endDwells) ∧
    ((fins 8).find? (fun k => (s.slot d k).state == .dwell) = some k → b.dwell ≠ 0xFFFF →
      b.dwellAt + 1024 * b.dwell.toNat ≤ s.cycle → b.count ≠ 0 → Leads s (.dwellLimit d) (fun t =>
        (t.die d).rvkcnt = (s.die d).rvkcnt + 1 ∧ (t.slot d k).hold = 0 ∧ (t.slot d k).parked = 0)) ∧
    (s.joist.stopped = true → s.joist.rmanV = true → s.loadManifest s.joist.rmanBase.toNat = some m →
      Leads s (.ringStart val) (fun t => t.joist.run = true ∧ t.joist.stopped = false ∧ t.joist.manifest = some m ∧
        t.joist.seg = 0 ∧ t.joist.lap = s.joist.lap)) ∧
    (s.joist.stopped = true → s.joist.rmanV = false ∨ s.loadManifest s.joist.rmanBase.toNat = none →
      Leads s (.ringStart val) (fun t => t.joist.run = false ∧ t.joist.stopped = true ∧ t.joist.merr = true)) ∧
    (Leads s (.ringStop val) (fun t => t.joist.run = false ∧ t.joist.stopped = s.joist.stopped ∧
      t.joist.seg = s.joist.seg ∧ t.joist.manifest = s.joist.manifest ∧ t.dies = s.dies ∧ t.mem = s.mem ∧
      (t.joist.auto = true ↔ part val.toNat 1 1 = 1) ∧ t.joist.speed.toNat = part val.toNat 8 7 ∧
      t.joist.minspd.toNat = part val.toNat 16 7 ∧ t.joist.maxspd.toNat = part val.toNat 24 7)) ∧
    (let v := val &&& 0x0FFF1FF1
     let n := min 8 (max 1 (part v.toNat 4 4))
     let ok := s.joist.stopped = true ∧ part v.toNat 8 5 + n ≤ 32 ∧ part v.toNat 16 12 + n ≤ 4096
     (ok → Leads s (.bscfgWrite d val) (fun t => (t.die d).bscfg = v ∧ t.joist = s.joist)) ∧
     (¬ok → Gives s (.bscfgWrite d val) s))

/-- 09 R211, R212, R228, 19 R457: lanes are lit where every receiving point gets its floor, or the write is refused;
combs lock, fail, by losing their lock or with a power LOSSLIM or more below the set point of 6.0 dBm, and swap to the
spare and back, unless the spare carries another comb's lanes, or not that comb's; a swap voids every calibration (that a
commanded swap leaves its comb locked, as the rule's table has it, is log 64). Power moves one step in 4,096 cc. -/
def Obligations.LightEvents : Prop :=
  ∀ (s : State) (l : Fin 8) (k : Fin 4) (c : Fin 5) (val : W64) (power : List (BitVec 16)) (x : CombSwap),
    let j := s.joist
    let lit : W64 := BitVec.ofNat 64 (val.toNat / 2 * 2 + 1) &&& 0x1FFF0F
    let dark : W64 := BitVec.ofNat 64 (val.toNat / 2 * 2) &&& 0x1FFF0F
    let taken (w : W64) (t : State) : Prop := t.dies = s.dies ∧ t.mem = s.mem ∧ t.joist.ctRefused = j.ctRefused ∧
      (vget t.joist.lanes l).reg = w ∧ ∀ n, n ≠ l → vget t.joist.lanes n = vget j.lanes n
    let refused (who : Nat) : State :=
      { s with joist := { j with ctRefused := true, ctLane := BitVec.ofNat 3 l.val, ctWho := BitVec.ofNat 5 who } }
    let locked : Comb := { (vget j.combs c) with state := if c = 4 then 4 else 2, power := 60 }
    let weak (p : BitVec 16) : Prop := p.toInt + j.combLoss.toNat ≤ 60
    let start (toSpare commanded : Bool) : State :=
      { s with joist := { j with combSwap := some ⟨k, toSpare, commanded, s.cycle + 16384⟩ } }
    ((vget j.lanes l).reg.toNat % 2 = 0 → lanePoints lit ≠ 0 →
      ((∀ p, p ∈ j.points lit → p.2.2 ≤ p.2.1) → Leads s (.laneLight l val) (taken lit)) ∧
      (∀ p, (j.points lit).find? (fun p => decide (p.2.1 < p.2.2)) = some p → Gives s (.laneLight l val) (refused p.1))) ∧
    ((vget j.lanes l).reg.toNat % 2 = 1 ∨ lanePoints lit = 0 → Gives s (.laneLight l val) (refused 8)) ∧
    Leads s (.laneUnlight l val) (taken dark) ∧
    (j.combEn = true → (vget j.combs c).state ≠ 0 → (vget j.combs c).state ≠ 3 → Leads s (.combFailure ⟨c, none⟩) (fun t =>
      (vget t.joist.combs c).state = 3 ∧ (∀ n, n ≠ c → vget t.joist.combs n = vget j.combs n) ∧
      ∀ n : Fin 4, n.val = c.val → j.combAuto = true → (vget j.combs 4).state = 4 → j.combSwap = none → j.combFor ≠ some n →
        t.joist.combSwap = some ⟨n, true, false, s.cycle + 16384⟩)) ∧
    (∀ p : BitVec 16, j.combEn = true → (vget j.combs c).state ≠ 0 → (vget j.combs c).state ≠ 3 →
      Leads s (.combFailure ⟨c, some p⟩) (fun t => (vget t.joist.combs c).power = p ∧
        (vget t.joist.combs c).state = if weak p then 3 else (vget j.combs c).state)) ∧
    (j.combFor = none ∨ j.combFor = some k → Gives s (.combSwap k) (start true true)) ∧
    (∀ n, j.combFor = some n → n ≠ k → Gives s (.combSwap k) s) ∧
    (j.combFor = some k → Gives s (.combReturn k) (start false true)) ∧
    (j.combFor ≠ some k → Gives s (.combReturn k) s) ∧
    (j.combSwap = some x → x.ends ≤ s.cycle → Leads s .combSwapComplete (fun t =>
      t.joist.combSwap = none ∧ t.joist.combFor = (if x.toSpare then some x.comb else none) ∧
      (∀ d e, (t.core d e).calValid = false) ∧
      (x.toSpare = true → (vget t.joist.combs 4).state = 5 ∧
        ∀ n : Fin 5, n.val = x.comb.val → (vget t.joist.combs n).state = if x.commanded = true then 2 else 3) ∧
      (x.toSpare = false → (vget j.combs 4).state = 5 → (vget t.joist.combs 4).state = 4))) ∧
    (j.combEn = true → (vget j.combs c).state = 1 → Gives s (.combLocked c)
      { s with joist := { j with combs := vset j.combs c locked } }) ∧
    (s.boot ≠ .safe → Leads s (.combcfgWrite val) (fun t =>
      (t.joist.combEn = true ↔ val.toNat % 2 = 1) ∧ (t.joist.combAuto = true ↔ part val.toNat 1 1 = 1) ∧
      t.joist.combLoss.toNat = part val.toNat 8 8 ∧
      ∀ n, vget t.joist.combs n = if t.joist.combEn = j.combEn then vget j.combs n
        else { (vget j.combs n) with state := if val.toNat % 2 = 1 then 1 else 0, forC := 0, power := 0 })) ∧
    (s.cycle < j.laserAt → Gives s (.laserPowerLoop power) s) ∧
    (j.laserAt ≤ s.cycle → Leads s (.laserPowerLoop power) (fun t => t.dies = s.dies ∧ t.joist.combEn = j.combEn ∧
      t.joist.laserAt = s.cycle + 4096 ∧ ∀ n,
      let x := vget j.combs n
      let p := stepped x.power (power.getD n.val x.power)
      vget t.joist.combs n = if x.state = 2 ∨ x.state = 5
        then { x with power := p, state := if j.combEn = true ∧ weak p then 3 else x.state } else x))

/-- 16 R383, R384: the master answers a timing flit with the cycle of its arrival, and the answer completes an exchange.
16 exchanges step GTIME forward, or hold it, by the mean of half of each one's difference, rounded; a skew beyond SLOTW
ends the alignment with its alarm. Either needs a circuit to the master; that a flit waits for a quiet gap to end and for
room in the replay buffer, and that a measurement begins in the cycle in which it is due, are log 11. -/
def Obligations.TimeEvents : Prop :=
  ∀ (s : State) (seq : BitVec 16) (t2 t3 : W64) (a : Asked) (delta : BitVec 32) (q : Fin 16) (h : FlitHead),
    let j := s.joist
    let xs := j.gtExch
    let reached := ∃ q, j.circuit j.gtMaster q = true
    let first := j.circuit j.gtMaster q = true ∧ ∀ p, p < q → j.circuit j.gtMaster p = false
    let total := (xs.map fun x => (x.t2 - x.t1).toInt - (x.t4 - x.t3).toInt).foldl (· + ·) 0
    let now : W64 := BitVec.ofNat 64 s.gtime
    let sent (t : State) (x : Sent) : Prop := (vget t.joist.ports q).replay = (vget j.ports q).replay ++ [x] ∧
      (vget t.joist.ports q).txSeq = (vget j.ports q).txSeq + 1 ∧ ∀ p, p ≠ q → vget t.joist.ports p = vget j.ports p
    (s.portQuiet q = false → (vget j.ports q).replay.length < 512 → sent (s.answerTime q h)
      ⟨⟨FlitHead.bits ⟨8, j.member.toNat, h.srcm, 0, h.sdie, 0, 0, 0, false, 1, h.seq, s.gtime⟩, BitVec.ofNat 2048 s.gtime⟩, none⟩) ∧
    (j.gtSent.find? (fun x => x.seq == seq) = some a → s.recordTime seq t2 t3 =
      { s with joist := { j with gtSent := j.gtSent.erase a, gtExch := xs ++ [⟨a.t1, t2, t3, now⟩] } }) ∧
    (j.gtBusy = false → Gives s (.alignmentComplete ()) s) ∧
    (j.gtBusy = true → reached → xs.length < 16 → Gives s (.alignmentComplete ()) (s.askTimes 16)) ∧
    (j.gtBusy = true → reached → xs.length = 16 → Leads s (.alignmentComplete ()) (fun t =>
      let off := t.joist.gtOff.toInt
      (-2 ^ 35 ≤ total → total < 2 ^ 35 → (32 * off - total).natAbs ≤ 16) ∧
      t.joist.gtAligned = true ∧ t.joist.gtBusy = false ∧ t.joist.gtAlarm = false ∧ t.joist.gtExch = [] ∧
      t.joist.gtGen = j.gtGen + 1 ∧ t.mem = s.mem ∧
      (0 ≤ off → j.gtBehind ≤ s.cycle + j.gtAhead → t.gtime = s.gtime + off.toNat) ∧
      (off < 0 → t.joist.gtHold = off.natAbs ∧ t.gtime = s.gtime))) ∧
    (j.gtBusy = true → ¬reached → Leads s (.alignmentComplete ()) (fun t =>
      t.joist.gtBusy = false ∧ t.joist.gtAligned = j.gtAligned ∧ t.gtime = s.gtime)) ∧
    (j.gtAligned = false ∨ s.cycle < j.skewAt ∨ ¬reached → Gives s (.skewMeasurement ()) s) ∧
    (j.gtAligned = true → j.skewAt ≤ s.cycle → first → s.portQuiet q = false → (vget j.ports q).replay.length < 512 →
      Leads s (.skewMeasurement ()) (fun t => t.joist.skewSent = some ⟨j.gtSeq + 1, now⟩ ∧ t.joist.skewAt = s.cycle + 65536 ∧
        sent t ⟨⟨FlitHead.bits ⟨8, j.member.toNat, j.gtMaster.toNat, 0, 0, 0, 0, 0, false, 0, (j.gtSeq + 1).toNat, s.gtime⟩, 0⟩,
          none⟩)) ∧
    (delta.toInt.natAbs ≤ max 1 j.gtSlotw.toNat →
      s.takeSkew delta = { s with joist := { j with gtSkew := delta, skewSent := none } }) ∧
    (max 1 j.gtSlotw.toNat < delta.toInt.natAbs →
      let t := s.takeSkew delta
      t.joist.gtSkew = delta ∧ t.joist.gtAlarm = true ∧ t.joist.gtAligned = false ∧ t.mem = s.mem)

/-- 16 R385, R395, R400-R404, 19 R454: ports come up and go down, and what telemetry, light and gaps do to their
lanes: both ends agree on a gap 8,192 cc or more after the request, light is arbitrated once in 64 cc, and a spare trains
within 256. That telemetry waits while the replay buffer is full is log 109, what an end answers to a gap that it does not
take log 112, and that link sequences start anew at training log 113. -/
def Obligations.PortEvents : Prop :=
  ∀ (s : State) (q : Fin 16) (val : W64) (fibre : BitVec 16) (srcm : BitVec 9) (margins corr : List (BitVec 16))
    (l k : Fin 34) (ok : Bool) (g : Nat) (x : GapOffer) (rest : List (Fin 34 × Fin 34)),
    let p := vget s.joist.ports q
    let v := val.toNat
    let port (t : State) : Port := vget t.joist.ports q
    (Leads s (.portEnable q val) (fun t => (port t).en = true ∧ ((port t).untimed = true ↔ part v 1 1 = 1) ∧
      (port t).linkto.toNat = part v 8 16 ∧ ((port t).training = true ↔ p.training = true ∨ p.en = false) ∧
      (port t).up = p.up ∧ t.dies = s.dies)) ∧
    (Leads s (.portDisable q val) (fun t => (port t).en = false ∧ (port t).linkto.toNat = part v 8 16 ∧
      (p.en = true → p.trained = false → (port t).training = false) ∧
      (p.en = true → p.trained = true → t = (portIs s q { p with
        en := false, untimed := decide (part v 1 1 = 1), linkto := BitVec.ofNat 16 (part v 8 16) }).linkDeath q 4))) ∧
    (p.training = true →
      Gives s (.linkTrained q true fibre) (portIs s q { p with
        training := false, trained := true, lat := BitVec.ofNat 16 (min 65535 (fibre.toNat + 600)), telemetryAt := s.cycle,
        lastAck := s.cycle, fails := [], rxSeq := 0, txSeq := 0 }) ∧
      Leads s (.linkTrained q false fibre) (fun t => port t = { p with training := false } ∧ t.mem = s.mem)) ∧
    (p.trained = true → p.telemetryAt ≤ s.cycle →
      (p.replay.length < 512 → Leads s (.telemetrySend q) (fun t => (port t).telemetryAt = p.telemetryAt + 4096 ∧
        (port t).replay.length = p.replay.length + 1 ∧ (port t).lanes = p.lanes ∧ t.dies = s.dies)) ∧
      (512 ≤ p.replay.length → Gives s (.telemetrySend q) s)) ∧
    (p.trained = true → p.up = false →
      (srcm = s.joist.member ∨ srcm = 0x1FF → Leads s (.telemetryFlit q srcm margins corr) (fun t =>
        (port t).up = false ∧ (port t).trained = false)) ∧
      (srcm ≠ s.joist.member → srcm ≠ 0x1FF → Leads s (.telemetryFlit q srcm margins corr) (fun t =>
        (port t).up = true ∧ (port t).circ = true ∧ (port t).member = srcm))) ∧
    (p.trained = true → p.up = true → margins.length = 34 →
      Leads s (.telemetryFlit q srcm margins corr) (fun t => (port t).member = p.member ∧
        (∀ n : Fin 34, ((port t).lane n).margin = margins.getD n.val 0) ∧
        ((∀ n : Fin 34, Works (p.lane n).state → p.soft.toInt ≤ (margins.getD n.val 0).toInt ∧ p.hard.toInt ≤ (margins.getD n.val 0).toInt) →
          ∀ n : Fin 34, (p.lane n).state = .active → ((port t).lane n).state = .active ∧ ((port t).lane n).run = 0))) ∧
    ((p.lane l).state = .active ∨ (p.lane l).state = .weak →
      Leads s (.lossOfLight q l) (fun t => Failed p (port t) s.cycle l)) ∧
    (let listed (g : Nat) : Prop := p.gapsOn = true ∧ p.gap.toNat ≤ g ∧
       (if p.gapPeriod = 0 then g = p.gap.toNat else (g - p.gap.toNat) % p.gapPeriod = 0)
     let far := x.request.toNat + 8192
     let takes := if p.untimed = false then listed x.start.toNat ∧ far ≤ x.start.toNat
       else if x.untimed = true then x.start.toNat = far else far ≤ x.start.toNat
     let from_ := max far x.start.toNat
     (p.up = false → Gives s (.gapNegotiation q x) s) ∧
     (p.up = true → takes → Leads s (.gapNegotiation q x) (fun t => (port t).gapAgreed = some x.start.toNat ∧
       ∀ n : Fin 34, (p.lane n).state ≠ .weak → ((port t).lane n).state = (p.lane n).state)) ∧
     (p.up = true → ¬takes → Leads s (.gapNegotiation q x) (fun t => ∃ o, port t = { p with gapOffer := o } ∧
       (p.untimed = true → o = some from_) ∧
       (p.untimed = false → ∀ g, o = some g → listed g ∧ from_ ≤ g ∧ ∀ h, listed h → from_ ≤ h → g ≤ h)))) ∧
    (p.gapAgreed = some g → (l, k) ∈ p.swaps → g ≤ s.gtime → (p.lane l).state = .pending →
      Leads s (.laneSwapGap q) (fun t => ((port t).lane l).state = .swapping ∧ (port t).swapAt = s.cycle ∧
        ∀ n, (∀ y ∈ p.swaps, y.1 ≠ n) → (port t).lane n = p.lane n)) ∧
    (p.swaps = (l, k) :: rest → l ≠ k → (p.lane l).state = .swapping →
      Leads s (.spareTrainingDone q ok) (fun t => (port t).swaps = rest.filter (fun y => y.1 != l) ∧
        (ok = true → s.cycle ≤ p.swapAt + 256 → ((port t).lane k).state = .carrying ∧ ((port t).lane k).map = (p.lane l).map ∧
          ((port t).lane l).state = .spared) ∧
        (ok = false ∨ p.swapAt + 256 < s.cycle → ((port t).lane k).state = .failed ∧ ((port t).lane l).state = .weak))) ∧
    (p.askLess = none → Gives s (.reclaim q) (portIs s q { p with askLess := some (s.cycle / 64) })) ∧
    (s.cycle / 64 < p.lightAt → Gives s (.lightArbitration q) (portIs s q p)) ∧
    (∀ a, p.lightAt ≤ s.cycle / 64 → p.askMore = some a → p.askLess = none → Gives s (.lightArbitration q) (portIs s q
      { p with lpwr := BitVec.ofNat 8 (min 255 (p.lpwr.toNat + 1)), askMore := none, lightAt := s.cycle / 64 + 1 })) ∧
    (∀ a, p.lightAt ≤ s.cycle / 64 → p.askMore = none → p.askLess = some a → Gives s (.lightArbitration q) (portIs s q
      { p with lpwr := BitVec.ofNat 8 (p.lpwr.toNat - 1), askLess := none, lightAt := s.cycle / 64 + 1 }))

/-- 16 R387, R393-R399, 02 R58: flits arrive, taken in the order of the link's sequence (log 113) and replayed where their
CRC-32C fails: a timed one in its channel's queue, or dropped when that is full; an
answer delivers to the context that waits for it, and lets the arrival of a reduction go to its barrier; a peer's request is performed in sequence and answered; an
acknowledgement frees the replay buffer; and a link dies when one flit fails 16 replays or its limit runs out. -/
def Obligations.FlitEvents : Prop :=
  ∀ (s : State) (q : Fin 16) (d : Fin 8) (c : Fin 16) (ch : Fin 32) (seq : BitVec 16) (stamp : W64) (data : BitVec 2048)
    (id : CtxId) (r : PeerReq) (poison : Bool) (f : Flit) (n : BitVec 32) (far : Bool) (tr : Trailer),
    let p := vget s.joist.ports q
    let x := s.chan d c ch
    (x.queue.length < 8 → Leads s (.channelFlitArrival d c ch seq stamp data) (fun t => t.mem = s.mem ∧
      t.chan d c ch = { x with seqRx := seq, queue := x.queue ++ [⟨seq, stamp, s.gtime, false, data⟩] })) ∧
    (8 ≤ x.queue.length → Leads s (.channelFlitArrival d c ch seq stamp data) (fun t => t.mem = s.mem ∧
      t.chan d c ch = { x with drop := BitVec.ofNat 8 (min 255 (x.drop.toNat + 1)) })) ∧
    (s.sentReq id seq = some r → Gives s (.peerResponse id seq data poison) (s.answer r data poison) ∧
      Gives s (.peerRefused id ⟨seq, far⟩) (s.refuseReq r far)) ∧
    (∀ pa, s.sentReq id seq = some r → r.dead = false → r.engine = none → r.arrive = some pa → poison = false →
      (∀ y, y ∈ (s.ctxOf r.id).pend → y.publishes = false) → Leads s (.peerResponse id seq data poison) (fun t =>
        t.mem = (s.arrival pa r.id.die r.id.core.val).1.mem)) ∧
    (s.sentReq id seq = some r → r.dead = false → r.engine = none → r.arrive = none → poison = false →
      (∀ y, y ∈ (s.ctxOf r.id).pend → y.publishes = false) → Leads s (.peerResponse id seq data poison) (fun t => t.mem = s.mem ∧ (t.ctxOf r.id).arch = (s.ctxOf r.id).arch ∧
        (t.ctxOf r.id).pend = (s.ctxOf r.id).pend.map fun y => y.take s.cycle r data false)) ∧
    (p.up = true →
      let h := readHead f.header
      let k := 8 * h.srcm + h.sdie
      let due := (alookup k p.pseqin = none ∨ ∃ a, alookup k p.pseqin = some a ∧ h.seq = (a + 1).toNat) ∧
        (h.type = 1 ∨ h.type = 2 ∨ h.type = 4) ∧ h.len ≤ 32
      (¬due → Gives s (.peerRequest q f) s) ∧
      (due → Leads s (.peerRequest q f) (fun t =>
        let u := portIs s q { p with pseqin := ainsert k (BitVec.ofNat 16 h.seq) p.pseqin }
        t.mem = (u.performPeer h f.payload).1.mem))) ∧
    (p.trained = true →
      let good := crc32c (leBytes 16 f.header.toNat ++ leBytes 256 f.payload.toNat) = tr.crc
      let gone := match p.fails.find? fun y => y.1 == tr.seq with | some y => y.2 | none => 0
      (good → tr.seq = p.rxSeq + 1 → Gives s (.flitReceive q f tr)
        ((portIs s q { p with rxSeq := tr.seq, fails := p.fails.filter fun y => y.1 != tr.seq }).takeFlit q f)) ∧
      (good → tr.seq ≠ p.rxSeq + 1 → Gives s (.flitReceive q f tr) s) ∧
      (¬good → gone < 16 → Gives s (.flitReceive q f tr)
        (portIs s q { p with fails := (tr.seq, gone + 1) :: p.fails.filter fun y => y.1 != tr.seq })) ∧
      (¬good → 16 ≤ gone → Gives s (.flitReceive q f tr) (s.linkDeath q 0))) ∧
    (p.trained = true → (p.txSeq - n).toNat ≤ p.replay.length →
      let m := p.replay.length - (p.txSeq - n).toNat
      Gives s (.acknowledgement q n) (portIs s q { p with replay := p.replay.drop m, lastAck := s.cycle }).pumpAll) ∧
    (p.trained = true → p.replay ≠ [] → p.lastAck + 1024 * p.linkto.toNat ≤ s.cycle →
      Gives s (.ackTimeout q) (s.linkDeath q 1))

/-- 19 R449-R453, R455, 09 R228: the boot stages to READY, a failure to SAFE with its record and dark lasers, the
security unit's commands in order of arrival, and the resets. Host memory outlives a reset. -/
def Obligations.BootEvents : Prop :=
  ∀ (s : State) (d : Fin 8) (sig ver : Bool) (unit : BitVec 5) (detail : BitVec 48) (c : MbCmd) (rest : List MbCmd)
    (chunk : BitVec 8),
    let dark (t : State) : Prop := t.joist.combEn = false
    let safe (stage : BitVec 8) (t : State) : Prop := t.boot = .safe ∧ t.stage = stage ∧ dark t ∧ t.mem = s.mem ∧
      t.failTime = BitVec.ofNat 64 s.gtime
    let ended (err : Bool) (t : State) : Prop := t.mbQueue = rest ∧ (t.die d).mbDone = true ∧ (t.die d).mbErr = err ∧
      (t.die d).mbSeq = c.seq ∧ t.mem = s.mem
    (s.boot = .reset →
      (sig = true → ver = true → Gives s (.resetRelease sig ver)
        { s with boot := .selftest, stage := 3, meas0 := Config.firmwareDigest }) ∧
      (sig = false → Leads s (.resetRelease sig ver) (safe 1)) ∧
      (sig = true → ver = false → Leads s (.resetRelease sig ver) (safe 2))) ∧
    (s.boot = .selftest →
      Leads s (.selftestStageDone false d unit detail) (fun t => safe s.stage t ∧ t.failDie.toNat = d.val ∧
        t.failUnit = unit ∧ t.failDetail = detail) ∧
      (s.stage = 3 ∨ s.stage = 7 → Gives s (.selftestStageDone true d unit detail) { s with stage := s.stage + 1 }) ∧
      (s.stage = 4 → Leads s (.selftestStageDone true d unit detail) (fun t => t.stage = 5 ∧ ∀ a,
        (region a = .hbm → memByte t.mem a = 0) ∧ (region a ≠ .hbm → memByte t.mem a = memByte s.mem a))) ∧
      (s.stage = 5 → Leads s (.selftestStageDone true d unit detail) (fun t => t.stage = 6 ∧ ∀ a,
        (region a = .lpddr → memByte t.mem a = 0) ∧ (region a ≠ .lpddr → memByte t.mem a = memByte s.mem a))) ∧
      (s.stage = 6 → Leads s (.selftestStageDone true d unit detail) (fun t => t.stage = 7 ∧ t.joist.combEn = true)) ∧
      (s.stage = 8 → Gives s (.selftestStageDone true d unit detail) { s with boot := .ready, stage := 0 })) ∧
    (s.mbQueue = c :: rest → c.die = d → c.at_ < s.cycle → s.boot ≠ .safe →
      (c.op = 1 → Leads s (.attest d c.seq) (fun t => ended false t ∧
        let report := s.report d
        let digest := sha512 report
        ∀ k, k < 388 → (t.die d).mbResp.toNat / 256 ^ k % 256 =
          ((report ++ (leBytes 66 (Config.ecdsa 0 digest s.free).toNat).reverse ++
            (leBytes 66 (Config.ecdsa 1 digest s.free).toNat).reverse).getD k 0).toNat)) ∧
      (c.op = 2 → Leads s (.extend d c.seq) (fun t => ended false t ∧
        t.meas1 = sha512 (leBytes 64 s.meas1.toNat ++ (leBytes 256 (s.die d).mbReq.toNat).take 64))) ∧
      (c.op = 3 → c.arg = chunk → Leads s (.cert d chunk c.seq) (fun t =>
        ended (decide (Config.certLength ≤ 512 * chunk.toNat)) t ∧ ∀ k, k < 512 →
          (t.die d).mbResp.toNat / 256 ^ k % 256 =
            if 512 * chunk.toNat + k < Config.certLength then (Config.certByte (512 * chunk.toNat + k)).toNat else 0))) ∧
    (s.boot = .safe ∨ s.boot = .ready →
      let t : State := { State.reset with host := s.host, agenda := s.agenda, free := s.free }
      Gives s .pcieFundamentalReset t ∧ Gives s .smbusReset t)

/-! ### The machine -/

/-- A step runs what stands first. An event of the agenda runs as `exec` gives it. A core's turn goes to the running
context's next issue; when the bytes at its pc are a bundle and nothing is due at the boundary, the step is the
issue of that bundle's decoded operations by `exec` (10 R235 to R239). -/
def Obligations.StepRunsDecoded : Prop :=
  ∀ (s : State),
    (∀ i rest, s.agenda = .event i :: rest → step s = exec i (eventState s rest)) ∧
    (∀ d c, ∀ u x, TurnOf s u d c → (s.core d c).running = some x →
      ∀ v h ws, FetchesBundle (atIssue u ⟨d, c, x⟩) v ⟨d, c, x⟩ h ws →
        v.saveDue ⟨d, c, x⟩ = false → v.boundary ⟨d, c, x⟩ false = none →
        step s = issueBundle exec h ws (v.updCx fun k => { k with yields := false }))

/-- 10 R237, R238, R239: a bundle of one operation runs that operation between the opening of the bundle (the next
bundle's address, the next issue at 1 + STALL cycles) and its closing (repeats, transfer, quantum), where its
guard is true; where it is false, the bundle completes without it. After a class C trap the bundle has completed; where the operation
stops the bundle, the operation alone acts. 10 R239: at the boundary after an issue the
issues still due go down by one, or the context goes on to the next bundle (or the target of a transfer, two
cycles later); the quantum goes down by one (08 R199), the watchdog starts anew unless the bundle was blocked (08 R204),
and memory and the other registers stay. -/
def Obligations.BundleRunsOperation : Prop :=
  (∀ (s : State) (h : Header) (sl : Slot) (w : BitVec 32) (i : Instr), OneOperation s h sl w i →
     (s.rP i.guard = true →
       ∀ t, exec i (s.openBundle h [(sl, w)] [⟨sl, i, false⟩]) = .next t → t.stopped = false → t.taken = none →
         issueBundle exec h [(sl, w)] s = .next (t.closeBundle s.cur h
           (if sl = .va then i.occ s.cx else 0) (if sl = .vb then i.occ s.cx else 0) s.cycle)) ∧
     (s.rP i.guard = true →
       ∀ t, exec i (s.openBundle h [(sl, w)] [⟨sl, i, false⟩]) = .next t → t.stopped = false → t.taken ≠ none →
         issueBundle exec h [(sl, w)] s = .next (t.occupy s.cur
           (if sl = .va then i.occ s.cx else 0) (if sl = .vb then i.occ s.cx else 0) s.cycle)) ∧
     (s.rP i.guard = true →
       ∀ t, exec i (s.openBundle h [(sl, w)] [⟨sl, i, false⟩]) = .next t → t.stopped = true →
         issueBundle exec h [(sl, w)] s = exec i s) ∧
     (s.rP i.guard = false →
       issueBundle exec h [(sl, w)] s =
         .next ((s.openBundle h [(sl, w)] [⟨sl, i, false⟩]).closeBundle s.cur h 0 0 s.cycle))) ∧
  (∀ (s : State) (id : CtxId) (h : Header) (a b t : Nat),
     let c := s.ctxOf id
     let u := s.closeBundle id h a b t
     let k := u.ctxOf id
     let left := match c.arch.due with | some n => min n.toNat h.rep.toNat | none => h.rep.toNat
     k.quantum = c.quantum - 1 ∧ (c.wasBlocked = false → k.wdStart = max t (s.core id.die id.core).frozenUntil ∧ k.wdHeld = 0) ∧ k.jumped = false ∧ u.mem = s.mem ∧ u.cycle = s.cycle ∧
     (c.jumped = true → k.arch = { c.arch with pc := c.npc, due := c.nextDue } ∧
       (u.core id.die id.core).nextIssue = (s.core id.die id.core).nextIssue + 2) ∧
     (c.jumped = false → (u.core id.die id.core).nextIssue = (s.core id.die id.core).nextIssue ∧
       (left = 0 → k.arch = { c.arch with pc := c.npc, due := none }) ∧
       (0 < left → ∃ n : BitVec 6, n.toNat = left - 1 ∧ k.arch = { c.arch with due := some n })))

/-- The words that the examples of 10 R235, R242 and of 12 to 16 give, and what they stand for there: one at least
of every family. -/
def Obligations.DecodeExamples : Prop :=
  [(CodeUnit.s, 0x20011450#32, Instr.addi 0 5 5 1),
   (.s, 0x3C871030#32, .cmp 0 3 4 7 2),
   (.s, 0x6BFFF000#32, .mloop 0 0xFFF8),
   (.s, 0x8A4F3C20#32, .tshapeImm 0 2 15 15 1),
   (.s, 0x80001490#32, .csrr 0 9 5),
   (.m, 0x004A8C70#32, .ld 0 7 3 2 0 1 2 4),
   (.m, 0x20084420#32, .tld 0 2 0 1 1 8 0),
   (.m, 0x4229D840#32, .cas 0 4 6 3 9 1),
   (.m, 0x66503220#32, .fredb 0 2 1 12 0 5),
   (.m, 0x80B00000#32, .fence 0 3 1),
   (.m, 0x86001050#32, .bwait 0 5 4),
   (.v, 0x01925430#32, .tadd 0 3 4 5 2 1 1 1),
   (.v, 0x0A062160#32, .tfma 0 6 1 2 6 0 0),
   (.v, 0x20037220#32, .tiadd 0 2 2 7 1 1 0 0),
   (.v, 0x40108930#32, .trget 0 3 9 4 2),
   (.v, 0x60000180#32, .tredr 0 8 1 0 0 0 0 0),
   (.v, 0x80002140#32, .tdot 0 4 1 2 0 0 0),
   (.v, 0xA2000550#32, .trsqa 0 5 5 0 0 0 0),
   (.v, 0xC8018180#32, .kcnt 0 3 12),
   (.x, 0x00131910#32, .xdot 0 1 2 6 3 1 0 0),
   (.x, 0x04021A10#32, .xbcast 0 1 4 6 2),
   (.x, 0x0E002400#32, .xwait 0 9),
   (.x, 0x20001C50#32, .board 0 5 7 0),
   (.x, 0x40492AC0#32, .cpy 0 4 5 10 9 1),
   (.x, 0x4E0C2400#32, .cnote 0 9 12),
   (.x, 0x4C0B2400#32, .cwait 0 9 11),
   (.x, 0x600929A0#32, .cred 0 2 3 10 9 0),
   (.c, 0x02B50A70#32, .recv 0 7 5 4 1 22),
   (.c, 0x02BD0A80#32, .recv 0 8 5 4 1 23),
   (.header, 0xF0000000#32, .nop 0 0 0 0)].all
    (fun x => decide (decodeSlot x.1 x.2.1 = some x.2.2 ∧ decodeRun x.1 x.2.1 = some x.2.2 ∧ encode x.2.2 = some x.2.1)) = true ∧
  decodeHeader 0xF0820000#32 = some ⟨0, false, 0, 2, 2⟩ ∧ decodeHeader 0xF0400020#32 = some ⟨2, false, 0, 0, 1⟩

/-- 10 R235, R236, R248 to R250 and the encodings of 12 to 16: every operation with a code word encodes, and the
word of a well-formed one decodes to it again, with every operand, both for the scanner and at an issue. -/
def Obligations.EncodingRoundTrip : Prop :=
  ∀ (i : Instr) (u : CodeUnit), i.codeUnit = some u →
    (∃ w, encode i = some w) ∧
    (i.wf = true → ∀ w, encode i = some w → decodeSlot u w = some i ∧ decodeRun u w = some i)

/-- 10 R249, R250: a word that the scanner accepts in a slot has one meaning: the operation is well-formed, belongs
to that unit, and encodes to that word. Every other word is refused. -/
def Obligations.WordHasOneMeaning : Prop :=
  ∀ (u : CodeUnit) (w : BitVec 32) (i : Instr), decodeSlot u w = some i →
    i.wf = true ∧ i.codeUnit = some u ∧ encode i = some w

/-- Every step, be it an issue, an event or a cycle, keeps both memories in their one form. -/
def Obligations.StepKeepsMemory : Prop := ∀ s t : State, s.MemOk → step s = .next t → t.MemOk

/-- Both memories have their one form after reset. What the spec's tables give for reset: the boot state (19 R450),
context control (08 R203), errors (12 R296, 03 R91), the photonic, notice and request registers of a context (09
R223, 07 R180, 02 R67), core registers (19 R456, 16 R386), die registers (04 R103, 05 R134, 17 R419, 08 R205, 18
R436, 19 R445) and Joist registers (16 R382, 09 R210, 05 R133). -/
def Obligations.ResetState : Prop :=
  (State.reset.MemOk) ∧
  (let s := State.reset
   (∀ id : CtxId, let c := s.ctxOf id
     c.status = .idle ∧ c.task = none ∧ c.pin = false ∧ c.pinOvr = false ∧ c.quantum = 4096 ∧ c.cause = 0 ∧ c.fva = 0 ∧
     c.finfo = 0xF000 ∧ c.fstat = 0 ∧ c.sbctl = 0 ∧ c.xctl = 0 ∧ c.sticky = 0 ∧ c.xpr = 0 ∧ c.reports = [] ∧
     c.iuvec = 0 ∧ c.uiret = 0 ∧ c.inh = false ∧ c.mrql = 0 ∧ c.mrqr = 0 ∧ c.mrqi = 0 ∧ c.arch.pkr = 0 ∧
     c.arch.fbase = 0 ∧ c.arch.rbs = 0 ∧ c.arch.rbp = 0 ∧ (∀ n, c.rTS n = 0 ∧ c.rFT n = 0) ∧ ∀ n, c.rLC n = 0) ∧
   (∀ d c, let k := s.core d c
     k.running = none ∧ k.clim = 640 ∧ k.frzEcc = 0 ∧ k.frzGov = 0 ∧ k.calValid = false ∧ k.l1tlb = [] ∧
     ∀ n : Fin 32, (vget k.channels n).desc.toNat = 0x1FF * 16 + 40 * 2 ^ 32) ∧
   (∀ d, let k := s.die d
     k.habase = 0 ∧ (∀ n : Fin 64, vget k.asroot n = 0) ∧ k.merrV = false ∧ k.kvbase = 0 ∧ k.pbtab = 0 ∧ k.schedEn = true ∧
     k.deppoll = 4096 ∧ k.pinmax = 65536 ∧ k.wdEn = true ∧ k.wdLimit = 0x100000 ∧ k.svcfg = 20 ∧ k.eqSlog = 7 ∧
     k.eqEn = false ∧ (∀ n : Fin 64, (vget k.queues n).en = false) ∧ k.tasks = [] ∧ k.mbDone = false) ∧
   s.boot = .reset ∧ s.cycle = 0 ∧ s.mem = [] ∧ s.joist.mvalid = false ∧ s.joist.member = 0x1FF ∧
   s.joist.gtGuard = 32 ∧ s.joist.gtMaster = 0x1FF ∧ s.joist.gtSlotw = 4 ∧ s.joist.run = false ∧ s.joist.speed = 64 ∧
   (∀ l : Fin 8, (vget s.joist.lanes l).reg = 0) ∧ ∀ q : Fin 16, (vget s.joist.ports q).en = false)

/-- 18 R421, R424: every fault of the manual is a trap or an event, so that every operation and every step completes in
a next state. -/
def Obligations.EveryStepCompletes : Prop := ∀ s : State, Completes s ∧ ∀ i : Instr, ∃ t, exec i s = .next t

/-- 18 R421, R424, R431, R432: taking a trap of a context with nothing outside. Classes I, C and A with no held
store commit, and the pc is the resume point as it stood; class R goes back to the pc of the checkpoint, or
takes IDEMP in its place where a conflict bit is set. In each case the context is captured and its task
suspended, with an image unless SVBASE names other storage (18 R436). 12 R296, 18 R421: a class I trap leaves the bundle unissued; what it records names the cause, with
ARG 0 and FVA and FINFO as they were. -/
def Obligations.TrapEntry : Prop :=
  (∀ (s : State) (id : CtxId) (r : TrapRec), NothingOut s id → (s.ctxOf id).streamFault = none →
     (s.ctxOf id).rollDue = false →
     ((s.ctxOf id).held = [] →
       Captured (s.takeTrap id r false) id r ∧ Suspended s (s.takeTrap id r false) id r ∧
       ((s.takeTrap id r false).ctxOf id).arch.pc = (s.ctxOf id).arch.pc) ∧
     (((s.latch id).ctxOf id).conflict = false →
       Captured (s.takeTrap id r true) id r ∧ Suspended s (s.takeTrap id r true) id r ∧
       ((s.takeTrap id r true).ctxOf id).arch.pc = (s.ctxOf id).ckpt.arch.pc) ∧
     (((s.latch id).ctxOf id).conflict = true →
       let q : TrapRec := { r with cause := 0x12 }
       Captured (s.takeTrap id r true) id q ∧ Suspended s (s.takeTrap id r true) id q ∧
       ((s.takeTrap id r true).ctxOf id).arch.pc = (s.ctxOf id).arch.pc)) ∧
  (∀ (s : State) (cause : Nat), cause < 256 →
     let r : TrapRec := ⟨BitVec.ofNat 8 cause, 0, s.cx.fva, s.cx.finfo⟩
     s.trapI cause = { s.takeTrap s.cur r false with taken := some ⟨r, 0⟩ } ∧
     (∀ h ws (v : State), s.holdUp (issueOps s.cx h ws) = some (v.trapI cause) → needsMark s.cx h (issueOps s.cx h ws) = false →
       wantsCommit exec (liveOps s.cx (issueOps s.cx h ws)) s = false → s.endFence s.cur = s → s.cx.publishing = false →
       s.cx.markDue = false → issueBundle exec h ws s = .next (v.trapI cause)))

/-- 12 R297 and the registers' own rules (PEND of UISTAT counts to 8, log 86): what `csrr` reads by number (R203, R296, R91, R83, R273, R247, R184, R196,
R190, R223, R231, R180, R67, R34 to R39, R295); an unassigned number reads 0 (18 R437). 12 R294: a `csrw`
delivered writes each field by its access code, RW taken, W1C cleared where the value has a 1, RO and RSV kept,
and no other register of the context (08 R203, 11 R273, 10 R247, 09 R223, 07 R180, 02 R67). -/
def Obligations.ControlRegisters : Prop :=
  (∀ (s : State),
     let c := s.cx
     let rd (n : Nat) : Nat := (s.csrRead (BitVec.ofNat 12 n)).toNat
     (c.quantum ≤ 4096 → part (rd 0x000) 0 2 = s.cur.ctx.val ∧ part (rd 0x000) 2 4 = s.cur.core.val ∧
       part (rd 0x000) 6 3 = s.cur.die.val ∧ part (rd 0x000) 9 1 = c.pin.toNat ∧ part (rd 0x000) 10 1 = c.pinOvr.toNat ∧
       part (rd 0x000) 11 1 = c.persist.toNat ∧ part (rd 0x000) 12 4 = 0 ∧ part (rd 0x000) 16 13 = c.quantum ∧
       part (rd 0x000) 29 3 = 0 ∧ part (rd 0x000) 32 5 = c.arch.rbs.toNat ∧ part (rd 0x000) 37 3 = c.arch.rbp.toNat ∧
       part (rd 0x000) 40 24 = 0) ∧
     rd 0x001 = c.cause.toNat ∧ rd 0x002 = c.fva.toNat ∧ rd 0x003 = c.finfo.toNat ∧ rd 0x004 = c.arch.pkr.toNat ∧
     rd 0x005 = c.fstat.toNat ∧ rd 0x006 = c.sbctl.toNat ∧ rd 0x007 = c.wid.toNat ∧
     (∀ n : Nat, n < 4 → rd (0x010 + n) = (c.rLC (BitVec.ofNat 2 n)).toNat) ∧ rd 0x018 = c.arch.fbase.toNat ∧
     (∀ n : Nat, n < 16 → rd (0x020 + n) = (c.rFT (BitVec.ofNat 4 n)).toNat) ∧
     (∀ n : Nat, n < 16 → rd (0x030 + n) = (c.rTS (BitVec.ofNat 4 n)).toNat) ∧
     (∀ n : Nat, n < 8 → rd (0x040 + n) = (c.rXP (BitVec.ofNat 3 n)).toNat) ∧
     rd 0x050 = c.xctl.toNat ∧ rd 0x052 = c.xpr.toNat ∧ rd 0x060 = c.iuvec.toNat ∧ rd 0x061 = c.uiret.toNat ∧
     (c.reports.length ≤ 64 → part (rd 0x051) 0 6 = c.sticky.toNat ∧ part (rd 0x051) 6 1 = c.rovf.toNat ∧
       part (rd 0x051) 8 7 = c.reports.length ∧ part (rd 0x051) 16 16 = c.drops.toNat) ∧
     ((c.notices.filter fun n => n.fired.isNone).length ≤ 8 →
       part (rd 0x062) 0 4 = (c.notices.filter fun n => n.fired.isNone).length ∧
       part (rd 0x062) 4 4 = min 8 (c.notices.filter fun n => n.fired.isSome).length ∧
       part (rd 0x062) 8 1 = c.inh.toNat ∧ part (rd 0x062) 9 1 = c.lost.toNat) ∧
     rd 0x070 = c.mrql.toNat ∧ rd 0x071 = c.mrqr.toNat ∧ rd 0x072 = c.mrqi.toNat ∧
     rd 0x100 = 0x4C014B59 ∧ part (rd 0x101) 0 3 = s.cur.die.val ∧ part (rd 0x101) 4 9 = s.joist.member.toNat ∧
     part (rd 0x101) 13 1 = s.joist.mvalid.toNat ∧ rd 0x102 = 0x333556 ∧ rd 0x103 = 0x4880404010 ∧
     rd 0x104 = 0x180200010403437 ∧ rd 0x108 = (s.myCore.xcalst s.cycle).toNat ∧
     part (rd 0x110) 0 1 = s.joist.gtBusy.toNat ∧ part (rd 0x110) 1 1 = s.joist.gtAligned.toNat ∧
     part (rd 0x110) 2 1 = s.joist.gtAlarm.toNat ∧ part (rd 0x110) 16 9 = s.joist.gtLastMaster.toNat ∧
     part (rd 0x110) 32 32 = s.joist.gtGen.toNat ∧
     rd 0x008 = 0 ∧ rd 0x073 = 0 ∧ rd 0xFFF = 0) ∧
  (∀ (c : Ctx) (v : W64),
     let wr (n : BitVec 12) : Ctx := (Write.csr n v).apply c
     let x := v.toNat
     (wr 0x000 = { c with pinOvr := c.pinOvr && part x 10 1 == 0 }) ∧
     (∃ f, wr 0x005 = { c with fstat := f } ∧ ∀ k, k < 5 → f.getLsbD k = (c.fstat.getLsbD k && !v.getLsbD k)) ∧
     (∃ f, wr 0x006 = { c with sbctl := f } ∧ f.getLsbD 0 = v.getLsbD 0 ∧
       (∀ k, 1 ≤ k → k < 32 → f.getLsbD k = c.sbctl.getLsbD k) ∧
       (∀ k, 32 ≤ k → k < 48 → f.getLsbD k = (c.sbctl.getLsbD k && !v.getLsbD k)) ∧
       (∀ k, 48 ≤ k → f.getLsbD k = c.sbctl.getLsbD k)) ∧
     (wr 0x050 = { c with xctl := BitVec.ofNat 7 x }) ∧
     (∃ f, wr 0x051 = { c with sticky := f, rovf := c.rovf && part x 6 1 == 0, drops := BitVec.ofNat 16 (x / 2 ^ 16) } ∧
       ∀ k, k < 6 → f.getLsbD k = (c.sticky.getLsbD k && !v.getLsbD k)) ∧
     (wr 0x060 = { c with iuvec := BitVec.ofNat 64 (x % 2 + x / 4 * 4) }) ∧
     (wr 0x061 = { c with uiret := BitVec.ofNat 64 (x % 2 ^ 62 / 4 * 4) }) ∧
     (wr 0x062 = { c with lost := c.lost && part x 9 1 == 0 }) ∧
     (wr 0x070 = { c with mrql := v }) ∧ (wr 0x071 = { c with mrqr := v }) ∧ (wr 0x072 = { c with mrqi := v }) ∧
     (∀ n ∈ [0x001#12, 0x002#12, 0x003#12, 0x004#12, 0x007#12, 0x018#12, 0x052#12, 0x100#12, 0x110#12], wr n = c))

/-- 10 R243, R244, 08 R187: a scalar result of latency n is not seen before its cycle, and from that cycle on it is,
with every other scalar, address register and predicate as it was; a write to s0 is discarded. The same of a
predicate. -/
def Obligations.ResultDelivered : Prop :=
  ∀ (s : State) (n : BitVec 6) (p : BitVec 4) (lat : Nat) (v : W64) (b : Bool) (now : Nat),
    s.cx.inflight = [] → s.cx.pend = [] →
    let c := (s.putS n lat v).cx.settle now
    let k := (s.putP p lat b).cx.settle now
    (now < s.cycle + lat → c.arch = s.cx.arch ∧ k.arch = s.cx.arch) ∧
    (s.cycle + lat ≤ now →
      (∀ m, c.rS m = if m = 0 then 0 else if m = n then v else s.cx.rS m) ∧
      (∀ m, c.rP m = s.cx.rP m) ∧ (∀ m, c.rA m = s.cx.rA m) ∧ c.inflight = [] ∧ c.tiles = s.cx.tiles ∧
      (∀ m, k.rP m = if m = 0 then true else if m = p then b else s.cx.rP m) ∧
      (∀ m, k.rS m = s.cx.rS m) ∧ (∀ m, k.rA m = s.cx.rA m) ∧ k.inflight = [] ∧ k.tiles = s.cx.tiles)

/-- 10 R237, R243, 12 to 14: the frame of the operations that only deliver results. In a next state that no trap
made, the issuing context has new deliveries, each to a register that the operation's own rule names, pending
deliveries to them are discarded (13 R299), results of earlier slots of the bundle to them give way (10 R249), and a
transfer may have named another next bundle; nothing else of
the machine has changed: no register, flag, byte of memory, other context or device. -/
def Obligations.RegisterOnlyFrame : Prop :=
  ∀ (s t : State) (i : Instr), RegisterOnly i = true → exec i s = .next t → t.taken = none →
    let own (r : RegName) : Prop := r ∈ i.writes s.cx.names ∨ Special s i r
    ∃ (fl ws : List Delivery) (pd : List Pend) (st : List StreamOp) (np : W64) (ju : Bool),
      t = s.updCx (fun c => { c with inflight := fl ++ ws, pend := pd, streams := st, npc := np, jumped := ju }) ∧
      (∀ x ∈ ws, own x.w.reg ∨ x.w = .s 0 0) ∧ fl.length = s.cx.inflight.length ∧
      ∀ k x y, s.cx.inflight[k]? = some x → fl[k]? = some y →
        y = x ∨ (s.cx.opened ≤ k ∧ own x.w.reg ∧ y.due = x.due ∧ y.flags = x.flags ∧
          (y.w.reg = x.w.reg ∨ y.w = .s 0 0))

/-- 13 R298, R301, R303, 18 R429: the frame of the scalar and line accesses through cached translations, at the
address that `ea` computes. No byte of memory changes: a load stores nothing, and a store is held until its
region commits (which bytes then change, MarkCommitsStores says). No register has its new value yet: a load's
destination is pending and a stepped address register is under way. -/
def Obligations.LoadStoreFrame : Prop :=
  ∀ (s : State) (g r : BitVec 4) (d : BitVec 6) (l : BitVec 5) (m z : BitVec 2) (f e : BitVec 1) (x : BitVec 5),
    s.cx.held = [] →
    (PagesCached s false (ea s r m x (2 ^ z.toNat)) (2 ^ z.toNat) → Quiet s (.ld g d r m f e z x)) ∧
    (PagesCached s true (ea s r m x (2 ^ z.toNat)) (2 ^ z.toNat) → Quiet s (.st g d r m f z x)) ∧
    (PagesCached s false (ea s r m x 256) 256 → Quiet s (.lld g l r m f x)) ∧
    (PagesCached s true (ea s r m x 256) 256 → Quiet s (.lst g l r m f x))
end

