-- ==== Sys2Proof/Laws/Memory.lean ====
section
/-! SUPPORT. Laws of memory: the one form of the list, reading after writing, and that every operation on
the list keeps its form. -/

namespace Sys2Proof.Machine

/-! ### The one form -/

/-- Every entry lies at or above an address. -/
def Above (a : Nat) (m : Memory) : Prop := ∀ c ∈ m, a ≤ c.1

theorem memWf_cons {c : Host.Cell} {m : Memory} :
    memWf (c :: m) = true ↔ c.2 ≠ unlisted ∧ Above (c.1 + 1) m ∧ memWf m = true := by
  induction m generalizing c with
  | nil => simp [memWf, Above]
  | cons d m ih =>
    simp only [memWf, Bool.and_eq_true, bne_iff_ne, ne_eq, decide_eq_true_eq]
    constructor
    · rintro ⟨⟨h1, h2⟩, h3⟩
      refine ⟨h1, ?_, h3⟩
      intro x hx
      rcases List.mem_cons.1 hx with rfl | hx
      · omega
      · have := (ih.1 h3).2.1 x hx
        omega
    · rintro ⟨h1, h2, h3⟩
      exact ⟨⟨h1, by have := h2 d List.mem_cons_self; omega⟩, h3⟩

@[simp] theorem memWf_nil : memWf [] = true := rfl

theorem memWf_append {m n : Memory} {a : Nat} (hm : memWf m = true) (hn : memWf n = true)
    (h : ∀ c ∈ m, c.1 < a) (h' : Above a n) : memWf (m ++ n) = true := by
  induction m with
  | nil => simpa using hn
  | cons c m ih =>
    rw [List.cons_append, memWf_cons]
    have hc := memWf_cons.1 hm
    refine ⟨hc.1, ?_, ih hc.2.2 fun x hx => h x (List.mem_cons_of_mem _ hx)⟩
    intro x hx
    rcases List.mem_append.1 hx with hx | hx
    · exact hc.2.1 x hx
    · have := h c List.mem_cons_self
      have := h' x hx
      omega

/-- A part of a well-formed memory that keeps the order is well formed. -/
theorem memWf_sublist {m n : Memory} (h : m.Sublist n) (hn : memWf n = true) : memWf m = true := by
  induction h with
  | slnil => rfl
  | cons c _ ih => exact ih (memWf_cons.1 hn).2.2
  | cons_cons c hs ih =>
    have := memWf_cons.1 hn
    exact memWf_cons.2 ⟨this.1, fun x hx => this.2.1 x (hs.subset hx), ih this.2.2⟩

theorem memWf_filter (p : Host.Cell → Bool) {m : Memory} (h : memWf m = true) : memWf (m.filter p) = true :=
  memWf_sublist List.filter_sublist h

theorem cellsOf_range (a : Nat) (bs : List Byte) : ∀ c ∈ cellsOf a bs, a ≤ c.1 ∧ c.1 < a + bs.length := by
  induction bs generalizing a with
  | nil => simp [cellsOf]
  | cons b bs ih =>
    intro c hc
    have key : c ∈ cellsOf (a + 1) bs → a ≤ c.1 ∧ c.1 < a + (b :: bs).length := fun h => by
      have := ih (a + 1) c h
      simp only [List.length_cons]
      omega
    unfold cellsOf at hc
    split at hc
    · exact key hc
    · rcases List.mem_cons.1 hc with rfl | hc
      · simp
      · exact key hc

theorem memWf_cellsOf (a : Nat) (bs : List Byte) : memWf (cellsOf a bs) = true := by
  induction bs generalizing a with
  | nil => rfl
  | cons b bs ih =>
    unfold cellsOf
    split
    · exact ih _
    · rename_i h
      exact memWf_cons.2 ⟨h, fun c hc => (cellsOf_range _ _ c hc).1, ih _⟩

/-- The entries below an address, and the rest, of a well-formed memory. -/
theorem above_dropWhile {m : Memory} (h : memWf m = true) (a : Nat) :
    Above a (m.dropWhile fun c => decide (c.1 < a)) := by
  induction m with
  | nil => simp [Above]
  | cons c m ih =>
    have hc := memWf_cons.1 h
    rw [List.dropWhile_cons]
    split
    · exact ih hc.2.2
    · rename_i hlt
      intro x hx
      simp only [decide_eq_true_eq, Nat.not_lt] at hlt
      rcases List.mem_cons.1 hx with rfl | hx
      · exact hlt
      · have := hc.2.1 x hx
        omega

theorem below_takeWhile (m : Memory) (a : Nat) : ∀ c ∈ m.takeWhile fun c => decide (c.1 < a), c.1 < a := by
  induction m with
  | nil => simp
  | cons d m ih =>
    intro c hc
    rw [List.takeWhile_cons] at hc
    split at hc
    · rename_i h
      rcases List.mem_cons.1 hc with rfl | hc
      · simpa using h
      · exact ih c hc
    · simp at hc

/-- A write keeps the one form. -/
theorem memWf_memWrite {m : Memory} (h : memWf m = true) (a : Nat) (bs : List Byte) :
    memWf (memWrite m a bs) = true := by
  have hd := above_dropWhile h (a + bs.length)
  refine memWf_append (a := a + bs.length) ?_ (memWf_sublist (List.dropWhile_sublist _) h) ?_ hd
  · exact memWf_append (a := a) (memWf_sublist (List.takeWhile_sublist _) h) (memWf_cellsOf _ _)
      (below_takeWhile m a) fun c hc => (cellsOf_range _ _ c hc).1
  · intro c hc
    rcases List.mem_append.1 hc with hc | hc
    · have := below_takeWhile m a c hc
      omega
    · exact (cellsOf_range _ _ c hc).2

/-! ### Reading after writing -/

theorem memByte_above {m : Memory} {a x : Nat} (h : Above a m) (hx : x < a) : memByte m x = unlisted := by
  induction m with
  | nil => rfl
  | cons c m ih =>
    have := h c List.mem_cons_self
    unfold memByte
    rw [if_neg (by omega)]
    exact ih fun y hy => h y (List.mem_cons_of_mem _ hy)

theorem memByte_append (m n : Memory) (x : Nat) :
    memByte (m ++ n) x = if ∃ c ∈ m, c.1 = x then memByte m x else memByte n x := by
  induction m with
  | nil => simp
  | cons c m ih =>
    simp only [List.cons_append, memByte]
    by_cases hc : c.1 = x
    · simp [hc]
    · simp [hc, ih]

theorem memByte_none {m : Memory} {x : Nat} (h : ∀ c ∈ m, c.1 ≠ x) : memByte m x = unlisted := by
  induction m with
  | nil => rfl
  | cons c m ih =>
    unfold memByte
    rw [if_neg (h c List.mem_cons_self)]
    exact ih fun y hy => h y (List.mem_cons_of_mem _ hy)

theorem memByte_takeWhile {m : Memory} (h : memWf m = true) {a x : Nat} (hx : x < a) :
    memByte (m.takeWhile fun c => decide (c.1 < a)) x = memByte m x := by
  induction m with
  | nil => rfl
  | cons c m ih =>
    have hc := memWf_cons.1 h
    rw [List.takeWhile_cons]
    split
    · simp only [memByte, ih hc.2.2]
    · rename_i hlt
      simp only [decide_eq_true_eq, Nat.not_lt] at hlt
      rw [memByte_none (m := []) (by simp), memByte_above (a := a) _ hx]
      intro y hy
      rcases List.mem_cons.1 hy with rfl | hy
      · exact hlt
      · have := hc.2.1 y hy
        omega

theorem memByte_dropWhile (m : Memory) {a x : Nat} (hx : a ≤ x) :
    memByte (m.dropWhile fun c => decide (c.1 < a)) x = memByte m x := by
  induction m with
  | nil => rfl
  | cons c m ih =>
    rw [List.dropWhile_cons]
    split
    · rename_i hlt
      simp only [decide_eq_true_eq] at hlt
      rw [ih, memByte, if_neg (by omega)]
    · rfl

theorem memByte_cellsOf (a : Nat) (bs : List Byte) (x : Nat) :
    memByte (cellsOf a bs) x = if a ≤ x ∧ x < a + bs.length then bs.getD (x - a) 0 else unlisted := by
  induction bs generalizing a with
  | nil =>
    rw [if_neg (by simp only [List.length_nil]; omega)]
    rfl
  | cons b bs ih =>
    have step : memByte (cellsOf (a + 1) bs) x =
        if a + 1 ≤ x ∧ x < a + (b :: bs).length then (b :: bs).getD (x - a) 0 else unlisted := by
      rw [ih]
      by_cases h : a + 1 ≤ x ∧ x < a + 1 + bs.length
      · rw [if_pos h, if_pos (by simp; omega)]
        obtain ⟨k, hk⟩ : ∃ k, x - a = k + 1 := ⟨x - a - 1, by omega⟩
        rw [hk, show x - (a + 1) = k by omega]
        simp
      · rw [if_neg h, if_neg (by simp; omega)]
    unfold cellsOf
    by_cases hx : x = a
    · subst hx
      split
      · rename_i hb
        rw [step]
        simp [hb]
      · simp [memByte]
    · have : memByte (if b = unlisted then cellsOf (a + 1) bs else (a, b) :: cellsOf (a + 1) bs) x =
          memByte (cellsOf (a + 1) bs) x := by
        split
        · rfl
        · simp only [memByte]
          rw [if_neg (by omega)]
      rw [this, step]
      by_cases h : a + 1 ≤ x ∧ x < a + (b :: bs).length
      · rw [if_pos h, if_pos ⟨by omega, h.2⟩]
      · rw [if_neg h, if_neg (by omega)]

/-- The byte at an address after a write. -/
theorem memByte_memWrite {m : Memory} (h : memWf m = true) (a : Nat) (bs : List Byte) (x : Nat) :
    memByte (memWrite m a bs) x = if a ≤ x ∧ x < a + bs.length then bs.getD (x - a) 0 else memByte m x := by
  have low : x < a → memByte (memWrite m a bs) x = memByte m x := fun hx => by
    have h2 : Above a (cellsOf a bs ++ m.dropWhile fun c => decide (c.1 < a + bs.length)) := by
      intro c hc
      rcases List.mem_append.1 hc with hc | hc
      · exact (cellsOf_range _ _ c hc).1
      · have := above_dropWhile h (a + bs.length) c hc
        omega
    unfold memWrite
    rw [List.append_assoc, memByte_append, memByte_takeWhile h hx]
    split
    · rfl
    · rename_i hno
      rw [memByte_above h2 hx, ← memByte_takeWhile h hx]
      exact (memByte_none fun c hc he => hno ⟨c, hc, he⟩).symm
  by_cases hx : x < a
  · rw [low hx, if_neg (by omega)]
  · have hout : ¬∃ c ∈ (m.takeWhile fun c => decide (c.1 < a)), c.1 = x := by
      rintro ⟨c, hc, rfl⟩
      exact hx (below_takeWhile m a c hc)
    unfold memWrite
    rw [List.append_assoc, memByte_append, if_neg hout, memByte_append]
    by_cases hin : x < a + bs.length
    · rw [if_pos (show a ≤ x ∧ x < a + bs.length from ⟨by omega, hin⟩)]
      have hv := memByte_cellsOf a bs x
      rw [if_pos (show a ≤ x ∧ x < a + bs.length from ⟨by omega, hin⟩)] at hv
      split
      · exact hv
      · rename_i hno
        rw [memByte_above (above_dropWhile h _) hin, ← hv]
        exact (memByte_none fun c hc he => hno ⟨c, hc, he⟩).symm
    · have hno : ¬∃ c ∈ cellsOf a bs, c.1 = x := by
        rintro ⟨c, hc, rfl⟩
        exact hin (cellsOf_range _ _ c hc).2
      rw [if_neg (show ¬(a ≤ x ∧ x < a + bs.length) from fun h => hin h.2), if_neg hno, memByte_dropWhile m (by omega)]

theorem readFrom_eq {m : Memory} {a : Nat} (n : Nat) (h : memWf m = true) (ha : Above a m) :
    readFrom n m a = (List.range n).map fun k => memByte m (a + k) := by
  induction n generalizing m a with
  | zero => rfl
  | succ n ih =>
    rw [List.range_succ_eq_map, List.map_cons, List.map_map]
    cases m with
    | nil =>
      simp only [readFrom, Nat.add_zero]
      rw [ih (m := []) rfl (by simp [Above])]
      simp [memByte, Function.comp_def]
    | cons c m =>
      have hc := memWf_cons.1 h
      have ge := ha c List.mem_cons_self
      simp only [readFrom, Nat.add_zero, Function.comp_def]
      by_cases hca : c.1 = a
      · rw [if_pos hca, ih hc.2.2 (by rw [← hca]; exact hc.2.1)]
        congr 1
        · simp [memByte, hca]
        · apply List.map_congr_left
          intro k _
          simp only [memByte]
          rw [if_neg (by omega)]
          congr 1
          omega
      · have hup : Above (a + 1) (c :: m) := by
          intro x hx
          rcases List.mem_cons.1 hx with rfl | hx
          · omega
          · have := hc.2.1 x hx
            omega
        rw [if_neg hca, ih h hup]
        congr 1
        · exact (memByte_above hup (by omega)).symm
        · apply List.map_congr_left
          intro k _
          congr 1
          omega

/-- The bytes read from an address on are the bytes at the addresses. -/
theorem memRead_eq {m : Memory} (h : memWf m = true) (a n : Nat) :
    memRead m a n = (List.range n).map fun k => memByte m (a + k) := by
  unfold memRead
  rw [readFrom_eq n (memWf_sublist (List.dropWhile_sublist _) h) (above_dropWhile h a)]
  apply List.map_congr_left
  intro k _
  exact memByte_dropWhile m (by omega)

/-- What is written is what is read. -/
theorem memRead_memWrite_same {m : Memory} (h : memWf m = true) (a : Nat) (bs : List Byte) :
    memRead (memWrite m a bs) a bs.length = bs := by
  rw [memRead_eq (memWf_memWrite h a bs)]
  apply List.ext_getElem
  · simp
  · intro k h1 h2
    simp only [List.getElem_map, List.getElem_range]
    rw [memByte_memWrite h, if_pos (by omega)]
    simp [List.getD_eq_getElem?_getD, h2]

/-- A read away from a write is not changed. -/
theorem memRead_memWrite_other {m : Memory} (h : memWf m = true) (a b n : Nat) (bs : List Byte)
    (hd : b + n ≤ a ∨ a + bs.length ≤ b) : memRead (memWrite m a bs) b n = memRead m b n := by
  rw [memRead_eq (memWf_memWrite h a bs), memRead_eq h]
  apply List.map_congr_left
  intro k hk
  have := List.mem_range.1 hk
  rw [memByte_memWrite h, if_neg (by omega)]

end Sys2Proof.Machine
end

