-- ==== Sys2Proof/Laws/State.lean ====
section
/-! SUPPORT. The small laws of the state: what each update leaves, field by field, and reading a part after
 updating it. -/

namespace Sys2Proof.Machine

/-! ### Tables -/

theorem vget_vset {α : Type} {n : Nat} (v : Vector α n) (i j : Fin n) (x : α) :
    vget (vset v i x) j = if i = j then x else vget v j := by
  simp only [vget, vset, Fin.getElem_fin, Vector.getElem_set, Fin.ext_iff]

@[simp] theorem vget_vset_same {α : Type} {n : Nat} (v : Vector α n) (i : Fin n) (x : α) : vget (vset v i x) i = x := by
  simp [vget_vset]

@[simp] theorem vget_vupd_same {α : Type} {n : Nat} (v : Vector α n) (i : Fin n) (f : α → α) :
    vget (vupd v i f) i = f (vget v i) := by
  simp [vupd]

theorem vget_vupd_ne {α : Type} {n : Nat} (v : Vector α n) {i j : Fin n} (h : i ≠ j) (f : α → α) :
    vget (vupd v i f) j = vget v j := by
  simp [vupd, vget_vset, h]

@[simp] theorem vget_replicate {α : Type} {n : Nat} (i : Fin n) (x : α) : vget (Vector.replicate n x) i = x := by
  simp [vget]

/-! ### What an update leaves -/

@[simp] theorem State.updDie_cycle (s : State) (d : Fin 8) (f : Die → Die) : (s.updDie d f).cycle = s.cycle := rfl
@[simp] theorem State.updDie_boot (s : State) (d : Fin 8) (f : Die → Die) : (s.updDie d f).boot = s.boot := rfl
@[simp] theorem State.updDie_stage (s : State) (d : Fin 8) (f : Die → Die) : (s.updDie d f).stage = s.stage := rfl
@[simp] theorem State.updDie_failDie (s : State) (d : Fin 8) (f : Die → Die) : (s.updDie d f).failDie = s.failDie := rfl
@[simp] theorem State.updDie_failUnit (s : State) (d : Fin 8) (f : Die → Die) : (s.updDie d f).failUnit = s.failUnit := rfl
@[simp] theorem State.updDie_failDetail (s : State) (d : Fin 8) (f : Die → Die) : (s.updDie d f).failDetail = s.failDetail := rfl
@[simp] theorem State.updDie_failTime (s : State) (d : Fin 8) (f : Die → Die) : (s.updDie d f).failTime = s.failTime := rfl
@[simp] theorem State.updDie_mbQueue (s : State) (d : Fin 8) (f : Die → Die) : (s.updDie d f).mbQueue = s.mbQueue := rfl
@[simp] theorem State.updDie_meas0 (s : State) (d : Fin 8) (f : Die → Die) : (s.updDie d f).meas0 = s.meas0 := rfl
@[simp] theorem State.updDie_meas1 (s : State) (d : Fin 8) (f : Die → Die) : (s.updDie d f).meas1 = s.meas1 := rfl
@[simp] theorem State.updDie_ideLink (s : State) (d : Fin 8) (f : Die → Die) : (s.updDie d f).ideLink = s.ideLink := rfl
@[simp] theorem State.updDie_ideSel (s : State) (d : Fin 8) (f : Die → Die) : (s.updDie d f).ideSel = s.ideSel := rfl
@[simp] theorem State.updDie_joist (s : State) (d : Fin 8) (f : Die → Die) : (s.updDie d f).joist = s.joist := rfl
@[simp] theorem State.updDie_mem (s : State) (d : Fin 8) (f : Die → Die) : (s.updDie d f).mem = s.mem := rfl
@[simp] theorem State.updDie_poison (s : State) (d : Fin 8) (f : Die → Die) : (s.updDie d f).poison = s.poison := rfl
@[simp] theorem State.updDie_scrubbed (s : State) (d : Fin 8) (f : Die → Die) : (s.updDie d f).scrubbed = s.scrubbed := rfl
@[simp] theorem State.updDie_scrubAt (s : State) (d : Fin 8) (f : Die → Die) : (s.updDie d f).scrubAt = s.scrubAt := rfl
@[simp] theorem State.updDie_host (s : State) (d : Fin 8) (f : Die → Die) : (s.updDie d f).host = s.host := rfl
@[simp] theorem State.updDie_hostBad (s : State) (d : Fin 8) (f : Die → Die) : (s.updDie d f).hostBad = s.hostBad := rfl
@[simp] theorem State.updDie_flips (s : State) (d : Fin 8) (f : Die → Die) : (s.updDie d f).flips = s.flips := rfl
@[simp] theorem State.updDie_msixTab (s : State) (d : Fin 8) (f : Die → Die) : (s.updDie d f).msixTab = s.msixTab := rfl
@[simp] theorem State.updDie_msixPba (s : State) (d : Fin 8) (f : Die → Die) : (s.updDie d f).msixPba = s.msixPba := rfl
@[simp] theorem State.updDie_cur (s : State) (d : Fin 8) (f : Die → Die) : (s.updDie d f).cur = s.cur := rfl
@[simp] theorem State.updDie_agenda (s : State) (d : Fin 8) (f : Die → Die) : (s.updDie d f).agenda = s.agenda := rfl
@[simp] theorem State.updDie_free (s : State) (d : Fin 8) (f : Die → Die) : (s.updDie d f).free = s.free := rfl
@[simp] theorem State.updDie_taken (s : State) (d : Fin 8) (f : Die → Die) : (s.updDie d f).taken = s.taken := rfl
@[simp] theorem State.updDie_stalled (s : State) (d : Fin 8) (f : Die → Die) : (s.updDie d f).stalled = s.stalled := rfl
@[simp] theorem State.updDie_early (s : State) (d : Fin 8) (f : Die → Die) : (s.updDie d f).early = s.early := rfl

@[simp] theorem State.updMyDie_cycle (s : State) (f : Die → Die) : (s.updMyDie f).cycle = s.cycle := rfl
@[simp] theorem State.updMyDie_boot (s : State) (f : Die → Die) : (s.updMyDie f).boot = s.boot := rfl
@[simp] theorem State.updMyDie_stage (s : State) (f : Die → Die) : (s.updMyDie f).stage = s.stage := rfl
@[simp] theorem State.updMyDie_failDie (s : State) (f : Die → Die) : (s.updMyDie f).failDie = s.failDie := rfl
@[simp] theorem State.updMyDie_failUnit (s : State) (f : Die → Die) : (s.updMyDie f).failUnit = s.failUnit := rfl
@[simp] theorem State.updMyDie_failDetail (s : State) (f : Die → Die) : (s.updMyDie f).failDetail = s.failDetail := rfl
@[simp] theorem State.updMyDie_failTime (s : State) (f : Die → Die) : (s.updMyDie f).failTime = s.failTime := rfl
@[simp] theorem State.updMyDie_mbQueue (s : State) (f : Die → Die) : (s.updMyDie f).mbQueue = s.mbQueue := rfl
@[simp] theorem State.updMyDie_meas0 (s : State) (f : Die → Die) : (s.updMyDie f).meas0 = s.meas0 := rfl
@[simp] theorem State.updMyDie_meas1 (s : State) (f : Die → Die) : (s.updMyDie f).meas1 = s.meas1 := rfl
@[simp] theorem State.updMyDie_ideLink (s : State) (f : Die → Die) : (s.updMyDie f).ideLink = s.ideLink := rfl
@[simp] theorem State.updMyDie_ideSel (s : State) (f : Die → Die) : (s.updMyDie f).ideSel = s.ideSel := rfl
@[simp] theorem State.updMyDie_joist (s : State) (f : Die → Die) : (s.updMyDie f).joist = s.joist := rfl
@[simp] theorem State.updMyDie_mem (s : State) (f : Die → Die) : (s.updMyDie f).mem = s.mem := rfl
@[simp] theorem State.updMyDie_poison (s : State) (f : Die → Die) : (s.updMyDie f).poison = s.poison := rfl
@[simp] theorem State.updMyDie_scrubbed (s : State) (f : Die → Die) : (s.updMyDie f).scrubbed = s.scrubbed := rfl
@[simp] theorem State.updMyDie_scrubAt (s : State) (f : Die → Die) : (s.updMyDie f).scrubAt = s.scrubAt := rfl
@[simp] theorem State.updMyDie_host (s : State) (f : Die → Die) : (s.updMyDie f).host = s.host := rfl
@[simp] theorem State.updMyDie_hostBad (s : State) (f : Die → Die) : (s.updMyDie f).hostBad = s.hostBad := rfl
@[simp] theorem State.updMyDie_flips (s : State) (f : Die → Die) : (s.updMyDie f).flips = s.flips := rfl
@[simp] theorem State.updMyDie_msixTab (s : State) (f : Die → Die) : (s.updMyDie f).msixTab = s.msixTab := rfl
@[simp] theorem State.updMyDie_msixPba (s : State) (f : Die → Die) : (s.updMyDie f).msixPba = s.msixPba := rfl
@[simp] theorem State.updMyDie_cur (s : State) (f : Die → Die) : (s.updMyDie f).cur = s.cur := rfl
@[simp] theorem State.updMyDie_agenda (s : State) (f : Die → Die) : (s.updMyDie f).agenda = s.agenda := rfl
@[simp] theorem State.updMyDie_free (s : State) (f : Die → Die) : (s.updMyDie f).free = s.free := rfl
@[simp] theorem State.updMyDie_taken (s : State) (f : Die → Die) : (s.updMyDie f).taken = s.taken := rfl
@[simp] theorem State.updMyDie_stalled (s : State) (f : Die → Die) : (s.updMyDie f).stalled = s.stalled := rfl
@[simp] theorem State.updMyDie_early (s : State) (f : Die → Die) : (s.updMyDie f).early = s.early := rfl

@[simp] theorem State.updCore_cycle (s : State) (d : Fin 8) (c : Fin 16) (f : Core → Core) : (s.updCore d c f).cycle = s.cycle := rfl
@[simp] theorem State.updCore_boot (s : State) (d : Fin 8) (c : Fin 16) (f : Core → Core) : (s.updCore d c f).boot = s.boot := rfl
@[simp] theorem State.updCore_stage (s : State) (d : Fin 8) (c : Fin 16) (f : Core → Core) : (s.updCore d c f).stage = s.stage := rfl
@[simp] theorem State.updCore_failDie (s : State) (d : Fin 8) (c : Fin 16) (f : Core → Core) : (s.updCore d c f).failDie = s.failDie := rfl
@[simp] theorem State.updCore_failUnit (s : State) (d : Fin 8) (c : Fin 16) (f : Core → Core) : (s.updCore d c f).failUnit = s.failUnit := rfl
@[simp] theorem State.updCore_failDetail (s : State) (d : Fin 8) (c : Fin 16) (f : Core → Core) : (s.updCore d c f).failDetail = s.failDetail := rfl
@[simp] theorem State.updCore_failTime (s : State) (d : Fin 8) (c : Fin 16) (f : Core → Core) : (s.updCore d c f).failTime = s.failTime := rfl
@[simp] theorem State.updCore_mbQueue (s : State) (d : Fin 8) (c : Fin 16) (f : Core → Core) : (s.updCore d c f).mbQueue = s.mbQueue := rfl
@[simp] theorem State.updCore_meas0 (s : State) (d : Fin 8) (c : Fin 16) (f : Core → Core) : (s.updCore d c f).meas0 = s.meas0 := rfl
@[simp] theorem State.updCore_meas1 (s : State) (d : Fin 8) (c : Fin 16) (f : Core → Core) : (s.updCore d c f).meas1 = s.meas1 := rfl
@[simp] theorem State.updCore_ideLink (s : State) (d : Fin 8) (c : Fin 16) (f : Core → Core) : (s.updCore d c f).ideLink = s.ideLink := rfl
@[simp] theorem State.updCore_ideSel (s : State) (d : Fin 8) (c : Fin 16) (f : Core → Core) : (s.updCore d c f).ideSel = s.ideSel := rfl
@[simp] theorem State.updCore_joist (s : State) (d : Fin 8) (c : Fin 16) (f : Core → Core) : (s.updCore d c f).joist = s.joist := rfl
@[simp] theorem State.updCore_mem (s : State) (d : Fin 8) (c : Fin 16) (f : Core → Core) : (s.updCore d c f).mem = s.mem := rfl
@[simp] theorem State.updCore_poison (s : State) (d : Fin 8) (c : Fin 16) (f : Core → Core) : (s.updCore d c f).poison = s.poison := rfl
@[simp] theorem State.updCore_scrubbed (s : State) (d : Fin 8) (c : Fin 16) (f : Core → Core) : (s.updCore d c f).scrubbed = s.scrubbed := rfl
@[simp] theorem State.updCore_scrubAt (s : State) (d : Fin 8) (c : Fin 16) (f : Core → Core) : (s.updCore d c f).scrubAt = s.scrubAt := rfl
@[simp] theorem State.updCore_host (s : State) (d : Fin 8) (c : Fin 16) (f : Core → Core) : (s.updCore d c f).host = s.host := rfl
@[simp] theorem State.updCore_hostBad (s : State) (d : Fin 8) (c : Fin 16) (f : Core → Core) : (s.updCore d c f).hostBad = s.hostBad := rfl
@[simp] theorem State.updCore_flips (s : State) (d : Fin 8) (c : Fin 16) (f : Core → Core) : (s.updCore d c f).flips = s.flips := rfl
@[simp] theorem State.updCore_msixTab (s : State) (d : Fin 8) (c : Fin 16) (f : Core → Core) : (s.updCore d c f).msixTab = s.msixTab := rfl
@[simp] theorem State.updCore_msixPba (s : State) (d : Fin 8) (c : Fin 16) (f : Core → Core) : (s.updCore d c f).msixPba = s.msixPba := rfl
@[simp] theorem State.updCore_cur (s : State) (d : Fin 8) (c : Fin 16) (f : Core → Core) : (s.updCore d c f).cur = s.cur := rfl
@[simp] theorem State.updCore_agenda (s : State) (d : Fin 8) (c : Fin 16) (f : Core → Core) : (s.updCore d c f).agenda = s.agenda := rfl
@[simp] theorem State.updCore_free (s : State) (d : Fin 8) (c : Fin 16) (f : Core → Core) : (s.updCore d c f).free = s.free := rfl
@[simp] theorem State.updCore_taken (s : State) (d : Fin 8) (c : Fin 16) (f : Core → Core) : (s.updCore d c f).taken = s.taken := rfl
@[simp] theorem State.updCore_stalled (s : State) (d : Fin 8) (c : Fin 16) (f : Core → Core) : (s.updCore d c f).stalled = s.stalled := rfl
@[simp] theorem State.updCore_early (s : State) (d : Fin 8) (c : Fin 16) (f : Core → Core) : (s.updCore d c f).early = s.early := rfl

@[simp] theorem State.updMyCore_cycle (s : State) (f : Core → Core) : (s.updMyCore f).cycle = s.cycle := rfl
@[simp] theorem State.updMyCore_boot (s : State) (f : Core → Core) : (s.updMyCore f).boot = s.boot := rfl
@[simp] theorem State.updMyCore_stage (s : State) (f : Core → Core) : (s.updMyCore f).stage = s.stage := rfl
@[simp] theorem State.updMyCore_failDie (s : State) (f : Core → Core) : (s.updMyCore f).failDie = s.failDie := rfl
@[simp] theorem State.updMyCore_failUnit (s : State) (f : Core → Core) : (s.updMyCore f).failUnit = s.failUnit := rfl
@[simp] theorem State.updMyCore_failDetail (s : State) (f : Core → Core) : (s.updMyCore f).failDetail = s.failDetail := rfl
@[simp] theorem State.updMyCore_failTime (s : State) (f : Core → Core) : (s.updMyCore f).failTime = s.failTime := rfl
@[simp] theorem State.updMyCore_mbQueue (s : State) (f : Core → Core) : (s.updMyCore f).mbQueue = s.mbQueue := rfl
@[simp] theorem State.updMyCore_meas0 (s : State) (f : Core → Core) : (s.updMyCore f).meas0 = s.meas0 := rfl
@[simp] theorem State.updMyCore_meas1 (s : State) (f : Core → Core) : (s.updMyCore f).meas1 = s.meas1 := rfl
@[simp] theorem State.updMyCore_ideLink (s : State) (f : Core → Core) : (s.updMyCore f).ideLink = s.ideLink := rfl
@[simp] theorem State.updMyCore_ideSel (s : State) (f : Core → Core) : (s.updMyCore f).ideSel = s.ideSel := rfl
@[simp] theorem State.updMyCore_joist (s : State) (f : Core → Core) : (s.updMyCore f).joist = s.joist := rfl
@[simp] theorem State.updMyCore_mem (s : State) (f : Core → Core) : (s.updMyCore f).mem = s.mem := rfl
@[simp] theorem State.updMyCore_poison (s : State) (f : Core → Core) : (s.updMyCore f).poison = s.poison := rfl
@[simp] theorem State.updMyCore_scrubbed (s : State) (f : Core → Core) : (s.updMyCore f).scrubbed = s.scrubbed := rfl
@[simp] theorem State.updMyCore_scrubAt (s : State) (f : Core → Core) : (s.updMyCore f).scrubAt = s.scrubAt := rfl
@[simp] theorem State.updMyCore_host (s : State) (f : Core → Core) : (s.updMyCore f).host = s.host := rfl
@[simp] theorem State.updMyCore_hostBad (s : State) (f : Core → Core) : (s.updMyCore f).hostBad = s.hostBad := rfl
@[simp] theorem State.updMyCore_flips (s : State) (f : Core → Core) : (s.updMyCore f).flips = s.flips := rfl
@[simp] theorem State.updMyCore_msixTab (s : State) (f : Core → Core) : (s.updMyCore f).msixTab = s.msixTab := rfl
@[simp] theorem State.updMyCore_msixPba (s : State) (f : Core → Core) : (s.updMyCore f).msixPba = s.msixPba := rfl
@[simp] theorem State.updMyCore_cur (s : State) (f : Core → Core) : (s.updMyCore f).cur = s.cur := rfl
@[simp] theorem State.updMyCore_agenda (s : State) (f : Core → Core) : (s.updMyCore f).agenda = s.agenda := rfl
@[simp] theorem State.updMyCore_free (s : State) (f : Core → Core) : (s.updMyCore f).free = s.free := rfl
@[simp] theorem State.updMyCore_taken (s : State) (f : Core → Core) : (s.updMyCore f).taken = s.taken := rfl
@[simp] theorem State.updMyCore_stalled (s : State) (f : Core → Core) : (s.updMyCore f).stalled = s.stalled := rfl
@[simp] theorem State.updMyCore_early (s : State) (f : Core → Core) : (s.updMyCore f).early = s.early := rfl

@[simp] theorem State.updCtx_cycle (s : State) (id : CtxId) (f : Ctx → Ctx) : (s.updCtx id f).cycle = s.cycle := rfl
@[simp] theorem State.updCtx_boot (s : State) (id : CtxId) (f : Ctx → Ctx) : (s.updCtx id f).boot = s.boot := rfl
@[simp] theorem State.updCtx_stage (s : State) (id : CtxId) (f : Ctx → Ctx) : (s.updCtx id f).stage = s.stage := rfl
@[simp] theorem State.updCtx_failDie (s : State) (id : CtxId) (f : Ctx → Ctx) : (s.updCtx id f).failDie = s.failDie := rfl
@[simp] theorem State.updCtx_failUnit (s : State) (id : CtxId) (f : Ctx → Ctx) : (s.updCtx id f).failUnit = s.failUnit := rfl
@[simp] theorem State.updCtx_failDetail (s : State) (id : CtxId) (f : Ctx → Ctx) : (s.updCtx id f).failDetail = s.failDetail := rfl
@[simp] theorem State.updCtx_failTime (s : State) (id : CtxId) (f : Ctx → Ctx) : (s.updCtx id f).failTime = s.failTime := rfl
@[simp] theorem State.updCtx_mbQueue (s : State) (id : CtxId) (f : Ctx → Ctx) : (s.updCtx id f).mbQueue = s.mbQueue := rfl
@[simp] theorem State.updCtx_meas0 (s : State) (id : CtxId) (f : Ctx → Ctx) : (s.updCtx id f).meas0 = s.meas0 := rfl
@[simp] theorem State.updCtx_meas1 (s : State) (id : CtxId) (f : Ctx → Ctx) : (s.updCtx id f).meas1 = s.meas1 := rfl
@[simp] theorem State.updCtx_ideLink (s : State) (id : CtxId) (f : Ctx → Ctx) : (s.updCtx id f).ideLink = s.ideLink := rfl
@[simp] theorem State.updCtx_ideSel (s : State) (id : CtxId) (f : Ctx → Ctx) : (s.updCtx id f).ideSel = s.ideSel := rfl
@[simp] theorem State.updCtx_joist (s : State) (id : CtxId) (f : Ctx → Ctx) : (s.updCtx id f).joist = s.joist := rfl
@[simp] theorem State.updCtx_mem (s : State) (id : CtxId) (f : Ctx → Ctx) : (s.updCtx id f).mem = s.mem := rfl
@[simp] theorem State.updCtx_poison (s : State) (id : CtxId) (f : Ctx → Ctx) : (s.updCtx id f).poison = s.poison := rfl
@[simp] theorem State.updCtx_scrubbed (s : State) (id : CtxId) (f : Ctx → Ctx) : (s.updCtx id f).scrubbed = s.scrubbed := rfl
@[simp] theorem State.updCtx_scrubAt (s : State) (id : CtxId) (f : Ctx → Ctx) : (s.updCtx id f).scrubAt = s.scrubAt := rfl
@[simp] theorem State.updCtx_host (s : State) (id : CtxId) (f : Ctx → Ctx) : (s.updCtx id f).host = s.host := rfl
@[simp] theorem State.updCtx_hostBad (s : State) (id : CtxId) (f : Ctx → Ctx) : (s.updCtx id f).hostBad = s.hostBad := rfl
@[simp] theorem State.updCtx_flips (s : State) (id : CtxId) (f : Ctx → Ctx) : (s.updCtx id f).flips = s.flips := rfl
@[simp] theorem State.updCtx_msixTab (s : State) (id : CtxId) (f : Ctx → Ctx) : (s.updCtx id f).msixTab = s.msixTab := rfl
@[simp] theorem State.updCtx_msixPba (s : State) (id : CtxId) (f : Ctx → Ctx) : (s.updCtx id f).msixPba = s.msixPba := rfl
@[simp] theorem State.updCtx_cur (s : State) (id : CtxId) (f : Ctx → Ctx) : (s.updCtx id f).cur = s.cur := rfl
@[simp] theorem State.updCtx_agenda (s : State) (id : CtxId) (f : Ctx → Ctx) : (s.updCtx id f).agenda = s.agenda := rfl
@[simp] theorem State.updCtx_free (s : State) (id : CtxId) (f : Ctx → Ctx) : (s.updCtx id f).free = s.free := rfl
@[simp] theorem State.updCtx_taken (s : State) (id : CtxId) (f : Ctx → Ctx) : (s.updCtx id f).taken = s.taken := rfl
@[simp] theorem State.updCtx_stalled (s : State) (id : CtxId) (f : Ctx → Ctx) : (s.updCtx id f).stalled = s.stalled := rfl
@[simp] theorem State.updCtx_early (s : State) (id : CtxId) (f : Ctx → Ctx) : (s.updCtx id f).early = s.early := rfl

@[simp] theorem State.updCx_cycle (s : State) (f : Ctx → Ctx) : (s.updCx f).cycle = s.cycle := rfl
@[simp] theorem State.updCx_boot (s : State) (f : Ctx → Ctx) : (s.updCx f).boot = s.boot := rfl
@[simp] theorem State.updCx_stage (s : State) (f : Ctx → Ctx) : (s.updCx f).stage = s.stage := rfl
@[simp] theorem State.updCx_failDie (s : State) (f : Ctx → Ctx) : (s.updCx f).failDie = s.failDie := rfl
@[simp] theorem State.updCx_failUnit (s : State) (f : Ctx → Ctx) : (s.updCx f).failUnit = s.failUnit := rfl
@[simp] theorem State.updCx_failDetail (s : State) (f : Ctx → Ctx) : (s.updCx f).failDetail = s.failDetail := rfl
@[simp] theorem State.updCx_failTime (s : State) (f : Ctx → Ctx) : (s.updCx f).failTime = s.failTime := rfl
@[simp] theorem State.updCx_mbQueue (s : State) (f : Ctx → Ctx) : (s.updCx f).mbQueue = s.mbQueue := rfl
@[simp] theorem State.updCx_meas0 (s : State) (f : Ctx → Ctx) : (s.updCx f).meas0 = s.meas0 := rfl
@[simp] theorem State.updCx_meas1 (s : State) (f : Ctx → Ctx) : (s.updCx f).meas1 = s.meas1 := rfl
@[simp] theorem State.updCx_ideLink (s : State) (f : Ctx → Ctx) : (s.updCx f).ideLink = s.ideLink := rfl
@[simp] theorem State.updCx_ideSel (s : State) (f : Ctx → Ctx) : (s.updCx f).ideSel = s.ideSel := rfl
@[simp] theorem State.updCx_joist (s : State) (f : Ctx → Ctx) : (s.updCx f).joist = s.joist := rfl
@[simp] theorem State.updCx_mem (s : State) (f : Ctx → Ctx) : (s.updCx f).mem = s.mem := rfl
@[simp] theorem State.updCx_poison (s : State) (f : Ctx → Ctx) : (s.updCx f).poison = s.poison := rfl
@[simp] theorem State.updCx_scrubbed (s : State) (f : Ctx → Ctx) : (s.updCx f).scrubbed = s.scrubbed := rfl
@[simp] theorem State.updCx_scrubAt (s : State) (f : Ctx → Ctx) : (s.updCx f).scrubAt = s.scrubAt := rfl
@[simp] theorem State.updCx_host (s : State) (f : Ctx → Ctx) : (s.updCx f).host = s.host := rfl
@[simp] theorem State.updCx_hostBad (s : State) (f : Ctx → Ctx) : (s.updCx f).hostBad = s.hostBad := rfl
@[simp] theorem State.updCx_flips (s : State) (f : Ctx → Ctx) : (s.updCx f).flips = s.flips := rfl
@[simp] theorem State.updCx_msixTab (s : State) (f : Ctx → Ctx) : (s.updCx f).msixTab = s.msixTab := rfl
@[simp] theorem State.updCx_msixPba (s : State) (f : Ctx → Ctx) : (s.updCx f).msixPba = s.msixPba := rfl
@[simp] theorem State.updCx_cur (s : State) (f : Ctx → Ctx) : (s.updCx f).cur = s.cur := rfl
@[simp] theorem State.updCx_agenda (s : State) (f : Ctx → Ctx) : (s.updCx f).agenda = s.agenda := rfl
@[simp] theorem State.updCx_free (s : State) (f : Ctx → Ctx) : (s.updCx f).free = s.free := rfl
@[simp] theorem State.updCx_taken (s : State) (f : Ctx → Ctx) : (s.updCx f).taken = s.taken := rfl
@[simp] theorem State.updCx_stalled (s : State) (f : Ctx → Ctx) : (s.updCx f).stalled = s.stalled := rfl
@[simp] theorem State.updCx_early (s : State) (f : Ctx → Ctx) : (s.updCx f).early = s.early := rfl

@[simp] theorem State.updJoist_cycle (s : State) (f : Joist → Joist) : (s.updJoist f).cycle = s.cycle := rfl
@[simp] theorem State.updJoist_boot (s : State) (f : Joist → Joist) : (s.updJoist f).boot = s.boot := rfl
@[simp] theorem State.updJoist_stage (s : State) (f : Joist → Joist) : (s.updJoist f).stage = s.stage := rfl
@[simp] theorem State.updJoist_failDie (s : State) (f : Joist → Joist) : (s.updJoist f).failDie = s.failDie := rfl
@[simp] theorem State.updJoist_failUnit (s : State) (f : Joist → Joist) : (s.updJoist f).failUnit = s.failUnit := rfl
@[simp] theorem State.updJoist_failDetail (s : State) (f : Joist → Joist) : (s.updJoist f).failDetail = s.failDetail := rfl
@[simp] theorem State.updJoist_failTime (s : State) (f : Joist → Joist) : (s.updJoist f).failTime = s.failTime := rfl
@[simp] theorem State.updJoist_mbQueue (s : State) (f : Joist → Joist) : (s.updJoist f).mbQueue = s.mbQueue := rfl
@[simp] theorem State.updJoist_meas0 (s : State) (f : Joist → Joist) : (s.updJoist f).meas0 = s.meas0 := rfl
@[simp] theorem State.updJoist_meas1 (s : State) (f : Joist → Joist) : (s.updJoist f).meas1 = s.meas1 := rfl
@[simp] theorem State.updJoist_ideLink (s : State) (f : Joist → Joist) : (s.updJoist f).ideLink = s.ideLink := rfl
@[simp] theorem State.updJoist_ideSel (s : State) (f : Joist → Joist) : (s.updJoist f).ideSel = s.ideSel := rfl
@[simp] theorem State.updJoist_dies (s : State) (f : Joist → Joist) : (s.updJoist f).dies = s.dies := rfl
@[simp] theorem State.updJoist_mem (s : State) (f : Joist → Joist) : (s.updJoist f).mem = s.mem := rfl
@[simp] theorem State.updJoist_poison (s : State) (f : Joist → Joist) : (s.updJoist f).poison = s.poison := rfl
@[simp] theorem State.updJoist_scrubbed (s : State) (f : Joist → Joist) : (s.updJoist f).scrubbed = s.scrubbed := rfl
@[simp] theorem State.updJoist_scrubAt (s : State) (f : Joist → Joist) : (s.updJoist f).scrubAt = s.scrubAt := rfl
@[simp] theorem State.updJoist_host (s : State) (f : Joist → Joist) : (s.updJoist f).host = s.host := rfl
@[simp] theorem State.updJoist_hostBad (s : State) (f : Joist → Joist) : (s.updJoist f).hostBad = s.hostBad := rfl
@[simp] theorem State.updJoist_flips (s : State) (f : Joist → Joist) : (s.updJoist f).flips = s.flips := rfl
@[simp] theorem State.updJoist_msixTab (s : State) (f : Joist → Joist) : (s.updJoist f).msixTab = s.msixTab := rfl
@[simp] theorem State.updJoist_msixPba (s : State) (f : Joist → Joist) : (s.updJoist f).msixPba = s.msixPba := rfl
@[simp] theorem State.updJoist_cur (s : State) (f : Joist → Joist) : (s.updJoist f).cur = s.cur := rfl
@[simp] theorem State.updJoist_agenda (s : State) (f : Joist → Joist) : (s.updJoist f).agenda = s.agenda := rfl
@[simp] theorem State.updJoist_free (s : State) (f : Joist → Joist) : (s.updJoist f).free = s.free := rfl
@[simp] theorem State.updJoist_taken (s : State) (f : Joist → Joist) : (s.updJoist f).taken = s.taken := rfl
@[simp] theorem State.updJoist_stalled (s : State) (f : Joist → Joist) : (s.updJoist f).stalled = s.stalled := rfl
@[simp] theorem State.updJoist_early (s : State) (f : Joist → Joist) : (s.updJoist f).early = s.early := rfl

@[simp] theorem State.deliver_cycle (s : State) (lat : Nat) (w : Write) (fl : BitVec 5) : (s.deliver lat w fl).cycle = s.cycle := rfl
@[simp] theorem State.deliver_boot (s : State) (lat : Nat) (w : Write) (fl : BitVec 5) : (s.deliver lat w fl).boot = s.boot := rfl
@[simp] theorem State.deliver_stage (s : State) (lat : Nat) (w : Write) (fl : BitVec 5) : (s.deliver lat w fl).stage = s.stage := rfl
@[simp] theorem State.deliver_failDie (s : State) (lat : Nat) (w : Write) (fl : BitVec 5) : (s.deliver lat w fl).failDie = s.failDie := rfl
@[simp] theorem State.deliver_failUnit (s : State) (lat : Nat) (w : Write) (fl : BitVec 5) : (s.deliver lat w fl).failUnit = s.failUnit := rfl
@[simp] theorem State.deliver_failDetail (s : State) (lat : Nat) (w : Write) (fl : BitVec 5) : (s.deliver lat w fl).failDetail = s.failDetail := rfl
@[simp] theorem State.deliver_failTime (s : State) (lat : Nat) (w : Write) (fl : BitVec 5) : (s.deliver lat w fl).failTime = s.failTime := rfl
@[simp] theorem State.deliver_mbQueue (s : State) (lat : Nat) (w : Write) (fl : BitVec 5) : (s.deliver lat w fl).mbQueue = s.mbQueue := rfl
@[simp] theorem State.deliver_meas0 (s : State) (lat : Nat) (w : Write) (fl : BitVec 5) : (s.deliver lat w fl).meas0 = s.meas0 := rfl
@[simp] theorem State.deliver_meas1 (s : State) (lat : Nat) (w : Write) (fl : BitVec 5) : (s.deliver lat w fl).meas1 = s.meas1 := rfl
@[simp] theorem State.deliver_ideLink (s : State) (lat : Nat) (w : Write) (fl : BitVec 5) : (s.deliver lat w fl).ideLink = s.ideLink := rfl
@[simp] theorem State.deliver_ideSel (s : State) (lat : Nat) (w : Write) (fl : BitVec 5) : (s.deliver lat w fl).ideSel = s.ideSel := rfl
@[simp] theorem State.deliver_joist (s : State) (lat : Nat) (w : Write) (fl : BitVec 5) : (s.deliver lat w fl).joist = s.joist := rfl
@[simp] theorem State.deliver_mem (s : State) (lat : Nat) (w : Write) (fl : BitVec 5) : (s.deliver lat w fl).mem = s.mem := rfl
@[simp] theorem State.deliver_poison (s : State) (lat : Nat) (w : Write) (fl : BitVec 5) : (s.deliver lat w fl).poison = s.poison := rfl
@[simp] theorem State.deliver_scrubbed (s : State) (lat : Nat) (w : Write) (fl : BitVec 5) : (s.deliver lat w fl).scrubbed = s.scrubbed := rfl
@[simp] theorem State.deliver_scrubAt (s : State) (lat : Nat) (w : Write) (fl : BitVec 5) : (s.deliver lat w fl).scrubAt = s.scrubAt := rfl
@[simp] theorem State.deliver_host (s : State) (lat : Nat) (w : Write) (fl : BitVec 5) : (s.deliver lat w fl).host = s.host := rfl
@[simp] theorem State.deliver_hostBad (s : State) (lat : Nat) (w : Write) (fl : BitVec 5) : (s.deliver lat w fl).hostBad = s.hostBad := rfl
@[simp] theorem State.deliver_flips (s : State) (lat : Nat) (w : Write) (fl : BitVec 5) : (s.deliver lat w fl).flips = s.flips := rfl
@[simp] theorem State.deliver_msixTab (s : State) (lat : Nat) (w : Write) (fl : BitVec 5) : (s.deliver lat w fl).msixTab = s.msixTab := rfl
@[simp] theorem State.deliver_msixPba (s : State) (lat : Nat) (w : Write) (fl : BitVec 5) : (s.deliver lat w fl).msixPba = s.msixPba := rfl
@[simp] theorem State.deliver_cur (s : State) (lat : Nat) (w : Write) (fl : BitVec 5) : (s.deliver lat w fl).cur = s.cur := rfl
@[simp] theorem State.deliver_agenda (s : State) (lat : Nat) (w : Write) (fl : BitVec 5) : (s.deliver lat w fl).agenda = s.agenda := rfl
@[simp] theorem State.deliver_free (s : State) (lat : Nat) (w : Write) (fl : BitVec 5) : (s.deliver lat w fl).free = s.free := rfl
@[simp] theorem State.deliver_taken (s : State) (lat : Nat) (w : Write) (fl : BitVec 5) : (s.deliver lat w fl).taken = s.taken := rfl
@[simp] theorem State.deliver_stalled (s : State) (lat : Nat) (w : Write) (fl : BitVec 5) : (s.deliver lat w fl).stalled = s.stalled := rfl
@[simp] theorem State.deliver_early (s : State) (lat : Nat) (w : Write) (fl : BitVec 5) : (s.deliver lat w fl).early = s.early := rfl

@[simp] theorem State.putS_cycle (s : State) (n : BitVec 6) (lat : Nat) (v : W64) : (s.putS n lat v).cycle = s.cycle := rfl
@[simp] theorem State.putS_boot (s : State) (n : BitVec 6) (lat : Nat) (v : W64) : (s.putS n lat v).boot = s.boot := rfl
@[simp] theorem State.putS_stage (s : State) (n : BitVec 6) (lat : Nat) (v : W64) : (s.putS n lat v).stage = s.stage := rfl
@[simp] theorem State.putS_failDie (s : State) (n : BitVec 6) (lat : Nat) (v : W64) : (s.putS n lat v).failDie = s.failDie := rfl
@[simp] theorem State.putS_failUnit (s : State) (n : BitVec 6) (lat : Nat) (v : W64) : (s.putS n lat v).failUnit = s.failUnit := rfl
@[simp] theorem State.putS_failDetail (s : State) (n : BitVec 6) (lat : Nat) (v : W64) : (s.putS n lat v).failDetail = s.failDetail := rfl
@[simp] theorem State.putS_failTime (s : State) (n : BitVec 6) (lat : Nat) (v : W64) : (s.putS n lat v).failTime = s.failTime := rfl
@[simp] theorem State.putS_mbQueue (s : State) (n : BitVec 6) (lat : Nat) (v : W64) : (s.putS n lat v).mbQueue = s.mbQueue := rfl
@[simp] theorem State.putS_meas0 (s : State) (n : BitVec 6) (lat : Nat) (v : W64) : (s.putS n lat v).meas0 = s.meas0 := rfl
@[simp] theorem State.putS_meas1 (s : State) (n : BitVec 6) (lat : Nat) (v : W64) : (s.putS n lat v).meas1 = s.meas1 := rfl
@[simp] theorem State.putS_ideLink (s : State) (n : BitVec 6) (lat : Nat) (v : W64) : (s.putS n lat v).ideLink = s.ideLink := rfl
@[simp] theorem State.putS_ideSel (s : State) (n : BitVec 6) (lat : Nat) (v : W64) : (s.putS n lat v).ideSel = s.ideSel := rfl
@[simp] theorem State.putS_joist (s : State) (n : BitVec 6) (lat : Nat) (v : W64) : (s.putS n lat v).joist = s.joist := rfl
@[simp] theorem State.putS_mem (s : State) (n : BitVec 6) (lat : Nat) (v : W64) : (s.putS n lat v).mem = s.mem := rfl
@[simp] theorem State.putS_poison (s : State) (n : BitVec 6) (lat : Nat) (v : W64) : (s.putS n lat v).poison = s.poison := rfl
@[simp] theorem State.putS_scrubbed (s : State) (n : BitVec 6) (lat : Nat) (v : W64) : (s.putS n lat v).scrubbed = s.scrubbed := rfl
@[simp] theorem State.putS_scrubAt (s : State) (n : BitVec 6) (lat : Nat) (v : W64) : (s.putS n lat v).scrubAt = s.scrubAt := rfl
@[simp] theorem State.putS_host (s : State) (n : BitVec 6) (lat : Nat) (v : W64) : (s.putS n lat v).host = s.host := rfl
@[simp] theorem State.putS_hostBad (s : State) (n : BitVec 6) (lat : Nat) (v : W64) : (s.putS n lat v).hostBad = s.hostBad := rfl
@[simp] theorem State.putS_flips (s : State) (n : BitVec 6) (lat : Nat) (v : W64) : (s.putS n lat v).flips = s.flips := rfl
@[simp] theorem State.putS_msixTab (s : State) (n : BitVec 6) (lat : Nat) (v : W64) : (s.putS n lat v).msixTab = s.msixTab := rfl
@[simp] theorem State.putS_msixPba (s : State) (n : BitVec 6) (lat : Nat) (v : W64) : (s.putS n lat v).msixPba = s.msixPba := rfl
@[simp] theorem State.putS_cur (s : State) (n : BitVec 6) (lat : Nat) (v : W64) : (s.putS n lat v).cur = s.cur := rfl
@[simp] theorem State.putS_agenda (s : State) (n : BitVec 6) (lat : Nat) (v : W64) : (s.putS n lat v).agenda = s.agenda := rfl
@[simp] theorem State.putS_free (s : State) (n : BitVec 6) (lat : Nat) (v : W64) : (s.putS n lat v).free = s.free := rfl
@[simp] theorem State.putS_taken (s : State) (n : BitVec 6) (lat : Nat) (v : W64) : (s.putS n lat v).taken = s.taken := rfl
@[simp] theorem State.putS_stalled (s : State) (n : BitVec 6) (lat : Nat) (v : W64) : (s.putS n lat v).stalled = s.stalled := rfl
@[simp] theorem State.putS_early (s : State) (n : BitVec 6) (lat : Nat) (v : W64) : (s.putS n lat v).early = s.early := rfl

@[simp] theorem State.putP_cycle (s : State) (n : BitVec 4) (lat : Nat) (b : Bool) : (s.putP n lat b).cycle = s.cycle := rfl
@[simp] theorem State.putP_boot (s : State) (n : BitVec 4) (lat : Nat) (b : Bool) : (s.putP n lat b).boot = s.boot := rfl
@[simp] theorem State.putP_stage (s : State) (n : BitVec 4) (lat : Nat) (b : Bool) : (s.putP n lat b).stage = s.stage := rfl
@[simp] theorem State.putP_failDie (s : State) (n : BitVec 4) (lat : Nat) (b : Bool) : (s.putP n lat b).failDie = s.failDie := rfl
@[simp] theorem State.putP_failUnit (s : State) (n : BitVec 4) (lat : Nat) (b : Bool) : (s.putP n lat b).failUnit = s.failUnit := rfl
@[simp] theorem State.putP_failDetail (s : State) (n : BitVec 4) (lat : Nat) (b : Bool) : (s.putP n lat b).failDetail = s.failDetail := rfl
@[simp] theorem State.putP_failTime (s : State) (n : BitVec 4) (lat : Nat) (b : Bool) : (s.putP n lat b).failTime = s.failTime := rfl
@[simp] theorem State.putP_mbQueue (s : State) (n : BitVec 4) (lat : Nat) (b : Bool) : (s.putP n lat b).mbQueue = s.mbQueue := rfl
@[simp] theorem State.putP_meas0 (s : State) (n : BitVec 4) (lat : Nat) (b : Bool) : (s.putP n lat b).meas0 = s.meas0 := rfl
@[simp] theorem State.putP_meas1 (s : State) (n : BitVec 4) (lat : Nat) (b : Bool) : (s.putP n lat b).meas1 = s.meas1 := rfl
@[simp] theorem State.putP_ideLink (s : State) (n : BitVec 4) (lat : Nat) (b : Bool) : (s.putP n lat b).ideLink = s.ideLink := rfl
@[simp] theorem State.putP_ideSel (s : State) (n : BitVec 4) (lat : Nat) (b : Bool) : (s.putP n lat b).ideSel = s.ideSel := rfl
@[simp] theorem State.putP_joist (s : State) (n : BitVec 4) (lat : Nat) (b : Bool) : (s.putP n lat b).joist = s.joist := rfl
@[simp] theorem State.putP_mem (s : State) (n : BitVec 4) (lat : Nat) (b : Bool) : (s.putP n lat b).mem = s.mem := rfl
@[simp] theorem State.putP_poison (s : State) (n : BitVec 4) (lat : Nat) (b : Bool) : (s.putP n lat b).poison = s.poison := rfl
@[simp] theorem State.putP_scrubbed (s : State) (n : BitVec 4) (lat : Nat) (b : Bool) : (s.putP n lat b).scrubbed = s.scrubbed := rfl
@[simp] theorem State.putP_scrubAt (s : State) (n : BitVec 4) (lat : Nat) (b : Bool) : (s.putP n lat b).scrubAt = s.scrubAt := rfl
@[simp] theorem State.putP_host (s : State) (n : BitVec 4) (lat : Nat) (b : Bool) : (s.putP n lat b).host = s.host := rfl
@[simp] theorem State.putP_hostBad (s : State) (n : BitVec 4) (lat : Nat) (b : Bool) : (s.putP n lat b).hostBad = s.hostBad := rfl
@[simp] theorem State.putP_flips (s : State) (n : BitVec 4) (lat : Nat) (b : Bool) : (s.putP n lat b).flips = s.flips := rfl
@[simp] theorem State.putP_msixTab (s : State) (n : BitVec 4) (lat : Nat) (b : Bool) : (s.putP n lat b).msixTab = s.msixTab := rfl
@[simp] theorem State.putP_msixPba (s : State) (n : BitVec 4) (lat : Nat) (b : Bool) : (s.putP n lat b).msixPba = s.msixPba := rfl
@[simp] theorem State.putP_cur (s : State) (n : BitVec 4) (lat : Nat) (b : Bool) : (s.putP n lat b).cur = s.cur := rfl
@[simp] theorem State.putP_agenda (s : State) (n : BitVec 4) (lat : Nat) (b : Bool) : (s.putP n lat b).agenda = s.agenda := rfl
@[simp] theorem State.putP_free (s : State) (n : BitVec 4) (lat : Nat) (b : Bool) : (s.putP n lat b).free = s.free := rfl
@[simp] theorem State.putP_taken (s : State) (n : BitVec 4) (lat : Nat) (b : Bool) : (s.putP n lat b).taken = s.taken := rfl
@[simp] theorem State.putP_stalled (s : State) (n : BitVec 4) (lat : Nat) (b : Bool) : (s.putP n lat b).stalled = s.stalled := rfl
@[simp] theorem State.putP_early (s : State) (n : BitVec 4) (lat : Nat) (b : Bool) : (s.putP n lat b).early = s.early := rfl

@[simp] theorem State.pendS_cycle (s : State) (n : BitVec 6) (lat : Nat) (v : W64) : (s.pendS n lat v).cycle = s.cycle := rfl
@[simp] theorem State.pendS_boot (s : State) (n : BitVec 6) (lat : Nat) (v : W64) : (s.pendS n lat v).boot = s.boot := rfl
@[simp] theorem State.pendS_stage (s : State) (n : BitVec 6) (lat : Nat) (v : W64) : (s.pendS n lat v).stage = s.stage := rfl
@[simp] theorem State.pendS_failDie (s : State) (n : BitVec 6) (lat : Nat) (v : W64) : (s.pendS n lat v).failDie = s.failDie := rfl
@[simp] theorem State.pendS_failUnit (s : State) (n : BitVec 6) (lat : Nat) (v : W64) : (s.pendS n lat v).failUnit = s.failUnit := rfl
@[simp] theorem State.pendS_failDetail (s : State) (n : BitVec 6) (lat : Nat) (v : W64) : (s.pendS n lat v).failDetail = s.failDetail := rfl
@[simp] theorem State.pendS_failTime (s : State) (n : BitVec 6) (lat : Nat) (v : W64) : (s.pendS n lat v).failTime = s.failTime := rfl
@[simp] theorem State.pendS_mbQueue (s : State) (n : BitVec 6) (lat : Nat) (v : W64) : (s.pendS n lat v).mbQueue = s.mbQueue := rfl
@[simp] theorem State.pendS_meas0 (s : State) (n : BitVec 6) (lat : Nat) (v : W64) : (s.pendS n lat v).meas0 = s.meas0 := rfl
@[simp] theorem State.pendS_meas1 (s : State) (n : BitVec 6) (lat : Nat) (v : W64) : (s.pendS n lat v).meas1 = s.meas1 := rfl
@[simp] theorem State.pendS_ideLink (s : State) (n : BitVec 6) (lat : Nat) (v : W64) : (s.pendS n lat v).ideLink = s.ideLink := rfl
@[simp] theorem State.pendS_ideSel (s : State) (n : BitVec 6) (lat : Nat) (v : W64) : (s.pendS n lat v).ideSel = s.ideSel := rfl
@[simp] theorem State.pendS_joist (s : State) (n : BitVec 6) (lat : Nat) (v : W64) : (s.pendS n lat v).joist = s.joist := rfl
@[simp] theorem State.pendS_mem (s : State) (n : BitVec 6) (lat : Nat) (v : W64) : (s.pendS n lat v).mem = s.mem := rfl
@[simp] theorem State.pendS_poison (s : State) (n : BitVec 6) (lat : Nat) (v : W64) : (s.pendS n lat v).poison = s.poison := rfl
@[simp] theorem State.pendS_scrubbed (s : State) (n : BitVec 6) (lat : Nat) (v : W64) : (s.pendS n lat v).scrubbed = s.scrubbed := rfl
@[simp] theorem State.pendS_scrubAt (s : State) (n : BitVec 6) (lat : Nat) (v : W64) : (s.pendS n lat v).scrubAt = s.scrubAt := rfl
@[simp] theorem State.pendS_host (s : State) (n : BitVec 6) (lat : Nat) (v : W64) : (s.pendS n lat v).host = s.host := rfl
@[simp] theorem State.pendS_hostBad (s : State) (n : BitVec 6) (lat : Nat) (v : W64) : (s.pendS n lat v).hostBad = s.hostBad := rfl
@[simp] theorem State.pendS_flips (s : State) (n : BitVec 6) (lat : Nat) (v : W64) : (s.pendS n lat v).flips = s.flips := rfl
@[simp] theorem State.pendS_msixTab (s : State) (n : BitVec 6) (lat : Nat) (v : W64) : (s.pendS n lat v).msixTab = s.msixTab := rfl
@[simp] theorem State.pendS_msixPba (s : State) (n : BitVec 6) (lat : Nat) (v : W64) : (s.pendS n lat v).msixPba = s.msixPba := rfl
@[simp] theorem State.pendS_cur (s : State) (n : BitVec 6) (lat : Nat) (v : W64) : (s.pendS n lat v).cur = s.cur := rfl
@[simp] theorem State.pendS_agenda (s : State) (n : BitVec 6) (lat : Nat) (v : W64) : (s.pendS n lat v).agenda = s.agenda := rfl
@[simp] theorem State.pendS_free (s : State) (n : BitVec 6) (lat : Nat) (v : W64) : (s.pendS n lat v).free = s.free := rfl
@[simp] theorem State.pendS_taken (s : State) (n : BitVec 6) (lat : Nat) (v : W64) : (s.pendS n lat v).taken = s.taken := rfl
@[simp] theorem State.pendS_stalled (s : State) (n : BitVec 6) (lat : Nat) (v : W64) : (s.pendS n lat v).stalled = s.stalled := rfl
@[simp] theorem State.pendS_early (s : State) (n : BitVec 6) (lat : Nat) (v : W64) : (s.pendS n lat v).early = s.early := rfl

@[simp] theorem State.updJoist_joist (s : State) (f : Joist → Joist) : (s.updJoist f).joist = f s.joist := rfl
@[simp] theorem State.advance_dies (s : State) (t : Nat) : (s.advance t).dies = s.dies := rfl
@[simp] theorem State.advance_boot (s : State) (t : Nat) : (s.advance t).boot = s.boot := rfl
@[simp] theorem State.advance_stage (s : State) (t : Nat) : (s.advance t).stage = s.stage := rfl
@[simp] theorem State.advance_failDie (s : State) (t : Nat) : (s.advance t).failDie = s.failDie := rfl
@[simp] theorem State.advance_failUnit (s : State) (t : Nat) : (s.advance t).failUnit = s.failUnit := rfl
@[simp] theorem State.advance_failDetail (s : State) (t : Nat) : (s.advance t).failDetail = s.failDetail := rfl
@[simp] theorem State.advance_failTime (s : State) (t : Nat) : (s.advance t).failTime = s.failTime := rfl
@[simp] theorem State.advance_mbQueue (s : State) (t : Nat) : (s.advance t).mbQueue = s.mbQueue := rfl
@[simp] theorem State.advance_meas0 (s : State) (t : Nat) : (s.advance t).meas0 = s.meas0 := rfl
@[simp] theorem State.advance_meas1 (s : State) (t : Nat) : (s.advance t).meas1 = s.meas1 := rfl
@[simp] theorem State.advance_ideLink (s : State) (t : Nat) : (s.advance t).ideLink = s.ideLink := rfl
@[simp] theorem State.advance_ideSel (s : State) (t : Nat) : (s.advance t).ideSel = s.ideSel := rfl
@[simp] theorem State.advance_mem (s : State) (t : Nat) : (s.advance t).mem = s.mem := rfl
@[simp] theorem State.advance_poison (s : State) (t : Nat) : (s.advance t).poison = s.poison := rfl
@[simp] theorem State.advance_scrubbed (s : State) (t : Nat) : (s.advance t).scrubbed = s.scrubbed := rfl
@[simp] theorem State.advance_scrubAt (s : State) (t : Nat) : (s.advance t).scrubAt = s.scrubAt := rfl
@[simp] theorem State.advance_host (s : State) (t : Nat) : (s.advance t).host = s.host := rfl
@[simp] theorem State.advance_hostBad (s : State) (t : Nat) : (s.advance t).hostBad = s.hostBad := rfl
@[simp] theorem State.advance_flips (s : State) (t : Nat) : (s.advance t).flips = s.flips := rfl
@[simp] theorem State.advance_msixTab (s : State) (t : Nat) : (s.advance t).msixTab = s.msixTab := rfl
@[simp] theorem State.advance_msixPba (s : State) (t : Nat) : (s.advance t).msixPba = s.msixPba := rfl
@[simp] theorem State.advance_cur (s : State) (t : Nat) : (s.advance t).cur = s.cur := rfl
@[simp] theorem State.advance_agenda (s : State) (t : Nat) : (s.advance t).agenda = s.agenda := rfl
@[simp] theorem State.advance_free (s : State) (t : Nat) : (s.advance t).free = s.free := rfl
@[simp] theorem State.advance_taken (s : State) (t : Nat) : (s.advance t).taken = s.taken := rfl
@[simp] theorem State.advance_stalled (s : State) (t : Nat) : (s.advance t).stalled = s.stalled := rfl
@[simp] theorem State.advance_early (s : State) (t : Nat) : (s.advance t).early = s.early := rfl

@[simp] theorem Ctx.updArch_tiles (c : Ctx) (f : Arch → Arch) : (c.updArch f).tiles = c.tiles := rfl
@[simp] theorem Ctx.updArch_lines (c : Ctx) (f : Arch → Arch) : (c.updArch f).lines = c.lines := rfl
@[simp] theorem Ctx.updArch_masks (c : Ctx) (f : Arch → Arch) : (c.updArch f).masks = c.masks := rfl
@[simp] theorem Ctx.updArch_cause (c : Ctx) (f : Arch → Arch) : (c.updArch f).cause = c.cause := rfl
@[simp] theorem Ctx.updArch_fva (c : Ctx) (f : Arch → Arch) : (c.updArch f).fva = c.fva := rfl
@[simp] theorem Ctx.updArch_finfo (c : Ctx) (f : Arch → Arch) : (c.updArch f).finfo = c.finfo := rfl
@[simp] theorem Ctx.updArch_fstat (c : Ctx) (f : Arch → Arch) : (c.updArch f).fstat = c.fstat := rfl
@[simp] theorem Ctx.updArch_sbctl (c : Ctx) (f : Arch → Arch) : (c.updArch f).sbctl = c.sbctl := rfl
@[simp] theorem Ctx.updArch_wid (c : Ctx) (f : Arch → Arch) : (c.updArch f).wid = c.wid := rfl
@[simp] theorem Ctx.updArch_widcfg (c : Ctx) (f : Arch → Arch) : (c.updArch f).widcfg = c.widcfg := rfl
@[simp] theorem Ctx.updArch_xctl (c : Ctx) (f : Arch → Arch) : (c.updArch f).xctl = c.xctl := rfl
@[simp] theorem Ctx.updArch_sticky (c : Ctx) (f : Arch → Arch) : (c.updArch f).sticky = c.sticky := rfl
@[simp] theorem Ctx.updArch_rovf (c : Ctx) (f : Arch → Arch) : (c.updArch f).rovf = c.rovf := rfl
@[simp] theorem Ctx.updArch_drops (c : Ctx) (f : Arch → Arch) : (c.updArch f).drops = c.drops := rfl
@[simp] theorem Ctx.updArch_xpr (c : Ctx) (f : Arch → Arch) : (c.updArch f).xpr = c.xpr := rfl
@[simp] theorem Ctx.updArch_iuvec (c : Ctx) (f : Arch → Arch) : (c.updArch f).iuvec = c.iuvec := rfl
@[simp] theorem Ctx.updArch_uiret (c : Ctx) (f : Arch → Arch) : (c.updArch f).uiret = c.uiret := rfl
@[simp] theorem Ctx.updArch_inh (c : Ctx) (f : Arch → Arch) : (c.updArch f).inh = c.inh := rfl
@[simp] theorem Ctx.updArch_lost (c : Ctx) (f : Arch → Arch) : (c.updArch f).lost = c.lost := rfl
@[simp] theorem Ctx.updArch_keepM (c : Ctx) (f : Arch → Arch) : (c.updArch f).keepM = c.keepM := rfl
@[simp] theorem Ctx.updArch_keepC (c : Ctx) (f : Arch → Arch) : (c.updArch f).keepC = c.keepC := rfl
@[simp] theorem Ctx.updArch_mrql (c : Ctx) (f : Arch → Arch) : (c.updArch f).mrql = c.mrql := rfl
@[simp] theorem Ctx.updArch_mrqr (c : Ctx) (f : Arch → Arch) : (c.updArch f).mrqr = c.mrqr := rfl
@[simp] theorem Ctx.updArch_mrqi (c : Ctx) (f : Arch → Arch) : (c.updArch f).mrqi = c.mrqi := rfl
@[simp] theorem Ctx.updArch_pin (c : Ctx) (f : Arch → Arch) : (c.updArch f).pin = c.pin := rfl
@[simp] theorem Ctx.updArch_pinStart (c : Ctx) (f : Arch → Arch) : (c.updArch f).pinStart = c.pinStart := rfl
@[simp] theorem Ctx.updArch_pinOvr (c : Ctx) (f : Arch → Arch) : (c.updArch f).pinOvr = c.pinOvr := rfl
@[simp] theorem Ctx.updArch_persist (c : Ctx) (f : Arch → Arch) : (c.updArch f).persist = c.persist := rfl
@[simp] theorem Ctx.updArch_quantum (c : Ctx) (f : Arch → Arch) : (c.updArch f).quantum = c.quantum := rfl
@[simp] theorem Ctx.updArch_yields (c : Ctx) (f : Arch → Arch) : (c.updArch f).yields = c.yields := rfl
@[simp] theorem Ctx.updArch_status (c : Ctx) (f : Arch → Arch) : (c.updArch f).status = c.status := rfl
@[simp] theorem Ctx.updArch_asid (c : Ctx) (f : Arch → Arch) : (c.updArch f).asid = c.asid := rfl
@[simp] theorem Ctx.updArch_task (c : Ctx) (f : Arch → Arch) : (c.updArch f).task = c.task := rfl
@[simp] theorem Ctx.updArch_extents (c : Ctx) (f : Arch → Arch) : (c.updArch f).extents = c.extents := rfl
@[simp] theorem Ctx.updArch_ranges (c : Ctx) (f : Arch → Arch) : (c.updArch f).ranges = c.ranges := rfl
@[simp] theorem Ctx.updArch_inflight (c : Ctx) (f : Arch → Arch) : (c.updArch f).inflight = c.inflight := rfl
@[simp] theorem Ctx.updArch_opened (c : Ctx) (f : Arch → Arch) : (c.updArch f).opened = c.opened := rfl
@[simp] theorem Ctx.updArch_pend (c : Ctx) (f : Arch → Arch) : (c.updArch f).pend = c.pend := rfl
@[simp] theorem Ctx.updArch_held (c : Ctx) (f : Arch → Arch) : (c.updArch f).held = c.held := rfl
@[simp] theorem Ctx.updArch_ckpt (c : Ctx) (f : Arch → Arch) : (c.updArch f).ckpt = c.ckpt := rfl
@[simp] theorem Ctx.updArch_npc (c : Ctx) (f : Arch → Arch) : (c.updArch f).npc = c.npc := rfl
@[simp] theorem Ctx.updArch_jumped (c : Ctx) (f : Arch → Arch) : (c.updArch f).jumped = c.jumped := rfl
@[simp] theorem Ctx.updArch_nextDue (c : Ctx) (f : Arch → Arch) : (c.updArch f).nextDue = c.nextDue := rfl
@[simp] theorem Ctx.updArch_fencing (c : Ctx) (f : Arch → Arch) : (c.updArch f).fencing = c.fencing := rfl
@[simp] theorem Ctx.updArch_markDue (c : Ctx) (f : Arch → Arch) : (c.updArch f).markDue = c.markDue := rfl
@[simp] theorem Ctx.updArch_readT (c : Ctx) (f : Arch → Arch) : (c.updArch f).readT = c.readT := rfl
@[simp] theorem Ctx.updArch_readV (c : Ctx) (f : Arch → Arch) : (c.updArch f).readV = c.readV := rfl
@[simp] theorem Ctx.updArch_readK (c : Ctx) (f : Arch → Arch) : (c.updArch f).readK = c.readK := rfl
@[simp] theorem Ctx.updArch_confT (c : Ctx) (f : Arch → Arch) : (c.updArch f).confT = c.confT := rfl
@[simp] theorem Ctx.updArch_confV (c : Ctx) (f : Arch → Arch) : (c.updArch f).confV = c.confV := rfl
@[simp] theorem Ctx.updArch_confK (c : Ctx) (f : Arch → Arch) : (c.updArch f).confK = c.confK := rfl
@[simp] theorem Ctx.updArch_notices (c : Ctx) (f : Arch → Arch) : (c.updArch f).notices = c.notices := rfl
@[simp] theorem Ctx.updArch_handles (c : Ctx) (f : Arch → Arch) : (c.updArch f).handles = c.handles := rfl
@[simp] theorem Ctx.updArch_statuses (c : Ctx) (f : Arch → Arch) : (c.updArch f).statuses = c.statuses := rfl
@[simp] theorem Ctx.updArch_streams (c : Ctx) (f : Arch → Arch) : (c.updArch f).streams = c.streams := rfl
@[simp] theorem Ctx.updArch_xwaited (c : Ctx) (f : Arch → Arch) : (c.updArch f).xwaited = c.xwaited := rfl
@[simp] theorem Ctx.updArch_reports (c : Ctx) (f : Arch → Arch) : (c.updArch f).reports = c.reports := rfl
@[simp] theorem Ctx.updArch_links (c : Ctx) (f : Arch → Arch) : (c.updArch f).links = c.links := rfl
@[simp] theorem Ctx.updArch_slotWait (c : Ctx) (f : Arch → Arch) : (c.updArch f).slotWait = c.slotWait := rfl
@[simp] theorem Ctx.updArch_wait (c : Ctx) (f : Arch → Arch) : (c.updArch f).wait = c.wait := rfl
@[simp] theorem Ctx.updArch_kvReq (c : Ctx) (f : Arch → Arch) : (c.updArch f).kvReq = c.kvReq := rfl
@[simp] theorem Ctx.updArch_boarding (c : Ctx) (f : Arch → Arch) : (c.updArch f).boarding = c.boarding := rfl
@[simp] theorem Ctx.updArch_keepWait (c : Ctx) (f : Arch → Arch) : (c.updArch f).keepWait = c.keepWait := rfl
@[simp] theorem Ctx.updArch_keepKv (c : Ctx) (f : Arch → Arch) : (c.updArch f).keepKv = c.keepKv := rfl
@[simp] theorem Ctx.updArch_keepBoard (c : Ctx) (f : Arch → Arch) : (c.updArch f).keepBoard = c.keepBoard := rfl
@[simp] theorem Ctx.updArch_waitRegs (c : Ctx) (f : Arch → Arch) : (c.updArch f).waitRegs = c.waitRegs := rfl
@[simp] theorem Ctx.updArch_unboards (c : Ctx) (f : Arch → Arch) : (c.updArch f).unboards = c.unboards := rfl
@[simp] theorem Ctx.updArch_pendingA (c : Ctx) (f : Arch → Arch) : (c.updArch f).pendingA = c.pendingA := rfl
@[simp] theorem Ctx.updArch_trapDue (c : Ctx) (f : Arch → Arch) : (c.updArch f).trapDue = c.trapDue := rfl
@[simp] theorem Ctx.updArch_streamFault (c : Ctx) (f : Arch → Arch) : (c.updArch f).streamFault = c.streamFault := rfl
@[simp] theorem Ctx.updArch_rollDue (c : Ctx) (f : Arch → Arch) : (c.updArch f).rollDue = c.rollDue := rfl
@[simp] theorem Ctx.updArch_latches (c : Ctx) (f : Arch → Arch) : (c.updArch f).latches = c.latches := rfl
@[simp] theorem Ctx.updArch_latchPend (c : Ctx) (f : Arch → Arch) : (c.updArch f).latchPend = c.latchPend := rfl
@[simp] theorem Ctx.updArch_latchBad (c : Ctx) (f : Arch → Arch) : (c.updArch f).latchBad = c.latchBad := rfl
@[simp] theorem Ctx.updArch_poison (c : Ctx) (f : Arch → Arch) : (c.updArch f).poison = c.poison := rfl
@[simp] theorem Ctx.updArch_wdStart (c : Ctx) (f : Arch → Arch) : (c.updArch f).wdStart = c.wdStart := rfl
@[simp] theorem Ctx.updArch_wdRuns (c : Ctx) (f : Arch → Arch) : (c.updArch f).wdRuns = c.wdRuns := rfl
@[simp] theorem Ctx.updArch_wdHeld (c : Ctx) (f : Arch → Arch) : (c.updArch f).wdHeld = c.wdHeld := rfl
@[simp] theorem Ctx.updArch_wasBlocked (c : Ctx) (f : Arch → Arch) : (c.updArch f).wasBlocked = c.wasBlocked := rfl
@[simp] theorem Ctx.updArch_arch (c : Ctx) (f : Arch → Arch) : (c.updArch f).arch = f c.arch := rfl

@[simp] theorem Ctx.deliver_arch (c : Ctx) (now lat : Nat) (w : Write) (fl : BitVec 5) : (c.deliver now lat w fl).arch = c.arch := rfl
@[simp] theorem Ctx.deliver_tiles (c : Ctx) (now lat : Nat) (w : Write) (fl : BitVec 5) : (c.deliver now lat w fl).tiles = c.tiles := rfl
@[simp] theorem Ctx.deliver_lines (c : Ctx) (now lat : Nat) (w : Write) (fl : BitVec 5) : (c.deliver now lat w fl).lines = c.lines := rfl
@[simp] theorem Ctx.deliver_masks (c : Ctx) (now lat : Nat) (w : Write) (fl : BitVec 5) : (c.deliver now lat w fl).masks = c.masks := rfl
@[simp] theorem Ctx.deliver_cause (c : Ctx) (now lat : Nat) (w : Write) (fl : BitVec 5) : (c.deliver now lat w fl).cause = c.cause := rfl
@[simp] theorem Ctx.deliver_fva (c : Ctx) (now lat : Nat) (w : Write) (fl : BitVec 5) : (c.deliver now lat w fl).fva = c.fva := rfl
@[simp] theorem Ctx.deliver_finfo (c : Ctx) (now lat : Nat) (w : Write) (fl : BitVec 5) : (c.deliver now lat w fl).finfo = c.finfo := rfl
@[simp] theorem Ctx.deliver_fstat (c : Ctx) (now lat : Nat) (w : Write) (fl : BitVec 5) : (c.deliver now lat w fl).fstat = c.fstat := rfl
@[simp] theorem Ctx.deliver_sbctl (c : Ctx) (now lat : Nat) (w : Write) (fl : BitVec 5) : (c.deliver now lat w fl).sbctl = c.sbctl := rfl
@[simp] theorem Ctx.deliver_wid (c : Ctx) (now lat : Nat) (w : Write) (fl : BitVec 5) : (c.deliver now lat w fl).wid = c.wid := rfl
@[simp] theorem Ctx.deliver_widcfg (c : Ctx) (now lat : Nat) (w : Write) (fl : BitVec 5) : (c.deliver now lat w fl).widcfg = c.widcfg := rfl
@[simp] theorem Ctx.deliver_xctl (c : Ctx) (now lat : Nat) (w : Write) (fl : BitVec 5) : (c.deliver now lat w fl).xctl = c.xctl := rfl
@[simp] theorem Ctx.deliver_sticky (c : Ctx) (now lat : Nat) (w : Write) (fl : BitVec 5) : (c.deliver now lat w fl).sticky = c.sticky := rfl
@[simp] theorem Ctx.deliver_rovf (c : Ctx) (now lat : Nat) (w : Write) (fl : BitVec 5) : (c.deliver now lat w fl).rovf = c.rovf := rfl
@[simp] theorem Ctx.deliver_drops (c : Ctx) (now lat : Nat) (w : Write) (fl : BitVec 5) : (c.deliver now lat w fl).drops = c.drops := rfl
@[simp] theorem Ctx.deliver_xpr (c : Ctx) (now lat : Nat) (w : Write) (fl : BitVec 5) : (c.deliver now lat w fl).xpr = c.xpr := rfl
@[simp] theorem Ctx.deliver_iuvec (c : Ctx) (now lat : Nat) (w : Write) (fl : BitVec 5) : (c.deliver now lat w fl).iuvec = c.iuvec := rfl
@[simp] theorem Ctx.deliver_uiret (c : Ctx) (now lat : Nat) (w : Write) (fl : BitVec 5) : (c.deliver now lat w fl).uiret = c.uiret := rfl
@[simp] theorem Ctx.deliver_inh (c : Ctx) (now lat : Nat) (w : Write) (fl : BitVec 5) : (c.deliver now lat w fl).inh = c.inh := rfl
@[simp] theorem Ctx.deliver_lost (c : Ctx) (now lat : Nat) (w : Write) (fl : BitVec 5) : (c.deliver now lat w fl).lost = c.lost := rfl
@[simp] theorem Ctx.deliver_keepM (c : Ctx) (now lat : Nat) (w : Write) (fl : BitVec 5) : (c.deliver now lat w fl).keepM = c.keepM := rfl
@[simp] theorem Ctx.deliver_keepC (c : Ctx) (now lat : Nat) (w : Write) (fl : BitVec 5) : (c.deliver now lat w fl).keepC = c.keepC := rfl
@[simp] theorem Ctx.deliver_mrql (c : Ctx) (now lat : Nat) (w : Write) (fl : BitVec 5) : (c.deliver now lat w fl).mrql = c.mrql := rfl
@[simp] theorem Ctx.deliver_mrqr (c : Ctx) (now lat : Nat) (w : Write) (fl : BitVec 5) : (c.deliver now lat w fl).mrqr = c.mrqr := rfl
@[simp] theorem Ctx.deliver_mrqi (c : Ctx) (now lat : Nat) (w : Write) (fl : BitVec 5) : (c.deliver now lat w fl).mrqi = c.mrqi := rfl
@[simp] theorem Ctx.deliver_pin (c : Ctx) (now lat : Nat) (w : Write) (fl : BitVec 5) : (c.deliver now lat w fl).pin = c.pin := rfl
@[simp] theorem Ctx.deliver_pinStart (c : Ctx) (now lat : Nat) (w : Write) (fl : BitVec 5) : (c.deliver now lat w fl).pinStart = c.pinStart := rfl
@[simp] theorem Ctx.deliver_pinOvr (c : Ctx) (now lat : Nat) (w : Write) (fl : BitVec 5) : (c.deliver now lat w fl).pinOvr = c.pinOvr := rfl
@[simp] theorem Ctx.deliver_persist (c : Ctx) (now lat : Nat) (w : Write) (fl : BitVec 5) : (c.deliver now lat w fl).persist = c.persist := rfl
@[simp] theorem Ctx.deliver_quantum (c : Ctx) (now lat : Nat) (w : Write) (fl : BitVec 5) : (c.deliver now lat w fl).quantum = c.quantum := rfl
@[simp] theorem Ctx.deliver_yields (c : Ctx) (now lat : Nat) (w : Write) (fl : BitVec 5) : (c.deliver now lat w fl).yields = c.yields := rfl
@[simp] theorem Ctx.deliver_status (c : Ctx) (now lat : Nat) (w : Write) (fl : BitVec 5) : (c.deliver now lat w fl).status = c.status := rfl
@[simp] theorem Ctx.deliver_asid (c : Ctx) (now lat : Nat) (w : Write) (fl : BitVec 5) : (c.deliver now lat w fl).asid = c.asid := rfl
@[simp] theorem Ctx.deliver_task (c : Ctx) (now lat : Nat) (w : Write) (fl : BitVec 5) : (c.deliver now lat w fl).task = c.task := rfl
@[simp] theorem Ctx.deliver_extents (c : Ctx) (now lat : Nat) (w : Write) (fl : BitVec 5) : (c.deliver now lat w fl).extents = c.extents := rfl
@[simp] theorem Ctx.deliver_ranges (c : Ctx) (now lat : Nat) (w : Write) (fl : BitVec 5) : (c.deliver now lat w fl).ranges = c.ranges := rfl
@[simp] theorem Ctx.deliver_opened (c : Ctx) (now lat : Nat) (w : Write) (fl : BitVec 5) : (c.deliver now lat w fl).opened = c.opened := rfl
@[simp] theorem Ctx.deliver_held (c : Ctx) (now lat : Nat) (w : Write) (fl : BitVec 5) : (c.deliver now lat w fl).held = c.held := rfl
@[simp] theorem Ctx.deliver_ckpt (c : Ctx) (now lat : Nat) (w : Write) (fl : BitVec 5) : (c.deliver now lat w fl).ckpt = c.ckpt := rfl
@[simp] theorem Ctx.deliver_npc (c : Ctx) (now lat : Nat) (w : Write) (fl : BitVec 5) : (c.deliver now lat w fl).npc = c.npc := rfl
@[simp] theorem Ctx.deliver_jumped (c : Ctx) (now lat : Nat) (w : Write) (fl : BitVec 5) : (c.deliver now lat w fl).jumped = c.jumped := rfl
@[simp] theorem Ctx.deliver_nextDue (c : Ctx) (now lat : Nat) (w : Write) (fl : BitVec 5) : (c.deliver now lat w fl).nextDue = c.nextDue := rfl
@[simp] theorem Ctx.deliver_fencing (c : Ctx) (now lat : Nat) (w : Write) (fl : BitVec 5) : (c.deliver now lat w fl).fencing = c.fencing := rfl
@[simp] theorem Ctx.deliver_markDue (c : Ctx) (now lat : Nat) (w : Write) (fl : BitVec 5) : (c.deliver now lat w fl).markDue = c.markDue := rfl
@[simp] theorem Ctx.deliver_readT (c : Ctx) (now lat : Nat) (w : Write) (fl : BitVec 5) : (c.deliver now lat w fl).readT = c.readT := rfl
@[simp] theorem Ctx.deliver_readV (c : Ctx) (now lat : Nat) (w : Write) (fl : BitVec 5) : (c.deliver now lat w fl).readV = c.readV := rfl
@[simp] theorem Ctx.deliver_readK (c : Ctx) (now lat : Nat) (w : Write) (fl : BitVec 5) : (c.deliver now lat w fl).readK = c.readK := rfl
@[simp] theorem Ctx.deliver_confT (c : Ctx) (now lat : Nat) (w : Write) (fl : BitVec 5) : (c.deliver now lat w fl).confT = c.confT := rfl
@[simp] theorem Ctx.deliver_confV (c : Ctx) (now lat : Nat) (w : Write) (fl : BitVec 5) : (c.deliver now lat w fl).confV = c.confV := rfl
@[simp] theorem Ctx.deliver_confK (c : Ctx) (now lat : Nat) (w : Write) (fl : BitVec 5) : (c.deliver now lat w fl).confK = c.confK := rfl
@[simp] theorem Ctx.deliver_notices (c : Ctx) (now lat : Nat) (w : Write) (fl : BitVec 5) : (c.deliver now lat w fl).notices = c.notices := rfl
@[simp] theorem Ctx.deliver_handles (c : Ctx) (now lat : Nat) (w : Write) (fl : BitVec 5) : (c.deliver now lat w fl).handles = c.handles := rfl
@[simp] theorem Ctx.deliver_statuses (c : Ctx) (now lat : Nat) (w : Write) (fl : BitVec 5) : (c.deliver now lat w fl).statuses = c.statuses := rfl
@[simp] theorem Ctx.deliver_xwaited (c : Ctx) (now lat : Nat) (w : Write) (fl : BitVec 5) : (c.deliver now lat w fl).xwaited = c.xwaited := rfl
@[simp] theorem Ctx.deliver_reports (c : Ctx) (now lat : Nat) (w : Write) (fl : BitVec 5) : (c.deliver now lat w fl).reports = c.reports := rfl
@[simp] theorem Ctx.deliver_links (c : Ctx) (now lat : Nat) (w : Write) (fl : BitVec 5) : (c.deliver now lat w fl).links = c.links := rfl
@[simp] theorem Ctx.deliver_slotWait (c : Ctx) (now lat : Nat) (w : Write) (fl : BitVec 5) : (c.deliver now lat w fl).slotWait = c.slotWait := rfl
@[simp] theorem Ctx.deliver_wait (c : Ctx) (now lat : Nat) (w : Write) (fl : BitVec 5) : (c.deliver now lat w fl).wait = c.wait := rfl
@[simp] theorem Ctx.deliver_kvReq (c : Ctx) (now lat : Nat) (w : Write) (fl : BitVec 5) : (c.deliver now lat w fl).kvReq = c.kvReq := rfl
@[simp] theorem Ctx.deliver_boarding (c : Ctx) (now lat : Nat) (w : Write) (fl : BitVec 5) : (c.deliver now lat w fl).boarding = c.boarding := rfl
@[simp] theorem Ctx.deliver_keepWait (c : Ctx) (now lat : Nat) (w : Write) (fl : BitVec 5) : (c.deliver now lat w fl).keepWait = c.keepWait := rfl
@[simp] theorem Ctx.deliver_keepKv (c : Ctx) (now lat : Nat) (w : Write) (fl : BitVec 5) : (c.deliver now lat w fl).keepKv = c.keepKv := rfl
@[simp] theorem Ctx.deliver_keepBoard (c : Ctx) (now lat : Nat) (w : Write) (fl : BitVec 5) : (c.deliver now lat w fl).keepBoard = c.keepBoard := rfl
@[simp] theorem Ctx.deliver_waitRegs (c : Ctx) (now lat : Nat) (w : Write) (fl : BitVec 5) : (c.deliver now lat w fl).waitRegs = c.waitRegs := rfl
@[simp] theorem Ctx.deliver_unboards (c : Ctx) (now lat : Nat) (w : Write) (fl : BitVec 5) : (c.deliver now lat w fl).unboards = c.unboards := rfl
@[simp] theorem Ctx.deliver_pendingA (c : Ctx) (now lat : Nat) (w : Write) (fl : BitVec 5) : (c.deliver now lat w fl).pendingA = c.pendingA := rfl
@[simp] theorem Ctx.deliver_trapDue (c : Ctx) (now lat : Nat) (w : Write) (fl : BitVec 5) : (c.deliver now lat w fl).trapDue = c.trapDue := rfl
@[simp] theorem Ctx.deliver_streamFault (c : Ctx) (now lat : Nat) (w : Write) (fl : BitVec 5) : (c.deliver now lat w fl).streamFault = c.streamFault := rfl
@[simp] theorem Ctx.deliver_rollDue (c : Ctx) (now lat : Nat) (w : Write) (fl : BitVec 5) : (c.deliver now lat w fl).rollDue = c.rollDue := rfl
@[simp] theorem Ctx.deliver_latches (c : Ctx) (now lat : Nat) (w : Write) (fl : BitVec 5) : (c.deliver now lat w fl).latches = c.latches := rfl
@[simp] theorem Ctx.deliver_latchPend (c : Ctx) (now lat : Nat) (w : Write) (fl : BitVec 5) : (c.deliver now lat w fl).latchPend = c.latchPend := rfl
@[simp] theorem Ctx.deliver_latchBad (c : Ctx) (now lat : Nat) (w : Write) (fl : BitVec 5) : (c.deliver now lat w fl).latchBad = c.latchBad := rfl
@[simp] theorem Ctx.deliver_poison (c : Ctx) (now lat : Nat) (w : Write) (fl : BitVec 5) : (c.deliver now lat w fl).poison = c.poison := rfl
@[simp] theorem Ctx.deliver_wdStart (c : Ctx) (now lat : Nat) (w : Write) (fl : BitVec 5) : (c.deliver now lat w fl).wdStart = c.wdStart := rfl
@[simp] theorem Ctx.deliver_wdRuns (c : Ctx) (now lat : Nat) (w : Write) (fl : BitVec 5) : (c.deliver now lat w fl).wdRuns = c.wdRuns := rfl
@[simp] theorem Ctx.deliver_wdHeld (c : Ctx) (now lat : Nat) (w : Write) (fl : BitVec 5) : (c.deliver now lat w fl).wdHeld = c.wdHeld := rfl
@[simp] theorem Ctx.deliver_wasBlocked (c : Ctx) (now lat : Nat) (w : Write) (fl : BitVec 5) : (c.deliver now lat w fl).wasBlocked = c.wasBlocked := rfl

@[simp] theorem Ctx.addPend_arch (c : Ctx) (p : Pend) : (c.addPend p).arch = c.arch := rfl
@[simp] theorem Ctx.addPend_tiles (c : Ctx) (p : Pend) : (c.addPend p).tiles = c.tiles := rfl
@[simp] theorem Ctx.addPend_lines (c : Ctx) (p : Pend) : (c.addPend p).lines = c.lines := rfl
@[simp] theorem Ctx.addPend_masks (c : Ctx) (p : Pend) : (c.addPend p).masks = c.masks := rfl
@[simp] theorem Ctx.addPend_cause (c : Ctx) (p : Pend) : (c.addPend p).cause = c.cause := rfl
@[simp] theorem Ctx.addPend_fva (c : Ctx) (p : Pend) : (c.addPend p).fva = c.fva := rfl
@[simp] theorem Ctx.addPend_finfo (c : Ctx) (p : Pend) : (c.addPend p).finfo = c.finfo := rfl
@[simp] theorem Ctx.addPend_fstat (c : Ctx) (p : Pend) : (c.addPend p).fstat = c.fstat := rfl
@[simp] theorem Ctx.addPend_sbctl (c : Ctx) (p : Pend) : (c.addPend p).sbctl = c.sbctl := rfl
@[simp] theorem Ctx.addPend_wid (c : Ctx) (p : Pend) : (c.addPend p).wid = c.wid := rfl
@[simp] theorem Ctx.addPend_widcfg (c : Ctx) (p : Pend) : (c.addPend p).widcfg = c.widcfg := rfl
@[simp] theorem Ctx.addPend_xctl (c : Ctx) (p : Pend) : (c.addPend p).xctl = c.xctl := rfl
@[simp] theorem Ctx.addPend_sticky (c : Ctx) (p : Pend) : (c.addPend p).sticky = c.sticky := rfl
@[simp] theorem Ctx.addPend_rovf (c : Ctx) (p : Pend) : (c.addPend p).rovf = c.rovf := rfl
@[simp] theorem Ctx.addPend_drops (c : Ctx) (p : Pend) : (c.addPend p).drops = c.drops := rfl
@[simp] theorem Ctx.addPend_xpr (c : Ctx) (p : Pend) : (c.addPend p).xpr = c.xpr := rfl
@[simp] theorem Ctx.addPend_iuvec (c : Ctx) (p : Pend) : (c.addPend p).iuvec = c.iuvec := rfl
@[simp] theorem Ctx.addPend_uiret (c : Ctx) (p : Pend) : (c.addPend p).uiret = c.uiret := rfl
@[simp] theorem Ctx.addPend_inh (c : Ctx) (p : Pend) : (c.addPend p).inh = c.inh := rfl
@[simp] theorem Ctx.addPend_lost (c : Ctx) (p : Pend) : (c.addPend p).lost = c.lost := rfl
@[simp] theorem Ctx.addPend_keepM (c : Ctx) (p : Pend) : (c.addPend p).keepM = c.keepM := rfl
@[simp] theorem Ctx.addPend_keepC (c : Ctx) (p : Pend) : (c.addPend p).keepC = c.keepC := rfl
@[simp] theorem Ctx.addPend_mrql (c : Ctx) (p : Pend) : (c.addPend p).mrql = c.mrql := rfl
@[simp] theorem Ctx.addPend_mrqr (c : Ctx) (p : Pend) : (c.addPend p).mrqr = c.mrqr := rfl
@[simp] theorem Ctx.addPend_mrqi (c : Ctx) (p : Pend) : (c.addPend p).mrqi = c.mrqi := rfl
@[simp] theorem Ctx.addPend_pin (c : Ctx) (p : Pend) : (c.addPend p).pin = c.pin := rfl
@[simp] theorem Ctx.addPend_pinStart (c : Ctx) (p : Pend) : (c.addPend p).pinStart = c.pinStart := rfl
@[simp] theorem Ctx.addPend_pinOvr (c : Ctx) (p : Pend) : (c.addPend p).pinOvr = c.pinOvr := rfl
@[simp] theorem Ctx.addPend_persist (c : Ctx) (p : Pend) : (c.addPend p).persist = c.persist := rfl
@[simp] theorem Ctx.addPend_quantum (c : Ctx) (p : Pend) : (c.addPend p).quantum = c.quantum := rfl
@[simp] theorem Ctx.addPend_yields (c : Ctx) (p : Pend) : (c.addPend p).yields = c.yields := rfl
@[simp] theorem Ctx.addPend_status (c : Ctx) (p : Pend) : (c.addPend p).status = c.status := rfl
@[simp] theorem Ctx.addPend_asid (c : Ctx) (p : Pend) : (c.addPend p).asid = c.asid := rfl
@[simp] theorem Ctx.addPend_task (c : Ctx) (p : Pend) : (c.addPend p).task = c.task := rfl
@[simp] theorem Ctx.addPend_extents (c : Ctx) (p : Pend) : (c.addPend p).extents = c.extents := rfl
@[simp] theorem Ctx.addPend_ranges (c : Ctx) (p : Pend) : (c.addPend p).ranges = c.ranges := rfl
@[simp] theorem Ctx.addPend_opened (c : Ctx) (p : Pend) : (c.addPend p).opened = c.opened := rfl
@[simp] theorem Ctx.addPend_held (c : Ctx) (p : Pend) : (c.addPend p).held = c.held := rfl
@[simp] theorem Ctx.addPend_ckpt (c : Ctx) (p : Pend) : (c.addPend p).ckpt = c.ckpt := rfl
@[simp] theorem Ctx.addPend_npc (c : Ctx) (p : Pend) : (c.addPend p).npc = c.npc := rfl
@[simp] theorem Ctx.addPend_jumped (c : Ctx) (p : Pend) : (c.addPend p).jumped = c.jumped := rfl
@[simp] theorem Ctx.addPend_nextDue (c : Ctx) (p : Pend) : (c.addPend p).nextDue = c.nextDue := rfl
@[simp] theorem Ctx.addPend_fencing (c : Ctx) (p : Pend) : (c.addPend p).fencing = c.fencing := rfl
@[simp] theorem Ctx.addPend_markDue (c : Ctx) (p : Pend) : (c.addPend p).markDue = c.markDue := rfl
@[simp] theorem Ctx.addPend_readT (c : Ctx) (p : Pend) : (c.addPend p).readT = c.readT := rfl
@[simp] theorem Ctx.addPend_readV (c : Ctx) (p : Pend) : (c.addPend p).readV = c.readV := rfl
@[simp] theorem Ctx.addPend_readK (c : Ctx) (p : Pend) : (c.addPend p).readK = c.readK := rfl
@[simp] theorem Ctx.addPend_confT (c : Ctx) (p : Pend) : (c.addPend p).confT = c.confT := rfl
@[simp] theorem Ctx.addPend_confV (c : Ctx) (p : Pend) : (c.addPend p).confV = c.confV := rfl
@[simp] theorem Ctx.addPend_confK (c : Ctx) (p : Pend) : (c.addPend p).confK = c.confK := rfl
@[simp] theorem Ctx.addPend_notices (c : Ctx) (p : Pend) : (c.addPend p).notices = c.notices := rfl
@[simp] theorem Ctx.addPend_handles (c : Ctx) (p : Pend) : (c.addPend p).handles = c.handles := rfl
@[simp] theorem Ctx.addPend_statuses (c : Ctx) (p : Pend) : (c.addPend p).statuses = c.statuses := rfl
@[simp] theorem Ctx.addPend_xwaited (c : Ctx) (p : Pend) : (c.addPend p).xwaited = c.xwaited := rfl
@[simp] theorem Ctx.addPend_reports (c : Ctx) (p : Pend) : (c.addPend p).reports = c.reports := rfl
@[simp] theorem Ctx.addPend_links (c : Ctx) (p : Pend) : (c.addPend p).links = c.links := rfl
@[simp] theorem Ctx.addPend_slotWait (c : Ctx) (p : Pend) : (c.addPend p).slotWait = c.slotWait := rfl
@[simp] theorem Ctx.addPend_wait (c : Ctx) (p : Pend) : (c.addPend p).wait = c.wait := rfl
@[simp] theorem Ctx.addPend_kvReq (c : Ctx) (p : Pend) : (c.addPend p).kvReq = c.kvReq := rfl
@[simp] theorem Ctx.addPend_boarding (c : Ctx) (p : Pend) : (c.addPend p).boarding = c.boarding := rfl
@[simp] theorem Ctx.addPend_keepWait (c : Ctx) (p : Pend) : (c.addPend p).keepWait = c.keepWait := rfl
@[simp] theorem Ctx.addPend_keepKv (c : Ctx) (p : Pend) : (c.addPend p).keepKv = c.keepKv := rfl
@[simp] theorem Ctx.addPend_keepBoard (c : Ctx) (p : Pend) : (c.addPend p).keepBoard = c.keepBoard := rfl
@[simp] theorem Ctx.addPend_waitRegs (c : Ctx) (p : Pend) : (c.addPend p).waitRegs = c.waitRegs := rfl
@[simp] theorem Ctx.addPend_unboards (c : Ctx) (p : Pend) : (c.addPend p).unboards = c.unboards := rfl
@[simp] theorem Ctx.addPend_pendingA (c : Ctx) (p : Pend) : (c.addPend p).pendingA = c.pendingA := rfl
@[simp] theorem Ctx.addPend_trapDue (c : Ctx) (p : Pend) : (c.addPend p).trapDue = c.trapDue := rfl
@[simp] theorem Ctx.addPend_streamFault (c : Ctx) (p : Pend) : (c.addPend p).streamFault = c.streamFault := rfl
@[simp] theorem Ctx.addPend_rollDue (c : Ctx) (p : Pend) : (c.addPend p).rollDue = c.rollDue := rfl
@[simp] theorem Ctx.addPend_latches (c : Ctx) (p : Pend) : (c.addPend p).latches = c.latches := rfl
@[simp] theorem Ctx.addPend_latchPend (c : Ctx) (p : Pend) : (c.addPend p).latchPend = c.latchPend := rfl
@[simp] theorem Ctx.addPend_latchBad (c : Ctx) (p : Pend) : (c.addPend p).latchBad = c.latchBad := rfl
@[simp] theorem Ctx.addPend_poison (c : Ctx) (p : Pend) : (c.addPend p).poison = c.poison := rfl
@[simp] theorem Ctx.addPend_wdStart (c : Ctx) (p : Pend) : (c.addPend p).wdStart = c.wdStart := rfl
@[simp] theorem Ctx.addPend_wdRuns (c : Ctx) (p : Pend) : (c.addPend p).wdRuns = c.wdRuns := rfl
@[simp] theorem Ctx.addPend_wdHeld (c : Ctx) (p : Pend) : (c.addPend p).wdHeld = c.wdHeld := rfl
@[simp] theorem Ctx.addPend_wasBlocked (c : Ctx) (p : Pend) : (c.addPend p).wasBlocked = c.wasBlocked := rfl

/-! ### Reading a part after updating it -/

@[simp] theorem State.die_updDie (s : State) (d : Fin 8) (f : Die → Die) : (s.updDie d f).die d = f (s.die d) := by
  simp [State.die, State.updDie]

theorem State.die_updDie_ne (s : State) {d e : Fin 8} (h : d ≠ e) (f : Die → Die) : (s.updDie d f).die e = s.die e :=
  vget_vupd_ne _ h f

@[simp] theorem State.core_updCore (s : State) (d : Fin 8) (c : Fin 16) (f : Core → Core) :
    (s.updCore d c f).core d c = f (s.core d c) := by
  simp [State.core, State.updCore]

theorem State.core_updCore_ne (s : State) {d e : Fin 8} {c k : Fin 16} (h : (d, c) ≠ (e, k)) (f : Core → Core) :
    (s.updCore d c f).core e k = s.core e k := by
  by_cases hd : d = e
  · subst hd
    have hc : c ≠ k := fun hc => h (by rw [hc])
    simp only [State.core, State.updCore, State.die_updDie]
    exact vget_vupd_ne _ hc f
  · simp only [State.core, State.updCore, State.die_updDie_ne s hd]

@[simp] theorem State.ctxOf_updCtx (s : State) (id : CtxId) (f : Ctx → Ctx) : (s.updCtx id f).ctxOf id = f (s.ctxOf id) := by
  simp [State.ctxOf, State.updCtx]

theorem State.ctxOf_updCtx_ne (s : State) {id e : CtxId} (h : id ≠ e) (f : Ctx → Ctx) :
    (s.updCtx id f).ctxOf e = s.ctxOf e := by
  by_cases hc : (id.die, id.core) = (e.die, e.core)
  · have hx : id.ctx ≠ e.ctx := fun hx => h (by
      obtain ⟨hd, hk⟩ := Prod.mk.inj hc
      cases id; cases e
      simp_all)
    obtain ⟨hd, hk⟩ := Prod.mk.inj hc
    simp only [State.ctxOf, State.updCtx, ← hd, ← hk, State.core_updCore]
    exact vget_vupd_ne _ hx f
  · simp only [State.ctxOf, State.updCtx, State.core_updCore_ne s hc]

@[simp] theorem State.cx_updCx (s : State) (f : Ctx → Ctx) : (s.updCx f).cx = f s.cx := by
  simp [State.cx, State.updCx]

@[simp] theorem State.cx_deliver (s : State) (lat : Nat) (w : Write) (fl : BitVec 5) :
    (s.deliver lat w fl).cx = s.cx.deliver s.cycle lat w fl := by
  simp [State.deliver]

@[simp] theorem State.joist_die (s : State) (f : Joist → Joist) (d : Fin 8) : (s.updJoist f).die d = s.die d := rfl

end Sys2Proof.Machine
end

