-- ==== Sys2Proof/Laws/KeepAccess.lean ====
section
/-! SUPPORT. Every operation of Machine/Access.lean keeps the memories in their one form. -/

namespace Sys2Proof.Machine

theorem foldl_memOk {α : Type} (f : State → α → State) (l : List α) (s : State) (h : s.MemOk)
    (hf : ∀ (s : State) (x : α), s.MemOk → (f s x).MemOk) : (l.foldl f s).MemOk := by
  induction l generalizing s with
  | nil => exact h
  | cons x l ih => exact ih _ (hf s x h)

/-- A fold whose accumulator holds a state first. -/
theorem foldl_fst_memOk {α β : Type} (f : State × β → α → State × β) (l : List α) (x : State × β) (h : x.1.MemOk)
    (hf : ∀ (x : State × β) (y : α), x.1.MemOk → (f x y).1.MemOk) : (l.foldl f x).1.MemOk := by
  induction l generalizing x with
  | nil => exact h
  | cons y l ih => exact ih _ (hf x y h)

theorem State.updDie_memOk (s : State) (d : Fin 8) (f : Die → Die) (hok : s.MemOk) :
    (s.updDie d f).MemOk := by
  exact hok

theorem State.updCore_memOk (s : State) (d : Fin 8) (c : Fin 16) (f : Core → Core) (hok : s.MemOk) :
    (s.updCore d c f).MemOk := by
  exact hok

theorem State.updCtx_memOk (s : State) (id : CtxId) (f : Ctx → Ctx) (hok : s.MemOk) :
    (s.updCtx id f).MemOk := by
  exact hok

theorem State.updCx_memOk (s : State) (f : Ctx → Ctx) (hok : s.MemOk) :
    (s.updCx f).MemOk := by
  exact hok

theorem State.updMyDie_memOk (s : State) (f : Die → Die) (hok : s.MemOk) :
    (s.updMyDie f).MemOk := by
  exact hok

theorem State.updMyCore_memOk (s : State) (f : Core → Core) (hok : s.MemOk) :
    (s.updMyCore f).MemOk := by
  exact hok

theorem State.updJoist_memOk (s : State) (f : Joist → Joist) (hok : s.MemOk) :
    (s.updJoist f).MemOk := by
  exact hok

theorem State.advance_memOk (s : State) (t : Nat) (hok : s.MemOk) :
    (s.advance t).MemOk := by
  exact hok

theorem State.deliver_memOk (s : State) (lat : Nat) (w : Write) (flags : BitVec 5) (hok : s.MemOk) :
    (s.deliver lat w flags).MemOk := by
  exact hok

theorem State.putS_memOk (s : State) (n : BitVec 6) (lat : Nat) (v : W64) (hok : s.MemOk) :
    (s.putS n lat v).MemOk := by
  exact hok

theorem State.putP_memOk (s : State) (n : BitVec 4) (lat : Nat) (b : Bool) (hok : s.MemOk) :
    (s.putP n lat b).MemOk := by
  exact hok

theorem State.pendS_memOk (s : State) (n : BitVec 6) (lat : Nat) (v : W64) (hok : s.MemOk) :
    (s.pendS n lat v).MemOk := by
  exact hok

end Sys2Proof.Machine
end

