-- ==== Sys2Proof/Laws/KeepMem.lean ====
section
/-! SUPPORT. Every operation of Machine/Mem.lean keeps the memories in their one form. -/

namespace Sys2Proof.Machine

theorem State.markDirty_memOk (s : State) (pa n : Nat) (hok : s.MemOk) :
    (s.markDirty pa n).MemOk := by
  grind [State.markDirty, State.updCore_memOk, foldl_fst_memOk, foldl_memOk]

theorem State.devWrite_memOk (s : State) (pa : Nat) (bs : List Byte) (h : s.MemOk) : (s.devWrite pa bs).MemOk :=
  State.markDirty_memOk { s with mem := memWrite s.mem pa bs, poison := clearPoison s.poison s.keptPoison pa bs.length } pa bs.length
    ⟨memWf_memWrite h.1 pa bs, h.2⟩

theorem State.devWritePoison_memOk (s : State) (pa : Nat) (bs : List Byte) (hok : s.MemOk) :
    (s.devWritePoison pa bs).MemOk := by
  grind [State.devWritePoison, State.devWrite_memOk, State.MemOk, foldl_fst_memOk, foldl_memOk]

theorem State.hostWrite_memOk (s : State) (a : Nat) (bs : List Byte) (h : s.MemOk) : (s.hostWrite a bs).MemOk :=
  ⟨h.1, memWf_memWrite h.2 a bs⟩

theorem State.copyStorage_memOk (s : State) (src dst n : Nat) (hok : s.MemOk) :
    (s.copyStorage src dst n).MemOk := by
  grind [State.copyStorage, State.devWrite_memOk, State.MemOk, foldl_fst_memOk, foldl_memOk]

theorem State.sendMsix_memOk (s : State) (n : Nat) (hok : s.MemOk) :
    (s.sendMsix n).MemOk := by
  grind [State.sendMsix, State.hostWrite_memOk, State.MemOk]

theorem State.postEvent_memOk (s : State) (d : Fin 8) (code : Nat) (src : EvSrc) (w1 w2 : Nat) (hok : s.MemOk) :
    (s.postEvent d code src w1 w2).MemOk := by
  grind [State.postEvent, State.updDie_memOk, State.hostWrite_memOk, State.sendMsix_memOk]

theorem State.postAll_memOk (s : State) (code w1 w2 : Nat) (hok : s.MemOk) :
    (s.postAll code w1 w2).MemOk := by
  grind [State.postAll, State.postEvent_memOk, foldl_fst_memOk, foldl_memOk]

theorem State.writePieces_memOk (s : State) (atom a : Nat) (bs : List Byte) (hok : s.MemOk) :
    (s.writePieces atom a bs).MemOk := by
  grind [State.writePieces, State.devWrite_memOk, foldl_fst_memOk, foldl_memOk]

theorem State.recordError_memOk (s : State) (d : Fin 8) (kind src core rdie addr : Nat) (hok : s.MemOk) :
    (s.recordError d kind src core rdie addr).MemOk := by
  grind [State.recordError, State.updDie_memOk, State.postEvent_memOk]

theorem State.recordAt_memOk (s : State) (pa src : Nat) (die : Fin 8) (core : Nat) (hok : s.MemOk) :
    (s.recordAt pa src die core).MemOk := by
  grind [State.recordAt, State.recordError_memOk]

theorem State.recordBad_memOk (s : State) (units : List Nat) (src : Nat) (die : Fin 8) (core : Nat) (hok : s.MemOk) :
    (s.recordBad units src die core).MemOk := by
  grind [State.recordBad, State.recordAt_memOk, foldl_fst_memOk, foldl_memOk]

theorem State.recordUnits_memOk (s : State) (pa n src : Nat) (die : Fin 8) (core : Nat) (hok : s.MemOk) :
    (s.recordUnits pa n src die core).MemOk := by
  grind [State.recordUnits, State.recordBad_memOk]

theorem State.paWrite_memOk (s : State) (d : Fin 8) (pa : Nat) (bs : List Byte) (hok : s.MemOk) :
    (s.paWrite d pa bs).MemOk := by
  grind [State.paWrite, State.hostWrite_memOk, State.devWrite_memOk]

theorem State.hostArrive_memOk (s : State) (d : Fin 8) (pa n src core : Nat) (hok : s.MemOk) :
    (s.hostArrive d pa n src core).MemOk := by
  grind [State.hostArrive, State.recordError_memOk, State.MemOk, foldl_fst_memOk, foldl_memOk]

end Sys2Proof.Machine
end

