-- ==== Sys2Proof/Laws/KeepXlate.lean ====
section
/-! SUPPORT. Every operation of Machine/Xlate.lean keeps the memories in their one form. -/

namespace Sys2Proof.Machine

theorem State.fillL1_memOk (s : State) (r : Req) (va : W64) (hok : s.MemOk) :
    (s.fillL1 r va).MemOk := by
  grind [State.fillL1, State.updCore_memOk]

theorem State.install_memOk (s : State) (r : Req) (va : W64) (leaf : W64) (big : Bool) (hok : s.MemOk) :
    (s.install r va leaf big).MemOk := by
  grind [State.install, State.updDie_memOk, State.updCore_memOk]

theorem State.fillL2_memOk (s : State) (r : Req) (va : W64) (hok : s.MemOk) :
    (s.fillL2 r va).1.MemOk := by
  grind [State.fillL2, State.updDie_memOk]

theorem State.walkLeaf_memOk (s : State) (r : Req) (va : W64) (hok : s.MemOk) :
    (s.walkLeaf r va).1.MemOk := by
  grind [State.walkLeaf, State.devWrite_memOk, State.updDie_memOk, State.install_memOk]

theorem State.findLeaf_memOk (s : State) (r : Req) (va : W64) (hok : s.MemOk) :
    (s.findLeaf r va).1.MemOk := by
  grind [State.findLeaf, State.fillL1_memOk, State.walkLeaf_memOk]

theorem State.checkWalked_memOk (s : State) (r : Req) (va : W64) (n : Nat) (sel : Option Nat) (hok : s.MemOk) :
    (s.checkWalked r va n sel).1.MemOk := by
  grind [State.checkWalked, State.walkLeaf_memOk]

theorem State.checkPart_memOk (s : State) (r : Req) (va : W64) (n : Nat) (sel : Option Nat) (hok : s.MemOk) :
    (s.checkPart r va n sel).1.MemOk := by
  grind [State.checkPart, State.checkWalked_memOk, State.fillL1_memOk]

theorem State.checkAll_memOk (r : Req) (sel : Option Nat) (vs : List VRun) (s : State) (acc : List Part)
    (bad : Option PartFault) (h : s.MemOk) : (State.checkAll r sel vs s acc bad).1.MemOk := by
  induction vs generalizing s acc bad with
  | nil => cases bad <;> exact h
  | cons v vs ih =>
    unfold State.checkAll
    grind [State.checkPart_memOk]

theorem State.checkAccess_memOk (s : State) (r : Req) (vs : List VRun) (hok : s.MemOk) :
    (s.checkAccess r vs).1.MemOk := by
  grind [State.checkAccess, State.checkAll_memOk]

theorem State.setDirtyLeaf_memOk (s : State) (r : Req) (p : Part) (hok : s.MemOk) :
    (s.setDirtyLeaf r p).MemOk := by
  grind [State.setDirtyLeaf, State.devWrite_memOk, State.updDie_memOk, State.updCore_memOk]

theorem State.setDirtyLeaves_memOk (s : State) (r : Req) (ps : List Part) (hok : s.MemOk) :
    (s.setDirtyLeaves r ps).MemOk := by
  grind [State.setDirtyLeaves, State.setDirtyLeaf_memOk, foldl_fst_memOk, foldl_memOk]

end Sys2Proof.Machine
end

