-- ==== Sys2Proof/Laws/KeepImage.lean ====
section
/-! SUPPORT. Every operation of Machine/Image.lean keeps the memories in their one form. -/

namespace Sys2Proof.Machine

theorem State.writeImage_memOk (s : State) (id : CtxId) (n kind : Nat) (noResume : Bool) (i : Image) (hok : s.MemOk) :
    (s.writeImage id n kind noResume i).MemOk := by
  grind [State.writeImage, State.devWrite_memOk, State.MemOk, foldl_fst_memOk, foldl_memOk]

theorem State.restoreRegions_memOk (s : State) (base : Nat) (hok : s.MemOk) :
    (s.restoreRegions base).MemOk := by
  grind [State.restoreRegions, State.devWritePoison_memOk, State.devWrite_memOk, foldl_fst_memOk, foldl_memOk]

end Sys2Proof.Machine
end

