-- ==== Sys2Proof/Laws/KeepOps.lean ====
section
/-! SUPPORT. Every operation of Machine/Ops.lean keeps the memories in their one form. -/

namespace Sys2Proof.Machine

theorem State.putFlit_memOk (s : State) (q : Fin 16) (x : Sent) (hok : s.MemOk) :
    (s.putFlit q x).MemOk := by
  exact hok

theorem State.nextPeerSeq_memOk (s : State) (d : Fin 8) (m : BitVec 9) (hok : s.MemOk) :
    (s.nextPeerSeq d m).1.MemOk := by
  grind [State.nextPeerSeq, State.updJoist_memOk]

theorem State.movePeer_memOk (s : State) (m : BitVec 9) (f : Flit) (at_ : PeerPlace) (hok : s.MemOk) :
    (s.movePeer m f at_).MemOk := by
  exact hok

theorem State.drainVeq_memOk (s : State) (m : BitVec 9) (hok : s.MemOk) :
    ∀ out, s.drainVeq m = some out → out.MemOk := by
  grind [State.drainVeq, State.recordBad_memOk, State.updJoist_memOk, State.movePeer_memOk, State.putFlit_memOk]

theorem State.moveFlit_memOk (s : State) (m : BitVec 9) (f : Flit) (sent : PeerPlace → State → State) (hok : s.MemOk) (h_sent : ∀ p (u : State), u.MemOk → (sent p u).MemOk) :
    ∀ out, s.moveFlit m f sent = some out → out.MemOk := by
  grind [State.moveFlit, State.putFlit_memOk, State.devWrite_memOk, State.updJoist_memOk]

theorem State.pumpOne_memOk (s : State) (m : BitVec 9) (hok : s.MemOk) :
    ∀ out, s.pumpOne m = some out → out.MemOk := by
  grind [State.pumpOne, State.drainVeq_memOk, State.moveFlit_memOk, State.updJoist_memOk, State.movePeer_memOk]

theorem State.pump_memOk (m : BitVec 9) (n : Nat) (s : State) (h : s.MemOk) : (State.pump m n s).MemOk := by
  induction n generalizing s with
  | zero => exact h
  | succ n ih => grind [State.pump, State.pumpOne_memOk]

theorem State.sendPeer_memOk (s : State) (id : CtxId) (from_ : Origin) (m : BitVec 9) (type off arg : Nat) (data : List Byte) (poison : Bool)
    (va : W64) (acc : AccKind) (read : Bool) (engine : Option (BitVec 16)) (hok : s.MemOk) :
    (s.sendPeer id from_ m type off arg data poison va acc read engine).1.MemOk := by
  grind [State.sendPeer, State.nextPeerSeq_memOk, State.updJoist_memOk, State.pump_memOk]

theorem State.writeAtHome_memOk (s : State) (off : Nat) (bs : List Byte) (poison : Bool) (hok : s.MemOk) :
    (s.writeAtHome off bs poison).MemOk := by
  grind [State.writeAtHome, State.devWritePoison_memOk, State.writePieces_memOk]

theorem State.writePeer_memOk (s : State) (id : CtxId) (from_ : Origin) (m : BitVec 9) (off : Nat) (bs : List Byte) (poison : Bool)
    (va : W64) (acc : AccKind) (engine : Option (BitVec 16)) (hok : s.MemOk) :
    (s.writePeer id from_ m off bs poison va acc engine).MemOk := by
  grind [State.writePeer, State.updCtx_memOk, State.writeAtHome_memOk, State.sendPeer_memOk, foldl_fst_memOk,
    foldl_memOk]

theorem State.performRun_memOk (s : State) (id : CtxId) (r : Run) (hok : s.MemOk) :
    (s.performRun id r).MemOk := by
  grind [State.performRun, State.devWrite_memOk, State.hostWrite_memOk, State.writePeer_memOk, foldl_fst_memOk,
    foldl_memOk]

theorem State.flushHeld_memOk (s : State) (id : CtxId) (hok : s.MemOk) :
    (s.flushHeld id).MemOk := by
  grind [State.flushHeld, State.performRun_memOk, State.updCtx_memOk, foldl_fst_memOk, foldl_memOk]

theorem State.commitEarly_memOk (s : State) (id : CtxId) (hok : s.MemOk) :
    (s.commitEarly id).MemOk := by
  grind [State.commitEarly, State.flushHeld_memOk, State.updCtx_memOk, State.MemOk]

theorem State.mark_memOk (s : State) (id : CtxId) (hok : s.MemOk) :
    (s.mark id).MemOk := by
  grind [State.mark, State.flushHeld_memOk, State.updCtx_memOk]

theorem State.checkFor_memOk (s : State) (id : CtxId) (r : Req) (vs : List VRun) (hok : s.MemOk) :
    (s.checkFor id r vs).1.MemOk := by
  grind [State.checkFor, State.commitEarly_memOk, State.checkAccess_memOk]

theorem State.access_memOk (s : State) (id : CtxId) (r : Req) (vs : List VRun) (hok : s.MemOk) :
    (s.access id r vs).1.MemOk := by
  grind [State.access, State.checkFor_memOk, State.setDirtyLeaves_memOk, State.updCtx_memOk]

theorem State.recordLoop_memOk (s : State) (d : Fin 8) (m : BitVec 9) (a n src core : Nat) (hok : s.MemOk) :
    (s.recordLoop d m a n src core).MemOk := by
  grind [State.recordLoop, State.recordAt_memOk, State.recordError_memOk, foldl_fst_memOk, foldl_memOk]

theorem State.readPart_memOk (s : State) (id : CtxId) (acc : AccKind) (p : Part) (g : Gather) (hok : s.MemOk) :
    (s.readPart id acc p g).1.MemOk := by
  grind [State.readPart, State.recordAt_memOk, State.hostArrive_memOk, State.updCtx_memOk,
    State.recordLoop_memOk, State.sendPeer_memOk, foldl_fst_memOk, foldl_memOk]

theorem State.readParts_memOk (s : State) (id : CtxId) (acc : AccKind) (ps : List Part) (hok : s.MemOk) :
    (s.readParts id acc ps).1.MemOk := by
  grind [State.readParts, State.commitEarly_memOk, State.readPart_memOk, foldl_fst_memOk, foldl_memOk]

theorem State.noteFault_memOk (s : State) (id : CtxId) (src core : Nat) (f : XFault) (hok : s.MemOk) :
    (s.noteFault id src core f).MemOk := by
  cases f <;> grind [State.noteFault, State.recordBad_memOk, State.postEvent_memOk]

theorem State.updTask_memOk (s : State) (d : Fin 8) (n : Nat) (f : Task → Task) (hok : s.MemOk) :
    (s.updTask d n f).MemOk := by
  exact hok

theorem State.unregister_memOk (s : State) (id : CtxId) (w : Option Wait) (hok : s.MemOk) :
    (s.unregister id w).MemOk := by
  cases w <;> grind [State.unregister, State.devWrite_memOk, State.updDie_memOk, State.sendPeer_memOk, State.writePeer_memOk]

theorem State.dropWait_memOk (s : State) (id : CtxId) (hok : s.MemOk) :
    (s.dropWait id).MemOk := by
  grind [State.dropWait, State.unregister_memOk]

theorem State.dropHold_memOk (s : State) (id : CtxId) (k : Fin 8) (hok : s.MemOk) :
    (s.dropHold id k).MemOk := by
  grind [State.dropHold, State.updDie_memOk]

theorem State.release_memOk (s : State) (id : CtxId) (u : Unboard) (hok : s.MemOk) :
    (s.release id u).MemOk := by
  grind [State.release, State.dropHold_memOk]

theorem State.parkHolds_memOk (s : State) (id : CtxId) (hok : s.MemOk) :
    (s.parkHolds id).1.MemOk := by
  grind [State.parkHolds, State.release_memOk, State.updCtx_memOk, State.updDie_memOk, foldl_fst_memOk, foldl_memOk]

theorem State.lateUnboards_memOk (s : State) (id : CtxId) (hok : s.MemOk) :
    (s.lateUnboards id).MemOk := by
  grind [State.lateUnboards, State.release_memOk, State.updCtx_memOk, foldl_fst_memOk, foldl_memOk]

theorem State.haltStreams_memOk (s : State) (id : CtxId) (hok : s.MemOk) :
    (s.haltStreams id).MemOk := by
  grind [State.haltStreams, State.updCtx_memOk, State.lateUnboards_memOk, foldl_fst_memOk, foldl_memOk]

theorem State.stopForSave_memOk (s : State) (id : CtxId) (hok : s.MemOk) :
    (s.stopForSave id).MemOk := by
  grind [State.stopForSave, State.updCtx_memOk, State.haltStreams_memOk]

theorem State.freeContext_memOk (s : State) (id : CtxId) (hok : s.MemOk) :
    (s.freeContext id).MemOk := by
  grind [State.freeContext, State.updCtx_memOk, State.updCore_memOk]

theorem State.capture_memOk (s : State) (id : CtxId) (n kind : Nat) (noResume : Bool) (hok : s.MemOk) :
    (s.capture id n kind noResume).MemOk := by
  grind [State.capture, State.updCtx_memOk, State.dropWait_memOk, State.parkHolds_memOk, State.writeImage_memOk,
    State.postEvent_memOk, State.updTask_memOk, State.MemOk]

theorem State.deliverTrap_memOk (s : State) (id : CtxId) (t : TrapRec) (hok : s.MemOk) :
    (s.deliverTrap id t).MemOk := by
  grind [State.deliverTrap, State.updCtx_memOk, State.capture_memOk, State.updTask_memOk, State.postEvent_memOk,
    State.freeContext_memOk]

theorem State.rollBack_memOk (s : State) (id : CtxId) (t : TrapRec) (hok : s.MemOk) :
    (s.rollBack id t).1.MemOk := by
  grind [State.rollBack, State.updCtx_memOk, State.MemOk]

theorem State.closeRegion_memOk (s : State) (id : CtxId) (hok : s.MemOk) :
    (s.closeRegion id).MemOk := by
  grind [State.closeRegion, State.updCtx_memOk, State.mark_memOk]

theorem State.finishTrap_memOk (s : State) (id : CtxId) (t : TrapRec) (hok : s.MemOk) :
    (s.finishTrap id t).MemOk := by
  grind [State.finishTrap, State.updCtx_memOk, State.rollBack_memOk, State.closeRegion_memOk, State.deliverTrap_memOk]

theorem State.latch_memOk (s : State) (id : CtxId) (hok : s.MemOk) :
    (s.latch id).MemOk := by
  grind [State.latch, State.updCtx_memOk]

theorem State.takeTrap_memOk (s : State) (id : CtxId) (t : TrapRec) (rollback : Bool) (hok : s.MemOk) :
    (s.takeTrap id t rollback).MemOk := by
  grind [State.takeTrap, State.latch_memOk, State.rollBack_memOk, State.updCtx_memOk, State.finishTrap_memOk]

theorem State.fireWatchdog_memOk (s : State) (id : CtxId) (hok : s.MemOk) :
    (s.fireWatchdog id).MemOk := by
  grind [State.fireWatchdog, State.latch_memOk, State.stopForSave_memOk, State.updCtx_memOk, State.finishTrap_memOk]

theorem State.refuseSave_memOk (s : State) (id : CtxId) (n : Nat) (tooBig : Bool) (length : Nat) (hok : s.MemOk) :
    (s.refuseSave id n tooBig length).MemOk := by
  grind [State.refuseSave, State.postEvent_memOk, State.updDie_memOk, State.updTask_memOk, State.updCtx_memOk,
    State.MemOk]

theorem State.writeSave_memOk (s : State) (id : CtxId) (hok : s.MemOk) :
    (s.writeSave id).MemOk := by
  grind [State.writeSave, State.freeContext_memOk, State.updCtx_memOk, State.dropWait_memOk,
    State.parkHolds_memOk, State.refuseSave_memOk, State.writeImage_memOk, State.updTask_memOk,
    State.updDie_memOk]

theorem State.finishSave_memOk (s : State) (id : CtxId) (hok : s.MemOk) :
    (s.finishSave id).MemOk := by
  grind [State.finishSave, State.updCtx_memOk, State.takeTrap_memOk, State.closeRegion_memOk, State.writeSave_memOk]

theorem State.beginSave_memOk (s : State) (id : CtxId) (hok : s.MemOk) :
    (s.beginSave id).MemOk := by
  grind [State.beginSave, State.refuseSave_memOk, State.latch_memOk, State.stopForSave_memOk,
    State.updCtx_memOk, State.finishSave_memOk]

theorem State.trapI_memOk (s : State) (cause : Nat) (hok : s.MemOk) :
    (s.trapI cause).MemOk := by
  grind [State.trapI, State.takeTrap_memOk, State.MemOk]

theorem State.trapR_memOk (s : State) (t : TrapRec) (hok : s.MemOk) :
    (s.trapR t).MemOk := by
  grind [State.trapR, State.takeTrap_memOk, State.MemOk]

theorem State.trapC_memOk (s : State) (t : TrapRec) (hok : s.MemOk) :
    (s.trapC t).MemOk := by
  grind [State.trapC, State.updCx_memOk, State.takeTrap_memOk, State.MemOk]

theorem State.giveUp_memOk (s : State) (id : CtxId) (st : CtxStatus) (hok : s.MemOk) :
    (s.giveUp id st).MemOk := by
  grind [State.giveUp, State.updCtx_memOk, State.updCore_memOk]

theorem State.block_memOk (s : State) (id : CtxId) (why : BlockCause) (hok : s.MemOk) :
    (s.block id why).MemOk := by
  grind [State.block, State.updCtx_memOk, State.giveUp_memOk]

theorem State.refuse_memOk (s : State) (acc : AccKind) (f : PartFault) (hok : s.MemOk) :
    (s.refuse acc f).MemOk := by
  grind [State.refuse, State.noteFault_memOk, State.takeTrap_memOk, State.block_memOk, State.trapR_memOk, State.MemOk]

theorem State.enterHandler_memOk (s : State) (id : CtxId) (n : Notice) (hok : s.MemOk) :
    (s.enterHandler id n).MemOk := by
  grind [State.enterHandler, State.updCtx_memOk, State.mark_memOk]

theorem State.leaveHandler_memOk (s : State) (id : CtxId) (hok : s.MemOk) :
    (s.leaveHandler id).MemOk := by
  grind [State.leaveHandler, State.flushHeld_memOk, State.updCtx_memOk]

theorem State.slotOp_memOk (s : State) (g : BitVec 4) (i : Instr) (body : State → State) (h : s.MemOk)
    (h_body : ∀ u : State, u.MemOk → (body u).MemOk) : ∀ t, s.slotOp g i body = .next t → t.MemOk := by
  grind [State.slotOp, State.trapI_memOk]

end Sys2Proof.Machine
end

