-- ==== Sys2Proof/Laws/KeepIssue.lean ====
section
/-! SUPPORT. Every operation of Machine/Issue.lean keeps the memories in their one form. -/

namespace Sys2Proof.Machine

theorem State.fetchParts_memOk (id : CtxId) (vs : List VRun) (s : State) (acc : List Byte) (h : s.MemOk) :
    (s.fetchParts id vs acc).1.MemOk := by
  induction vs generalizing s acc with
  | nil => exact h
  | cons v vs ih => grind [State.fetchParts, State.checkPart_memOk]

theorem State.fetchBytes_memOk (s : State) (id : CtxId) (va : W64) (n : Nat) (hok : s.MemOk) :
    (s.fetchBytes id va n).1.MemOk := by
  grind [State.fetchBytes, State.fetchParts_memOk]

theorem State.fetch_memOk (s : State) (id : CtxId) (hok : s.MemOk) :
    (s.fetch id).1.MemOk := by
  have h1 := State.fetchBytes_memOk s id (s.ctxOf id).arch.pc 4 hok
  have h2 := fun n => State.fetchBytes_memOk _ id (s.ctxOf id).arch.pc n h1
  unfold State.fetch
  dsimp only
  repeat' split
  all_goals grind

theorem State.setNext_memOk (s : State) (d : Fin 8) (c : Fin 16) (t : Nat) (hok : s.MemOk) :
    (s.setNext d c t).MemOk := by
  exact hok

theorem State.unblock_memOk (s : State) (id : CtxId) (hok : s.MemOk) :
    (s.unblock id).MemOk := by
  grind [State.unblock, State.updCtx_memOk]

theorem State.wake_memOk (s : State) (id : CtxId) (hok : s.MemOk) :
    (s.wake id).MemOk := by
  grind [State.wake, State.unblock_memOk]

theorem State.switchIn_memOk (s : State) (d : Fin 8) (c : Fin 16) (hok : s.MemOk) :
    (s.switchIn d c).MemOk := by
  grind [State.switchIn, State.updCtx_memOk, State.updCore_memOk]

theorem State.unpinNow_memOk (s : State) (id : CtxId) (hok : s.MemOk) :
    (s.unpinNow id).MemOk := by
  grind [State.unpinNow, State.updCtx_memOk, State.updCore_memOk, State.giveUp_memOk]

theorem runOps_memOk (run : Meaning) (hrun : ∀ i (s t : State), s.MemOk → run i s = .next t → t.MemOk) (ops : List Op)
    (s : State) (h : s.MemOk) : ∀ t, (runOps run ops s).1 = .next t → t.MemOk := by
  induction ops generalizing s with
  | nil => grind [runOps]
  | cons o os ih => grind [runOps]

theorem stopBundle_memOk (run : Meaning) (hrun : ∀ i (s t : State), s.MemOk → run i s = .next t → t.MemOk) (live : List Op)
    (o : Op) (s : State) (h : s.MemOk) : ∀ t, stopBundle run live o s = .next t → t.MemOk := by
  grind [stopBundle]

theorem State.occupy_memOk (s : State) (id : CtxId) (occA occB t : Nat) (hok : s.MemOk) :
    (s.occupy id occA occB t).MemOk := by
  grind [State.occupy, State.updCore_memOk]

theorem State.closeBundle_memOk (s : State) (id : CtxId) (h : Header) (occA occB : Nat) (t : Nat) (hok : s.MemOk) :
    (s.closeBundle id h occA occB t).MemOk := by
  grind [State.closeBundle, State.updCtx_memOk, State.updCore_memOk, State.occupy_memOk]

theorem State.holdUp_memOk (s : State) (ops : List Op) (hok : s.MemOk) :
    ∀ out, s.holdUp ops = some out → out.MemOk := by
  unfold State.holdUp
  try dsimp only
  repeat' split
  all_goals grind [State.setNext_memOk, State.block_memOk, State.updCx_memOk, State.trapI_memOk,
    State.updMyCore_memOk, foldl_fst_memOk, foldl_memOk]

theorem State.deferFreeze_memOk (s : State) (ops : List Op) (hok : s.MemOk) :
    (s.deferFreeze ops).MemOk := by
  grind [State.deferFreeze, State.updMyCore_memOk, foldl_fst_memOk, foldl_memOk]

theorem State.openBundle_memOk (s : State) (h : Header) (ws : List (Slot × BitVec 32)) (ops : List Op) (hok : s.MemOk) :
    (s.openBundle h ws ops).MemOk := by
  grind [State.openBundle, State.deferFreeze_memOk, State.updCx_memOk, State.updMyCore_memOk]

theorem State.endFence_memOk (s : State) (id : CtxId) (hok : s.MemOk) :
    (s.endFence id).MemOk := by
  grind [State.endFence, State.updCtx_memOk]

theorem issueBundle_memOk (run : Meaning) (hrun : ∀ i (s t : State), s.MemOk → run i s = .next t → t.MemOk) (h : Header)
    (ws : List (Slot × BitVec 32)) (s : State) (hs : s.MemOk) : ∀ t, issueBundle run h ws s = .next t → t.MemOk := by
  have h1 := State.endFence_memOk s s.cur hs
  unfold issueBundle
  dsimp only
  generalize s.endFence s.cur = e at h1 ⊢
  split
  · grind [State.block_memOk]
  · generalize hm : (if needsMark e.cx h (issueOps e.cx h ws) || wantsCommit run (liveOps e.cx (issueOps e.cx h ws)) e ||
      (e.cx.markDue && !e.cx.markWaits) then State.mark e s.cur else e) = m
    have h2 : m.MemOk := by rw [← hm]; grind [State.mark_memOk]
    have h3 := fun ops => runOps_memOk run hrun ops _ (State.openBundle_memOk _ h ws (issueOps e.cx h ws)
      (State.updCx_memOk m (fun c => c.armLatches m.cycle) h2))
    split
    · grind [State.holdUp_memOk]
    · split <;> rename_i hr
      · grind [stopBundle_memOk]
      · have h4 := h3 _ _ (congrArg Prod.fst hr)
        split <;> grind [State.closeBundle_memOk, State.occupy_memOk]
      · intro t ht
        exact h3 _ t ((congrArg Prod.fst hr).trans ht)

theorem State.boundary_memOk (s : State) (id : CtxId) (trap : Bool) (hok : s.MemOk) :
    ∀ out, s.boundary id trap = some out → out.MemOk := by
  grind [State.boundary, State.updCtx_memOk, State.takeTrap_memOk, State.unpinNow_memOk, State.beginSave_memOk,
    State.giveUp_memOk, State.block_memOk, State.mark_memOk, State.enterHandler_memOk, Option.map_eq_some_iff]

theorem State.turn_memOk (run : Meaning) (hrun : ∀ i (s t : State), s.MemOk → run i s = .next t → t.MemOk) (s : State)
    (d : Fin 8) (c : Fin 16) (h : s.MemOk) : ∀ t, State.turn run s d c = .next t → t.MemOk := by
  have h1 := State.switchIn_memOk s d c h
  unfold State.turn
  dsimp only
  split
  · grind
  · rename_i x _
    generalize hu : State.updCx _ _ = u
    have h2 : u.MemOk := by rw [← hu]; exact h
    have h3 := State.fetch_memOk u ⟨d, c, x⟩ h2
    split <;> rename_i v _ hf <;> rw [hf] at h3
    · split
      · grind [State.takeTrap_memOk, State.updCx_memOk]
      · grind [State.takeTrap_memOk]
    · split
      · grind [State.boundary_memOk]
      · exact issueBundle_memOk run hrun _ _ _ (State.updCx_memOk _ _ h3)
    · split
      · grind [State.boundary_memOk]
      · grind [State.takeTrap_memOk, State.noteFault_memOk]

end Sys2Proof.Machine
end

