-- ==== Sys2Proof/Laws/KeepScalar.lean ====
section
/-! SUPPORT. Every operation of Machine/Scalar.lean keeps the memories in their one form. -/

namespace Sys2Proof.Machine

theorem execAdd_memOk (g : BitVec 4) (d a b : BitVec 6) (s : State) (hok : s.MemOk) :
    ∀ out, execAdd g d a b s = .next out → out.MemOk := by
  grind [execAdd, State.slotOp_memOk, State.putS_memOk]

theorem execSub_memOk (g : BitVec 4) (d a b : BitVec 6) (s : State) (hok : s.MemOk) :
    ∀ out, execSub g d a b s = .next out → out.MemOk := by
  grind [execSub, State.slotOp_memOk, State.putS_memOk]

theorem execMul_memOk (g : BitVec 4) (d a b : BitVec 6) (s : State) (hok : s.MemOk) :
    ∀ out, execMul g d a b s = .next out → out.MemOk := by
  grind [execMul, State.slotOp_memOk, State.putS_memOk]

theorem execMulh_memOk (g : BitVec 4) (d a b : BitVec 6) (f : BitVec 3) (s : State) (hok : s.MemOk) :
    ∀ out, execMulh g d a b f s = .next out → out.MemOk := by
  grind [execMulh, State.slotOp_memOk, State.putS_memOk]

theorem execDiv_memOk (g : BitVec 4) (d a b : BitVec 6) (f : BitVec 3) (s : State) (hok : s.MemOk) :
    ∀ out, execDiv g d a b f s = .next out → out.MemOk := by
  grind [execDiv, State.slotOp_memOk, State.putS_memOk]

theorem execRem_memOk (g : BitVec 4) (d a b : BitVec 6) (f : BitVec 3) (s : State) (hok : s.MemOk) :
    ∀ out, execRem g d a b f s = .next out → out.MemOk := by
  grind [execRem, State.slotOp_memOk, State.putS_memOk]

theorem execAnd_memOk (g : BitVec 4) (d a b : BitVec 6) (s : State) (hok : s.MemOk) :
    ∀ out, execAnd g d a b s = .next out → out.MemOk := by
  grind [execAnd, State.slotOp_memOk, State.putS_memOk]

theorem execOr_memOk (g : BitVec 4) (d a b : BitVec 6) (s : State) (hok : s.MemOk) :
    ∀ out, execOr g d a b s = .next out → out.MemOk := by
  grind [execOr, State.slotOp_memOk, State.putS_memOk]

theorem execXor_memOk (g : BitVec 4) (d a b : BitVec 6) (s : State) (hok : s.MemOk) :
    ∀ out, execXor g d a b s = .next out → out.MemOk := by
  grind [execXor, State.slotOp_memOk, State.putS_memOk]

theorem execAndn_memOk (g : BitVec 4) (d a b : BitVec 6) (s : State) (hok : s.MemOk) :
    ∀ out, execAndn g d a b s = .next out → out.MemOk := by
  grind [execAndn, State.slotOp_memOk, State.putS_memOk]

theorem execShl_memOk (g : BitVec 4) (d a b : BitVec 6) (s : State) (hok : s.MemOk) :
    ∀ out, execShl g d a b s = .next out → out.MemOk := by
  grind [execShl, State.slotOp_memOk, State.putS_memOk]

theorem execShr_memOk (g : BitVec 4) (d a b : BitVec 6) (s : State) (hok : s.MemOk) :
    ∀ out, execShr g d a b s = .next out → out.MemOk := by
  grind [execShr, State.slotOp_memOk, State.putS_memOk]

theorem execSra_memOk (g : BitVec 4) (d a b : BitVec 6) (s : State) (hok : s.MemOk) :
    ∀ out, execSra g d a b s = .next out → out.MemOk := by
  grind [execSra, State.slotOp_memOk, State.putS_memOk]

theorem execMin_memOk (g : BitVec 4) (d a b : BitVec 6) (f : BitVec 3) (s : State) (hok : s.MemOk) :
    ∀ out, execMin g d a b f s = .next out → out.MemOk := by
  grind [execMin, State.slotOp_memOk, State.putS_memOk]

theorem execMax_memOk (g : BitVec 4) (d a b : BitVec 6) (f : BitVec 3) (s : State) (hok : s.MemOk) :
    ∀ out, execMax g d a b f s = .next out → out.MemOk := by
  grind [execMax, State.slotOp_memOk, State.putS_memOk]

theorem execSel_memOk (g : BitVec 4) (d a b : BitVec 6) (p : BitVec 3) (s : State) (hok : s.MemOk) :
    ∀ out, execSel g d a b p s = .next out → out.MemOk := by
  grind [execSel, State.slotOp_memOk, State.putS_memOk]

theorem execAddi_memOk (g : BitVec 4) (d a : BitVec 6) (i : BitVec 9) (s : State) (hok : s.MemOk) :
    ∀ out, execAddi g d a i s = .next out → out.MemOk := by
  grind [execAddi, State.slotOp_memOk, State.putS_memOk]

theorem execAndi_memOk (g : BitVec 4) (d a : BitVec 6) (i : BitVec 9) (s : State) (hok : s.MemOk) :
    ∀ out, execAndi g d a i s = .next out → out.MemOk := by
  grind [execAndi, State.slotOp_memOk, State.putS_memOk]

theorem execOri_memOk (g : BitVec 4) (d a : BitVec 6) (i : BitVec 9) (s : State) (hok : s.MemOk) :
    ∀ out, execOri g d a i s = .next out → out.MemOk := by
  grind [execOri, State.slotOp_memOk, State.putS_memOk]

theorem execXori_memOk (g : BitVec 4) (d a : BitVec 6) (i : BitVec 9) (s : State) (hok : s.MemOk) :
    ∀ out, execXori g d a i s = .next out → out.MemOk := by
  grind [execXori, State.slotOp_memOk, State.putS_memOk]

theorem execShli_memOk (g : BitVec 4) (d a : BitVec 6) (i : BitVec 9) (s : State) (hok : s.MemOk) :
    ∀ out, execShli g d a i s = .next out → out.MemOk := by
  grind [execShli, State.slotOp_memOk, State.putS_memOk]

theorem execShri_memOk (g : BitVec 4) (d a : BitVec 6) (i : BitVec 9) (s : State) (hok : s.MemOk) :
    ∀ out, execShri g d a i s = .next out → out.MemOk := by
  grind [execShri, State.slotOp_memOk, State.putS_memOk]

theorem execSrai_memOk (g : BitVec 4) (d a : BitVec 6) (i : BitVec 9) (s : State) (hok : s.MemOk) :
    ∀ out, execSrai g d a i s = .next out → out.MemOk := by
  grind [execSrai, State.slotOp_memOk, State.putS_memOk]

theorem execMovi_memOk (g : BitVec 4) (d : BitVec 6) (i : BitVec 15) (s : State) (hok : s.MemOk) :
    ∀ out, execMovi g d i s = .next out → out.MemOk := by
  grind [execMovi, State.slotOp_memOk, State.putS_memOk]

theorem execMovh_memOk (g : BitVec 4) (d : BitVec 6) (i : BitVec 15) (s : State) (hok : s.MemOk) :
    ∀ out, execMovh g d i s = .next out → out.MemOk := by
  grind [execMovh, State.slotOp_memOk, State.putS_memOk]

theorem execClz_memOk (g : BitVec 4) (d a : BitVec 6) (s : State) (hok : s.MemOk) :
    ∀ out, execClz g d a s = .next out → out.MemOk := by
  grind [execClz, State.slotOp_memOk, State.putS_memOk]

theorem execCtz_memOk (g : BitVec 4) (d a : BitVec 6) (s : State) (hok : s.MemOk) :
    ∀ out, execCtz g d a s = .next out → out.MemOk := by
  grind [execCtz, State.slotOp_memOk, State.putS_memOk]

theorem execPopc_memOk (g : BitVec 4) (d a : BitVec 6) (s : State) (hok : s.MemOk) :
    ∀ out, execPopc g d a s = .next out → out.MemOk := by
  grind [execPopc, State.slotOp_memOk, State.putS_memOk]

theorem execSext_memOk (g : BitVec 4) (d a : BitVec 6) (w : BitVec 9) (s : State) (hok : s.MemOk) :
    ∀ out, execSext g d a w s = .next out → out.MemOk := by
  grind [execSext, State.slotOp_memOk, State.putS_memOk]

theorem execZext_memOk (g : BitVec 4) (d a : BitVec 6) (w : BitVec 9) (s : State) (hok : s.MemOk) :
    ∀ out, execZext g d a w s = .next out → out.MemOk := by
  grind [execZext, State.slotOp_memOk, State.putS_memOk]

theorem execCmp_memOk (g p : BitVec 4) (a b : BitVec 6) (c : BitVec 3) (s : State) (hok : s.MemOk) :
    ∀ out, execCmp g p a b c s = .next out → out.MemOk := by
  grind [execCmp, State.slotOp_memOk, State.putP_memOk]

theorem execCmpi_memOk (g p : BitVec 4) (a i : BitVec 6) (c : BitVec 3) (s : State) (hok : s.MemOk) :
    ∀ out, execCmpi g p a i c s = .next out → out.MemOk := by
  grind [execCmpi, State.slotOp_memOk, State.putP_memOk]

end Sys2Proof.Machine
end

