-- ==== Sys2Proof/Laws/KeepControl.lean ====
section
/-! SUPPORT. Every operation of Machine/Control.lean keeps the memories in their one form. -/

namespace Sys2Proof.Machine

theorem State.transfer_memOk (s : State) (t : W64) (hok : s.MemOk) :
    (s.transfer t).MemOk := by
  grind [State.transfer, State.updCx_memOk]

theorem execBr_memOk (g p : BitVec 4) (n : BitVec 1) (o : BitVec 16) (s : State) (hok : s.MemOk) :
    ∀ out, execBr g p n o s = .next out → out.MemOk := by
  grind [execBr, State.slotOp_memOk, State.transfer_memOk]

theorem execJmp_memOk (g a : BitVec 4) (o : BitVec 16) (s : State) (hok : s.MemOk) :
    ∀ out, execJmp g a o s = .next out → out.MemOk := by
  grind [execJmp, State.slotOp_memOk, State.transfer_memOk]

theorem execCall_memOk (g : BitVec 4) (l : BitVec 5) (o : BitVec 16) (s : State) (hok : s.MemOk) :
    ∀ out, execCall g l o s = .next out → out.MemOk := by
  grind [execCall, State.slotOp_memOk, State.putS_memOk, State.transfer_memOk]

theorem execRet_memOk (g : BitVec 4) (l : BitVec 5) (s : State) (hok : s.MemOk) :
    ∀ out, execRet g l s = .next out → out.MemOk := by
  grind [execRet, State.slotOp_memOk, State.transfer_memOk]

theorem State.putLC_memOk (s : State) (n : BitVec 2) (v : W64) (hok : s.MemOk) :
    (s.putLC n v).MemOk := by
  exact hok

theorem execLoop_memOk (g : BitVec 4) (n : BitVec 2) (o : BitVec 16) (s : State) (hok : s.MemOk) :
    ∀ out, execLoop g n o s = .next out → out.MemOk := by
  grind [execLoop, State.slotOp_memOk, State.putLC_memOk, State.transfer_memOk]

theorem State.rotate_memOk (s : State) (p8 : Bool) (hok : s.MemOk) :
    (s.rotate p8).MemOk := by
  exact hok

theorem execMloop_memOk (g : BitVec 4) (o : BitVec 16) (s : State) (hok : s.MemOk) :
    ∀ out, execMloop g o s = .next out → out.MemOk := by
  grind [execMloop, State.slotOp_memOk, State.putLC_memOk, State.rotate_memOk, State.transfer_memOk]

theorem execLexit_memOk (g : BitVec 4) (n : BitVec 2) (o : BitVec 16) (s : State) (hok : s.MemOk) :
    ∀ out, execLexit g n o s = .next out → out.MemOk := by
  grind [execLexit, State.slotOp_memOk, State.putLC_memOk, State.transfer_memOk]

theorem execPin_memOk (g : BitVec 4) (s : State) (hok : s.MemOk) :
    ∀ out, execPin g s = .next out → out.MemOk := by
  grind [execPin, State.slotOp_memOk, State.updCx_memOk]

theorem execUnpin_memOk (g : BitVec 4) (s : State) (hok : s.MemOk) :
    ∀ out, execUnpin g s = .next out → out.MemOk := by
  grind [execUnpin, State.slotOp_memOk, State.unpinNow_memOk]

theorem execYield_memOk (g : BitVec 4) (s : State) (hok : s.MemOk) :
    ∀ out, execYield g s = .next out → out.MemOk := by
  grind [execYield, State.slotOp_memOk, State.updCx_memOk]

theorem execHalt_memOk (g : BitVec 4) (s : State) (hok : s.MemOk) :
    ∀ out, execHalt g s = .next out → out.MemOk := by
  grind [execHalt, State.slotOp_memOk, State.flushHeld_memOk, State.unpinNow_memOk, State.updCtx_memOk,
    State.updTask_memOk, State.giveUp_memOk, State.MemOk]

theorem execTrap_memOk (g : BitVec 4) (k : BitVec 16) (s : State) (hok : s.MemOk) :
    ∀ out, execTrap g k s = .next out → out.MemOk := by
  grind [execTrap, State.slotOp_memOk, State.trapC_memOk]

end Sys2Proof.Machine
end

