-- ==== Sys2Proof/Laws/KeepSystem.lean ====
section
/-! SUPPORT. Every operation of Machine/System.lean keeps the memories in their one form. -/

namespace Sys2Proof.Machine

theorem execCsrr_memOk (g : BitVec 4) (d : BitVec 6) (k : BitVec 12) (s : State) (hok : s.MemOk) :
    ∀ out, execCsrr g d k s = .next out → out.MemOk := by
  grind [execCsrr, State.slotOp_memOk, State.putS_memOk]

theorem execCsrw_memOk (g : BitVec 4) (d : BitVec 6) (k : BitVec 12) (s : State) (hok : s.MemOk) :
    ∀ out, execCsrw g d k s = .next out → out.MemOk := by
  grind [execCsrw, State.slotOp_memOk, State.deliver_memOk]

theorem execWidf_memOk (g : BitVec 4) (d : BitVec 6) (k : BitVec 3) (s : State) (hok : s.MemOk) :
    ∀ out, execWidf g d k s = .next out → out.MemOk := by
  grind [execWidf, State.slotOp_memOk, State.putS_memOk]

theorem execGtime_memOk (g : BitVec 4) (d : BitVec 6) (s : State) (hok : s.MemOk) :
    ∀ out, execGtime g d s = .next out → out.MemOk := by
  grind [execGtime, State.slotOp_memOk, State.putS_memOk]

theorem State.alignFail_memOk (s : State) (d : Fin 8) (src : EvSrc) (hok : s.MemOk) :
    (s.alignFail d src).MemOk := by
  grind [State.alignFail, State.updJoist_memOk, State.postEvent_memOk]

theorem State.sendTime_memOk (s : State) (q : Fin 16) (d : Fin 8) (hok : s.MemOk) :
    (s.sendTime q d).1.MemOk := by
  grind [State.sendTime, State.updJoist_memOk, State.putFlit_memOk]

theorem State.askTimes_memOk (n : Nat) (s : State) (h : s.MemOk) : (State.askTimes n s).MemOk := by
  induction n generalizing s with
  | zero => exact h
  | succ n ih => grind [State.askTimes, State.sendTime_memOk, State.updJoist_memOk]

theorem State.realign_memOk (s : State) (hok : s.MemOk) :
    (s.realign).MemOk := by
  grind [State.realign, State.updJoist_memOk, State.alignFail_memOk, State.askTimes_memOk]

theorem execRealign_memOk (g : BitVec 4) (d : BitVec 6) (s : State) (hok : s.MemOk) :
    ∀ out, execRealign g d s = .next out → out.MemOk := by
  grind [execRealign, State.slotOp_memOk, State.realign_memOk, State.putS_memOk]

theorem State.putShape_memOk (s : State) (t : BitVec 4) (ts : BitVec 32) (hok : s.MemOk) :
    (s.putShape t ts).MemOk := by
  grind [State.putShape, State.deliver_memOk, State.trapI_memOk]

theorem execTshapeImm_memOk (g t : BitVec 4) (r c : BitVec 6) (f : BitVec 3) (s : State) (hok : s.MemOk) :
    ∀ out, execTshapeImm g t r c f s = .next out → out.MemOk := by
  grind [execTshapeImm, State.slotOp_memOk, State.putShape_memOk]

theorem execTshapeReg_memOk (g t : BitVec 4) (n : BitVec 6) (s : State) (hok : s.MemOk) :
    ∀ out, execTshapeReg g t n s = .next out → out.MemOk := by
  grind [execTshapeReg, State.slotOp_memOk, State.deliver_memOk, State.putShape_memOk]

theorem execTvalid_memOk (g t : BitVec 4) (r c : BitVec 6) (s : State) (hok : s.MemOk) :
    ∀ out, execTvalid g t r c s = .next out → out.MemOk := by
  grind [execTvalid, State.slotOp_memOk, State.deliver_memOk, State.trapI_memOk]

theorem execFtsetAbs_memOk (g : BitVec 4) (d : BitVec 6) (n : BitVec 4) (s : State) (hok : s.MemOk) :
    ∀ out, execFtsetAbs g d n s = .next out → out.MemOk := by
  grind [execFtsetAbs, State.slotOp_memOk, State.deliver_memOk]

theorem execFtsetCur_memOk (g : BitVec 4) (d : BitVec 6) (n : BitVec 4) (s : State) (hok : s.MemOk) :
    ∀ out, execFtsetCur g d n s = .next out → out.MemOk := by
  grind [execFtsetCur, State.slotOp_memOk, State.deliver_memOk]

theorem execFbaseImm_memOk (g n : BitVec 4) (s : State) (hok : s.MemOk) :
    ∀ out, execFbaseImm g n s = .next out → out.MemOk := by
  grind [execFbaseImm, State.slotOp_memOk, State.deliver_memOk]

theorem execFbaseReg_memOk (g : BitVec 4) (d : BitVec 6) (s : State) (hok : s.MemOk) :
    ∀ out, execFbaseReg g d s = .next out → out.MemOk := by
  grind [execFbaseReg, State.slotOp_memOk, State.deliver_memOk]

theorem execPkset_memOk (g : BitVec 4) (d : BitVec 6) (s : State) (hok : s.MemOk) :
    ∀ out, execPkset g d s = .next out → out.MemOk := by
  grind [execPkset, State.slotOp_memOk, State.deliver_memOk]

theorem execPksetKey_memOk (g : BitVec 4) (k : BitVec 5) (r w : BitVec 1) (s : State) (hok : s.MemOk) :
    ∀ out, execPksetKey g k r w s = .next out → out.MemOk := by
  grind [execPksetKey, State.slotOp_memOk, State.deliver_memOk]

theorem execXpset_memOk (g : BitVec 4) (d : BitVec 6) (n : BitVec 3) (s : State) (hok : s.MemOk) :
    ∀ out, execXpset g d n s = .next out → out.MemOk := by
  grind [execXpset, State.slotOp_memOk, State.deliver_memOk]

theorem execBeat_memOk (g : BitVec 4) (s : State) (hok : s.MemOk) :
    ∀ out, execBeat g s = .next out → out.MemOk := by
  grind [execBeat, State.slotOp_memOk, State.updCx_memOk]

theorem execUiret_memOk (g : BitVec 4) (s : State) (hok : s.MemOk) :
    ∀ out, execUiret g s = .next out → out.MemOk := by
  grind [execUiret, State.slotOp_memOk, State.leaveHandler_memOk]

end Sys2Proof.Machine
end

