-- ==== Sys2Proof/Laws/KeepAddress.lean ====
section
/-! SUPPORT. Every operation of Machine/Address.lean keeps the memories in their one form. -/

namespace Sys2Proof.Machine

theorem State.putA_memOk (s : State) (n : BitVec 4) (v : W64) (hok : s.MemOk) :
    (s.putA n v).MemOk := by
  exact hok

theorem execLea_memOk (g d a : BitVec 4) (b : BitVec 6) (h : BitVec 3) (s : State) (hok : s.MemOk) :
    ∀ out, execLea g d a b h s = .next out → out.MemOk := by
  grind [execLea, State.slotOp_memOk, State.putA_memOk]

theorem execAmov_memOk (g d : BitVec 4) (a : BitVec 6) (s : State) (hok : s.MemOk) :
    ∀ out, execAmov g d a s = .next out → out.MemOk := by
  grind [execAmov, State.slotOp_memOk, State.putA_memOk]

theorem execAgetA_memOk (g : BitVec 4) (d : BitVec 6) (a : BitVec 4) (s : State) (hok : s.MemOk) :
    ∀ out, execAgetA g d a s = .next out → out.MemOk := by
  grind [execAgetA, State.slotOp_memOk, State.putS_memOk]

theorem execAgetD_memOk (g : BitVec 4) (d : BitVec 6) (a : BitVec 4) (s : State) (hok : s.MemOk) :
    ∀ out, execAgetD g d a s = .next out → out.MemOk := by
  grind [execAgetD, State.slotOp_memOk, State.putS_memOk]

theorem execDset_memOk (g d : BitVec 4) (a : BitVec 6) (s : State) (hok : s.MemOk) :
    ∀ out, execDset g d a s = .next out → out.MemOk := by
  grind [execDset, State.slotOp_memOk, State.deliver_memOk]

theorem execAadd_memOk (g d a : BitVec 4) (i : BitVec 9) (s : State) (hok : s.MemOk) :
    ∀ out, execAadd g d a i s = .next out → out.MemOk := by
  grind [execAadd, State.slotOp_memOk, State.putA_memOk]

theorem execPand_memOk (g d a b : BitVec 4) (s : State) (hok : s.MemOk) :
    ∀ out, execPand g d a b s = .next out → out.MemOk := by
  grind [execPand, State.slotOp_memOk, State.putP_memOk]

theorem execPor_memOk (g d a b : BitVec 4) (s : State) (hok : s.MemOk) :
    ∀ out, execPor g d a b s = .next out → out.MemOk := by
  grind [execPor, State.slotOp_memOk, State.putP_memOk]

theorem execPxor_memOk (g d a b : BitVec 4) (s : State) (hok : s.MemOk) :
    ∀ out, execPxor g d a b s = .next out → out.MemOk := by
  grind [execPxor, State.slotOp_memOk, State.putP_memOk]

theorem execPnot_memOk (g d a : BitVec 4) (s : State) (hok : s.MemOk) :
    ∀ out, execPnot g d a s = .next out → out.MemOk := by
  grind [execPnot, State.slotOp_memOk, State.putP_memOk]

theorem execPmov_memOk (g d a : BitVec 4) (s : State) (hok : s.MemOk) :
    ∀ out, execPmov g d a s = .next out → out.MemOk := by
  grind [execPmov, State.slotOp_memOk, State.putP_memOk]

theorem execPsetConst_memOk (g d : BitVec 4) (v : BitVec 1) (s : State) (hok : s.MemOk) :
    ∀ out, execPsetConst g d v s = .next out → out.MemOk := by
  grind [execPsetConst, State.slotOp_memOk, State.putP_memOk]

theorem execPsetScalar_memOk (g d : BitVec 4) (a : BitVec 6) (s : State) (hok : s.MemOk) :
    ∀ out, execPsetScalar g d a s = .next out → out.MemOk := by
  grind [execPsetScalar, State.slotOp_memOk, State.putP_memOk]

theorem execPsetBit_memOk (g d : BitVec 4) (a n : BitVec 6) (s : State) (hok : s.MemOk) :
    ∀ out, execPsetBit g d a n s = .next out → out.MemOk := by
  grind [execPsetBit, State.slotOp_memOk, State.putP_memOk]

end Sys2Proof.Machine
end

