-- ==== Sys2Proof/Laws/KeepMemory.lean ====
section
/-! SUPPORT. Every operation of Machine/Memory.lean keeps the memories in their one form. -/

namespace Sys2Proof.Machine

theorem State.stepAddr_memOk (s : State) (stepping : Bool) (r : BitVec 4) (hok : s.MemOk) :
    (s.stepAddr stepping r).MemOk := by
  grind [State.stepAddr, State.deliver_memOk]

theorem State.load_memOk (s : State) (vs : List VRun) (form : LoadForm) (done : State → State) (hok : s.MemOk) (h_done : ∀ u : State, u.MemOk → (done u).MemOk) :
    (s.load vs form done).MemOk := by
  grind [State.load, State.access_memOk, State.refuse_memOk, State.readParts_memOk, State.updCx_memOk]

theorem State.store_memOk (s : State) (vs : List VRun) (bytes : List Byte) (done : State → State) (hok : s.MemOk) (h_done : ∀ u : State, u.MemOk → (done u).MemOk) :
    (s.store vs bytes done).MemOk := by
  grind [State.store, State.trapI_memOk, State.access_memOk, State.refuse_memOk, State.updCx_memOk]

theorem execLd_memOk (g : BitVec 4) (d : BitVec 6) (r : BitVec 4) (m : BitVec 2) (f s1 : BitVec 1) (z : BitVec 2) (x : BitVec 5)
    (s : State) (hok : s.MemOk) :
    ∀ out, execLd g d r m f s1 z x s = .next out → out.MemOk := by
  grind [execLd, State.slotOp_memOk, State.load_memOk, State.stepAddr_memOk]

theorem execSt_memOk (g : BitVec 4) (d : BitVec 6) (r : BitVec 4) (m : BitVec 2) (f : BitVec 1) (z : BitVec 2) (x : BitVec 5)
    (s : State) (hok : s.MemOk) :
    ∀ out, execSt g d r m f z x s = .next out → out.MemOk := by
  grind [execSt, State.slotOp_memOk, State.store_memOk, State.stepAddr_memOk]

theorem execLld_memOk (g : BitVec 4) (d : BitVec 5) (r : BitVec 4) (m : BitVec 2) (f : BitVec 1) (x : BitVec 5) (s : State) (hok : s.MemOk) :
    ∀ out, execLld g d r m f x s = .next out → out.MemOk := by
  grind [execLld, State.slotOp_memOk, State.load_memOk, State.stepAddr_memOk]

theorem execLst_memOk (g : BitVec 4) (d : BitVec 5) (r : BitVec 4) (m : BitVec 2) (f : BitVec 1) (x : BitVec 5) (s : State) (hok : s.MemOk) :
    ∀ out, execLst g d r m f x s = .next out → out.MemOk := by
  grind [execLst, State.slotOp_memOk, State.store_memOk, State.stepAddr_memOk]

theorem execPref_memOk (g r : BitVec 4) (m z : BitVec 2) (x : BitVec 5) (s : State) (hok : s.MemOk) :
    ∀ out, execPref g r m z x s = .next out → out.MemOk := by
  grind [execPref, State.slotOp_memOk, State.load_memOk, State.findLeaf_memOk, State.fillL2_memOk,
    State.noteFault_memOk, State.stepAddr_memOk]

theorem State.configured_memOk (s : State) (ts : List (BitVec 4)) (body : State → State) (hok : s.MemOk) (h_body : ∀ u : State, u.MemOk → (body u).MemOk) :
    (s.configured ts body).MemOk := by
  grind [State.configured, State.trapI_memOk]

theorem execTld_memOk (g t : BitVec 4) (q : BitVec 2) (r : BitVec 4) (m : BitVec 2) (s1 : BitVec 6) (f : BitVec 3) (s : State) (hok : s.MemOk) :
    ∀ out, execTld g t q r m s1 f s = .next out → out.MemOk := by
  grind [execTld, State.slotOp_memOk, State.configured_memOk, State.load_memOk, State.stepAddr_memOk]

theorem execTst_memOk (g t : BitVec 4) (q : BitVec 2) (r : BitVec 4) (m : BitVec 2) (s1 : BitVec 6) (f : BitVec 3) (s : State) (hok : s.MemOk) :
    ∀ out, execTst g t q r m s1 f s = .next out → out.MemOk := by
  grind [execTst, State.slotOp_memOk, State.configured_memOk, State.store_memOk, State.stepAddr_memOk]

theorem execTldg_memOk (g t : BitVec 4) (q : BitVec 2) (r : BitVec 4) (m : BitVec 2) (s1 : BitVec 5) (f : BitVec 3) (s : State) (hok : s.MemOk) :
    ∀ out, execTldg g t q r m s1 f s = .next out → out.MemOk := by
  grind [execTldg, State.slotOp_memOk, State.configured_memOk, State.load_memOk, State.stepAddr_memOk]

theorem execTsts_memOk (g t : BitVec 4) (q : BitVec 2) (r : BitVec 4) (m : BitVec 2) (s1 : BitVec 5) (f : BitVec 3) (s : State) (hok : s.MemOk) :
    ∀ out, execTsts g t q r m s1 f s = .next out → out.MemOk := by
  grind [execTsts, State.slotOp_memOk, State.configured_memOk, State.store_memOk, State.stepAddr_memOk]

theorem execLoadDelivery_memOk (id : CtxId) (s : State) (hok : s.MemOk) :
    ∀ out, execLoadDelivery id s = .next out → out.MemOk := by
  grind [execLoadDelivery, State.updCtx_memOk, State.wake_memOk]

end Sys2Proof.Machine
end

