-- ==== Sys2Proof/Laws/KeepBlockTable.lean ====
section
/-! SUPPORT. Every operation of Machine/BlockTable.lean keeps the memories in their one form. -/

namespace Sys2Proof.Machine

/-- The state in which a step of the block-table unit ends keeps its memories in their one form. -/
def KvEnd.MemOk : KvEnd → Prop
  | .done _ s => s.MemOk
  | .poison s => s.MemOk
  | .wait s => s.MemOk

theorem State.setKvLo_memOk (s : State) (d : Fin 8) (i : Nat) (f : W64 → W64) (hok : s.MemOk) :
    (s.setKvLo d i f).MemOk := by
  grind [State.setKvLo, State.devWrite_memOk]

theorem State.setKvRefs_memOk (s : State) (d : Fin 8) (i n : Nat) (hok : s.MemOk) :
    (s.setKvRefs d i n).MemOk := by
  grind [State.setKvRefs, State.devWrite_memOk]

theorem State.ringEmpty_memOk (s : State) (d : Fin 8) (hok : s.MemOk) :
    (s.ringEmpty d).MemOk := by
  grind [State.ringEmpty, State.updDie_memOk, State.postEvent_memOk]

theorem State.ringFull_memOk (s : State) (d : Fin 8) (hok : s.MemOk) :
    (s.ringFull d).MemOk := by
  grind [State.ringFull, State.updDie_memOk, State.postEvent_memOk]

theorem State.takeFree_memOk (s : State) (d : Fin 8) (b : Nat) (hok : s.MemOk) :
    (s.takeFree d b).MemOk := by
  grind [State.takeFree, State.updDie_memOk, State.setKvRefs_memOk, State.setKvLo_memOk]

theorem State.pushRelease_memOk (s : State) (d : Fin 8) (v : Nat) (hok : s.MemOk) :
    (s.pushRelease d v).MemOk := by
  grind [State.pushRelease, State.paWrite_memOk, State.updDie_memOk]

theorem State.releaseBlock_memOk (s : State) (d : Fin 8) (i : Nat) (hok : s.MemOk) :
    (s.releaseBlock d i).MemOk := by
  grind [State.releaseBlock, State.setKvLo_memOk, State.pushRelease_memOk]

theorem State.readListPart_memOk (s : State) (id : CtxId) (p : Part) (g : Gather) (hok : s.MemOk) :
    (s.readListPart id p g).1.MemOk := by
  grind [State.readListPart, State.updCtx_memOk, State.load_memOk, State.readPart_memOk]

theorem State.readList_memOk (s : State) (id : CtxId) (ps : List Part) (hok : s.MemOk) :
    (s.readList id ps).1.MemOk := by
  grind [State.readList, State.commitEarly_memOk, State.readListPart_memOk, foldl_fst_memOk, foldl_memOk]

theorem State.unitPart_memOk (s : State) (id : CtxId) (p : Part) (g : Gather) (hok : s.MemOk) :
    (s.unitPart id p g).1.MemOk := by
  grind [State.unitPart, State.recordUnits_memOk, State.readListPart_memOk]

theorem State.unitRead_memOk (s : State) (q : KvReq) (va : W64) (n : Nat) (hok : s.MemOk) :
    (s.unitRead q va n).1.MemOk := by
  grind [State.unitRead, State.checkAccess_memOk, State.load_memOk, State.noteFault_memOk, State.unitPart_memOk,
    State.updCtx_memOk, foldl_fst_memOk, foldl_memOk]

theorem State.unitMay_memOk (s : State) (q : KvReq) (va : W64) (n : Nat) (hok : s.MemOk) :
    (s.unitMay q va n).1.MemOk := by
  grind [State.unitMay, State.checkAccess_memOk, State.store_memOk, State.noteFault_memOk]

theorem State.unitWrite_memOk (s : State) (q : KvReq) (va : W64) (bytes : List Byte) (hok : s.MemOk) :
    (s.unitWrite q va bytes).MemOk := by
  grind [State.unitWrite, State.store_memOk, State.checkAccess_memOk, State.performRun_memOk,
    State.setDirtyLeaves_memOk, foldl_fst_memOk, foldl_memOk]

theorem State.setKvReq_memOk (s : State) (q : KvReq) (hok : s.MemOk) :
    (s.setKvReq q).MemOk := by
  grind [State.setKvReq, State.updDie_memOk]

theorem State.writeToken_memOk (s : State) (pa pos : Nat) (data : BitVec 32768) (hok : s.MemOk) :
    (s.writeToken pa pos data).MemOk := by
  grind [State.writeToken, State.devWrite_memOk]

theorem State.copyBlock_memOk (s : State) (d : Fin 8) (src dst : Nat) (hok : s.MemOk) :
    (s.copyBlock d src dst).MemOk := by
  grind [State.copyBlock, State.recordUnits_memOk, State.copyStorage_memOk]

theorem State.endAppend_memOk (s : State) (q : KvReq) (ntok pa : Nat) (hok : s.MemOk) :
    (s.endAppend q ntok pa).MemOk := by
  grind [State.endAppend, State.writeToken_memOk, State.unitWrite_memOk, KvEnd.MemOk]

theorem goOn_memOk (x : State × ListBytes) (go : State → List Byte → KvEnd) (h : x.1.MemOk)
    (h_go : ∀ (u : State) (bs : List Byte), u.MemOk → (go u bs).MemOk) : (goOn x go).MemOk := by
  unfold goOn
  split
  · exact h_go _ _ h
  all_goals exact h

theorem State.unlessBad_memOk (s : State) (id : CtxId) (us : List Nat) (go : KvEnd) (hok : s.MemOk) (h_go : go.MemOk) :
    (s.unlessBad id us go).MemOk := by
  unfold State.unlessBad
  split
  · exact h_go
  · exact State.recordBad_memOk s us 0 id.die id.core hok

theorem KvEnd.idle_memOk (x : KvEnd) (d : Fin 8) (b : Nat) (hok : x.MemOk) : (x.idle d b).MemOk := by
  cases x <;> unfold KvEnd.idle <;> grind [KvEnd.MemOk, State.setKvLo_memOk]

theorem State.endCopy_memOk (s : State) (q : KvReq) (ntok n : Nat) (hok : s.MemOk) :
    (s.endCopy q ntok n).MemOk := by
  unfold State.endCopy
  dsimp only
  generalize hu : q.owed.toList.foldl _ s = u
  have h : u.MemOk := by rw [← hu]; exact foldl_memOk _ _ _ hok fun s b h => State.releaseBlock_memOk s _ b h
  split
  · exact State.ringFull_memOk _ _ (State.setKvReq_memOk s q hok)
  · split
    · exact h
    · exact goOn_memOk _ _ (State.unitMay_memOk u q _ _ h) fun v _ hv => State.endAppend_memOk v q ntok _ hv

theorem State.copyInto_memOk (s : State) (q : KvReq) (ntok b n src dst : Nat) (hok : s.MemOk) :
    (s.copyInto q ntok b n src dst).MemOk := by
  grind [State.copyInto, State.takeFree_memOk, State.copyBlock_memOk, State.setKvRefs_memOk,
    State.unitWrite_memOk, State.setKvLo_memOk, State.updDie_memOk, State.endCopy_memOk, State.endAppend_memOk,
    KvEnd.MemOk]

theorem State.copyOut_memOk (s : State) (q : KvReq) (ntok b : Nat) (hok : s.MemOk) :
    (s.copyOut q ntok b).MemOk := by
  unfold State.copyOut
  dsimp only
  split
  · exact State.ringEmpty_memOk _ _ (State.setKvReq_memOk s _ hok)
  · refine KvEnd.idle_memOk _ _ _ (State.unlessBad_memOk s _ _ _ hok ?_)
    split
    · exact State.copyInto_memOk s q ntok b _ _ _ hok
    · exact hok

theorem State.appendAt_memOk (s : State) (q : KvReq) (ntok : Nat) (hok : s.MemOk) :
    (s.appendAt q ntok).MemOk := by
  unfold State.appendAt
  dsimp only
  refine goOn_memOk _ _ (State.unitMay_memOk s q _ _ hok) fun s1 _ h1 => goOn_memOk _ _ (State.unitMay_memOk s1 q _ _ h1) fun s2 _ h2 => ?_
  split
  · split
    · exact State.ringEmpty_memOk s2 _ h2
    · refine State.unlessBad_memOk s2 _ _ _ h2 ?_
      split
      · exact h2
      · exact State.endAppend_memOk _ q ntok _ (State.unitWrite_memOk _ q _ _ (State.takeFree_memOk s2 _ _ h2))
  · refine goOn_memOk _ _ (State.unitRead_memOk s2 q _ _ h2) fun s3 w h3 => ?_
    split
    · exact h3
    · refine State.unlessBad_memOk s3 _ _ _ h3 ?_
      split
      · exact h3
      · split
        · exact h3
        · split
          · exact State.copyOut_memOk _ q ntok _ (State.setKvLo_memOk s3 _ _ _ h3)
          · split
            · exact h3
            · exact State.endAppend_memOk s3 q ntok _ h3

theorem State.appendList_memOk (s : State) (q : KvReq) (hok : s.MemOk) :
    (s.appendList q).MemOk := by
  unfold State.appendList
  refine goOn_memOk _ _ (State.unitRead_memOk s q _ _ hok) fun s1 hd h1 => ?_
  dsimp only
  split
  · exact h1
  · split
    · exact h1
    · exact State.appendAt_memOk s1 q _ h1

theorem State.kvAppend_memOk (s : State) (q : KvReq) (hok : s.MemOk) :
    (s.kvAppend q).MemOk := by
  unfold State.kvAppend
  split
  · exact State.endCopy_memOk s q _ _ hok
  · exact KvEnd.idle_memOk _ _ _ (goOn_memOk _ _ (State.unitMay_memOk s q _ _ hok) fun s1 _ h1 =>
      goOn_memOk _ _ (State.unitMay_memOk s1 q _ _ h1) fun s2 _ h2 => State.copyOut_memOk s2 q _ _ h2)
  · exact State.appendList_memOk s q hok

theorem State.kvDrop_memOk (s : State) (q : KvReq) (l : List Nat) (hok : s.MemOk) : (s.kvDrop q l).MemOk := by
  induction l generalizing s q with
  | nil =>
    unfold State.kvDrop
    exact goOn_memOk _ _ (State.unitMay_memOk s q _ _ hok) fun s1 _ h1 => State.unitWrite_memOk s1 q _ _ h1
  | cons b l ih =>
    grind [State.kvDrop, State.setKvReq_memOk, State.setKvRefs_memOk, State.ringFull_memOk, State.releaseBlock_memOk,
      State.recordBad_memOk, KvEnd.MemOk]

theorem State.kvRelease_memOk (s : State) (q : KvReq) (hok : s.MemOk) :
    (s.kvRelease q).MemOk := by
  unfold State.kvRelease
  split
  · exact State.kvDrop_memOk s q _ hok
  · refine goOn_memOk _ _ (State.unitRead_memOk s q _ _ hok) fun s1 hd h1 => ?_
    dsimp only
    split
    · exact h1
    · exact goOn_memOk _ _ (State.unitMay_memOk s1 q _ _ h1) fun s2 _ h2 => goOn_memOk _ _ (State.unitRead_memOk s2 q _ _ h2)
        fun s3 ws h3 => State.kvDrop_memOk s3 _ _ h3

theorem State.kvStep_memOk (s : State) (q : KvReq) (hok : s.MemOk) :
    (s.kvStep q).MemOk := by
  grind [State.kvStep, State.kvAppend_memOk, State.kvRelease_memOk, KvEnd.MemOk]

theorem State.kvStatus_memOk (s : State) (n : BitVec 6) (v : Int) (hok : s.MemOk) :
    (s.kvStatus n v).MemOk := by
  grind [State.kvStatus, State.updCx_memOk]

theorem State.kvData_memOk (s : State) (id : CtxId) (run : Nat) (rows : List (Option Nat)) (hok : s.MemOk) :
    (s.kvData id run rows).1.MemOk := by
  grind [State.kvData, State.recordAt_memOk, foldl_fst_memOk, foldl_memOk]

theorem State.kvRead_memOk (s : State) (t : BitVec 4) (s1 : BitVec 6) (ps : List Part) (poison : Bool) (rows : List (Option Nat)) (hok : s.MemOk) :
    (s.kvRead t s1 ps poison rows).MemOk := by
  grind [State.kvRead, State.kvData_memOk, State.updCx_memOk]

theorem State.kvFail_memOk (s : State) (n : BitVec 6) (ps : List Part) (v : Int) (hok : s.MemOk) :
    (s.kvFail n ps v).MemOk := by
  grind [State.kvFail, State.updCx_memOk, State.kvStatus_memOk]

theorem State.kvLoad_memOk (s : State) (t : BitVec 4) (half : Nat) (s1 : BitVec 6) (chunk k0 : Nat) (h : KvHead) (sp : List Part) (hok : s.MemOk) :
    (s.kvLoad t half s1 chunk k0 h sp).MemOk := by
  grind [State.kvLoad, State.readList_memOk, State.kvRead_memOk, State.recordBad_memOk, State.kvFail_memOk]

theorem execKvld_memOk (g t : BitVec 4) (q : BitVec 2) (r : BitVec 4) (s1 : BitVec 6) (c : BitVec 3) (s : State) (hok : s.MemOk) :
    ∀ out, execKvld g t q r s1 c s = .next out → out.MemOk := by
  refine State.slotOp_memOk s g _ _ hok fun u hu => State.configured_memOk u _ _ hu fun v hv => ?_
  dsimp only
  split
  · exact State.kvStatus_memOk v s1 _ hv
  · split
    · exact State.kvStatus_memOk v s1 _ hv
    · have h1 := State.checkFor_memOk v v.cur (v.cx.req v.cur .load true false) [⟨v.rA r, 8⟩] hv
      split <;> rename_i w _ hx <;> rw [hx] at h1
      · exact State.refuse_memOk w _ _ h1
      · have h2 := fun hp => State.readList_memOk w v.cur hp h1
        split
        · exact h1
        · split
          · exact State.kvRead_memOk _ _ _ _ _ _ (h2 _)
          · split
            · exact State.kvFail_memOk _ _ _ _ (h2 _)
            · have h3 := fun vs => State.checkFor_memOk w v.cur (v.cx.req v.cur .load true false) vs h1
              split <;> rename_i x _ hy
              · have h4 : x.MemOk := (congrArg (fun y => y.1.MemOk) hy).mp (h3 _)
                exact State.refuse_memOk x _ _ h4
              · have h4 : x.MemOk := (congrArg (fun y => y.1.MemOk) hy).mp (h3 _)
                split
                · exact h4
                · exact State.kvLoad_memOk _ _ _ _ _ _ _ _ (State.readList_memOk x v.cur _ h4)

theorem State.kvTake_memOk (s : State) (q : KvReq) (s1 : BitVec 6) (hok : s.MemOk) :
    (s.kvTake q s1).MemOk := by
  grind [State.kvTake, State.updDie_memOk, State.updCx_memOk, State.putS_memOk]

theorem State.kvHand_memOk (s : State) (append : Bool) (r : BitVec 4) (s1 : BitVec 6) (data : BitVec 32768) (hok : s.MemOk) :
    (s.kvHand append r s1 data).MemOk := by
  grind [State.kvHand, State.kvTake_memOk, State.block_memOk, State.putS_memOk, State.store_memOk,
    State.checkFor_memOk, State.refuse_memOk, State.updDie_memOk, State.updCx_memOk]

theorem execKvapp_memOk (g t r : BitVec 4) (s1 : BitVec 6) (s : State) (hok : s.MemOk) :
    ∀ out, execKvapp g t r s1 s = .next out → out.MemOk := by
  grind [execKvapp, State.slotOp_memOk, State.configured_memOk, State.kvHand_memOk]

theorem execKvfree_memOk (g r : BitVec 4) (s1 : BitVec 6) (s : State) (hok : s.MemOk) :
    ∀ out, execKvfree g r s1 s = .next out → out.MemOk := by
  grind [execKvfree, State.slotOp_memOk, State.kvHand_memOk]

theorem State.kvFinish_memOk (s : State) (q : KvReq) (v : Int) (poison : Bool) (hok : s.MemOk) :
    (s.kvFinish q v poison).MemOk := by
  grind [State.kvFinish, State.setKvReq_memOk, State.updDie_memOk, State.wake_memOk]

theorem execKvRequestDone_memOk (id : CtxId) (s : State) (hok : s.MemOk) :
    ∀ out, execKvRequestDone id s = .next out → out.MemOk := by
  grind [execKvRequestDone, State.kvStep_memOk, State.kvFinish_memOk, KvEnd.MemOk]

theorem execKvfrposWrite_memOk (d : Fin 8) (val : BitVec 64) (s : State) (hok : s.MemOk) :
    ∀ out, execKvfrposWrite d val s = .next out → out.MemOk := by
  grind [execKvfrposWrite, State.updDie_memOk]

theorem execKvrlposWrite_memOk (d : Fin 8) (val : BitVec 64) (s : State) (hok : s.MemOk) :
    ∀ out, execKvrlposWrite d val s = .next out → out.MemOk := by
  grind [execKvrlposWrite, State.updDie_memOk]

theorem execKvcfgWrite_memOk (d : Fin 8) (base : Bool) (val : BitVec 64) (s : State) (hok : s.MemOk) :
    ∀ out, execKvcfgWrite d base val s = .next out → out.MemOk := by
  grind [execKvcfgWrite, State.updDie_memOk]

end Sys2Proof.Machine
end

