-- ==== Sys2Proof/Laws/KeepAtomics.lean ====
section
/-! SUPPORT. Every operation of Machine/Atomics.lean keeps the memories in their one form. -/

namespace Sys2Proof.Machine

theorem State.updateAt_memOk (s : State) (pa n : Nat) (f : Update) (die : Fin 8) (core src : Nat) (hok : s.MemOk) :
    (s.updateAt pa n f die core src).1.MemOk := by
  grind [State.updateAt, State.recordAt_memOk, State.devWrite_memOk]

theorem State.updateHost_memOk (s : State) (a n : Nat) (f : Update) (hok : s.MemOk) :
    (s.updateHost a n f).1.MemOk := by
  grind [State.updateHost, State.hostWrite_memOk]

theorem State.updateHostAt_memOk (s : State) (id : CtxId) (pa n : Nat) (f : Update) (hok : s.MemOk) :
    (s.updateHostAt id pa n f).1.MemOk := by
  grind [State.updateHostAt, State.hostArrive_memOk, State.updateHost_memOk]

theorem State.updatePart_memOk (s : State) (id : CtxId) (acc : AccKind) (p : Part) (f : Update) (code : Nat) (data : List Byte)
    (ret : Bool) (hok : s.MemOk) :
    (s.updatePart id acc p f code data ret).1.MemOk := by
  grind [State.updatePart, State.updateAt_memOk, State.updateHostAt_memOk, State.updCtx_memOk,
    State.recordError_memOk, State.sendPeer_memOk]

theorem State.atomic_memOk (s : State) (d : BitVec 6) (r : BitVec 4) (n : Nat) (hostOk : Bool) (f : Update) (code : Nat)
    (data : List Byte) (hok : s.MemOk) :
    (s.atomic d r n hostOk f code data).MemOk := by
  grind [State.atomic, State.access_memOk, State.refuse_memOk, State.flushHeld_memOk, State.updatePart_memOk,
    State.updCx_memOk]

theorem execAmo_memOk (g : BitVec 4) (d : BitVec 6) (r : BitVec 4) (f : BitVec 2) (b : BitVec 5) (z : BitVec 1) (o : BitVec 3)
    (s : State) (hok : s.MemOk) :
    ∀ out, execAmo g d r f b z o s = .next out → out.MemOk := by
  grind [execAmo, State.slotOp_memOk, State.atomic_memOk]

theorem execCas_memOk (g : BitVec 4) (d : BitVec 6) (r : BitVec 4) (f : BitVec 2) (b : BitVec 5) (z : BitVec 1) (s : State) (hok : s.MemOk) :
    ∀ out, execCas g d r f b z s = .next out → out.MemOk := by
  grind [execCas, State.slotOp_memOk, State.atomic_memOk]

theorem execFamo_memOk (g : BitVec 4) (d : BitVec 6) (r : BitVec 4) (f : BitVec 2) (b : BitVec 5) (o : BitVec 3) (s : State) (hok : s.MemOk) :
    ∀ out, execFamo g d r f b o s = .next out → out.MemOk := by
  grind [execFamo, State.slotOp_memOk, State.atomic_memOk]

theorem State.setBarrier_memOk (s : State) (pa : Nat) (b : Barrier) (hok : s.MemOk) :
    (s.setBarrier pa b).MemOk := by
  grind [State.setBarrier, State.devWrite_memOk]

theorem State.resolveWait_memOk (s : State) (id : CtxId) (pa : Nat) (code : BitVec 2) (hok : s.MemOk) :
    (s.resolveWait id pa code).MemOk := by
  grind [State.resolveWait, State.updCtx_memOk, State.wake_memOk]

theorem State.wakeAll_memOk (s : State) (pa : Nat) (b : Barrier) (code : BitVec 2) (hok : s.MemOk) :
    (s.wakeAll pa b code).MemOk := by
  grind [State.wakeAll, State.resolveWait_memOk, State.updDie_memOk, foldl_fst_memOk, foldl_memOk]

theorem State.arrival_memOk (s : State) (pa : Nat) (die : Fin 8) (core : Nat) (hok : s.MemOk) :
    (s.arrival pa die core).1.MemOk := by
  grind [State.arrival, State.recordUnits_memOk, State.setBarrier_memOk, State.wakeAll_memOk, State.MemOk]

theorem State.reduce_memOk (s : State) (r : BitVec 4) (n : Nat) (hostOk add : Bool) (f : Update) (code : Nat) (data : List Byte) (hok : s.MemOk) :
    (s.reduce r n hostOk add f code data).MemOk := by
  grind [State.reduce, State.access_memOk, State.refuse_memOk, State.updatePart_memOk, State.flushHeld_memOk,
    foldl_fst_memOk, foldl_memOk]

theorem State.arriveAfter_memOk (s : State) (id : CtxId) (data : List Part) (pa : Nat) (hok : s.MemOk) :
    (s.arriveAfter id data pa).MemOk := by
  grind [State.arriveAfter, State.updJoist_memOk, State.arrival_memOk]

theorem State.reduceBar_memOk (s : State) (r q : BitVec 4) (n : Nat) (add : Bool) (f : Update) (code : Nat) (data : List Byte) (hok : s.MemOk) :
    (s.reduceBar r q n add f code data).MemOk := by
  grind [State.reduceBar, State.store_memOk, State.checkFor_memOk, State.refuse_memOk,
    State.setDirtyLeaves_memOk, State.updCtx_memOk, State.updatePart_memOk, State.flushHeld_memOk,
    State.arriveAfter_memOk, foldl_fst_memOk, foldl_memOk]

theorem execRed_memOk (g r : BitVec 4) (f : BitVec 1) (b : BitVec 6) (z : BitVec 1) (o : BitVec 3) (s : State) (hok : s.MemOk) :
    ∀ out, execRed g r f b z o s = .next out → out.MemOk := by
  grind [execRed, State.slotOp_memOk, State.reduce_memOk]

theorem execFred_memOk (g r : BitVec 4) (f : BitVec 1) (b : BitVec 6) (o : BitVec 3) (s : State) (hok : s.MemOk) :
    ∀ out, execFred g r f b o s = .next out → out.MemOk := by
  grind [execFred, State.slotOp_memOk, State.reduce_memOk]

theorem execRedb_memOk (g r : BitVec 4) (f : BitVec 1) (b : BitVec 6) (z : BitVec 1) (o : BitVec 3) (q : BitVec 4) (s : State) (hok : s.MemOk) :
    ∀ out, execRedb g r f b z o q s = .next out → out.MemOk := by
  grind [execRedb, State.slotOp_memOk, State.reduceBar_memOk]

theorem execFredb_memOk (g r : BitVec 4) (f : BitVec 1) (b : BitVec 6) (o : BitVec 3) (q : BitVec 4) (s : State) (hok : s.MemOk) :
    ∀ out, execFredb g r f b o q s = .next out → out.MemOk := by
  grind [execFredb, State.slotOp_memOk, State.reduceBar_memOk]

end Sys2Proof.Machine
end

