-- ==== Sys2Proof/Laws/KeepSync.lean ====
section
/-! SUPPORT. Every operation of Machine/Sync.lean keeps the memories in their one form. -/

namespace Sys2Proof.Machine

theorem execFence_memOk (g : BitVec 4) (k : BitVec 3) (s1 : BitVec 1) (s : State) (hok : s.MemOk) :
    ∀ out, execFence g k s1 s = .next out → out.MemOk := by
  grind [execFence, State.slotOp_memOk, State.flushHeld_memOk, State.updCx_memOk, State.commitEarly_memOk]

theorem State.barrierAt_memOk (s : State) (acc : AccKind) (rd wr : Bool) (r : BitVec 4) (hok : s.MemOk) :
    (s.barrierAt acc rd wr r).1.MemOk := by
  grind [State.barrierAt, State.access_memOk]

theorem State.barrierInit_memOk (s : State) (pa expect : Nat) (die : Fin 8) (core : Nat) (hok : s.MemOk) :
    (s.barrierInit pa expect die core).MemOk := by
  grind [State.barrierInit, State.recordUnits_memOk, State.setBarrier_memOk, State.wakeAll_memOk]

theorem execBarinit_memOk (g r : BitVec 4) (b : BitVec 6) (s : State) (hok : s.MemOk) :
    ∀ out, execBarinit g r b s = .next out → out.MemOk := by
  grind [execBarinit, State.slotOp_memOk, State.barrierAt_memOk, State.refuse_memOk, State.flushHeld_memOk,
    State.barrierInit_memOk]

theorem execArrive_memOk (g : BitVec 4) (d : BitVec 6) (r : BitVec 4) (s : State) (hok : s.MemOk) :
    ∀ out, execArrive g d r s = .next out → out.MemOk := by
  grind [execArrive, State.slotOp_memOk, State.barrierAt_memOk, State.refuse_memOk, State.flushHeld_memOk,
    State.arrival_memOk, State.updCx_memOk]

theorem State.register_memOk (s : State) (id : CtxId) (pa : Nat) (hok : s.MemOk) :
    (s.register id pa).1.MemOk := by
  grind [State.register, State.devWrite_memOk, State.updDie_memOk]

theorem State.endWait_memOk (s : State) (d : BitVec 6) (code : BitVec 2) (hok : s.MemOk) :
    (s.endWait d code).MemOk := by
  grind [State.endWait, State.updCx_memOk, State.putS_memOk]

theorem State.spoilWait_memOk (s : State) (d : BitVec 6) (hok : s.MemOk) :
    (s.spoilWait d).MemOk := by
  grind [State.spoilWait, State.updCx_memOk]

theorem State.firstWait_memOk (s : State) (d : BitVec 6) (r : BitVec 4) (limit : Option W64) (g0 : Option (BitVec 32)) (hok : s.MemOk) :
    (s.firstWait d r limit g0).MemOk := by
  grind [State.firstWait, State.barrierAt_memOk, State.load_memOk, State.refuse_memOk, State.commitEarly_memOk,
    State.recordUnits_memOk, State.spoilWait_memOk, State.endWait_memOk, State.register_memOk,
    State.updCx_memOk, State.block_memOk]

theorem State.barrierWait_memOk (s : State) (d : BitVec 6) (r : BitVec 4) (limit : Option W64) (hok : s.MemOk) :
    (s.barrierWait d r limit).MemOk := by
  grind [State.barrierWait, State.firstWait_memOk, State.spoilWait_memOk, State.endWait_memOk, State.block_memOk]

theorem execBwait_memOk (g : BitVec 4) (d : BitVec 6) (r : BitVec 4) (s : State) (hok : s.MemOk) :
    ∀ out, execBwait g d r s = .next out → out.MemOk := by
  grind [execBwait, State.slotOp_memOk, State.barrierWait_memOk]

theorem execBtwait_memOk (g : BitVec 4) (d : BitVec 6) (r : BitVec 4) (b : BitVec 6) (s : State) (hok : s.MemOk) :
    ∀ out, execBtwait g d r b s = .next out → out.MemOk := by
  grind [execBtwait, State.slotOp_memOk, State.barrierWait_memOk]

theorem execBarrierArrival_memOk (pa : BitVec 52) (s : State) (hok : s.MemOk) :
    ∀ out, execBarrierArrival pa s = .next out → out.MemOk := by
  grind [execBarrierArrival, State.arrival_memOk]

theorem State.lookWaits_memOk (s : State) (id : CtxId) (which : Wait → Bool) (hok : s.MemOk) :
    (s.lookWaits id which).MemOk := by
  grind [State.lookWaits, State.recordUnits_memOk, State.updCtx_memOk, State.wake_memOk, foldl_fst_memOk, foldl_memOk]

theorem execBarrierPoll_memOk (id : CtxId) (s : State) (hok : s.MemOk) :
    ∀ out, execBarrierPoll id s = .next out → out.MemOk := by
  grind [execBarrierPoll, State.lookWaits_memOk]

theorem execBtwaitTimeout_memOk (id : CtxId) (s : State) (hok : s.MemOk) :
    ∀ out, execBtwaitTimeout id s = .next out → out.MemOk := by
  grind [execBtwaitTimeout, State.unregister_memOk, State.lookWaits_memOk]

theorem execRegionCommit_memOk (id : CtxId) (s : State) (hok : s.MemOk) :
    ∀ out, execRegionCommit id s = .next out → out.MemOk := by
  grind [execRegionCommit, State.updCtx_memOk, State.mark_memOk]

end Sys2Proof.Machine
end

