-- ==== Sys2Proof/Laws/KeepPublish.lean ====
section
/-! SUPPORT. Every operation of Machine/Publish.lean keeps the memories in their one form. -/

namespace Sys2Proof.Machine

theorem State.pubStep_memOk (s : State) (hd : Fin 8) (idx : Nat) (kind : Nat) (latched : BitVec 32) (die : Fin 8) (core : Nat) (hok : s.MemOk) :
    (s.pubStep hd idx kind latched die core).1.MemOk := by
  grind [State.pubStep, State.recordUnits_memOk, State.devWrite_memOk, State.updDie_memOk]

theorem State.publish_memOk (s : State) (hd : Fin 8) (idx : Nat) (die : Fin 8) (core : Nat) (hok : s.MemOk) :
    (s.publish hd idx die core).1.MemOk := by
  grind [State.publish, State.recordUnits_memOk, State.pubStep_memOk]

theorem execPub_memOk (g : BitVec 4) (d : BitVec 6) (r : BitVec 4) (s : State) (hok : s.MemOk) :
    ∀ out, execPub g d r s = .next out → out.MemOk := by
  grind [execPub, State.slotOp_memOk, State.refuse_memOk, State.updCx_memOk, State.findLeaf_memOk,
    State.flushHeld_memOk, State.publish_memOk, State.MemOk]

theorem State.latePublishes_memOk (s : State) (id : CtxId) (hok : s.MemOk) :
    (s.latePublishes id).MemOk := by
  grind [State.latePublishes, State.publish_memOk, State.updCtx_memOk, State.wake_memOk, foldl_fst_memOk, foldl_memOk]

theorem execPubPerform_memOk (d : Fin 8) (idx : BitVec 12) (kind : Fin 4) (latched : BitVec 32) (s : State) (hok : s.MemOk) :
    ∀ out, execPubPerform d idx kind latched s = .next out → out.MemOk := by
  grind [execPubPerform, State.pubStep_memOk]

theorem execPbtabWrite_memOk (d : Fin 8) (val : BitVec 64) (s : State) (hok : s.MemOk) :
    ∀ out, execPbtabWrite d val s = .next out → out.MemOk := by
  grind [execPbtabWrite, State.updDie_memOk]

theorem execPbcfgWrite_memOk (d : Fin 8) (val : BitVec 64) (s : State) (hok : s.MemOk) :
    ∀ out, execPbcfgWrite d val s = .next out → out.MemOk := by
  grind [execPbcfgWrite, State.updDie_memOk]

end Sys2Proof.Machine
end

