-- ==== Sys2Proof/Laws/KeepVector.lean ====
section
/-! SUPPORT. Every operation of Machine/Vector.lean keeps the memories in their one form. -/

namespace Sys2Proof.Machine

theorem State.putT_memOk (s : State) (i : Instr) (n : BitVec 4) (x : Cells) (hok : s.MemOk) :
    (s.putT i n x).MemOk := by
  grind [State.putT, State.deliver_memOk]

theorem State.vecOp_memOk (s : State) (g : BitVec 4) (i : Instr) (body : State → State) (hok : s.MemOk) (h_body : ∀ u : State, u.MemOk → (body u).MemOk) :
    ∀ out, s.vecOp g i body = .next out → out.MemOk := by
  grind [State.vecOp, State.slotOp_memOk, State.configured_memOk]

theorem State.elementwise_memOk (s : State) (i : Instr) (d : BitVec 4) (m : Mode) (mask : Option (BitVec 4096))
    (f : Nat → Nat → Res) (hok : s.MemOk) :
    (s.elementwise i d m mask f).MemOk := by
  grind [State.elementwise, State.putT_memOk, State.deliver_memOk, foldl_fst_memOk, foldl_memOk]

theorem State.moveEach_memOk (s : State) (i : Instr) (d : BitVec 4) (mask : Option (BitVec 4096)) (f : Nat → Nat → Nat) (hok : s.MemOk) :
    (s.moveEach i d mask f).MemOk := by
  grind [State.moveEach, State.putT_memOk, foldl_fst_memOk, foldl_memOk]

theorem State.binary_memOk (s : State) (i : Instr) (d a b c : BitVec 4) (r : BitVec 3) (s1 m : BitVec 1) (ia ib : Val)
    (f : RMode → Val → Val → Res) (hok : s.MemOk) :
    (s.binary i d a b c r s1 m ia ib f).MemOk := by
  grind [State.binary, State.elementwise_memOk]

theorem State.unary_memOk (s : State) (i : Instr) (d a c : BitVec 4) (r : BitVec 3) (s1 m : BitVec 1) (f : Val → Res) (hok : s.MemOk) :
    (s.unary i d a c r s1 m f).MemOk := by
  grind [State.unary, State.elementwise_memOk]

theorem State.fused_memOk (s : State) (i : Instr) (d a b c : BitVec 4) (r : BitVec 3) (s1 : BitVec 1) (sign : Val → Val) (hok : s.MemOk) :
    (s.fused i d a b c r s1 sign).MemOk := by
  grind [State.fused, State.elementwise_memOk]

theorem execTadd_memOk (g d a b c : BitVec 4) (r : BitVec 3) (s1 m : BitVec 1) (s : State) (hok : s.MemOk) :
    ∀ out, execTadd g d a b c r s1 m s = .next out → out.MemOk := by
  grind [execTadd, State.vecOp_memOk, State.binary_memOk]

theorem execTsub_memOk (g d a b c : BitVec 4) (r : BitVec 3) (s1 m : BitVec 1) (s : State) (hok : s.MemOk) :
    ∀ out, execTsub g d a b c r s1 m s = .next out → out.MemOk := by
  grind [execTsub, State.vecOp_memOk, State.binary_memOk]

theorem execTmul_memOk (g d a b c : BitVec 4) (r : BitVec 3) (s1 m : BitVec 1) (s : State) (hok : s.MemOk) :
    ∀ out, execTmul g d a b c r s1 m s = .next out → out.MemOk := by
  grind [execTmul, State.vecOp_memOk, State.binary_memOk]

theorem execTmin_memOk (g d a b c : BitVec 4) (r : BitVec 3) (s1 m : BitVec 1) (s : State) (hok : s.MemOk) :
    ∀ out, execTmin g d a b c r s1 m s = .next out → out.MemOk := by
  grind [execTmin, State.vecOp_memOk, State.binary_memOk]

theorem execTmax_memOk (g d a b c : BitVec 4) (r : BitVec 3) (s1 m : BitVec 1) (s : State) (hok : s.MemOk) :
    ∀ out, execTmax g d a b c r s1 m s = .next out → out.MemOk := by
  grind [execTmax, State.vecOp_memOk, State.binary_memOk]

theorem execTfma_memOk (g d a b c : BitVec 4) (r : BitVec 3) (s1 : BitVec 1) (s : State) (hok : s.MemOk) :
    ∀ out, execTfma g d a b c r s1 s = .next out → out.MemOk := by
  grind [execTfma, State.vecOp_memOk, State.fused_memOk]

theorem execTfms_memOk (g d a b c : BitVec 4) (r : BitVec 3) (s1 : BitVec 1) (s : State) (hok : s.MemOk) :
    ∀ out, execTfms g d a b c r s1 s = .next out → out.MemOk := by
  grind [execTfms, State.vecOp_memOk, State.fused_memOk]

theorem execTabs_memOk (g d a c : BitVec 4) (r : BitVec 3) (s1 m : BitVec 1) (s : State) (hok : s.MemOk) :
    ∀ out, execTabs g d a c r s1 m s = .next out → out.MemOk := by
  grind [execTabs, State.vecOp_memOk, State.unary_memOk]

theorem execTneg_memOk (g d a c : BitVec 4) (r : BitVec 3) (s1 m : BitVec 1) (s : State) (hok : s.MemOk) :
    ∀ out, execTneg g d a c r s1 m s = .next out → out.MemOk := by
  grind [execTneg, State.vecOp_memOk, State.unary_memOk]

theorem execTcvt_memOk (g d a c : BitVec 4) (r : BitVec 3) (s1 m : BitVec 1) (s : State) (hok : s.MemOk) :
    ∀ out, execTcvt g d a c r s1 m s = .next out → out.MemOk := by
  grind [execTcvt, State.vecOp_memOk, State.unary_memOk]

theorem execTbcast_memOk (g d a c : BitVec 4) (r : BitVec 3) (s1 m : BitVec 1) (s : State) (hok : s.MemOk) :
    ∀ out, execTbcast g d a c r s1 m s = .next out → out.MemOk := by
  grind [execTbcast, State.vecOp_memOk, State.unary_memOk]

theorem execTcpy_memOk (g d a c : BitVec 4) (m : BitVec 1) (s : State) (hok : s.MemOk) :
    ∀ out, execTcpy g d a c m s = .next out → out.MemOk := by
  grind [execTcpy, State.vecOp_memOk, State.moveEach_memOk]

theorem execTsel_memOk (g d a b c : BitVec 4) (s : State) (hok : s.MemOk) :
    ∀ out, execTsel g d a b c s = .next out → out.MemOk := by
  grind [execTsel, State.vecOp_memOk, State.moveEach_memOk]

theorem execTscale_memOk (g d a b c : BitVec 4) (r : BitVec 3) (s1 m : BitVec 1) (s : State) (hok : s.MemOk) :
    ∀ out, execTscale g d a b c r s1 m s = .next out → out.MemOk := by
  grind [execTscale, State.vecOp_memOk, State.binary_memOk]

theorem execTclamp_memOk (g d a b c : BitVec 4) (r : BitVec 3) (s1 : BitVec 1) (s : State) (hok : s.MemOk) :
    ∀ out, execTclamp g d a b c r s1 s = .next out → out.MemOk := by
  grind [execTclamp, State.vecOp_memOk, State.elementwise_memOk]

theorem execTcmp_memOk (g : BitVec 4) (d : BitVec 3) (a b c : BitVec 4) (k : BitVec 3) (m : BitVec 1) (s : State) (hok : s.MemOk) :
    ∀ out, execTcmp g d a b c k m s = .next out → out.MemOk := by
  grind [execTcmp, State.vecOp_memOk, State.deliver_memOk, foldl_fst_memOk, foldl_memOk]

end Sys2Proof.Machine
end

