-- ==== Sys2Proof/Laws/KeepVectorMoves.lean ====
section
/-! SUPPORT. Every operation of Machine/VectorMoves.lean keeps the memories in their one form. -/

namespace Sys2Proof.Machine

theorem State.integer_memOk (s : State) (i : Instr) (d a b : BitVec 4) (sat u : BitVec 1) (k : BitVec 3) (m : BitVec 1) (ib : Int)
    (f : Nat → Int → Int → Int) (hok : s.MemOk) :
    (s.integer i d a b sat u k m ib f).MemOk := by
  grind [State.integer, State.putT_memOk, foldl_fst_memOk, foldl_memOk]

theorem execTiadd_memOk (g d a b : BitVec 4) (s1 u : BitVec 1) (k : BitVec 3) (m : BitVec 1) (s : State) (hok : s.MemOk) :
    ∀ out, execTiadd g d a b s1 u k m s = .next out → out.MemOk := by
  grind [execTiadd, State.vecOp_memOk, State.integer_memOk]

theorem execTisub_memOk (g d a b : BitVec 4) (s1 u : BitVec 1) (k : BitVec 3) (m : BitVec 1) (s : State) (hok : s.MemOk) :
    ∀ out, execTisub g d a b s1 u k m s = .next out → out.MemOk := by
  grind [execTisub, State.vecOp_memOk, State.integer_memOk]

theorem execTimul_memOk (g d a b : BitVec 4) (s1 u : BitVec 1) (k : BitVec 3) (m : BitVec 1) (s : State) (hok : s.MemOk) :
    ∀ out, execTimul g d a b s1 u k m s = .next out → out.MemOk := by
  grind [execTimul, State.vecOp_memOk, State.integer_memOk]

theorem execTand_memOk (g d a b : BitVec 4) (u : BitVec 1) (k : BitVec 3) (m : BitVec 1) (s : State) (hok : s.MemOk) :
    ∀ out, execTand g d a b u k m s = .next out → out.MemOk := by
  grind [execTand, State.vecOp_memOk, State.integer_memOk]

theorem execTor_memOk (g d a b : BitVec 4) (u : BitVec 1) (k : BitVec 3) (m : BitVec 1) (s : State) (hok : s.MemOk) :
    ∀ out, execTor g d a b u k m s = .next out → out.MemOk := by
  grind [execTor, State.vecOp_memOk, State.integer_memOk]

theorem execTxor_memOk (g d a b : BitVec 4) (u : BitVec 1) (k : BitVec 3) (m : BitVec 1) (s : State) (hok : s.MemOk) :
    ∀ out, execTxor g d a b u k m s = .next out → out.MemOk := by
  grind [execTxor, State.vecOp_memOk, State.integer_memOk]

theorem execTshl_memOk (g d a b : BitVec 4) (u : BitVec 1) (k : BitVec 3) (m : BitVec 1) (s : State) (hok : s.MemOk) :
    ∀ out, execTshl g d a b u k m s = .next out → out.MemOk := by
  grind [execTshl, State.vecOp_memOk, State.integer_memOk]

theorem execTshr_memOk (g d a b : BitVec 4) (u : BitVec 1) (k : BitVec 3) (m : BitVec 1) (s : State) (hok : s.MemOk) :
    ∀ out, execTshr g d a b u k m s = .next out → out.MemOk := by
  grind [execTshr, State.vecOp_memOk, State.integer_memOk]

theorem State.putLine_memOk (s : State) (i : Instr) (v : BitVec 5) (sz : Nat) (xs : List Nat) (hok : s.MemOk) :
    (s.putLine i v sz xs).MemOk := by
  grind [State.putLine, State.deliver_memOk]

theorem execTrget_memOk (g t : BitVec 4) (v : BitVec 5) (s1 i : BitVec 6) (s : State) (hok : s.MemOk) :
    ∀ out, execTrget g t v s1 i s = .next out → out.MemOk := by
  grind [execTrget, State.vecOp_memOk, State.putLine_memOk]

theorem execTcget_memOk (g t : BitVec 4) (v : BitVec 5) (s1 i : BitVec 6) (s : State) (hok : s.MemOk) :
    ∀ out, execTcget g t v s1 i s = .next out → out.MemOk := by
  grind [execTcget, State.vecOp_memOk, State.putLine_memOk]

theorem execTrput_memOk (g t : BitVec 4) (v : BitVec 5) (s1 i : BitVec 6) (s : State) (hok : s.MemOk) :
    ∀ out, execTrput g t v s1 i s = .next out → out.MemOk := by
  grind [execTrput, State.vecOp_memOk, State.putT_memOk, foldl_fst_memOk, foldl_memOk]

theorem execTcput_memOk (g t : BitVec 4) (v : BitVec 5) (s1 i : BitVec 6) (s : State) (hok : s.MemOk) :
    ∀ out, execTcput g t v s1 i s = .next out → out.MemOk := by
  grind [execTcput, State.vecOp_memOk, State.putT_memOk, foldl_fst_memOk, foldl_memOk]

theorem execTtr_memOk (g t a : BitVec 4) (s : State) (hok : s.MemOk) :
    ∀ out, execTtr g t a s = .next out → out.MemOk := by
  grind [execTtr, State.vecOp_memOk, State.moveEach_memOk]

theorem execTbrow_memOk (g t : BitVec 4) (v : BitVec 5) (s : State) (hok : s.MemOk) :
    ∀ out, execTbrow g t v s = .next out → out.MemOk := by
  grind [execTbrow, State.vecOp_memOk, State.moveEach_memOk]

theorem execTbcol_memOk (g t : BitVec 4) (v : BitVec 5) (s : State) (hok : s.MemOk) :
    ∀ out, execTbcol g t v s = .next out → out.MemOk := by
  grind [execTbcol, State.vecOp_memOk, State.moveEach_memOk]

theorem execTzero_memOk (g t : BitVec 4) (s1 : BitVec 6) (s : State) (hok : s.MemOk) :
    ∀ out, execTzero g t s1 s = .next out → out.MemOk := by
  grind [execTzero, State.vecOp_memOk, State.moveEach_memOk]

theorem State.putK_memOk (s : State) (d : BitVec 3) (x : BitVec 4096) (hok : s.MemOk) :
    (s.putK d x).MemOk := by
  grind [State.putK, State.deliver_memOk]

theorem execKand_memOk (g : BitVec 4) (d a b : BitVec 3) (s : State) (hok : s.MemOk) :
    ∀ out, execKand g d a b s = .next out → out.MemOk := by
  grind [execKand, State.vecOp_memOk, State.putK_memOk]

theorem execKor_memOk (g : BitVec 4) (d a b : BitVec 3) (s : State) (hok : s.MemOk) :
    ∀ out, execKor g d a b s = .next out → out.MemOk := by
  grind [execKor, State.vecOp_memOk, State.putK_memOk]

theorem execKxor_memOk (g : BitVec 4) (d a b : BitVec 3) (s : State) (hok : s.MemOk) :
    ∀ out, execKxor g d a b s = .next out → out.MemOk := by
  grind [execKxor, State.vecOp_memOk, State.putK_memOk]

theorem execKnot_memOk (g : BitVec 4) (d a : BitVec 3) (s : State) (hok : s.MemOk) :
    ∀ out, execKnot g d a s = .next out → out.MemOk := by
  grind [execKnot, State.vecOp_memOk, State.putK_memOk]

theorem execKcnt_memOk (g : BitVec 4) (a : BitVec 3) (d : BitVec 6) (s : State) (hok : s.MemOk) :
    ∀ out, execKcnt g a d s = .next out → out.MemOk := by
  grind [execKcnt, State.vecOp_memOk, State.putS_memOk]

end Sys2Proof.Machine
end

