-- ==== Sys2Proof/Laws/KeepVectorFold.lean ====
section
/-! SUPPORT. Every operation of Machine/VectorFold.lean keeps the memories in their one form. -/

namespace Sys2Proof.Machine

theorem State.reduceInto_memOk (s : State) (i : Instr) (d a : BitVec 4) (km : BitVec 3) (o : BitVec 4) (r : BitVec 3) (s1 m : BitVec 1)
    (targets : Tile → List (Nat × Nat)) (line : Nat × Nat → List (Nat × Nat × Nat)) (hok : s.MemOk) :
    (s.reduceInto i d a km o r s1 m targets line).MemOk := by
  grind [State.reduceInto, State.putT_memOk, foldl_fst_memOk, foldl_memOk]

theorem execTredr_memOk (g d a : BitVec 4) (k : BitVec 3) (o : BitVec 4) (r : BitVec 3) (s1 m : BitVec 1) (s : State) (hok : s.MemOk) :
    ∀ out, execTredr g d a k o r s1 m s = .next out → out.MemOk := by
  grind [execTredr, State.vecOp_memOk, State.reduceInto_memOk]

theorem execTredc_memOk (g d a : BitVec 4) (k : BitVec 3) (o : BitVec 4) (r : BitVec 3) (s1 m : BitVec 1) (s : State) (hok : s.MemOk) :
    ∀ out, execTredc g d a k o r s1 m s = .next out → out.MemOk := by
  grind [execTredc, State.vecOp_memOk, State.reduceInto_memOk]

theorem execTred_memOk (g d a : BitVec 4) (k : BitVec 3) (o : BitVec 4) (r : BitVec 3) (s1 m : BitVec 1) (s : State) (hok : s.MemOk) :
    ∀ out, execTred g d a k o r s1 m s = .next out → out.MemOk := by
  grind [execTred, State.vecOp_memOk, State.putT_memOk]

theorem execTscan_memOk (g d a : BitVec 4) (k : BitVec 3) (o : BitVec 4) (r : BitVec 3) (s1 m : BitVec 1) (s : State) (hok : s.MemOk) :
    ∀ out, execTscan g d a k o r s1 m s = .next out → out.MemOk := by
  grind [execTscan, State.vecOp_memOk, State.putT_memOk, foldl_fst_memOk, foldl_memOk]

theorem State.dot_memOk (s : State) (i : Instr) (d a b : BitVec 4) (r : BitVec 3) (s1 x : BitVec 1) (refused : Bool)
    (terms : Nat → Nat → Option (List (Nat × Val × Val))) (hok : s.MemOk) :
    (s.dot i d a b r s1 x refused terms).MemOk := by
  grind [State.dot, State.integer_memOk, State.putT_memOk, foldl_fst_memOk, foldl_memOk]

theorem execTdot_memOk (g d a b : BitVec 4) (r : BitVec 3) (s1 x : BitVec 1) (s : State) (hok : s.MemOk) :
    ∀ out, execTdot g d a b r s1 x s = .next out → out.MemOk := by
  grind [execTdot, State.vecOp_memOk, State.dot_memOk]

theorem execTdots_memOk (g d a b c : BitVec 4) (r : BitVec 3) (s1 x : BitVec 1) (s : State) (hok : s.MemOk) :
    ∀ out, execTdots g d a b c r s1 x s = .next out → out.MemOk := by
  grind [execTdots, State.vecOp_memOk, State.dot_memOk]

theorem execTsprs_memOk (g d a b : BitVec 4) (n : BitVec 2) (s : State) (hok : s.MemOk) :
    ∀ out, execTsprs g d a b n s = .next out → out.MemOk := by
  grind [execTsprs, State.vecOp_memOk, State.putT_memOk, foldl_fst_memOk, foldl_memOk]

end Sys2Proof.Machine
end

