-- ==== Sys2Proof/Laws/KeepVectorFunc.lean ====
section
/-! SUPPORT. Every operation of Machine/VectorFunc.lean keeps the memories in their one form. -/

namespace Sys2Proof.Machine

theorem State.approx_memOk (s : State) (i : Instr) (d a c : BitVec 4) (r : BitVec 3) (s1 m : BitVec 1)
    (f : (Val → Nat × Flags) → Val → Nat × Flags) (hok : s.MemOk) :
    (s.approx i d a c r s1 m f).MemOk := by
  grind [State.approx, State.putT_memOk, foldl_fst_memOk, foldl_memOk]

theorem execTrcpa_memOk (g d a c : BitVec 4) (r : BitVec 3) (s1 m : BitVec 1) (s : State) (hok : s.MemOk) :
    ∀ out, execTrcpa g d a c r s1 m s = .next out → out.MemOk := by
  grind [execTrcpa, State.vecOp_memOk, State.approx_memOk]

theorem execTrsqa_memOk (g d a c : BitVec 4) (r : BitVec 3) (s1 m : BitVec 1) (s : State) (hok : s.MemOk) :
    ∀ out, execTrsqa g d a c r s1 m s = .next out → out.MemOk := by
  grind [execTrsqa, State.vecOp_memOk, State.approx_memOk]

theorem execTexp2_memOk (g d a c : BitVec 4) (r : BitVec 3) (s1 m : BitVec 1) (s : State) (hok : s.MemOk) :
    ∀ out, execTexp2 g d a c r s1 m s = .next out → out.MemOk := by
  grind [execTexp2, State.vecOp_memOk, State.approx_memOk]

theorem execTlog2_memOk (g d a c : BitVec 4) (r : BitVec 3) (s1 m : BitVec 1) (s : State) (hok : s.MemOk) :
    ∀ out, execTlog2 g d a c r s1 m s = .next out → out.MemOk := by
  grind [execTlog2, State.vecOp_memOk, State.approx_memOk]

theorem execTtanh_memOk (g d a c : BitVec 4) (r : BitVec 3) (s1 m : BitVec 1) (s : State) (hok : s.MemOk) :
    ∀ out, execTtanh g d a c r s1 m s = .next out → out.MemOk := by
  grind [execTtanh, State.vecOp_memOk, State.approx_memOk]

theorem execTsigm_memOk (g d a c : BitVec 4) (r : BitVec 3) (s1 m : BitVec 1) (s : State) (hok : s.MemOk) :
    ∀ out, execTsigm g d a c r s1 m s = .next out → out.MemOk := by
  grind [execTsigm, State.vecOp_memOk, State.approx_memOk]

theorem execTrcpr_memOk (g d a b c : BitVec 4) (r : BitVec 3) (s1 m : BitVec 1) (s : State) (hok : s.MemOk) :
    ∀ out, execTrcpr g d a b c r s1 m s = .next out → out.MemOk := by
  grind [execTrcpr, State.vecOp_memOk, State.binary_memOk]

theorem execTrsqr_memOk (g d a b c : BitVec 4) (r : BitVec 3) (s1 m : BitVec 1) (s : State) (hok : s.MemOk) :
    ∀ out, execTrsqr g d a b c r s1 m s = .next out → out.MemOk := by
  grind [execTrsqr, State.vecOp_memOk, State.binary_memOk]

theorem execTwelf_memOk (g d a c : BitVec 4) (r : BitVec 3) (s1 m : BitVec 1) (s : State) (hok : s.MemOk) :
    ∀ out, execTwelf g d a c r s1 m s = .next out → out.MemOk := by
  grind [execTwelf, State.vecOp_memOk, State.putT_memOk, foldl_fst_memOk, foldl_memOk]

theorem execTwmrg_memOk (g d a b c : BitVec 4) (r : BitVec 3) (s1 m : BitVec 1) (s : State) (hok : s.MemOk) :
    ∀ out, execTwmrg g d a b c r s1 m s = .next out → out.MemOk := by
  grind [execTwmrg, State.vecOp_memOk, State.putT_memOk, foldl_fst_memOk, foldl_memOk]

end Sys2Proof.Machine
end

