-- ==== Sys2Proof/Laws/KeepPhotonic.lean ====
section
/-! SUPPORT. Every operation of Machine/Photonic.lean keeps the memories in their one form. -/

namespace Sys2Proof.Machine

theorem State.integrate_memOk (s : State) (id : CtxId) (geom : W64) (g cycle : Nat) (w : Option Weights) (dead : Bool) (hok : s.MemOk) :
    (s.integrate id geom g cycle w dead).1.MemOk := by
  unfold State.integrate
  try dsimp only
  all_goals grind [State.updCore_memOk, State.MemOk, foldl_fst_memOk, foldl_memOk]

end Sys2Proof.Machine
end

