-- ==== Sys2Proof/Laws/KeepStream.lean ====
section
/-! SUPPORT. Every operation of Machine/Stream.lean keeps the memories in their one form. -/

namespace Sys2Proof.Machine

theorem State.endStream_memOk (s : State) (id : CtxId) (o : StreamOp) (status : BitVec 3) (hok : s.MemOk) :
    (s.endStream id o status).MemOk := by
  grind [State.endStream, State.updCtx_memOk, State.lateUnboards_memOk, State.wake_memOk]

theorem State.startDot_memOk (s : State) (a b : BitVec 3) (s1 : BitVec 6) (t : BitVec 4) (accF srck dstF : BitVec 1) (n : Nat) (hok : s.MemOk) :
    (s.startDot a b s1 t accF srck dstF n).MemOk := by
  grind [State.startDot, State.block_memOk, State.trapI_memOk, State.updCx_memOk, State.commitEarly_memOk]

theorem execXdot_memOk (g : BitVec 4) (a b : BitVec 3) (s1 : BitVec 6) (t : BitVec 4) (c k d : BitVec 1) (s : State) (hok : s.MemOk) :
    ∀ out, execXdot g a b s1 t c k d s = .next out → out.MemOk := by
  grind [execXdot, State.slotOp_memOk, State.startDot_memOk]

theorem execXdots_memOk (g : BitVec 4) (a b : BitVec 3) (s1 : BitVec 6) (t : BitVec 4) (c k d : BitVec 1) (n : BitVec 2) (s : State) (hok : s.MemOk) :
    ∀ out, execXdots g a b s1 t c k d n s = .next out → out.MemOk := by
  grind [execXdots, State.slotOp_memOk, State.startDot_memOk]

theorem State.engineRead_memOk (s : State) (id : CtxId) (src : Nat) (ps : List Part) (hok : s.MemOk) :
    (s.engineRead id src ps).1.MemOk := by
  grind [State.engineRead, State.recordUnits_memOk, State.hostArrive_memOk, State.updCtx_memOk,
    State.recordLoop_memOk, foldl_fst_memOk, foldl_memOk]

theorem State.weightBytes_memOk (s : State) (id : CtxId) (o : StreamOp) (n : Nat) (hok : s.MemOk) :
    (s.weightBytes id o n).1.MemOk := by
  grind [State.weightBytes, State.recordUnits_memOk, State.checkAccess_memOk, State.noteFault_memOk,
    State.engineRead_memOk]

theorem State.accumParts_memOk (s : State) (id : CtxId) (o : StreamOp) (va : W64) (hok : s.MemOk) :
    (s.accumParts id o va).1.MemOk := by
  grind [State.accumParts, State.checkAccess_memOk, State.noteFault_memOk]

theorem State.accumFault_memOk (s : State) (id : CtxId) (o : StreamOp) (hok : s.MemOk) :
    (s.accumFault id o).1.MemOk := by
  grind [State.accumFault, State.accumParts_memOk]

theorem State.openWindow_memOk (s : State) (id : CtxId) (o : StreamOp) (n : Nat) (hok : s.MemOk) :
    (s.openWindow id o n).1.MemOk := by
  grind [State.openWindow, State.weightBytes_memOk, State.accumFault_memOk, State.integrate_memOk]

theorem execWindowFirstSymbol_memOk (id : CtxId) (s : State) (hok : s.MemOk) :
    ∀ out, execWindowFirstSymbol id s = .next out → out.MemOk := by
  grind [execWindowFirstSymbol, State.openWindow_memOk, State.updCtx_memOk]

theorem State.reportWindow_memOk (s : State) (id : CtxId) (rep : BitVec 32) (hok : s.MemOk) :
    (s.reportWindow id rep).MemOk := by
  unfold State.reportWindow
  try dsimp only
  repeat' split
  all_goals grind [State.updCtx_memOk, State.wake_memOk, foldl_fst_memOk, foldl_memOk]

theorem State.firstSums_memOk (s : State) (id : CtxId) (o : StreamOp) (ps : List Part) (hok : s.MemOk) :
    (s.firstSums id o ps).1.MemOk := by
  grind [State.firstSums, State.engineRead_memOk, foldl_fst_memOk, foldl_memOk]

theorem State.writeSums_memOk (s : State) (id : CtxId) (o : StreamOp) (ps : List Part) (hok : s.MemOk) :
    (s.writeSums id o ps).MemOk := by
  grind [State.writeSums, State.updCtx_memOk, State.setDirtyLeaves_memOk, State.devWritePoison_memOk,
    State.performRun_memOk, foldl_fst_memOk, foldl_memOk]

theorem State.faultStream_memOk (s : State) (id : CtxId) (o : StreamOp) (t : TrapRec) (hok : s.MemOk) :
    (s.faultStream id o t).MemOk := by
  grind [State.faultStream, State.updCtx_memOk, State.lateUnboards_memOk, State.wake_memOk]

theorem State.resultParts_memOk (s : State) (id : CtxId) (o : StreamOp) (hok : s.MemOk) :
    (s.resultParts id o).1.MemOk := by
  grind [State.resultParts, State.accumParts_memOk]

theorem State.windowResult_memOk (s : State) (id : CtxId) (o : StreamOp) (ps : List Part) (vals : List (BitVec 32)) (rep : BitVec 32)
    (rest : List WindowOut) (hok : s.MemOk) :
    (s.windowResult id o ps vals rep rest).MemOk := by
  grind [State.windowResult, State.firstSums_memOk, State.writeSums_memOk, State.reportWindow_memOk,
    State.updCtx_memOk, State.endStream_memOk, State.lateUnboards_memOk, State.wake_memOk]

theorem State.missed_memOk (s : State) (d : Fin 8) (hok : s.MemOk) :
    (s.missed d).MemOk := by
  grind [State.missed, State.updDie_memOk]

theorem State.loseHold_memOk (s : State) (id : CtxId) (o : StreamOp) (hok : s.MemOk) :
    (s.loseHold id o).MemOk := by
  grind [State.loseHold, State.updCtx_memOk, State.lateUnboards_memOk, State.missed_memOk, State.wake_memOk,
    State.endStream_memOk]

theorem execWindowResult_memOk (id : CtxId) (s : State) (hok : s.MemOk) :
    ∀ out, execWindowResult id s = .next out → out.MemOk := by
  grind [execWindowResult, State.resultParts_memOk, State.faultStream_memOk, State.windowResult_memOk,
    State.loseHold_memOk]

theorem execXbcast_memOk (g : BitVec 4) (a b : BitVec 3) (s1 : BitVec 6) (t : BitVec 4) (s : State) (hok : s.MemOk) :
    ∀ out, execXbcast g a b s1 t s = .next out → out.MemOk := by
  grind [execXbcast, State.slotOp_memOk, State.block_memOk, State.trapI_memOk, State.updCx_memOk, State.updDie_memOk]

theorem execModulatorWindowStart_memOk (d : Fin 8) (s : State) (hok : s.MemOk) :
    ∀ out, execModulatorWindowStart d s = .next out → out.MemOk := by
  grind [execModulatorWindowStart, State.updDie_memOk, State.endStream_memOk, State.updCtx_memOk,
    foldl_fst_memOk, foldl_memOk]

theorem execXrep_memOk (g : BitVec 4) (s1 : BitVec 6) (w : BitVec 1) (s : State) (hok : s.MemOk) :
    ∀ out, execXrep g s1 w s = .next out → out.MemOk := by
  grind [execXrep, State.slotOp_memOk, State.updCx_memOk, State.putS_memOk, State.block_memOk]

theorem execXrange_memOk (g : BitVec 4) (a : BitVec 3) (s1 : BitVec 6) (s : State) (hok : s.MemOk) :
    ∀ out, execXrange g a s1 s = .next out → out.MemOk := by
  grind [execXrange, State.slotOp_memOk, State.putS_memOk]

theorem execXcal_memOk (g : BitVec 4) (s : State) (hok : s.MemOk) :
    ∀ out, execXcal g s = .next out → out.MemOk := by
  grind [execXcal, State.slotOp_memOk, State.block_memOk, State.updMyCore_memOk, State.updCx_memOk]

theorem execXcalComplete_memOk (d : Fin 8) (c : Fin 16) (ok : Bool) (temp : BitVec 10) (s : State) (hok : s.MemOk) :
    ∀ out, execXcalComplete d c ok temp s = .next out → out.MemOk := by
  grind [execXcalComplete, State.updCore_memOk, State.endStream_memOk, State.updCtx_memOk]

theorem execXdesk_memOk (g : BitVec 4) (l : BitVec 3) (s1 : BitVec 6) (s : State) (hok : s.MemOk) :
    ∀ out, execXdesk g l s1 s = .next out → out.MemOk := by
  grind [execXdesk, State.slotOp_memOk, State.updMyCore_memOk]

theorem execXwait_memOk (g : BitVec 4) (s1 : BitVec 6) (s : State) (hok : s.MemOk) :
    ∀ out, execXwait g s1 s = .next out → out.MemOk := by
  grind [execXwait, State.slotOp_memOk, State.block_memOk, State.updCx_memOk, State.putS_memOk]

theorem execXprog_memOk (g : BitVec 4) (s1 : BitVec 6) (s : State) (hok : s.MemOk) :
    ∀ out, execXprog g s1 s = .next out → out.MemOk := by
  grind [execXprog, State.slotOp_memOk, State.updCx_memOk]

theorem execXprogClear_memOk (g : BitVec 4) (s : State) (hok : s.MemOk) :
    ∀ out, execXprogClear g s = .next out → out.MemOk := by
  grind [execXprogClear, State.slotOp_memOk, State.updCx_memOk]

end Sys2Proof.Machine
end

