-- ==== Sys2Proof/Laws/KeepCaravan.lean ====
section
/-! SUPPORT. Every operation of Machine/Caravan.lean keeps the memories in their one form. -/

namespace Sys2Proof.Machine

theorem State.updSlot_memOk (s : State) (d k : Fin 8) (f : BSlot → BSlot) (hok : s.MemOk) :
    (s.updSlot d k f).MemOk := by
  exact hok

theorem State.slotDesc_memOk (s : State) (d k : Fin 8) (active shadow : Nat) (swap : Bool) (hok : s.MemOk) :
    (s.slotDesc d k active shadow swap).MemOk := by
  grind [State.slotDesc, State.devWrite_memOk, State.updSlot_memOk, State.updDie_memOk]

theorem State.grant_memOk (s : State) (id : CtxId) (k : Fin 8) (hok : s.MemOk) :
    (s.grant id k).MemOk := by
  grind [State.grant, State.updSlot_memOk]

theorem State.updQueue_memOk (s : State) (d : Fin 8) (q : Fin 64) (f : Queue → Queue) (hok : s.MemOk) :
    (s.updQueue d q f).MemOk := by
  exact hok

theorem State.setStage_memOk (s : State) (d : Fin 8) (q : Fin 64) (st : LaunchStage) (hok : s.MemOk) :
    (s.setStage d q st).MemOk := by
  grind [State.setStage, State.updQueue_memOk]

theorem State.holdLaunch_memOk (s : State) (d : Fin 8) (q : Fin 64) (seg : BitVec 16) (k : Option (Fin 8)) (hok : s.MemOk) :
    (s.holdLaunch d q seg k).MemOk := by
  unfold State.holdLaunch
  try dsimp only
  repeat' split
  all_goals grind [State.setStage_memOk, State.postEvent_memOk]

theorem State.closeLaunch_memOk (s : State) (d : Fin 8) (q : Fin 64) (hok : s.MemOk) :
    (s.closeLaunch d q).MemOk := by
  grind [State.closeLaunch, State.updQueue_memOk]

theorem State.endBadSeg_memOk (s : State) (d : Fin 8) (q : Fin 64) (seg : BitVec 16) (st : BitVec 3) (hok : s.MemOk) :
    (s.endBadSeg d q seg st).MemOk := by
  grind [State.endBadSeg, State.postEvent_memOk, State.closeLaunch_memOk]

theorem State.resolveLaunch_memOk (s : State) (d : Fin 8) (q : Fin 64) (l : Launch) (hok : s.MemOk) :
    (s.resolveLaunch d q l).MemOk := by
  grind [State.resolveLaunch, State.endBadSeg_memOk, State.holdLaunch_memOk, State.setStage_memOk,
    State.missed_memOk, State.updQueue_memOk]

theorem State.settleBoard_memOk (s : State) (id : CtxId) (seg : BitVec 16) (f : BoardWait → BoardWait) (hok : s.MemOk) :
    (s.settleBoard id seg f).MemOk := by
  grind [State.settleBoard, State.updCtx_memOk, State.wake_memOk]

theorem State.faultWaiting_memOk (s : State) (id : CtxId) (o : StreamOp) (hok : s.MemOk) :
    (s.faultWaiting id o).MemOk := by
  grind [State.faultWaiting, State.endStream_memOk, State.updCtx_memOk]

theorem State.boardSlot_memOk (s : State) (d k : Fin 8) (hok : s.MemOk) :
    (s.boardSlot d k).MemOk := by
  grind [State.boardSlot, State.slotDesc_memOk, State.updSlot_memOk, State.grant_memOk, State.settleBoard_memOk,
    State.missed_memOk, State.endStream_memOk, State.setStage_memOk, foldl_fst_memOk, foldl_memOk]

theorem State.faultSlot_memOk (s : State) (d k : Fin 8) (hok : s.MemOk) :
    (s.faultSlot d k).MemOk := by
  grind [State.faultSlot, State.updSlot_memOk, State.updDie_memOk, State.settleBoard_memOk,
    State.faultWaiting_memOk, State.holdLaunch_memOk, foldl_fst_memOk, foldl_memOk]

theorem State.settleSlot_memOk (s : State) (d k : Fin 8) (hok : s.MemOk) :
    (s.settleSlot d k).MemOk := by
  grind [State.settleSlot, State.faultSlot_memOk, State.boardSlot_memOk]

theorem State.setHw_memOk (s : State) (d : Fin 8) (e : Fin 4) (b : Bool) (hok : s.MemOk) :
    (s.setHw d e b).MemOk := by
  grind [State.setHw, State.updDie_memOk]

theorem State.startRepairs_memOk (s : State) (d : Fin 8) (hok : s.MemOk) :
    (s.startRepairs d).MemOk := by
  grind [State.startRepairs, State.updSlot_memOk, State.setHw_memOk, foldl_fst_memOk, foldl_memOk]

theorem State.stopRepair_memOk (s : State) (d k : Fin 8) (hok : s.MemOk) :
    (s.stopRepair d k).MemOk := by
  grind [State.stopRepair, State.updSlot_memOk, State.setHw_memOk]

theorem State.putTile_memOk (s : State) (d k : Fin 8) (i : Nat) (bs : List Byte) (hok : s.MemOk) :
    (s.putTile d k i bs).MemOk := by
  grind [State.putTile, State.devWrite_memOk]

theorem execTileRepairDone_memOk (d : Fin 8) (ok : Bool) (s : State) (hok : s.MemOk) :
    ∀ out, execTileRepairDone d ok s = .next out → out.MemOk := by
  grind [execTileRepairDone, State.startRepairs_memOk, State.stopRepair_memOk, State.recordUnits_memOk,
    State.updSlot_memOk, State.settleSlot_memOk, State.putTile_memOk, State.updDie_memOk]

theorem State.feedTile_memOk (s : State) (d : Fin 8) (i src : Nat) (hok : s.MemOk) :
    (s.feedTile d i src).1.MemOk := by
  grind [State.feedTile, State.recordUnits_memOk, State.updJoist_memOk, State.feedTile.fresh, State.MemOk]

theorem execRingTileArrival_memOk (d : Fin 8) (flips : Option (List (Nat × BitVec 8))) (s : State) (hok : s.MemOk) :
    ∀ out, execRingTileArrival d flips s = .next out → out.MemOk := by
  grind [execRingTileArrival, State.feedTile_memOk, State.updSlot_memOk, State.updJoist_memOk,
    State.putTile_memOk, State.settleSlot_memOk, State.startRepairs_memOk]

theorem State.fillSlot_memOk (s : State) (d k : Fin 8) (g : Segment) (hok : s.MemOk) :
    (s.fillSlot d k g).MemOk := by
  grind [State.fillSlot, State.slotDesc_memOk, State.stopRepair_memOk, State.updSlot_memOk, State.updDie_memOk]

theorem State.revoke_memOk (s : State) (d k : Fin 8) (hok : s.MemOk) :
    (s.revoke d k).MemOk := by
  grind [State.revoke, State.updSlot_memOk, State.updDie_memOk]

theorem State.endDwells_memOk (s : State) (hok : s.MemOk) :
    (s.endDwells).MemOk := by
  grind [State.endDwells, State.fillSlot_memOk, State.updJoist_memOk, foldl_fst_memOk, foldl_memOk]

theorem State.startSegment_memOk (s : State) (hok : s.MemOk) :
    (s.startSegment).MemOk := by
  grind [State.startSegment, State.updSlot_memOk, State.revoke_memOk, State.fillSlot_memOk,
    State.updJoist_memOk, State.endDwells_memOk, foldl_fst_memOk, foldl_memOk]

theorem State.govern_memOk (s : State) (hok : s.MemOk) :
    (s.govern).MemOk := by
  grind [State.govern, State.updJoist_memOk]

theorem State.resolveBoard_memOk (s : State) (id : CtxId) (seg : BitVec 16) (hok : s.MemOk) :
    (s.resolveBoard id seg).MemOk := by
  grind [State.resolveBoard, State.settleBoard_memOk, State.grant_memOk]

theorem State.resolveAgain_memOk (s : State) (hok : s.MemOk) :
    (s.resolveAgain).MemOk := by
  grind [State.resolveAgain, State.updCtx_memOk, State.resolveBoard_memOk, State.endStream_memOk,
    State.faultWaiting_memOk, State.resolveLaunch_memOk, foldl_fst_memOk, foldl_memOk]

theorem State.noteManifest_memOk (s : State) (base : Nat) (hok : s.MemOk) :
    (s.noteManifest base).MemOk := by
  grind [State.noteManifest, State.recordUnits_memOk]

theorem State.switchManifest_memOk (s : State) (hok : s.MemOk) :
    (s.switchManifest).MemOk := by
  grind [State.switchManifest, State.noteManifest_memOk, State.updJoist_memOk, State.postAll_memOk]

theorem State.lapBoundary_memOk (s : State) (hok : s.MemOk) :
    (s.lapBoundary).MemOk := by
  unfold State.lapBoundary
  try dsimp only
  repeat' split
  all_goals grind [State.updJoist_memOk, State.switchManifest_memOk, State.resolveAgain_memOk,
    State.startSegment_memOk]

theorem State.endSegment_memOk (s : State) (hok : s.MemOk) :
    (s.endSegment).MemOk := by
  grind [State.endSegment, State.updSlot_memOk, State.startRepairs_memOk, State.updJoist_memOk,
    State.settleSlot_memOk, foldl_fst_memOk, foldl_memOk]

theorem State.passSegment_memOk (s : State) (hok : s.MemOk) :
    (s.passSegment).MemOk := by
  grind [State.passSegment, State.endDwells_memOk, State.endSegment_memOk, State.govern_memOk,
    State.updJoist_memOk, State.startSegment_memOk, State.lapBoundary_memOk]

theorem execSegmentBoundary_memOk (s : State) (hok : s.MemOk) :
    ∀ out, execSegmentBoundary s = .next out → out.MemOk := by
  grind [execSegmentBoundary, State.passSegment_memOk]

theorem State.limitDwell_memOk (s : State) (d : Fin 8) (hok : s.MemOk) :
    (s.limitDwell d).MemOk := by
  grind [State.limitDwell, State.revoke_memOk, State.endDwells_memOk]

theorem execDwellLimit_memOk (d : Fin 8) (s : State) (hok : s.MemOk) :
    ∀ out, execDwellLimit d s = .next out → out.MemOk := by
  grind [execDwellLimit, State.limitDwell_memOk]

theorem State.boardView_memOk (s : State) (d : Fin 8) (hok : s.MemOk) :
    (s.boardView d).MemOk := by
  grind [State.boardView, State.passSegment_memOk, State.limitDwell_memOk]

theorem State.ringStart_memOk (s : State) (hok : s.MemOk) :
    (s.ringStart).MemOk := by
  grind [State.ringStart, State.noteManifest_memOk, State.updJoist_memOk, State.startSegment_memOk]

theorem State.rgovWrite_memOk (s : State) (v : W64) (hok : s.MemOk) :
    (s.rgovWrite v).MemOk := by
  grind [State.rgovWrite, State.updJoist_memOk, State.ringStart_memOk]

theorem execRingStart_memOk (val : BitVec 64) (s : State) (hok : s.MemOk) :
    ∀ out, execRingStart val s = .next out → out.MemOk := by
  grind [execRingStart, State.rgovWrite_memOk]

theorem execRingStop_memOk (val : BitVec 64) (s : State) (hok : s.MemOk) :
    ∀ out, execRingStop val s = .next out → out.MemOk := by
  grind [execRingStop, State.rgovWrite_memOk]

theorem State.rmanWrite_memOk (s : State) (v : W64) (hok : s.MemOk) :
    (s.rmanWrite v).MemOk := by
  grind [State.rmanWrite, State.updJoist_memOk]

theorem State.rmannxWrite_memOk (s : State) (v : W64) (hok : s.MemOk) :
    (s.rmannxWrite v).MemOk := by
  grind [State.rmannxWrite, State.updJoist_memOk]

theorem State.boardOn_memOk (s : State) (d : Fin 8) (hok : s.MemOk) :
    (s.boardOn d).MemOk := by
  grind [State.boardOn, State.updSlot_memOk, State.slotDesc_memOk, State.updDie_memOk, foldl_fst_memOk, foldl_memOk]

theorem State.boardOff_memOk (s : State) (d : Fin 8) (hok : s.MemOk) :
    (s.boardOff d).MemOk := by
  grind [State.boardOff, State.stopRepair_memOk, State.slotDesc_memOk, State.updSlot_memOk,
    State.settleBoard_memOk, State.faultWaiting_memOk, State.resolveLaunch_memOk, foldl_fst_memOk, foldl_memOk]

theorem execBscfgWrite_memOk (d : Fin 8) (val : BitVec 64) (s : State) (hok : s.MemOk) :
    ∀ out, execBscfgWrite d val s = .next out → out.MemOk := by
  grind [execBscfgWrite, State.updDie_memOk, State.boardOff_memOk, State.boardOn_memOk]

theorem State.boardResult_memOk (s : State) (n : BitVec 6) (st : BitVec 3) (held : Option (Fin 8)) (hok : s.MemOk) :
    (s.boardResult n st held).MemOk := by
  cases held <;> grind [State.boardResult, State.pendS_memOk]

theorem State.firstBoard_memOk (s : State) (n : BitVec 6) (seg : BitVec 16) (try_ : Bool) (hok : s.MemOk) :
    (s.firstBoard n seg try_).MemOk := by
  grind [State.firstBoard, State.boardResult_memOk, State.trapI_memOk, State.grant_memOk, State.missed_memOk,
    State.updCx_memOk, State.block_memOk]

theorem execBoard_memOk (g : BitVec 4) (d s1 : BitVec 6) (t : BitVec 1) (s : State) (hok : s.MemOk) :
    ∀ out, execBoard g d s1 t s = .next out → out.MemOk := by
  grind [execBoard, State.slotOp_memOk, State.firstBoard_memOk, State.updCx_memOk, State.trapI_memOk,
    State.block_memOk, State.boardResult_memOk]

theorem execRpos_memOk (g : BitVec 4) (d : BitVec 6) (s : State) (hok : s.MemOk) :
    ∀ out, execRpos g d s = .next out → out.MemOk := by
  grind [execRpos, State.slotOp_memOk, State.pendS_memOk]

theorem execRposStat_memOk (g : BitVec 4) (d s1 : BitVec 6) (s : State) (hok : s.MemOk) :
    ∀ out, execRposStat g d s1 s = .next out → out.MemOk := by
  grind [execRposStat, State.slotOp_memOk, State.pendS_memOk]

theorem execRposId_memOk (g : BitVec 4) (d s1 : BitVec 6) (s : State) (hok : s.MemOk) :
    ∀ out, execRposId g d s1 s = .next out → out.MemOk := by
  grind [execRposId, State.slotOp_memOk, State.pendS_memOk]

end Sys2Proof.Machine
end

