-- ==== Sys2Proof/Laws/KeepEngines.lean ====
section
/-! SUPPORT. Every operation of Machine/Engines.lean keeps the memories in their one form. -/

namespace Sys2Proof.Machine

theorem State.updOp_memOk (s : State) (d : Fin 8) (o o' : EngineOp) (hok : s.MemOk) :
    (s.updOp d o o').MemOk := by
  grind [State.updOp, State.updDie_memOk]

theorem State.dropOp_memOk (s : State) (d : Fin 8) (o : EngineOp) (hok : s.MemOk) :
    (s.dropOp d o).MemOk := by
  grind [State.dropOp, State.updDie_memOk]

theorem State.fireAt_memOk (s : State) (id : CtxId) (n : Notice) (st : BitVec 3) (at_ : Nat) (hok : s.MemOk) :
    (s.fireAt id n st at_).MemOk := by
  grind [State.fireAt, State.updCtx_memOk, State.wake_memOk]

theorem State.fire_memOk (s : State) (id : CtxId) (n : Notice) (st : BitVec 3) (hok : s.MemOk) :
    (s.fire id n st).MemOk := by
  grind [State.fire, State.fireAt_memOk]

theorem State.giveStatus_memOk (s : State) (o : EngineOp) (st : BitVec 3) (hok : s.MemOk) :
    (s.giveStatus o st).MemOk := by
  grind [State.giveStatus, State.updCtx_memOk, State.fire_memOk, State.latePublishes_memOk,
    State.lateUnboards_memOk, State.wake_memOk, State.updTask_memOk, State.MemOk, foldl_fst_memOk, foldl_memOk]

theorem State.assign_memOk (s : State) (d : Fin 8) (hok : s.MemOk) :
    (s.assign d).MemOk := by
  grind [State.assign, State.updOp_memOk, foldl_fst_memOk, foldl_memOk]

theorem State.recordPart_memOk (s : State) (o : EngineOp) (p : Part) (hok : s.MemOk) :
    (s.recordPart o p).MemOk := by
  grind [State.recordPart, State.recordUnits_memOk, State.hostArrive_memOk, State.recordLoop_memOk]

theorem State.noteMember_memOk (s : State) (o : EngineOp) (hok : s.MemOk) :
    (s.noteMember o).MemOk := by
  grind [State.noteMember, State.updCtx_memOk, State.wake_memOk]

theorem State.askPeers_memOk (s : State) (o : EngineOp) (tag : Nat) (ps : List Part) (have_ : List (Option (List Seg))) (hok : s.MemOk) :
    (s.askPeers o tag ps have_).1.MemOk := by
  grind [State.askPeers, State.sendPeer_memOk, foldl_fst_memOk, foldl_memOk]

theorem State.fetchBytesFor_memOk (s old : State) (o : EngineOp) (tag : Nat) (va : W64) (n : Nat) (hok : s.MemOk) :
    (s.fetchBytesFor old o tag va n).1.MemOk := by
  grind [State.fetchBytesFor, State.checkAccess_memOk, State.noteMember_memOk, State.recordPart_memOk,
    State.askPeers_memOk, foldl_fst_memOk, foldl_memOk]

theorem State.namePage_memOk (s : State) (o : EngineOp) (va : W64) (hok : s.MemOk) :
    (s.namePage o va).1.MemOk := by
  grind [State.namePage, State.findLeaf_memOk]

theorem State.dstPlace_memOk (s : State) (o : EngineOp) (va : W64) (n : Nat) (hok : s.MemOk) :
    (s.dstPlace o va n).1.MemOk := by
  grind [State.dstPlace, State.namePage_memOk, State.findLeaf_memOk, State.checkPart_memOk, State.noteMember_memOk]

theorem State.writeSegs_memOk (s : State) (o : EngineOp) (va : W64) (l : Loc) (segs : List Seg) (hok : s.MemOk) :
    (s.writeSegs o va l segs).MemOk := by
  grind [State.writeSegs, State.setDirtyLeaf_memOk, State.devWritePoison_memOk, State.writePieces_memOk,
    State.hostWrite_memOk, State.writePeer_memOk, foldl_fst_memOk, foldl_memOk]

theorem State.rowIndex_memOk (s old : State) (o : EngineOp) (hok : s.MemOk) :
    (s.rowIndex old o).1.MemOk := by
  grind [State.rowIndex, State.fetchBytesFor_memOk]

theorem State.countBytes_memOk (s : State) (o : EngineOp) (n : Nat) (hok : s.MemOk) :
    (s.countBytes o n).MemOk := by
  grind [State.countBytes, State.updDie_memOk]

theorem State.engineMove_memOk (s old : State) (o : EngineOp) (hok : s.MemOk) :
    (s.engineMove old o).1.MemOk := by
  grind [State.engineMove, State.rowIndex_memOk, State.advance_memOk, State.dstPlace_memOk,
    State.fetchBytesFor_memOk, State.writeSegs_memOk, State.countBytes_memOk]

theorem State.engineMoves_memOk (old : State) (n : Nat) (s : State) (o : EngineOp) (h : s.MemOk) :
    (State.engineMoves old n s o).1.MemOk := by
  induction n generalizing s o with
  | zero => exact h
  | succ n ih => grind [State.engineMoves, State.engineMove_memOk]

theorem State.engineStatus_memOk (s : State) (o : EngineOp) (hok : s.MemOk) :
    (s.engineStatus o).1.MemOk := by
  grind [State.engineStatus, State.pubStep_memOk]

theorem State.endOp_memOk (s : State) (o : EngineOp) (st : BitVec 3) (hok : s.MemOk) :
    (s.endOp o st).MemOk := by
  grind [State.endOp, State.dropOp_memOk, State.updDie_memOk, State.giveStatus_memOk, State.assign_memOk,
    State.startRepairs_memOk]

theorem State.holdOp_memOk (s : State) (o : EngineOp) (acc : AccKind) (f : PartFault) (hok : s.MemOk) :
    (s.holdOp o acc f).MemOk := by
  grind [State.holdOp, State.noteFault_memOk, State.dropOp_memOk, State.assign_memOk, State.updOp_memOk,
    State.updCtx_memOk, State.wake_memOk]

theorem State.redoPieces_memOk (l : List (W64 × List Byte × Bool)) (s : State) (o : EngineOp) (h : s.MemOk) :
    (State.redoPieces l s o).1.MemOk := by
  induction l generalizing s o with
  | nil => exact h
  | cons x l ih =>
    obtain ⟨va, bs, bad⟩ := x
    grind [State.redoPieces, State.dstPlace_memOk, State.writeSegs_memOk]

theorem State.engineRun_memOk (s : State) (o : EngineOp) (hok : s.MemOk) :
    (s.engineRun o).1.MemOk := by
  grind [State.engineRun, State.redoPieces_memOk, State.engineMoves_memOk]

theorem State.runCopy_memOk (s : State) (o : EngineOp) (onFault : Bool) (hok : s.MemOk) :
    (s.runCopy o onFault).MemOk := by
  unfold State.runCopy
  try dsimp only
  repeat' split
  all_goals grind [State.endOp_memOk, State.engineRun_memOk, State.updOp_memOk, State.holdOp_memOk,
    State.engineStatus_memOk, State.MemOk]

theorem State.noteMig_memOk (s : State) (id : CtxId) (b : Nat) (hok : s.MemOk) :
    (s.noteMig id b).MemOk := by
  grind [State.noteMig, State.recordBad_memOk]

theorem State.migDesc_memOk (s : State) (d : Fin 8) (idx sel gen active shadow : Nat) (hok : s.MemOk) :
    (s.migDesc d idx sel gen active shadow).MemOk := by
  grind [State.migDesc, State.devWrite_memOk]

theorem State.startMig_memOk (s : State) (o : EngineOp) (hok : s.MemOk) :
    (s.startMig o).MemOk := by
  grind [State.startMig, State.block_memOk, State.recordBad_memOk, State.setKvLo_memOk, State.migDesc_memOk,
    State.updOp_memOk]

theorem State.copyMig_memOk (s : State) (o : EngineOp) (hok : s.MemOk) :
    (s.copyMig o).MemOk := by
  grind [State.copyMig, State.block_memOk, State.setKvLo_memOk, State.endOp_memOk, State.setHw_memOk,
    State.updOp_memOk, State.copyBlock_memOk, State.updDie_memOk]

theorem State.publishMig_memOk (s : State) (o : EngineOp) (hok : s.MemOk) :
    (s.publishMig o).MemOk := by
  grind [State.publishMig, State.block_memOk, State.setHw_memOk, State.setKvLo_memOk, State.endOp_memOk,
    State.migDesc_memOk, State.updDie_memOk, State.updOp_memOk]

theorem State.endMig_memOk (s : State) (o : EngineOp) (hok : s.MemOk) :
    (s.endMig o).MemOk := by
  grind [State.endMig, State.ringFull_memOk, State.pushRelease_memOk, State.endOp_memOk]

theorem execKvmigComplete_memOk (id : CtxId) (h : BitVec 16) (s : State) (hok : s.MemOk) :
    ∀ out, execKvmigComplete id h s = .next out → out.MemOk := by
  grind [execKvmigComplete, State.block_memOk, State.noteMig_memOk, State.endOp_memOk, State.startMig_memOk,
    State.copyMig_memOk, State.publishMig_memOk, State.endMig_memOk]

theorem State.takeHandle_memOk (s : State) (d : BitVec 6) (hok : s.MemOk) :
    (s.takeHandle d).MemOk := by
  grind [State.takeHandle, State.updCx_memOk, State.putS_memOk]

theorem State.issueOp_memOk (s : State) (o : EngineOp) (st : Option (BitVec 3)) (hok : s.MemOk) :
    (s.issueOp o st).MemOk := by
  cases st with
  | some st => exact State.giveStatus_memOk s o st hok
  | none => exact State.assign_memOk _ _ (State.updDie_memOk _ _ _ hok)

theorem State.namePages_memOk (l : List W64) (s : State) (o : EngineOp) (h : s.MemOk) :
    (State.namePages l s o).1.MemOk := by
  induction l generalizing s o with
  | nil => exact h
  | cons x l ih => grind [State.namePages, State.namePage_memOk]

theorem State.startCopy_memOk (s : State) (k : EngineKind) (a b : BitVec 3) (s1 d : BitVec 6) (pub : Bool) (hok : s.MemOk) :
    (s.startCopy k a b s1 d pub).MemOk := by
  grind [State.startCopy, State.block_memOk, State.commitEarly_memOk, State.takeHandle_memOk,
    State.issueOp_memOk, State.namePages_memOk]

theorem execCpy_memOk (g : BitVec 4) (a b : BitVec 3) (s1 d : BitVec 6) (p : BitVec 1) (s : State) (hok : s.MemOk) :
    ∀ out, execCpy g a b s1 d p s = .next out → out.MemOk := by
  grind [execCpy, State.slotOp_memOk, State.startCopy_memOk]

theorem execCpy2_memOk (g : BitVec 4) (a b : BitVec 3) (s1 d : BitVec 6) (p : BitVec 1) (s : State) (hok : s.MemOk) :
    ∀ out, execCpy2 g a b s1 d p s = .next out → out.MemOk := by
  grind [execCpy2, State.slotOp_memOk, State.startCopy_memOk]

theorem execGath_memOk (g : BitVec 4) (a b : BitVec 3) (s1 d : BitVec 6) (p : BitVec 1) (s : State) (hok : s.MemOk) :
    ∀ out, execGath g a b s1 d p s = .next out → out.MemOk := by
  grind [execGath, State.slotOp_memOk, State.startCopy_memOk]

theorem execScat_memOk (g : BitVec 4) (a b : BitVec 3) (s1 d : BitVec 6) (p : BitVec 1) (s : State) (hok : s.MemOk) :
    ∀ out, execScat g a b s1 d p s = .next out → out.MemOk := by
  grind [execScat, State.slotOp_memOk, State.startCopy_memOk]

theorem execCpyp_memOk (g : BitVec 4) (a b : BitVec 3) (s1 d : BitVec 6) (p : BitVec 1) (s : State) (hok : s.MemOk) :
    ∀ out, execCpyp g a b s1 d p s = .next out → out.MemOk := by
  grind [execCpyp, State.slotOp_memOk, State.startCopy_memOk]

theorem execKvmig_memOk (g : BitVec 4) (a : BitVec 3) (s1 d : BitVec 6) (s : State) (hok : s.MemOk) :
    ∀ out, execKvmig g a s1 d s = .next out → out.MemOk := by
  grind [execKvmig, State.slotOp_memOk, State.block_memOk, State.commitEarly_memOk, State.takeHandle_memOk,
    State.noteMig_memOk, State.issueOp_memOk]

theorem execUnboard_memOk (g : BitVec 4) (d s1 : BitVec 6) (s : State) (hok : s.MemOk) :
    ∀ out, execUnboard g d s1 s = .next out → out.MemOk := by
  grind [execUnboard, State.slotOp_memOk, State.pendS_memOk, State.commitEarly_memOk, State.updCx_memOk,
    State.lateUnboards_memOk, State.MemOk]

theorem execCwait_memOk (g : BitVec 4) (s1 d : BitVec 6) (s : State) (hok : s.MemOk) :
    ∀ out, execCwait g s1 d s = .next out → out.MemOk := by
  grind [execCwait, State.slotOp_memOk, State.block_memOk, State.putS_memOk]

theorem execCwaitAll_memOk (g : BitVec 4) (d : BitVec 6) (s : State) (hok : s.MemOk) :
    ∀ out, execCwaitAll g d s = .next out → out.MemOk := by
  grind [execCwaitAll, State.slotOp_memOk, State.block_memOk, State.putS_memOk, foldl_fst_memOk, foldl_memOk]

theorem execCnote_memOk (g : BitVec 4) (s1 d : BitVec 6) (s : State) (hok : s.MemOk) :
    ∀ out, execCnote g s1 d s = .next out → out.MemOk := by
  grind [execCnote, State.slotOp_memOk, State.block_memOk, State.updCx_memOk, State.fire_memOk]

theorem execNoticeEntry_memOk (id : CtxId) (s : State) (hok : s.MemOk) :
    ∀ out, execNoticeEntry id s = .next out → out.MemOk := by
  grind [execNoticeEntry, State.updCtx_memOk, State.enterHandler_memOk, State.unblock_memOk]

end Sys2Proof.Machine
end

