-- ==== Sys2Proof/Laws/KeepCollectives.lean ====
section
/-! SUPPORT. Every operation of Machine/Collectives.lean keeps the memories in their one form. -/

namespace Sys2Proof.Machine

theorem State.abandon_memOk (s : State) (ops : List EngineOp) (o : EngineOp) (hok : s.MemOk) :
    (s.abandon ops o).MemOk := by
  grind [State.abandon, State.dropOp_memOk, State.endOp_memOk, foldl_fst_memOk, foldl_memOk]

theorem State.gatherRanks_memOk (s : State) (ops : List EngineOp) (hok : s.MemOk) :
    (s.gatherRanks ops).1.MemOk := by
  grind [State.gatherRanks, State.fetchBytesFor_memOk, State.abandon_memOk, State.holdOp_memOk,
    State.endOp_memOk, State.noteMember_memOk, State.updOp_memOk, foldl_fst_memOk, foldl_memOk]

theorem State.rankPlaces_memOk (s : State) (o : EngineOp) (n : Nat) (hok : s.MemOk) :
    (s.rankPlaces o n).1.MemOk := by
  grind [State.rankPlaces, State.dstPlace_memOk, foldl_fst_memOk, foldl_memOk]

theorem State.writeRank_memOk (s : State) (o : EngineOp) (ls : List (VRun × Loc)) (bs : List PByte) (hok : s.MemOk) :
    (s.writeRank o ls bs).MemOk := by
  grind [State.writeRank, State.writeSegs_memOk, foldl_fst_memOk, foldl_memOk]

theorem State.moveRanks_memOk (s : State) (nrank : Nat) (ops : List EngineOp) (srcs : List (List PByte)) (hok : s.MemOk) :
    (s.moveRanks nrank ops srcs).MemOk := by
  grind [State.moveRanks, State.rankPlaces_memOk, State.abandon_memOk, State.holdOp_memOk, State.updOp_memOk,
    State.writeRank_memOk, foldl_fst_memOk, foldl_memOk]

theorem execCollectiveInstanceStart_memOk (grp : Fin 16) (s : State) (hok : s.MemOk) :
    ∀ out, execCollectiveInstanceStart grp s = .next out → out.MemOk := by
  grind [execCollectiveInstanceStart, State.endOp_memOk, State.gatherRanks_memOk, State.moveRanks_memOk,
    foldl_fst_memOk, foldl_memOk]

theorem State.redoRank_memOk (s : State) (o : EngineOp) (hok : s.MemOk) :
    (s.redoRank o).MemOk := by
  grind [State.redoRank, State.redoPieces_memOk, State.updOp_memOk, State.holdOp_memOk]

theorem execEngineOperationComplete_memOk (id : CtxId) (h : BitVec 16) (s : State) (hok : s.MemOk) :
    ∀ out, execEngineOperationComplete id h s = .next out → out.MemOk := by
  grind [execEngineOperationComplete, State.runCopy_memOk, State.redoRank_memOk, State.endOp_memOk,
    State.engineStatus_memOk]

theorem execEnginePieceFault_memOk (id : CtxId) (h : BitVec 16) (s : State) (hok : s.MemOk) :
    ∀ out, execEnginePieceFault id h s = .next out → out.MemOk := by
  grind [execEnginePieceFault, State.runCopy_memOk]

theorem State.startCollective_memOk (s : State) (k : EngineKind) (dst src len : W64) (d : BitVec 6) (pub : Bool) (hok : s.MemOk) :
    (s.startCollective k dst src len d pub).MemOk := by
  grind [State.startCollective, State.block_memOk, State.commitEarly_memOk, State.takeHandle_memOk,
    State.issueOp_memOk, State.namePages_memOk, State.updJoist_memOk]

theorem execCred_memOk (g : BitVec 4) (a b : BitVec 3) (s1 d : BitVec 6) (p : BitVec 1) (s : State) (hok : s.MemOk) :
    ∀ out, execCred g a b s1 d p s = .next out → out.MemOk := by
  grind [execCred, State.slotOp_memOk, State.startCollective_memOk]

theorem execCbc_memOk (g : BitVec 4) (a b : BitVec 3) (s1 d : BitVec 6) (p : BitVec 1) (s : State) (hok : s.MemOk) :
    ∀ out, execCbc g a b s1 d p s = .next out → out.MemOk := by
  grind [execCbc, State.slotOp_memOk, State.startCollective_memOk]

theorem execCag_memOk (g : BitVec 4) (a b : BitVec 3) (s1 d : BitVec 6) (p : BitVec 1) (s : State) (hok : s.MemOk) :
    ∀ out, execCag g a b s1 d p s = .next out → out.MemOk := by
  grind [execCag, State.slotOp_memOk, State.startCollective_memOk]

theorem execCbar_memOk (g : BitVec 4) (s1 d : BitVec 6) (s : State) (hok : s.MemOk) :
    ∀ out, execCbar g s1 d s = .next out → out.MemOk := by
  grind [execCbar, State.slotOp_memOk, State.startCollective_memOk]

theorem State.groupWrite_memOk (s : State) (g : Fin 16) (w : Nat) (v : W64) (hok : s.MemOk) :
    (s.groupWrite g w v).MemOk := by
  grind [State.groupWrite, State.updJoist_memOk]

end Sys2Proof.Machine
end

