-- ==== Sys2Proof/Laws/KeepChannels.lean ====
section
/-! SUPPORT. Every operation of Machine/Channels.lean keeps the memories in their one form. -/

namespace Sys2Proof.Machine

theorem State.updChan_memOk (s : State) (d : Fin 8) (c : Fin 16) (n : Fin 32) (f : Channel → Channel) (hok : s.MemOk) :
    (s.updChan d c n f).MemOk := by
  grind [State.updChan, State.updCore_memOk]

theorem State.updMyChan_memOk (s : State) (n : BitVec 5) (f : Channel → Channel) (hok : s.MemOk) :
    (s.updMyChan n f).MemOk := by
  grind [State.updMyChan, State.updChan_memOk]

theorem State.slotGate_memOk (s : State) (ch : BitVec 5) (t : W64) (u : Nat) (body : Nat → State → State) (hok : s.MemOk) (h_body : ∀ p (u : State), u.MemOk → (body p u).MemOk) :
    (s.slotGate ch t u body).MemOk := by
  grind [State.slotGate, State.trapI_memOk, State.updMyChan_memOk, State.updCx_memOk, State.setNext_memOk,
    State.MemOk]

theorem State.slotDone_memOk (s : State) (r : BitVec 4) (m : BitVec 1) (st : BitVec 6) (lat : Nat) (ws : List Write) (flags : Flags)
    (bad : Bool) (status : W64) (hok : s.MemOk) :
    (s.slotDone r m st lat ws flags bad status).MemOk := by
  grind [State.slotDone, State.updCx_memOk, State.stepAddr_memOk]

theorem State.launchFlit_memOk (s : State) (n : Fin 32) (c : Channel) (t : W64) (data : BitVec 2048) (hok : s.MemOk) :
    (s.launchFlit n c t data).MemOk := by
  grind [State.launchFlit, State.updJoist_memOk, State.putFlit_memOk]

theorem execSend_memOk (g : BitVec 4) (v ch : BitVec 5) (r : BitVec 4) (m : BitVec 1) (s1 : BitVec 6) (s : State) (hok : s.MemOk) :
    ∀ out, execSend g v ch r m s1 s = .next out → out.MemOk := by
  grind [execSend, State.slotOp_memOk, State.slotGate_memOk, State.launchFlit_memOk, State.updMyChan_memOk,
    State.slotDone_memOk]

theorem State.receive_memOk (s : State) (kind : Nat) (v ch : BitVec 5) (r : BitVec 4) (m : BitVec 1) (st : BitVec 6) (hok : s.MemOk) :
    (s.receive kind v ch r m st).MemOk := by
  grind [State.receive, State.slotGate_memOk, State.updMyChan_memOk, State.slotDone_memOk, State.updCx_memOk,
    State.trapI_memOk, State.block_memOk]

theorem execRecv_memOk (g : BitVec 4) (v ch : BitVec 5) (r : BitVec 4) (m : BitVec 1) (s1 : BitVec 6) (s : State) (hok : s.MemOk) :
    ∀ out, execRecv g v ch r m s1 s = .next out → out.MemOk := by
  grind [execRecv, State.slotOp_memOk, State.receive_memOk]

theorem execRecva_memOk (g : BitVec 4) (v ch : BitVec 5) (r : BitVec 4) (m : BitVec 1) (s1 : BitVec 6) (s : State) (hok : s.MemOk) :
    ∀ out, execRecva g v ch r m s1 s = .next out → out.MemOk := by
  grind [execRecva, State.slotOp_memOk, State.receive_memOk]

theorem execRecvm_memOk (g : BitVec 4) (v ch : BitVec 5) (r : BitVec 4) (m : BitVec 1) (s1 : BitVec 6) (s : State) (hok : s.MemOk) :
    ∀ out, execRecvm g v ch r m s1 s = .next out → out.MemOk := by
  grind [execRecvm, State.slotOp_memOk, State.receive_memOk]

theorem execLstat_memOk (g : BitVec 4) (v ch : BitVec 5) (s1 : BitVec 6) (s : State) (hok : s.MemOk) :
    ∀ out, execLstat g v ch s1 s = .next out → out.MemOk := by
  grind [execLstat, State.slotOp_memOk, State.pendS_memOk, State.trapI_memOk]

theorem State.flitArrives_memOk (s : State) (d : Fin 8) (c : Fin 16) (ch : Fin 32) (seq : BitVec 16) (stamp : W64) (poison : Bool)
    (data : BitVec 2048) (hok : s.MemOk) :
    (s.flitArrives d c ch seq stamp poison data).MemOk := by
  grind [State.flitArrives, State.updChan_memOk, State.receive_memOk, State.wake_memOk, foldl_fst_memOk, foldl_memOk]

theorem execChannelFlitArrival_memOk (d : Fin 8) (c : Fin 16) (ch : Fin 32) (seq : BitVec 16) (stamp : BitVec 64) (payload : BitVec 2048)
    (s : State) (hok : s.MemOk) :
    ∀ out, execChannelFlitArrival d c ch seq stamp payload s = .next out → out.MemOk := by
  grind [execChannelFlitArrival, State.updJoist_memOk, State.flitArrives_memOk]

theorem execSlotGuardExpiry_memOk (id : CtxId) (s : State) (hok : s.MemOk) :
    ∀ out, execSlotGuardExpiry id s = .next out → out.MemOk := by
  grind [execSlotGuardExpiry, State.receive_memOk, State.wake_memOk]

end Sys2Proof.Machine
end

