-- ==== Sys2Proof/Laws/KeepNop.lean ====
section
/-! SUPPORT. Every operation of Machine/Nop.lean keeps the memories in their one form. -/

namespace Sys2Proof.Machine

/-- The meanings of sticky slots keep the memories. -/
theorem stickyMeaning_memOk (i : Instr) (s t : State) (h : s.MemOk) (ht : stickyMeaning i s = .next t) : t.MemOk := by
  unfold stickyMeaning at ht
  split at ht
  all_goals grind [execTld_memOk, execTst_memOk, execLld_memOk, execLst_memOk, execTldg_memOk, execTsts_memOk,
    execSend_memOk, execRecv_memOk, execRecva_memOk, execRecvm_memOk]

theorem execNop_memOk (c : BitVec 6) (m : BitVec 1) (t : BitVec 5) (r : BitVec 6) (s : State) (hok : s.MemOk) :
    ∀ out, execNop c m t r s = .next out → out.MemOk := by
  exact issueBundle_memOk stickyMeaning stickyMeaning_memOk _ _ s hok

end Sys2Proof.Machine
end

