-- ==== Sys2Proof/Laws/KeepErrors.lean ====
section
/-! SUPPORT. Every operation of Machine/Errors.lean keeps the memories in their one form. -/

namespace Sys2Proof.Machine

theorem State.startInv_memOk (s : State) (d : Fin 8) (kind : BitVec 2) (asid : Fin 64) (bcast : Bool) (hok : s.MemOk) :
    (s.startInv d kind asid bcast).MemOk := by
  grind [State.startInv, State.updDie_memOk]

theorem execTlbinvPage_memOk (d : Fin 8) (asid : Fin 64) (bcast : Bool) (s : State) (hok : s.MemOk) :
    ∀ out, execTlbinvPage d asid bcast s = .next out → out.MemOk := by
  grind [execTlbinvPage, State.startInv_memOk]

theorem execTlbinvAsid_memOk (d : Fin 8) (asid : Fin 64) (bcast : Bool) (s : State) (hok : s.MemOk) :
    ∀ out, execTlbinvAsid d asid bcast s = .next out → out.MemOk := by
  grind [execTlbinvAsid, State.startInv_memOk]

theorem execTlbinvAll_memOk (d : Fin 8) (bcast : Bool) (s : State) (hok : s.MemOk) :
    ∀ out, execTlbinvAll d bcast s = .next out → out.MemOk := by
  grind [execTlbinvAll, State.startInv_memOk]

theorem State.markUnder_memOk (s : State) (i : TlbInv) (d : Fin 8) (hok : s.MemOk) :
    (s.markUnder i d).MemOk := by
  grind [State.markUnder, State.updCtx_memOk, foldl_fst_memOk, foldl_memOk]

theorem execTlbinvDone_memOk (d : Fin 8) (s : State) (hok : s.MemOk) :
    ∀ out, execTlbinvDone d s = .next out → out.MemOk := by
  grind [execTlbinvDone, State.markUnder_memOk, State.updDie_memOk, foldl_fst_memOk, foldl_memOk]

theorem execPageWalk_memOk (id : CtxId) (va : BitVec 64) (s : State) (hok : s.MemOk) :
    ∀ out, execPageWalk id va s = .next out → out.MemOk := by
  grind [execPageWalk, State.load_memOk, State.findLeaf_memOk]

theorem execCodeScan_memOk (id : CtxId) (va : BitVec 64) (s : State) (hok : s.MemOk) :
    ∀ out, execCodeScan id va s = .next out → out.MemOk := by
  grind [execCodeScan, State.fetch_memOk, State.findLeaf_memOk, State.postEvent_memOk, State.takeTrap_memOk]

theorem State.scrubPoison_memOk (s : State) (pa : Nat) (hok : s.MemOk) :
    (s.scrubPoison pa).MemOk := by
  grind [State.scrubPoison, State.MemOk]

theorem State.failCell_memOk (s : State) (d : Fin 8) (pa : Nat) (hok : s.MemOk) :
    (s.failCell d pa).MemOk := by
  grind [State.failCell, State.scrubPoison_memOk, State.MemOk]

theorem execPiecePerform_memOk (pa : BitVec 52) (op : PieceOp) (s : State) (hok : s.MemOk) :
    ∀ out, execPiecePerform pa op s = .next out → out.MemOk := by
  unfold execPiecePerform
  try dsimp only
  repeat' split
  all_goals grind [State.updateAt_memOk, State.recordUnits_memOk, State.devWrite_memOk, State.failCell_memOk]

theorem execCorrectableError_memOk (d : Fin 8) (place : ErrPlace) (core : Option (Fin 8 × Fin 16)) (s : State) (hok : s.MemOk) :
    ∀ out, execCorrectableError d place core s = .next out → out.MemOk := by
  unfold execCorrectableError
  try dsimp only
  repeat' split
  all_goals grind [State.updDie_memOk, State.updCore_memOk]

theorem execFreezeEnd_memOk (d : Fin 8) (c : Fin 16) (s : State) (hok : s.MemOk) :
    ∀ out, execFreezeEnd d c s = .next out → out.MemOk := by
  grind [execFreezeEnd, State.updCore_memOk]

theorem execScrubRead_memOk (pa : BitVec 52) (found : ScrubFinding) (s : State) (hok : s.MemOk) :
    ∀ out, execScrubRead pa found s = .next out → out.MemOk := by
  unfold execScrubRead
  try dsimp only
  repeat' split
  all_goals grind [State.updDie_memOk, State.scrubPoison_memOk, State.recordAt_memOk]

end Sys2Proof.Machine
end

