-- ==== Sys2Proof/Laws/KeepSwitch.lean ====
section
/-! SUPPORT. Every operation of Machine/Switch.lean keeps the memories in their one form. -/

namespace Sys2Proof.Machine

theorem execContextSwitch_memOk (d : Fin 8) (c : Fin 16) (s : State) (hok : s.MemOk) :
    ∀ out, execContextSwitch d c s = .next out → out.MemOk := by
  grind [execContextSwitch, State.switchIn_memOk]

theorem execQuantumExpiry_memOk (d : Fin 8) (c : Fin 16) (s : State) (hok : s.MemOk) :
    ∀ out, execQuantumExpiry d c s = .next out → out.MemOk := by
  grind [execQuantumExpiry, State.giveUp_memOk]

theorem execPinmaxExpiry_memOk (id : CtxId) (s : State) (hok : s.MemOk) :
    ∀ out, execPinmaxExpiry id s = .next out → out.MemOk := by
  grind [execPinmaxExpiry, State.unpinNow_memOk, State.updCtx_memOk, State.giveUp_memOk]

theorem execWatchdog_memOk (id : CtxId) (s : State) (hok : s.MemOk) :
    ∀ out, execWatchdog id s = .next out → out.MemOk := by
  grind [execWatchdog, State.fireWatchdog_memOk]

theorem State.standingTrap_memOk (s : State) (id : CtxId) (hok : s.MemOk) :
    (s.standingTrap id).MemOk := by
  grind [State.standingTrap, State.updCtx_memOk, State.takeTrap_memOk]

theorem State.badRegister_memOk (s : State) (id : CtxId) (n : BitVec 8) (hok : s.MemOk) :
    (s.badRegister id n).MemOk := by
  grind [State.badRegister, State.recordError_memOk, State.takeTrap_memOk]

theorem execTrapDelivery_memOk (x : TrapPoint) (s : State) (hok : s.MemOk) :
    ∀ out, execTrapDelivery x s = .next out → out.MemOk := by
  obtain ⟨id, bad⟩ := x
  cases bad <;> grind [execTrapDelivery, State.finishTrap_memOk, State.finishSave_memOk, State.badRegister_memOk,
    State.standingTrap_memOk]

end Sys2Proof.Machine
end

