-- ==== Sys2Proof/Laws/KeepSched.lean ====
section
/-! SUPPORT. Every operation of Machine/Sched.lean keeps the memories in their one form. -/

namespace Sys2Proof.Machine

theorem execQkick_memOk (d : Fin 8) (q : Fin 64) (val : BitVec 64) (s : State) (hok : s.MemOk) :
    ∀ out, execQkick d q val s = .next out → out.MemOk := by
  grind [execQkick, State.updQueue_memOk]

theorem execQcfgWrite_memOk (d : Fin 8) (q : Fin 64) (val : BitVec 64) (s : State) (hok : s.MemOk) :
    ∀ out, execQcfgWrite d q val s = .next out → out.MemOk := by
  grind [execQcfgWrite, State.updQueue_memOk]

theorem State.schedPart_memOk (s : State) (d : Fin 8) (p : Part) (hok : s.MemOk) :
    (s.schedPart d p).1.MemOk := by
  grind [State.schedPart, State.recordUnits_memOk, State.hostArrive_memOk, State.recordLoop_memOk]

theorem State.noteUnit_memOk (s : State) (d : Fin 8) (src : EvSrc) (core : Nat) (f : XFault) (hok : s.MemOk) :
    (s.noteUnit d src core f).MemOk := by
  cases f <;> grind [State.noteUnit, State.recordBad_memOk, State.postEvent_memOk]

theorem State.schedRead_memOk (s : State) (d : Fin 8) (asid : Fin 64) (fw : Bool) (va : W64) (n : Nat) (hok : s.MemOk) :
    (s.schedRead d asid fw va n).1.MemOk := by
  grind [State.schedRead, State.load_memOk, State.checkAccess_memOk, State.noteUnit_memOk,
    State.schedPart_memOk, foldl_fst_memOk, foldl_memOk]

theorem State.readFormats_memOk (s : State) (d : Fin 8) (asid : Fin 64) (va : W64) (hok : s.MemOk) :
    (s.readFormats d asid va).1.MemOk := by
  grind [State.readFormats, State.schedRead_memOk]

theorem State.passDependency_memOk (s : State) (d : Fin 8) (q : Fin 64) (l : Launch) (hok : s.MemOk) :
    (s.passDependency d q l).MemOk := by
  grind [State.passDependency, State.setStage_memOk, State.resolveLaunch_memOk]

theorem State.takeEntry_memOk (s : State) (d : Fin 8) (q : Fin 64) (va : W64) (w : List W64) (hok : s.MemOk) :
    (s.takeEntry d q va w).MemOk := by
  grind [State.takeEntry, State.postEvent_memOk, State.updQueue_memOk, State.readFormats_memOk,
    State.passDependency_memOk, State.MemOk]

theorem State.queueFault_memOk (s : State) (d : Fin 8) (q : Fin 64) (poison seqWord : Bool) (va : W64) (hok : s.MemOk) :
    (s.queueFault d q poison seqWord va).MemOk := by
  grind [State.queueFault, State.updQueue_memOk, State.postEvent_memOk]

theorem State.fetchEntry_memOk (s : State) (d : Fin 8) (q : Fin 64) (seen : Option (BitVec 32)) (hok : s.MemOk) :
    (s.fetchEntry d q seen).MemOk := by
  grind [State.fetchEntry, State.schedRead_memOk, State.queueFault_memOk, State.updQueue_memOk,
    State.postEvent_memOk, State.takeEntry_memOk]

theorem State.serveQueue_memOk (s : State) (d : Fin 8) (q : Fin 64) (hok : s.MemOk) :
    (s.serveQueue d q).MemOk := by
  grind [State.serveQueue, State.fetchEntry_memOk, State.schedRead_memOk, State.queueFault_memOk]

theorem execDescriptorFetch_memOk (d : Fin 8) (q : Fin 64) (s : State) (hok : s.MemOk) :
    ∀ out, execDescriptorFetch d q s = .next out → out.MemOk := by
  grind [execDescriptorFetch, State.serveQueue_memOk]

theorem execSequenceRetry_memOk (d : Fin 8) (q : Fin 64) (s : State) (hok : s.MemOk) :
    ∀ out, execSequenceRetry d q s = .next out → out.MemOk := by
  grind [execSequenceRetry, State.serveQueue_memOk]

theorem execDependencyPoll_memOk (d : Fin 8) (q : Fin 64) (s : State) (hok : s.MemOk) :
    ∀ out, execDependencyPoll d q s = .next out → out.MemOk := by
  grind [execDependencyPoll, State.postEvent_memOk, State.updQueue_memOk, State.schedRead_memOk,
    State.passDependency_memOk, State.MemOk]

theorem State.translatePage_memOk (s : State) (r : Req) (va : W64) (hok : s.MemOk) :
    (s.translatePage r va).1.MemOk := by
  grind [State.translatePage, State.walkLeaf_memOk, State.setDirtyLeaf_memOk]

theorem State.translatePages_memOk (d : Fin 8) (asid : Fin 64) (j : Nat) (x : OpRange) (l : List W64) (s : State)
    (acc : List Extent) (h : s.MemOk) : (State.translatePages d asid j x l s acc).1.MemOk := by
  induction l generalizing s acc with
  | nil => exact h
  | cons p l ih => grind [State.translatePages, State.translatePage_memOk]

theorem State.translateRanges_memOk (d : Fin 8) (asid : Fin 64) (l : List (OpRange × Nat)) (s : State)
    (acc : List Extent) (h : s.MemOk) : (State.translateRanges d asid l s acc).1.MemOk := by
  induction l generalizing s acc with
  | nil => exact h
  | cons p l ih => grind [State.translateRanges, State.translatePages_memOk]

theorem State.freshArea_memOk (s : State) (d : Fin 8) (n : Nat) (hok : s.MemOk) :
    (s.freshArea d n).MemOk := by
  grind [State.freshArea, State.devWrite_memOk, foldl_fst_memOk, foldl_memOk]

theorem State.freshDirty_memOk (s : State) (id : CtxId) (hok : s.MemOk) :
    (s.freshDirty id).MemOk := by
  grind [State.freshDirty, State.updCore_memOk, foldl_fst_memOk, foldl_memOk]

theorem State.takeHolds_memOk (s : State) (id : CtxId) (hs : List HoldRec) (hok : s.MemOk) :
    (s.takeHolds id hs).MemOk := by
  grind [State.takeHolds, State.grant_memOk, State.updSlot_memOk, foldl_fst_memOk, foldl_memOk]

theorem State.rebind_memOk (s : State) (id : CtxId) (n : Nat) (hok : s.MemOk) :
    (s.rebind id n).MemOk := by
  grind [State.rebind, State.updJoist_memOk, State.updDie_memOk]

theorem State.lateNotices_memOk (s : State) (id : CtxId) (ended : List (BitVec 16 × Nat)) (hok : s.MemOk) :
    (s.lateNotices id ended).MemOk := by
  grind [State.lateNotices, State.fireAt_memOk, foldl_fst_memOk, foldl_memOk]

theorem State.keepFreeze_memOk (s : State) (id : CtxId) (hok : s.MemOk) :
    (s.keepFreeze id).MemOk := by
  grind [State.keepFreeze, State.updCore_memOk, State.MemOk]

theorem State.restoreTask_memOk (s : State) (id : CtxId) (n : Nat) (t : Task) (xs : List Extent) (hok : s.MemOk) :
    (s.restoreTask id n t xs).MemOk := by
  grind [State.restoreTask, State.recordBad_memOk, State.restoreRegions_memOk, State.updCtx_memOk,
    State.takeHolds_memOk, State.updTask_memOk, State.keepFreeze_memOk, State.rebind_memOk,
    State.lateNotices_memOk, State.MemOk]

theorem State.taskExtents_memOk (s : State) (d : Fin 8) (n : Nat) (t : Task) (hok : s.MemOk) :
    (s.taskExtents d n t).1.MemOk := by
  grind [State.taskExtents, State.translateRanges_memOk]

theorem State.startTask_memOk (s : State) (id : CtxId) (n : Nat) (t : Task) (hok : s.MemOk) :
    (s.startTask id n t).MemOk := by
  grind [State.startTask, State.taskExtents_memOk, State.noteUnit_memOk, State.dropHold_memOk,
    State.postEvent_memOk, State.updTask_memOk, State.updDie_memOk, State.restoreTask_memOk,
    State.freshArea_memOk, State.updCtx_memOk, State.freshDirty_memOk, State.MemOk, foldl_fst_memOk,
    foldl_memOk]

theorem State.takeHold_memOk (s : State) (id : CtxId) (w : List W64) (hok : s.MemOk) :
    ∀ out, s.takeHold id w = some out → out.MemOk := by
  unfold State.takeHold
  try dsimp only
  repeat' split
  all_goals grind [State.grant_memOk, Option.map_eq_some_iff]

theorem State.backToBoarding_memOk (s : State) (d : Fin 8) (q : Fin 64) (hok : s.MemOk) :
    (s.backToBoarding d q).MemOk := by
  grind [State.backToBoarding, State.missed_memOk, State.updQueue_memOk]

theorem State.place_memOk (s : State) (id : CtxId) (c : Cand) (hok : s.MemOk) :
    (s.place id c).1.MemOk := by
  unfold State.place
  try dsimp only
  repeat' split
  all_goals grind [State.takeHold_memOk, State.startTask_memOk, State.backToBoarding_memOk, State.updDie_memOk,
    State.updQueue_memOk]

theorem State.dispatchOne_memOk (d : Fin 8) (l : List Cand) (s : State) (h : s.MemOk) :
    (State.dispatchOne d l s).1.MemOk := by
  induction l generalizing s with
  | nil => exact h
  | cons p l ih => grind [State.dispatchOne, State.place_memOk]

theorem execTaskDispatch_memOk (d : Fin 8) (s : State) (hok : s.MemOk) :
    ∀ out, execTaskDispatch d s = .next out → out.MemOk := by
  grind [execTaskDispatch, State.dispatchOne_memOk, State.updDie_memOk]

theorem State.pushSave_memOk (s : State) (id : CtxId) (hok : s.MemOk) :
    (s.pushSave id).MemOk := by
  grind [State.pushSave, State.beginSave_memOk]

theorem execPreemptionSave_memOk (d : Fin 8) (s : State) (hok : s.MemOk) :
    ∀ out, execPreemptionSave d s = .next out → out.MemOk := by
  grind [execPreemptionSave, State.pushSave_memOk, State.updTask_memOk, State.MemOk, foldl_fst_memOk, foldl_memOk]

theorem State.freeTask_memOk (s : State) (d : Fin 8) (n : Nat) (hok : s.MemOk) :
    (s.freeTask d n).MemOk := by
  grind [State.freeTask, State.updDie_memOk, State.updQueue_memOk]

theorem State.leaveEngines_memOk (s : State) (d : Fin 8) (n : Nat) (hok : s.MemOk) :
    (s.leaveEngines d n).MemOk := by
  grind [State.leaveEngines, State.updDie_memOk, State.abandon_memOk, State.dropOp_memOk, State.assign_memOk,
    foldl_fst_memOk, foldl_memOk]

theorem State.dropHolds_memOk (s : State) (id : CtxId) (hok : s.MemOk) :
    (s.dropHolds id).MemOk := by
  grind [State.dropHolds, State.dropHold_memOk, foldl_fst_memOk, foldl_memOk]

theorem State.completionAction_memOk (s : State) (id : CtxId) (n : Nat) (t : Task) (hok : s.MemOk) :
    (s.completionAction id n t).1.MemOk := by
  grind [State.completionAction, State.recordBad_memOk, State.noteUnit_memOk, State.postEvent_memOk,
    State.store_memOk, State.access_memOk, State.arrival_memOk, State.updatePart_memOk, State.MemOk,
    foldl_fst_memOk, foldl_memOk]

theorem State.pollSoon_memOk (s : State) (d : Fin 8) (hok : s.MemOk) :
    (s.pollSoon d).MemOk := by
  grind [State.pollSoon, State.updDie_memOk]

theorem execCompletionAction_memOk (d : Fin 8) (t : Fin 1024) (s : State) (hok : s.MemOk) :
    ∀ out, execCompletionAction d t s = .next out → out.MemOk := by
  grind [execCompletionAction, State.dropHolds_memOk, State.completionAction_memOk, State.updTask_memOk,
    State.pollSoon_memOk, State.leaveEngines_memOk, State.freeContext_memOk, State.freeTask_memOk]

theorem State.schedFail_memOk (s : State) (d : Fin 8) (hok : s.MemOk) :
    (s.schedFail d).MemOk := by
  grind [State.schedFail, State.updDie_memOk]

theorem State.command_memOk (s : State) (d : Fin 8) (n : Nat) (body : Task → State) (hok : s.MemOk)
    (h_body : ∀ t, (body t).MemOk) : (s.command d n body).MemOk := by
  grind [State.command, State.schedFail_memOk]

theorem execSuspend_memOk (d : Fin 8) (t : Fin 1024) (s : State) (hok : s.MemOk) :
    ∀ out, execSuspend d t s = .next out → out.MemOk := by
  grind [execSuspend, State.command_memOk, State.updTask_memOk, State.pushSave_memOk, State.schedFail_memOk]

theorem execResume_memOk (d : Fin 8) (t : Fin 1024) (s : State) (hok : s.MemOk) :
    ∀ out, execResume d t s = .next out → out.MemOk := by
  grind [execResume, State.command_memOk, State.updTask_memOk, State.updDie_memOk, State.schedFail_memOk]

theorem State.dropParked_memOk (s : State) (d : Fin 8) (hs : List HoldRec) (hok : s.MemOk) :
    (s.dropParked d hs).MemOk := by
  grind [State.dropParked, State.updSlot_memOk, foldl_fst_memOk, foldl_memOk]

theorem execEndTask_memOk (d : Fin 8) (t : Fin 1024) (s : State) (hok : s.MemOk) :
    ∀ out, execEndTask d t s = .next out → out.MemOk := by
  grind [execEndTask, State.command_memOk, State.dropWait_memOk, State.dropHolds_memOk,
    State.leaveEngines_memOk, State.updJoist_memOk, State.freeContext_memOk, State.dropParked_memOk,
    State.freeTask_memOk]

theorem execEndq_memOk (d : Fin 8) (q : Fin 64) (s : State) (hok : s.MemOk) :
    ∀ out, execEndq d q s = .next out → out.MemOk := by
  grind [execEndq, State.schedFail_memOk, State.closeLaunch_memOk]

theorem execScfgWrite_memOk (d : Fin 8) (val : BitVec 64) (s : State) (hok : s.MemOk) :
    ∀ out, execScfgWrite d val s = .next out → out.MemOk := by
  grind [execScfgWrite, State.updDie_memOk]

end Sys2Proof.Machine
end

