-- ==== Sys2Proof/Laws/KeepLight.lean ====
section
/-! SUPPORT. Every operation of Machine/Light.lean keeps the memories in their one form. -/

namespace Sys2Proof.Machine

theorem State.laneWrite_memOk (s : State) (l : Fin 8) (v : W64) (hok : s.MemOk) :
    (s.laneWrite l v).MemOk := by
  grind [State.laneWrite, State.updJoist_memOk]

theorem execLaneLight_memOk (l : Fin 8) (val : BitVec 64) (s : State) (hok : s.MemOk) :
    ∀ out, execLaneLight l val s = .next out → out.MemOk := by
  grind [execLaneLight, State.laneWrite_memOk]

theorem execLaneUnlight_memOk (l : Fin 8) (val : BitVec 64) (s : State) (hok : s.MemOk) :
    ∀ out, execLaneUnlight l val s = .next out → out.MemOk := by
  grind [execLaneUnlight, State.laneWrite_memOk]

theorem State.startSwap_memOk (s : State) (k : Fin 4) (toSpare commanded : Bool) (hok : s.MemOk) :
    (s.startSwap k toSpare commanded).MemOk := by
  grind [State.startSwap, State.updJoist_memOk]

theorem State.failComb_memOk (s : State) (k : Fin 5) (hok : s.MemOk) :
    (s.failComb k).MemOk := by
  grind [State.failComb, State.updJoist_memOk, State.startSwap_memOk]

theorem execCombFailure_memOk (x : CombLoss) (s : State) (hok : s.MemOk) :
    ∀ out, execCombFailure x s = .next out → out.MemOk := by
  obtain ⟨k, power⟩ := x
  cases power <;> grind [execCombFailure, State.failComb_memOk, State.updJoist_memOk]

theorem execCombSwap_memOk (k : Fin 4) (s : State) (hok : s.MemOk) :
    ∀ out, execCombSwap k s = .next out → out.MemOk := by
  grind [execCombSwap, State.startSwap_memOk]

theorem execCombReturn_memOk (k : Fin 4) (s : State) (hok : s.MemOk) :
    ∀ out, execCombReturn k s = .next out → out.MemOk := by
  grind [execCombReturn, State.startSwap_memOk]

theorem execCombSwapComplete_memOk (s : State) (hok : s.MemOk) :
    ∀ out, execCombSwapComplete s = .next out → out.MemOk := by
  grind [execCombSwapComplete, State.updJoist_memOk, State.updDie_memOk, State.postAll_memOk, foldl_fst_memOk,
    foldl_memOk]

theorem execCombLocked_memOk (k : Fin 5) (s : State) (hok : s.MemOk) :
    ∀ out, execCombLocked k s = .next out → out.MemOk := by
  grind [execCombLocked, State.updJoist_memOk]

theorem execCombcfgWrite_memOk (val : BitVec 64) (s : State) (hok : s.MemOk) :
    ∀ out, execCombcfgWrite val s = .next out → out.MemOk := by
  grind [execCombcfgWrite, State.updJoist_memOk]

theorem execLaserPowerLoop_memOk (power : List (BitVec 16)) (s : State) (hok : s.MemOk) :
    ∀ out, execLaserPowerLoop power s = .next out → out.MemOk := by
  grind [execLaserPowerLoop, State.updJoist_memOk, State.failComb_memOk, foldl_fst_memOk, foldl_memOk]

end Sys2Proof.Machine
end

