-- ==== Sys2Proof/Laws/KeepTiming.lean ====
section
/-! SUPPORT. Every operation of Machine/Timing.lean keeps the memories in their one form. -/

namespace Sys2Proof.Machine

theorem execDieidWrite_memOk (val : BitVec 64) (s : State) (hok : s.MemOk) :
    ∀ out, execDieidWrite val s = .next out → out.MemOk := by
  grind [execDieidWrite, State.updJoist_memOk]

theorem execDtclr_memOk (d : Fin 8) (c : Fin 16) (val : BitVec 64) (s : State) (hok : s.MemOk) :
    ∀ out, execDtclr d c val s = .next out → out.MemOk := by
  grind [execDtclr, State.updCore_memOk]

theorem State.passSlots_memOk (s : State) (g n : Nat) (hok : s.MemOk) :
    (s.passSlots g n).MemOk := by
  grind [State.passSlots, State.updCtx_memOk, State.updCore_memOk, foldl_fst_memOk, foldl_memOk]

theorem State.stepTime_memOk (s : State) (delta : BitVec 32) (hok : s.MemOk) :
    (s.stepTime delta).MemOk := by
  grind [State.stepTime, State.updJoist_memOk, State.passSlots_memOk]

theorem execAlignmentComplete_memOk (x : Unit) (s : State) (hok : s.MemOk) :
    ∀ out, execAlignmentComplete x s = .next out → out.MemOk := by
  grind [execAlignmentComplete, State.alignFail_memOk, State.askTimes_memOk, State.stepTime_memOk, State.updJoist_memOk]

theorem execSkewMeasurement_memOk (x : Unit) (s : State) (hok : s.MemOk) :
    ∀ out, execSkewMeasurement x s = .next out → out.MemOk := by
  grind [execSkewMeasurement, State.sendTime_memOk, State.updJoist_memOk]

theorem State.takeSkew_memOk (s : State) (skew : BitVec 32) (hok : s.MemOk) :
    (s.takeSkew skew).MemOk := by
  grind [State.takeSkew, State.updJoist_memOk, State.postAll_memOk]

theorem State.recordTime_memOk (s : State) (seq : BitVec 16) (t2 t3 : W64) (hok : s.MemOk) :
    (s.recordTime seq t2 t3).MemOk := by
  grind [State.recordTime, State.updJoist_memOk, State.takeSkew_memOk]

end Sys2Proof.Machine
end

