-- ==== Sys2Proof/Laws/KeepPeers.lean ====
section
/-! SUPPORT. Every operation of Machine/Peers.lean keeps the memories in their one form. -/

namespace Sys2Proof.Machine

theorem State.pumpTo_memOk (s : State) (m : BitVec 9) (hok : s.MemOk) :
    (s.pumpTo m).MemOk := by
  grind [State.pumpTo, State.pump_memOk]

theorem State.pumpAll_memOk (s : State) (hok : s.MemOk) :
    (s.pumpAll).MemOk := by
  grind [State.pumpAll, State.pumpTo_memOk, foldl_fst_memOk, foldl_memOk]

theorem State.dropReq_memOk (s : State) (r : PeerReq) (hok : s.MemOk) :
    (s.dropReq r).MemOk := by
  grind [State.dropReq, State.updJoist_memOk]

theorem State.sendArrival_memOk (s : State) (r : PeerReq) (hok : s.MemOk) :
    (s.sendArrival r).MemOk := by
  grind [State.sendArrival, State.arrival_memOk]

theorem State.answer_memOk (s : State) (r : PeerReq) (data : BitVec 2048) (poison : Bool) (hok : s.MemOk) :
    (s.answer r data poison).MemOk := by
  grind [State.answer, State.dropReq_memOk, State.sendArrival_memOk, State.recordError_memOk,
    State.updCtx_memOk, State.latePublishes_memOk, State.updOp_memOk, State.pumpTo_memOk]

theorem execPeerResponse_memOk (id : CtxId) (seq : BitVec 16) (data : BitVec 2048) (poison : Bool) (s : State) (hok : s.MemOk) :
    ∀ out, execPeerResponse id seq data poison s = .next out → out.MemOk := by
  grind [execPeerResponse, State.answer_memOk]

theorem State.refuseReq_memOk (s : State) (r : PeerReq) (noMember : Bool) (hok : s.MemOk) :
    (s.refuseReq r noMember).MemOk := by
  grind [State.refuseReq, State.dropReq_memOk, State.updCtx_memOk, State.latePublishes_memOk,
    State.postEvent_memOk, State.wake_memOk, State.updOp_memOk, State.holdOp_memOk, State.pumpTo_memOk]

theorem execPeerRefused_memOk (id : CtxId) (x : PeerRefusal) (s : State) (hok : s.MemOk) :
    ∀ out, execPeerRefused id x s = .next out → out.MemOk := by
  grind [execPeerRefused, State.refuseReq_memOk]

theorem State.performPeer_memOk (s : State) (h : FlitHead) (data : BitVec 2048) (hok : s.MemOk) :
    (s.performPeer h data).1.MemOk := by
  grind [State.performPeer, State.writeAtHome_memOk, State.recordError_memOk, State.devWrite_memOk,
    foldl_fst_memOk, foldl_memOk]

theorem State.peerRequest_memOk (s : State) (q : Fin 16) (f : Flit) (hok : s.MemOk) :
    (s.peerRequest q f).MemOk := by
  grind [State.peerRequest, State.updJoist_memOk, State.performPeer_memOk, State.pumpTo_memOk]

theorem execPeerRequest_memOk (q : Fin 16) (f : Flit) (s : State) (hok : s.MemOk) :
    ∀ out, execPeerRequest q f s = .next out → out.MemOk := by
  grind [execPeerRequest, State.peerRequest_memOk]

theorem State.postLinkdown_memOk (s : State) (q : Fin 16) (member : BitVec 9) (reason : Nat) (hok : s.MemOk) :
    (s.postLinkdown q member reason).MemOk := by
  grind [State.postLinkdown, State.postAll_memOk]

theorem State.loseReq_memOk (s : State) (q : Fin 16) (first : Bool) (r : PeerReq) (hok : s.MemOk) :
    (s.loseReq q first r).MemOk := by
  grind [State.loseReq, State.dropReq_memOk, State.updCtx_memOk, State.latePublishes_memOk, State.updOp_memOk]

theorem State.loseSend_memOk (s : State) (x : CtxId × Option (Fin 1024) × Fin 32) (first : Bool) (f : Flit) (hok : s.MemOk) :
    (s.loseSend x first f).MemOk := by
  grind [State.loseSend, State.updChan_memOk, State.updCtx_memOk, State.wake_memOk]

theorem State.loseTimes_memOk (s : State) (m : BitVec 9) (hok : s.MemOk) :
    (s.loseTimes m).MemOk := by
  grind [State.loseTimes, State.updJoist_memOk]

theorem State.linkDeath_memOk (s : State) (q : Fin 16) (reason : Nat) (hok : s.MemOk) :
    (s.linkDeath q reason).MemOk := by
  grind [State.linkDeath, State.updJoist_memOk, State.loseTimes_memOk, State.postLinkdown_memOk,
    State.place_memOk, State.dropReq_memOk, State.loseReq_memOk, State.loseSend_memOk, State.pumpAll_memOk,
    foldl_fst_memOk, foldl_memOk]

theorem execAcknowledgement_memOk (q : Fin 16) (n : BitVec 32) (s : State) (hok : s.MemOk) :
    ∀ out, execAcknowledgement q n s = .next out → out.MemOk := by
  grind [execAcknowledgement, State.updJoist_memOk, State.pumpAll_memOk]

theorem execAckTimeout_memOk (q : Fin 16) (s : State) (hok : s.MemOk) :
    ∀ out, execAckTimeout q s = .next out → out.MemOk := by
  grind [execAckTimeout, State.linkDeath_memOk]

end Sys2Proof.Machine
end

