-- ==== Sys2Proof/Laws/KeepPorts.lean ====
section
/-! SUPPORT. Every operation of Machine/Ports.lean keeps the memories in their one form. -/

namespace Sys2Proof.Machine

theorem State.epcfgWrite_memOk (s : State) (q : Fin 16) (v : W64) (hok : s.MemOk) :
    (s.epcfgWrite q v).MemOk := by
  grind [State.epcfgWrite, State.updJoist_memOk, State.linkDeath_memOk]

theorem execPortEnable_memOk (q : Fin 16) (val : BitVec 64) (s : State) (hok : s.MemOk) :
    ∀ out, execPortEnable q val s = .next out → out.MemOk := by
  grind [execPortEnable, State.epcfgWrite_memOk]

theorem execPortDisable_memOk (q : Fin 16) (val : BitVec 64) (s : State) (hok : s.MemOk) :
    ∀ out, execPortDisable q val s = .next out → out.MemOk := by
  grind [execPortDisable, State.epcfgWrite_memOk]

theorem execLinkTrained_memOk (q : Fin 16) (keysOk : Bool) (fibre : BitVec 16) (s : State) (hok : s.MemOk) :
    ∀ out, execLinkTrained q keysOk fibre s = .next out → out.MemOk := by
  grind [execLinkTrained, State.updJoist_memOk, State.postLinkdown_memOk]

theorem execTelemetrySend_memOk (q : Fin 16) (s : State) (hok : s.MemOk) :
    ∀ out, execTelemetrySend q s = .next out → out.MemOk := by
  grind [execTelemetrySend, State.updJoist_memOk, State.putFlit_memOk]

theorem State.takeTelemetry_memOk (s : State) (q : Fin 16) (srcm : BitVec 9) (margins corr : List (BitVec 16)) (hok : s.MemOk) :
    (s.takeTelemetry q srcm margins corr).MemOk := by
  grind [State.takeTelemetry, State.updJoist_memOk, State.postLinkdown_memOk, State.pumpTo_memOk]

theorem execTelemetryFlit_memOk (q : Fin 16) (srcm : BitVec 9) (margins : List (BitVec 16)) (corr : List (BitVec 16)) (s : State) (hok : s.MemOk) :
    ∀ out, execTelemetryFlit q srcm margins corr s = .next out → out.MemOk := by
  grind [execTelemetryFlit, State.takeTelemetry_memOk]

theorem execLossOfLight_memOk (q : Fin 16) (lane : Fin 34) (s : State) (hok : s.MemOk) :
    ∀ out, execLossOfLight q lane s = .next out → out.MemOk := by
  grind [execLossOfLight, State.updJoist_memOk]

theorem execGapNegotiation_memOk (q : Fin 16) (x : GapOffer) (s : State) (hok : s.MemOk) :
    ∀ out, execGapNegotiation q x s = .next out → out.MemOk := by
  grind [execGapNegotiation, State.updJoist_memOk]

theorem execLaneSwapGap_memOk (q : Fin 16) (s : State) (hok : s.MemOk) :
    ∀ out, execLaneSwapGap q s = .next out → out.MemOk := by
  grind [execLaneSwapGap, State.updJoist_memOk]

theorem execSpareTrainingDone_memOk (q : Fin 16) (ok : Bool) (s : State) (hok : s.MemOk) :
    ∀ out, execSpareTrainingDone q ok s = .next out → out.MemOk := by
  grind [execSpareTrainingDone, State.updJoist_memOk]

theorem execReclaim_memOk (q : Fin 16) (s : State) (hok : s.MemOk) :
    ∀ out, execReclaim q s = .next out → out.MemOk := by
  grind [execReclaim, State.updJoist_memOk]

theorem execLightArbitration_memOk (q : Fin 16) (s : State) (hok : s.MemOk) :
    ∀ out, execLightArbitration q s = .next out → out.MemOk := by
  grind [execLightArbitration, State.updJoist_memOk]

theorem State.answerTime_memOk (s : State) (q : Fin 16) (h : FlitHead) (hok : s.MemOk) :
    (s.answerTime q h).MemOk := by
  grind [State.answerTime, State.putFlit_memOk]

theorem State.takeFlit_memOk (s : State) (q : Fin 16) (f : Flit) (hok : s.MemOk) :
    (s.takeFlit q f).MemOk := by
  grind [State.takeFlit, State.flitArrives_memOk, State.takeTelemetry_memOk, State.answerTime_memOk,
    State.recordTime_memOk, State.updJoist_memOk, State.peerRequest_memOk, State.refuseReq_memOk,
    State.answer_memOk]

theorem execFlitReceive_memOk (q : Fin 16) (f : Flit) (x : Trailer) (s : State) (hok : s.MemOk) :
    ∀ out, execFlitReceive q f x s = .next out → out.MemOk := by
  intro out h
  unfold execFlitReceive at h
  dsimp only at h
  generalize crcGood f x.crc = good at h
  split at h
  · exact (Host.Outcome.next.inj h) ▸ hok
  · split at h
    · refine (Host.Outcome.next.inj h) ▸ ?_
      split
      · exact State.linkDeath_memOk s q 0 hok
      · exact hok
    · split at h
      · exact (Host.Outcome.next.inj h) ▸ hok
      · exact (Host.Outcome.next.inj h) ▸ State.takeFlit_memOk _ q f (State.updJoist_memOk s _ hok)

end Sys2Proof.Machine
end

