-- ==== Sys2Proof/Laws/KeepBoot.lean ====
section
/-! SUPPORT. Every operation of Machine/Boot.lean keeps the memories in their one form. -/

namespace Sys2Proof.Machine

theorem State.mbEnd_memOk (s : State) (c : MbCmd) (done err : Bool) (hok : s.MemOk) :
    (s.mbEnd c done err).MemOk := by
  grind [State.mbEnd, State.updDie_memOk, State.MemOk]

theorem State.mbWrite_memOk (s : State) (d : Fin 8) (v : W64) (hok : s.MemOk) :
    (s.mbWrite d v).MemOk := by
  grind [State.mbWrite, State.updDie_memOk, State.mbEnd_memOk, State.MemOk]

theorem State.serve_memOk (s : State) (c : MbCmd) (body : State → State) (hok : s.MemOk) (h_body : ∀ u : State, u.MemOk → (body u).MemOk) :
    (s.serve c body).MemOk := by
  grind [State.serve, State.mbEnd_memOk]

/-- A command served where it is queued. -/
theorem State.serveAt_memOk (s : State) (o : Option MbCmd) (body : MbCmd → State → State) (hok : s.MemOk)
    (h_body : ∀ c, ∀ u : State, u.MemOk → (body c u).MemOk) : ((o.map fun c => s.serve c (body c)).getD s).MemOk := by
  cases o with
  | none => exact hok
  | some c => exact State.serve_memOk s c (body c) hok (h_body c)

theorem execAttest_memOk (d : Fin 8) (seq : BitVec 16) (s : State) (hok : s.MemOk) :
    ∀ out, execAttest d seq s = .next out → out.MemOk := by
  intro out h
  unfold execAttest at h
  cases h
  refine State.serveAt_memOk s _ _ hok fun c u hu => ?_
  dsimp only
  generalize hx : State.mbEnd _ _ _ _ = v
  have hv : v.MemOk := by rw [← hx]; grind [State.mbEnd_memOk, State.updDie_memOk]
  exact ⟨hv.1, hv.2⟩

theorem execExtend_memOk (d : Fin 8) (seq : BitVec 16) (s : State) (hok : s.MemOk) :
    ∀ out, execExtend d seq s = .next out → out.MemOk := by
  intro out h
  unfold execExtend at h
  cases h
  refine State.serveAt_memOk s _ _ hok fun c u hu => ?_
  dsimp only
  generalize hx : State.mbEnd _ _ _ _ = v
  have hv : v.MemOk := by rw [← hx]; grind [State.mbEnd_memOk, State.updDie_memOk]
  exact ⟨hv.1, hv.2⟩

theorem execCert_memOk (d : Fin 8) (chunk : BitVec 8) (seq : BitVec 16) (s : State) (hok : s.MemOk) :
    ∀ out, execCert d chunk seq s = .next out → out.MemOk := by
  intro out h
  unfold execCert at h
  cases h
  refine State.serveAt_memOk s _ _ hok fun c u hu => ?_
  generalize hx : State.mbEnd _ _ _ _ = v
  have hv : v.MemOk := by rw [← hx]; grind [State.mbEnd_memOk, State.updDie_memOk]
  exact hv

theorem State.enterSafe_memOk (s : State) (stage : BitVec 8) (d : Fin 8) (unit : BitVec 5) (detail : BitVec 48) (hok : s.MemOk) :
    (s.enterSafe stage d unit detail).MemOk := by
  grind [State.enterSafe, State.updJoist_memOk, State.postEvent_memOk, State.MemOk, foldl_fst_memOk, foldl_memOk]

theorem execResetRelease_memOk (sigOk verOk : Bool) (s : State) (hok : s.MemOk) :
    ∀ out, execResetRelease sigOk verOk s = .next out → out.MemOk := by
  grind [execResetRelease, State.enterSafe_memOk, State.MemOk]

theorem State.zeroRegion_memOk (s : State) (r : Region) (hok : s.MemOk) :
    (s.zeroRegion r).MemOk := by
  exact ⟨memWf_filter _ hok.1, hok.2⟩

theorem execSelftestStageDone_memOk (ok : Bool) (d : Fin 8) (unit : BitVec 5) (detail : BitVec 48) (s : State) (hok : s.MemOk) :
    ∀ out, execSelftestStageDone ok d unit detail s = .next out → out.MemOk := by
  grind [execSelftestStageDone, State.enterSafe_memOk, State.zeroRegion_memOk, State.updJoist_memOk, State.MemOk]

theorem State.packageReset_memOk (s : State) (hok : s.MemOk) :
    (s.packageReset).MemOk := by
  unfold State.packageReset
  split
  · exact ⟨rfl, hok.2⟩
  · exact hok

theorem execPcieFundamentalReset_memOk (s : State) (hok : s.MemOk) :
    ∀ out, execPcieFundamentalReset s = .next out → out.MemOk := by
  grind [execPcieFundamentalReset, State.packageReset_memOk]

theorem execSmbusReset_memOk (s : State) (hok : s.MemOk) :
    ∀ out, execSmbusReset s = .next out → out.MemOk := by
  grind [execSmbusReset, State.packageReset_memOk]

theorem execIdeKm_memOk (enable : Bool) (stream : BitVec 1) (s : State) (hok : s.MemOk) :
    ∀ out, execIdeKm enable stream s = .next out → out.MemOk := by
  grind [execIdeKm, State.MemOk]

end Sys2Proof.Machine
end

