-- ==== Sys2Proof/Laws/KeepRegs.lean ====
section
/-! SUPPORT. Every operation of Machine/Regs.lean keeps the memories in their one form. -/

namespace Sys2Proof.Machine

theorem afterEvent_memOk (f : State → Out) (s : State) (hok : s.MemOk) (h_f : ∀ t, f s = .next t → t.MemOk) :
    (afterEvent f s).MemOk := by
  grind [afterEvent]

theorem State.scmdWrite_memOk (s : State) (d : Fin 8) (v : W64) (hok : s.MemOk) :
    (s.scmdWrite d v).MemOk := by
  grind [State.scmdWrite, afterEvent_memOk, execSuspend_memOk, execResume_memOk, execEndTask_memOk,
    State.schedFail_memOk, execEndq_memOk]

theorem State.combcmdWrite_memOk (s : State) (v : W64) (hok : s.MemOk) :
    (s.combcmdWrite v).MemOk := by
  grind [State.combcmdWrite, afterEvent_memOk, execCombSwap_memOk, execCombReturn_memOk]

theorem State.dieRegWrite_memOk (s : State) (d : Fin 8) (r : DieReg) (v : W64) (hok : s.MemOk) :
    (s.dieRegWrite d r v).MemOk := by
  unfold State.dieRegWrite
  try dsimp only
  repeat' split
  all_goals grind [afterEvent_memOk, execDieidWrite_memOk, State.updDie_memOk, State.updQueue_memOk,
    execQcfgWrite_memOk, execQkick_memOk, execPbtabWrite_memOk, execPbcfgWrite_memOk, execKvcfgWrite_memOk,
    execKvfrposWrite_memOk, execKvrlposWrite_memOk, State.scmdWrite_memOk, execScfgWrite_memOk,
    State.startInv_memOk, State.assign_memOk, execBscfgWrite_memOk, State.updCore_memOk, execDtclr_memOk,
    State.updChan_memOk, State.mbWrite_memOk]

theorem State.joistRegWrite_memOk (s : State) (r : JoistReg) (v : W64) (hok : s.MemOk) :
    (s.joistRegWrite r v).MemOk := by
  unfold State.joistRegWrite
  try dsimp only
  repeat' split
  all_goals grind [State.laneWrite_memOk, State.updJoist_memOk, State.rmanWrite_memOk, State.rmannxWrite_memOk,
    State.rgovWrite_memOk, State.pumpAll_memOk, State.groupWrite_memOk, afterEvent_memOk,
    execCombcfgWrite_memOk, State.combcmdWrite_memOk, State.epcfgWrite_memOk]

theorem State.msixWrite_memOk (s : State) (n : Fin 64) (h : Fin 2) (v : W64) (hok : s.MemOk) :
    (s.msixWrite n h v).MemOk := by
  grind [State.msixWrite, State.sendMsix_memOk, State.MemOk]

theorem State.regPut_memOk (s : State) (r : Reg) (v : W64) (hok : s.MemOk) :
    (s.regPut r v).MemOk := by
  unfold State.regPut
  try dsimp only
  repeat' split
  all_goals grind [State.dieRegWrite_memOk, State.joistRegWrite_memOk, State.msixWrite_memOk]

theorem State.regWrite_memOk (s : State) (r : Reg) (v mask : W64) (hok : s.MemOk) :
    (s.regWrite r v mask).MemOk := by
  grind [State.regWrite, State.regPut_memOk]

theorem State.ctrlWrite_memOk (s : State) (off : Nat) (wide : Bool) (v : W64) (hok : s.MemOk) :
    (s.ctrlWrite off wide v).MemOk := by
  grind [State.ctrlWrite, State.regWrite_memOk]

theorem State.joistTurn_memOk (s : State) (d : Fin 8) (hok : s.MemOk) :
    (s.joistTurn d).MemOk := by
  grind [State.joistTurn, State.advance_memOk, State.updJoist_memOk]

theorem execRegisterWrite_memOk (x : RegWrite) (val : BitVec 64) (wide : Bool) (s : State) (hok : s.MemOk) :
    ∀ out, execRegisterWrite x val wide s = .next out → out.MemOk := by
  intro out h
  unfold execRegisterWrite at h
  dsimp only at h
  refine (Host.Outcome.next.inj h) ▸ ?_
  split
  · refine State.ctrlWrite_memOk _ _ wide val ?_
    split
    · exact State.joistTurn_memOk s x.die hok
    · exact hok
  · exact hok

end Sys2Proof.Machine
end

