-- ==== Sys2Proof/Laws/KeepHostBus.lean ====
section
/-! SUPPORT. Every operation of Machine/HostBus.lean keeps the memories in their one form. -/

namespace Sys2Proof.Machine

theorem State.badPacket_memOk (s : State) (bar2 : Bool) (off reason first : Nat) (hok : s.MemOk) :
    (s.badPacket bar2 off reason first).MemOk := by
  grind [State.badPacket, State.postEvent_memOk]

theorem State.barWrite_memOk (s : State) (bar2 : Bool) (off : Nat) (data : List Byte) (hok : s.MemOk) :
    (s.barWrite bar2 off data).MemOk := by
  grind [State.barWrite, State.regWrite_memOk]

theorem execHostInboundWrite_memOk (bar2 : Bool) (off : BitVec 36) (data : List (BitVec 8)) (poisoned inStream : Bool) (s : State) (hok : s.MemOk) :
    ∀ out, execHostInboundWrite bar2 off data poisoned inStream s = .next out → out.MemOk := by
  grind [execHostInboundWrite, State.badPacket_memOk, State.barWrite_memOk, State.updDie_memOk]

theorem execHostAtomicop_memOk (bar2 : Bool) (off : BitVec 36) (size : AtomicSize) (op : HostAtomic) (inStream : Bool) (s : State) (hok : s.MemOk) :
    ∀ out, execHostAtomicop bar2 off size op inStream s = .next out → out.MemOk := by
  grind [execHostAtomicop, State.badPacket_memOk, State.regWrite_memOk]

end Sys2Proof.Machine
end

