-- ==== Sys2Proof/Laws/KeepProgress.lean ====
section
/-! SUPPORT. Every operation of Machine/Progress.lean keeps the memories in their one form. -/

namespace Sys2Proof.Machine

theorem Auto.run_memOk (e : Auto) (s : State) (hok : s.MemOk) :
    ∀ out, Auto.run e s = .next out → out.MemOk := by
  unfold Auto.run
  try dsimp only
  repeat' split
  all_goals grind [execKvRequestDone_memOk, execLoadDelivery_memOk, execTrapDelivery_memOk,
    execBtwaitTimeout_memOk, execBarrierPoll_memOk, execPinmaxExpiry_memOk, execWatchdog_memOk,
    execSlotGuardExpiry_memOk, execWindowFirstSymbol_memOk, State.windowResult_memOk, execWindowResult_memOk,
    execXcalComplete_memOk, execFreezeEnd_memOk, execKvmigComplete_memOk, execEngineOperationComplete_memOk,
    execEnginePieceFault_memOk, execDescriptorFetch_memOk, execSequenceRetry_memOk, execDependencyPoll_memOk,
    State.completionAction_memOk, execCompletionAction_memOk, execTaskDispatch_memOk, execPreemptionSave_memOk,
    execRingTileArrival_memOk, execTileRepairDone_memOk, execDwellLimit_memOk, execModulatorWindowStart_memOk,
    execTlbinvDone_memOk, execTelemetrySend_memOk, execAckTimeout_memOk, execLightArbitration_memOk,
    execLaneSwapGap_memOk, execAttest_memOk, execExtend_memOk, execCert_memOk, execChannelFlitArrival_memOk,
    execSegmentBoundary_memOk, execCombSwapComplete_memOk, execCollectiveInstanceStart_memOk,
    execNoticeEntry_memOk, execAlignmentComplete_memOk, execSkewMeasurement_memOk, execSpareTrainingDone_memOk,
    execRegionCommit_memOk]

theorem State.happen_memOk (s : State) (e : Soon) (hok : s.MemOk) :
    ∀ out, s.happen e = .next out → out.MemOk := by
  have h : ({ s.advance e.cycle with taken := none } : State).MemOk := hok
  intro out ho
  unfold State.happen at ho
  exact Auto.run_memOk _ _ h out ho

theorem State.tick_memOk (s : State) (hok : s.MemOk) :
    (s.tick).MemOk := by
  grind [State.tick, State.advance_memOk]

end Sys2Proof.Machine
end

