-- ==== Sys2Proof/Laws/PerInstr.lean ====
section
/-! SUPPORT. For each instruction: it encodes exactly when it has a code word, so that a hardware event has
none. -/

namespace Sys2Proof.Laws

/-- An instruction encodes to a word exactly when a unit issues it. -/
def F.Statement (i : Instr) : Prop := (encode i).isSome = i.codeUnit.isSome

theorem F.add (g : BitVec 4) (d : BitVec 6) (a : BitVec 6) (b : BitVec 6) : F.Statement (.add g d a b) := rfl
theorem F.sub (g : BitVec 4) (d : BitVec 6) (a : BitVec 6) (b : BitVec 6) : F.Statement (.sub g d a b) := rfl
theorem F.mul (g : BitVec 4) (d : BitVec 6) (a : BitVec 6) (b : BitVec 6) : F.Statement (.mul g d a b) := rfl
theorem F.mulh (g : BitVec 4) (d : BitVec 6) (a : BitVec 6) (b : BitVec 6) (f : BitVec 3) : F.Statement (.mulh g d a b f) := rfl
theorem F.div (g : BitVec 4) (d : BitVec 6) (a : BitVec 6) (b : BitVec 6) (f : BitVec 3) : F.Statement (.div g d a b f) := rfl
theorem F.rem (g : BitVec 4) (d : BitVec 6) (a : BitVec 6) (b : BitVec 6) (f : BitVec 3) : F.Statement (.rem g d a b f) := rfl
theorem F.and (g : BitVec 4) (d : BitVec 6) (a : BitVec 6) (b : BitVec 6) : F.Statement (.and g d a b) := rfl
theorem F.or (g : BitVec 4) (d : BitVec 6) (a : BitVec 6) (b : BitVec 6) : F.Statement (.or g d a b) := rfl
theorem F.xor (g : BitVec 4) (d : BitVec 6) (a : BitVec 6) (b : BitVec 6) : F.Statement (.xor g d a b) := rfl
theorem F.andn (g : BitVec 4) (d : BitVec 6) (a : BitVec 6) (b : BitVec 6) : F.Statement (.andn g d a b) := rfl
theorem F.shl (g : BitVec 4) (d : BitVec 6) (a : BitVec 6) (b : BitVec 6) : F.Statement (.shl g d a b) := rfl
theorem F.shr (g : BitVec 4) (d : BitVec 6) (a : BitVec 6) (b : BitVec 6) : F.Statement (.shr g d a b) := rfl
theorem F.sra (g : BitVec 4) (d : BitVec 6) (a : BitVec 6) (b : BitVec 6) : F.Statement (.sra g d a b) := rfl
theorem F.min (g : BitVec 4) (d : BitVec 6) (a : BitVec 6) (b : BitVec 6) (f : BitVec 3) : F.Statement (.min g d a b f) := rfl
theorem F.max (g : BitVec 4) (d : BitVec 6) (a : BitVec 6) (b : BitVec 6) (f : BitVec 3) : F.Statement (.max g d a b f) := rfl
theorem F.sel (g : BitVec 4) (d : BitVec 6) (a : BitVec 6) (b : BitVec 6) (p : BitVec 3) : F.Statement (.sel g d a b p) := rfl
theorem F.addi (g : BitVec 4) (d : BitVec 6) (a : BitVec 6) (i : BitVec 9) : F.Statement (.addi g d a i) := rfl
theorem F.andi (g : BitVec 4) (d : BitVec 6) (a : BitVec 6) (i : BitVec 9) : F.Statement (.andi g d a i) := rfl
theorem F.ori (g : BitVec 4) (d : BitVec 6) (a : BitVec 6) (i : BitVec 9) : F.Statement (.ori g d a i) := rfl
theorem F.xori (g : BitVec 4) (d : BitVec 6) (a : BitVec 6) (i : BitVec 9) : F.Statement (.xori g d a i) := rfl
theorem F.shli (g : BitVec 4) (d : BitVec 6) (a : BitVec 6) (i : BitVec 9) : F.Statement (.shli g d a i) := rfl
theorem F.shri (g : BitVec 4) (d : BitVec 6) (a : BitVec 6) (i : BitVec 9) : F.Statement (.shri g d a i) := rfl
theorem F.srai (g : BitVec 4) (d : BitVec 6) (a : BitVec 6) (i : BitVec 9) : F.Statement (.srai g d a i) := rfl
theorem F.movi (g : BitVec 4) (d : BitVec 6) (i : BitVec 15) : F.Statement (.movi g d i) := rfl
theorem F.movh (g : BitVec 4) (d : BitVec 6) (i : BitVec 15) : F.Statement (.movh g d i) := rfl
theorem F.clz (g : BitVec 4) (d : BitVec 6) (a : BitVec 6) : F.Statement (.clz g d a) := rfl
theorem F.ctz (g : BitVec 4) (d : BitVec 6) (a : BitVec 6) : F.Statement (.ctz g d a) := rfl
theorem F.popc (g : BitVec 4) (d : BitVec 6) (a : BitVec 6) : F.Statement (.popc g d a) := rfl
theorem F.sext (g : BitVec 4) (d : BitVec 6) (a : BitVec 6) (w : BitVec 9) : F.Statement (.sext g d a w) := rfl
theorem F.zext (g : BitVec 4) (d : BitVec 6) (a : BitVec 6) (w : BitVec 9) : F.Statement (.zext g d a w) := rfl
theorem F.cmp (g : BitVec 4) (p : BitVec 4) (a : BitVec 6) (b : BitVec 6) (c : BitVec 3) : F.Statement (.cmp g p a b c) := rfl
theorem F.cmpi (g : BitVec 4) (p : BitVec 4) (a : BitVec 6) (i : BitVec 6) (c : BitVec 3) : F.Statement (.cmpi g p a i c) := rfl
theorem F.lea (g : BitVec 4) (d : BitVec 4) (a : BitVec 4) (b : BitVec 6) (h : BitVec 3) : F.Statement (.lea g d a b h) := rfl
theorem F.amov (g : BitVec 4) (d : BitVec 4) (a : BitVec 6) : F.Statement (.amov g d a) := rfl
theorem F.agetA (g : BitVec 4) (d : BitVec 6) (a : BitVec 4) : F.Statement (.agetA g d a) := rfl
theorem F.agetD (g : BitVec 4) (d : BitVec 6) (a : BitVec 4) : F.Statement (.agetD g d a) := rfl
theorem F.dset (g : BitVec 4) (d : BitVec 4) (a : BitVec 6) : F.Statement (.dset g d a) := rfl
theorem F.aadd (g : BitVec 4) (d : BitVec 4) (a : BitVec 4) (i : BitVec 9) : F.Statement (.aadd g d a i) := rfl
theorem F.pand (g : BitVec 4) (d : BitVec 4) (a : BitVec 4) (b : BitVec 4) : F.Statement (.pand g d a b) := rfl
theorem F.por (g : BitVec 4) (d : BitVec 4) (a : BitVec 4) (b : BitVec 4) : F.Statement (.por g d a b) := rfl
theorem F.pxor (g : BitVec 4) (d : BitVec 4) (a : BitVec 4) (b : BitVec 4) : F.Statement (.pxor g d a b) := rfl
theorem F.pnot (g : BitVec 4) (d : BitVec 4) (a : BitVec 4) : F.Statement (.pnot g d a) := rfl
theorem F.pmov (g : BitVec 4) (d : BitVec 4) (a : BitVec 4) : F.Statement (.pmov g d a) := rfl
theorem F.psetConst (g : BitVec 4) (d : BitVec 4) (v : BitVec 1) : F.Statement (.psetConst g d v) := rfl
theorem F.psetScalar (g : BitVec 4) (d : BitVec 4) (a : BitVec 6) : F.Statement (.psetScalar g d a) := rfl
theorem F.psetBit (g : BitVec 4) (d : BitVec 4) (a : BitVec 6) (n : BitVec 6) : F.Statement (.psetBit g d a n) := rfl
theorem F.br (g : BitVec 4) (p : BitVec 4) (n : BitVec 1) (o : BitVec 16) : F.Statement (.br g p n o) := rfl
theorem F.jmp (g : BitVec 4) (a : BitVec 4) (o : BitVec 16) : F.Statement (.jmp g a o) := rfl
theorem F.call (g : BitVec 4) (l : BitVec 5) (o : BitVec 16) : F.Statement (.call g l o) := rfl
theorem F.ret (g : BitVec 4) (l : BitVec 5) : F.Statement (.ret g l) := rfl
theorem F.loop (g : BitVec 4) (n : BitVec 2) (o : BitVec 16) : F.Statement (.loop g n o) := rfl
theorem F.mloop (g : BitVec 4) (o : BitVec 16) : F.Statement (.mloop g o) := rfl
theorem F.lexit (g : BitVec 4) (n : BitVec 2) (o : BitVec 16) : F.Statement (.lexit g n o) := rfl
theorem F.pin (g : BitVec 4) : F.Statement (.pin g) := rfl
theorem F.unpin (g : BitVec 4) : F.Statement (.unpin g) := rfl
theorem F.yield (g : BitVec 4) : F.Statement (.yield g) := rfl
theorem F.halt (g : BitVec 4) : F.Statement (.halt g) := rfl
theorem F.trap (g : BitVec 4) (k : BitVec 16) : F.Statement (.trap g k) := rfl
theorem F.csrr (g : BitVec 4) (d : BitVec 6) (k : BitVec 12) : F.Statement (.csrr g d k) := rfl
theorem F.csrw (g : BitVec 4) (d : BitVec 6) (k : BitVec 12) : F.Statement (.csrw g d k) := rfl
theorem F.widf (g : BitVec 4) (d : BitVec 6) (k : BitVec 3) : F.Statement (.widf g d k) := rfl
theorem F.gtime (g : BitVec 4) (d : BitVec 6) : F.Statement (.gtime g d) := rfl
theorem F.realign (g : BitVec 4) (d : BitVec 6) : F.Statement (.realign g d) := rfl
theorem F.tshapeImm (g : BitVec 4) (t : BitVec 4) (r : BitVec 6) (c : BitVec 6) (f : BitVec 3) : F.Statement (.tshapeImm g t r c f) := rfl
theorem F.tshapeReg (g : BitVec 4) (t : BitVec 4) (n : BitVec 6) : F.Statement (.tshapeReg g t n) := rfl
theorem F.tvalid (g : BitVec 4) (t : BitVec 4) (r : BitVec 6) (c : BitVec 6) : F.Statement (.tvalid g t r c) := rfl
theorem F.ftsetAbs (g : BitVec 4) (d : BitVec 6) (n : BitVec 4) : F.Statement (.ftsetAbs g d n) := rfl
theorem F.ftsetCur (g : BitVec 4) (d : BitVec 6) (n : BitVec 4) : F.Statement (.ftsetCur g d n) := rfl
theorem F.fbaseImm (g : BitVec 4) (n : BitVec 4) : F.Statement (.fbaseImm g n) := rfl
theorem F.fbaseReg (g : BitVec 4) (d : BitVec 6) : F.Statement (.fbaseReg g d) := rfl
theorem F.pkset (g : BitVec 4) (d : BitVec 6) : F.Statement (.pkset g d) := rfl
theorem F.pksetKey (g : BitVec 4) (k : BitVec 5) (r : BitVec 1) (w : BitVec 1) : F.Statement (.pksetKey g k r w) := rfl
theorem F.xpset (g : BitVec 4) (d : BitVec 6) (n : BitVec 3) : F.Statement (.xpset g d n) := rfl
theorem F.beat (g : BitVec 4) : F.Statement (.beat g) := rfl
theorem F.uiret (g : BitVec 4) : F.Statement (.uiret g) := rfl
theorem F.ld (g : BitVec 4) (d : BitVec 6) (r : BitVec 4) (m : BitVec 2) (f : BitVec 1) (s : BitVec 1) (z : BitVec 2) (x : BitVec 5) : F.Statement (.ld g d r m f s z x) := rfl
theorem F.st (g : BitVec 4) (d : BitVec 6) (r : BitVec 4) (m : BitVec 2) (f : BitVec 1) (z : BitVec 2) (x : BitVec 5) : F.Statement (.st g d r m f z x) := rfl
theorem F.lld (g : BitVec 4) (d : BitVec 5) (r : BitVec 4) (m : BitVec 2) (f : BitVec 1) (x : BitVec 5) : F.Statement (.lld g d r m f x) := rfl
theorem F.lst (g : BitVec 4) (d : BitVec 5) (r : BitVec 4) (m : BitVec 2) (f : BitVec 1) (x : BitVec 5) : F.Statement (.lst g d r m f x) := rfl
theorem F.pref (g : BitVec 4) (r : BitVec 4) (m : BitVec 2) (z : BitVec 2) (x : BitVec 5) : F.Statement (.pref g r m z x) := rfl
theorem F.tld (g : BitVec 4) (t : BitVec 4) (q : BitVec 2) (r : BitVec 4) (m : BitVec 2) (s : BitVec 6) (f : BitVec 3) : F.Statement (.tld g t q r m s f) := rfl
theorem F.tst (g : BitVec 4) (t : BitVec 4) (q : BitVec 2) (r : BitVec 4) (m : BitVec 2) (s : BitVec 6) (f : BitVec 3) : F.Statement (.tst g t q r m s f) := rfl
theorem F.tldg (g : BitVec 4) (t : BitVec 4) (q : BitVec 2) (r : BitVec 4) (m : BitVec 2) (s : BitVec 5) (f : BitVec 3) : F.Statement (.tldg g t q r m s f) := rfl
theorem F.tsts (g : BitVec 4) (t : BitVec 4) (q : BitVec 2) (r : BitVec 4) (m : BitVec 2) (s : BitVec 5) (f : BitVec 3) : F.Statement (.tsts g t q r m s f) := rfl
theorem F.kvld (g : BitVec 4) (t : BitVec 4) (q : BitVec 2) (r : BitVec 4) (s : BitVec 6) (c : BitVec 3) : F.Statement (.kvld g t q r s c) := rfl
theorem F.kvapp (g : BitVec 4) (t : BitVec 4) (r : BitVec 4) (s : BitVec 6) : F.Statement (.kvapp g t r s) := rfl
theorem F.kvfree (g : BitVec 4) (r : BitVec 4) (s : BitVec 6) : F.Statement (.kvfree g r s) := rfl
theorem F.amo (g : BitVec 4) (d : BitVec 6) (r : BitVec 4) (f : BitVec 2) (b : BitVec 5) (z : BitVec 1) (o : BitVec 3) : F.Statement (.amo g d r f b z o) := rfl
theorem F.cas (g : BitVec 4) (d : BitVec 6) (r : BitVec 4) (f : BitVec 2) (b : BitVec 5) (z : BitVec 1) : F.Statement (.cas g d r f b z) := rfl
theorem F.famo (g : BitVec 4) (d : BitVec 6) (r : BitVec 4) (f : BitVec 2) (b : BitVec 5) (o : BitVec 3) : F.Statement (.famo g d r f b o) := rfl
theorem F.red (g : BitVec 4) (r : BitVec 4) (f : BitVec 1) (b : BitVec 6) (z : BitVec 1) (o : BitVec 3) : F.Statement (.red g r f b z o) := rfl
theorem F.fred (g : BitVec 4) (r : BitVec 4) (f : BitVec 1) (b : BitVec 6) (o : BitVec 3) : F.Statement (.fred g r f b o) := rfl
theorem F.redb (g : BitVec 4) (r : BitVec 4) (f : BitVec 1) (b : BitVec 6) (z : BitVec 1) (o : BitVec 3) (q : BitVec 4) : F.Statement (.redb g r f b z o q) := rfl
theorem F.fredb (g : BitVec 4) (r : BitVec 4) (f : BitVec 1) (b : BitVec 6) (o : BitVec 3) (q : BitVec 4) : F.Statement (.fredb g r f b o q) := rfl
theorem F.fence (g : BitVec 4) (k : BitVec 3) (s : BitVec 1) : F.Statement (.fence g k s) := rfl
theorem F.barinit (g : BitVec 4) (r : BitVec 4) (b : BitVec 6) : F.Statement (.barinit g r b) := rfl
theorem F.arrive (g : BitVec 4) (d : BitVec 6) (r : BitVec 4) : F.Statement (.arrive g d r) := rfl
theorem F.bwait (g : BitVec 4) (d : BitVec 6) (r : BitVec 4) : F.Statement (.bwait g d r) := rfl
theorem F.btwait (g : BitVec 4) (d : BitVec 6) (r : BitVec 4) (b : BitVec 6) : F.Statement (.btwait g d r b) := rfl
theorem F.pub (g : BitVec 4) (d : BitVec 6) (r : BitVec 4) : F.Statement (.pub g d r) := rfl
theorem F.tadd (g : BitVec 4) (d : BitVec 4) (a : BitVec 4) (b : BitVec 4) (c : BitVec 4) (r : BitVec 3) (s : BitVec 1) (m : BitVec 1) : F.Statement (.tadd g d a b c r s m) := rfl
theorem F.tsub (g : BitVec 4) (d : BitVec 4) (a : BitVec 4) (b : BitVec 4) (c : BitVec 4) (r : BitVec 3) (s : BitVec 1) (m : BitVec 1) : F.Statement (.tsub g d a b c r s m) := rfl
theorem F.tmul (g : BitVec 4) (d : BitVec 4) (a : BitVec 4) (b : BitVec 4) (c : BitVec 4) (r : BitVec 3) (s : BitVec 1) (m : BitVec 1) : F.Statement (.tmul g d a b c r s m) := rfl
theorem F.tmin (g : BitVec 4) (d : BitVec 4) (a : BitVec 4) (b : BitVec 4) (c : BitVec 4) (r : BitVec 3) (s : BitVec 1) (m : BitVec 1) : F.Statement (.tmin g d a b c r s m) := rfl
theorem F.tmax (g : BitVec 4) (d : BitVec 4) (a : BitVec 4) (b : BitVec 4) (c : BitVec 4) (r : BitVec 3) (s : BitVec 1) (m : BitVec 1) : F.Statement (.tmax g d a b c r s m) := rfl
theorem F.tfma (g : BitVec 4) (d : BitVec 4) (a : BitVec 4) (b : BitVec 4) (c : BitVec 4) (r : BitVec 3) (s : BitVec 1) : F.Statement (.tfma g d a b c r s) := rfl
theorem F.tfms (g : BitVec 4) (d : BitVec 4) (a : BitVec 4) (b : BitVec 4) (c : BitVec 4) (r : BitVec 3) (s : BitVec 1) : F.Statement (.tfms g d a b c r s) := rfl
theorem F.tabs (g : BitVec 4) (d : BitVec 4) (a : BitVec 4) (c : BitVec 4) (r : BitVec 3) (s : BitVec 1) (m : BitVec 1) : F.Statement (.tabs g d a c r s m) := rfl
theorem F.tneg (g : BitVec 4) (d : BitVec 4) (a : BitVec 4) (c : BitVec 4) (r : BitVec 3) (s : BitVec 1) (m : BitVec 1) : F.Statement (.tneg g d a c r s m) := rfl
theorem F.tcpy (g : BitVec 4) (d : BitVec 4) (a : BitVec 4) (c : BitVec 4) (m : BitVec 1) : F.Statement (.tcpy g d a c m) := rfl
theorem F.tscale (g : BitVec 4) (d : BitVec 4) (a : BitVec 4) (b : BitVec 4) (c : BitVec 4) (r : BitVec 3) (s : BitVec 1) (m : BitVec 1) : F.Statement (.tscale g d a b c r s m) := rfl
theorem F.tclamp (g : BitVec 4) (d : BitVec 4) (a : BitVec 4) (b : BitVec 4) (c : BitVec 4) (r : BitVec 3) (s : BitVec 1) : F.Statement (.tclamp g d a b c r s) := rfl
theorem F.tcmp (g : BitVec 4) (d : BitVec 3) (a : BitVec 4) (b : BitVec 4) (c : BitVec 4) (k : BitVec 3) (m : BitVec 1) : F.Statement (.tcmp g d a b c k m) := rfl
theorem F.tsel (g : BitVec 4) (d : BitVec 4) (a : BitVec 4) (b : BitVec 4) (c : BitVec 4) : F.Statement (.tsel g d a b c) := rfl
theorem F.tcvt (g : BitVec 4) (d : BitVec 4) (a : BitVec 4) (c : BitVec 4) (r : BitVec 3) (s : BitVec 1) (m : BitVec 1) : F.Statement (.tcvt g d a c r s m) := rfl
theorem F.tbcast (g : BitVec 4) (d : BitVec 4) (a : BitVec 4) (c : BitVec 4) (r : BitVec 3) (s : BitVec 1) (m : BitVec 1) : F.Statement (.tbcast g d a c r s m) := rfl
theorem F.tiadd (g : BitVec 4) (d : BitVec 4) (a : BitVec 4) (b : BitVec 4) (s : BitVec 1) (u : BitVec 1) (k : BitVec 3) (m : BitVec 1) : F.Statement (.tiadd g d a b s u k m) := rfl
theorem F.tisub (g : BitVec 4) (d : BitVec 4) (a : BitVec 4) (b : BitVec 4) (s : BitVec 1) (u : BitVec 1) (k : BitVec 3) (m : BitVec 1) : F.Statement (.tisub g d a b s u k m) := rfl
theorem F.timul (g : BitVec 4) (d : BitVec 4) (a : BitVec 4) (b : BitVec 4) (s : BitVec 1) (u : BitVec 1) (k : BitVec 3) (m : BitVec 1) : F.Statement (.timul g d a b s u k m) := rfl
theorem F.tand (g : BitVec 4) (d : BitVec 4) (a : BitVec 4) (b : BitVec 4) (u : BitVec 1) (k : BitVec 3) (m : BitVec 1) : F.Statement (.tand g d a b u k m) := rfl
theorem F.tor (g : BitVec 4) (d : BitVec 4) (a : BitVec 4) (b : BitVec 4) (u : BitVec 1) (k : BitVec 3) (m : BitVec 1) : F.Statement (.tor g d a b u k m) := rfl
theorem F.txor (g : BitVec 4) (d : BitVec 4) (a : BitVec 4) (b : BitVec 4) (u : BitVec 1) (k : BitVec 3) (m : BitVec 1) : F.Statement (.txor g d a b u k m) := rfl
theorem F.tshl (g : BitVec 4) (d : BitVec 4) (a : BitVec 4) (b : BitVec 4) (u : BitVec 1) (k : BitVec 3) (m : BitVec 1) : F.Statement (.tshl g d a b u k m) := rfl
theorem F.tshr (g : BitVec 4) (d : BitVec 4) (a : BitVec 4) (b : BitVec 4) (u : BitVec 1) (k : BitVec 3) (m : BitVec 1) : F.Statement (.tshr g d a b u k m) := rfl
theorem F.trget (g : BitVec 4) (t : BitVec 4) (v : BitVec 5) (s : BitVec 6) (i : BitVec 6) : F.Statement (.trget g t v s i) := rfl
theorem F.trput (g : BitVec 4) (t : BitVec 4) (v : BitVec 5) (s : BitVec 6) (i : BitVec 6) : F.Statement (.trput g t v s i) := rfl
theorem F.tcget (g : BitVec 4) (t : BitVec 4) (v : BitVec 5) (s : BitVec 6) (i : BitVec 6) : F.Statement (.tcget g t v s i) := rfl
theorem F.tcput (g : BitVec 4) (t : BitVec 4) (v : BitVec 5) (s : BitVec 6) (i : BitVec 6) : F.Statement (.tcput g t v s i) := rfl
theorem F.ttr (g : BitVec 4) (t : BitVec 4) (a : BitVec 4) : F.Statement (.ttr g t a) := rfl
theorem F.tbrow (g : BitVec 4) (t : BitVec 4) (v : BitVec 5) : F.Statement (.tbrow g t v) := rfl
theorem F.tbcol (g : BitVec 4) (t : BitVec 4) (v : BitVec 5) : F.Statement (.tbcol g t v) := rfl
theorem F.tzero (g : BitVec 4) (t : BitVec 4) (s : BitVec 6) : F.Statement (.tzero g t s) := rfl
theorem F.tredr (g : BitVec 4) (d : BitVec 4) (a : BitVec 4) (k : BitVec 3) (o : BitVec 4) (r : BitVec 3) (s : BitVec 1) (m : BitVec 1) : F.Statement (.tredr g d a k o r s m) := rfl
theorem F.tredc (g : BitVec 4) (d : BitVec 4) (a : BitVec 4) (k : BitVec 3) (o : BitVec 4) (r : BitVec 3) (s : BitVec 1) (m : BitVec 1) : F.Statement (.tredc g d a k o r s m) := rfl
theorem F.tred (g : BitVec 4) (d : BitVec 4) (a : BitVec 4) (k : BitVec 3) (o : BitVec 4) (r : BitVec 3) (s : BitVec 1) (m : BitVec 1) : F.Statement (.tred g d a k o r s m) := rfl
theorem F.tscan (g : BitVec 4) (d : BitVec 4) (a : BitVec 4) (k : BitVec 3) (o : BitVec 4) (r : BitVec 3) (s : BitVec 1) (m : BitVec 1) : F.Statement (.tscan g d a k o r s m) := rfl
theorem F.tdot (g : BitVec 4) (d : BitVec 4) (a : BitVec 4) (b : BitVec 4) (r : BitVec 3) (s : BitVec 1) (x : BitVec 1) : F.Statement (.tdot g d a b r s x) := rfl
theorem F.tdots (g : BitVec 4) (d : BitVec 4) (a : BitVec 4) (b : BitVec 4) (c : BitVec 4) (r : BitVec 3) (s : BitVec 1) (x : BitVec 1) : F.Statement (.tdots g d a b c r s x) := rfl
theorem F.tsprs (g : BitVec 4) (d : BitVec 4) (a : BitVec 4) (b : BitVec 4) (n : BitVec 2) : F.Statement (.tsprs g d a b n) := rfl
theorem F.trcpa (g : BitVec 4) (d : BitVec 4) (a : BitVec 4) (c : BitVec 4) (r : BitVec 3) (s : BitVec 1) (m : BitVec 1) : F.Statement (.trcpa g d a c r s m) := rfl
theorem F.trsqa (g : BitVec 4) (d : BitVec 4) (a : BitVec 4) (c : BitVec 4) (r : BitVec 3) (s : BitVec 1) (m : BitVec 1) : F.Statement (.trsqa g d a c r s m) := rfl
theorem F.trcpr (g : BitVec 4) (d : BitVec 4) (a : BitVec 4) (b : BitVec 4) (c : BitVec 4) (r : BitVec 3) (s : BitVec 1) (m : BitVec 1) : F.Statement (.trcpr g d a b c r s m) := rfl
theorem F.trsqr (g : BitVec 4) (d : BitVec 4) (a : BitVec 4) (b : BitVec 4) (c : BitVec 4) (r : BitVec 3) (s : BitVec 1) (m : BitVec 1) : F.Statement (.trsqr g d a b c r s m) := rfl
theorem F.texp2 (g : BitVec 4) (d : BitVec 4) (a : BitVec 4) (c : BitVec 4) (r : BitVec 3) (s : BitVec 1) (m : BitVec 1) : F.Statement (.texp2 g d a c r s m) := rfl
theorem F.tlog2 (g : BitVec 4) (d : BitVec 4) (a : BitVec 4) (c : BitVec 4) (r : BitVec 3) (s : BitVec 1) (m : BitVec 1) : F.Statement (.tlog2 g d a c r s m) := rfl
theorem F.ttanh (g : BitVec 4) (d : BitVec 4) (a : BitVec 4) (c : BitVec 4) (r : BitVec 3) (s : BitVec 1) (m : BitVec 1) : F.Statement (.ttanh g d a c r s m) := rfl
theorem F.tsigm (g : BitVec 4) (d : BitVec 4) (a : BitVec 4) (c : BitVec 4) (r : BitVec 3) (s : BitVec 1) (m : BitVec 1) : F.Statement (.tsigm g d a c r s m) := rfl
theorem F.twelf (g : BitVec 4) (d : BitVec 4) (a : BitVec 4) (c : BitVec 4) (r : BitVec 3) (s : BitVec 1) (m : BitVec 1) : F.Statement (.twelf g d a c r s m) := rfl
theorem F.twmrg (g : BitVec 4) (d : BitVec 4) (a : BitVec 4) (b : BitVec 4) (c : BitVec 4) (r : BitVec 3) (s : BitVec 1) (m : BitVec 1) : F.Statement (.twmrg g d a b c r s m) := rfl
theorem F.kand (g : BitVec 4) (d : BitVec 3) (a : BitVec 3) (b : BitVec 3) : F.Statement (.kand g d a b) := rfl
theorem F.kor (g : BitVec 4) (d : BitVec 3) (a : BitVec 3) (b : BitVec 3) : F.Statement (.kor g d a b) := rfl
theorem F.kxor (g : BitVec 4) (d : BitVec 3) (a : BitVec 3) (b : BitVec 3) : F.Statement (.kxor g d a b) := rfl
theorem F.knot (g : BitVec 4) (d : BitVec 3) (a : BitVec 3) : F.Statement (.knot g d a) := rfl
theorem F.kcnt (g : BitVec 4) (a : BitVec 3) (d : BitVec 6) : F.Statement (.kcnt g a d) := rfl
theorem F.xdot (g : BitVec 4) (a : BitVec 3) (b : BitVec 3) (s : BitVec 6) (t : BitVec 4) (c : BitVec 1) (k : BitVec 1) (d : BitVec 1) : F.Statement (.xdot g a b s t c k d) := rfl
theorem F.xdots (g : BitVec 4) (a : BitVec 3) (b : BitVec 3) (s : BitVec 6) (t : BitVec 4) (c : BitVec 1) (k : BitVec 1) (d : BitVec 1) (n : BitVec 2) : F.Statement (.xdots g a b s t c k d n) := rfl
theorem F.xbcast (g : BitVec 4) (a : BitVec 3) (b : BitVec 3) (s : BitVec 6) (t : BitVec 4) : F.Statement (.xbcast g a b s t) := rfl
theorem F.xrep (g : BitVec 4) (s : BitVec 6) (w : BitVec 1) : F.Statement (.xrep g s w) := rfl
theorem F.xrange (g : BitVec 4) (a : BitVec 3) (s : BitVec 6) : F.Statement (.xrange g a s) := rfl
theorem F.xcal (g : BitVec 4) : F.Statement (.xcal g) := rfl
theorem F.xdesk (g : BitVec 4) (l : BitVec 3) (s : BitVec 6) : F.Statement (.xdesk g l s) := rfl
theorem F.xwait (g : BitVec 4) (s : BitVec 6) : F.Statement (.xwait g s) := rfl
theorem F.xprog (g : BitVec 4) (s : BitVec 6) : F.Statement (.xprog g s) := rfl
theorem F.xprogClear (g : BitVec 4) : F.Statement (.xprogClear g) := rfl
theorem F.board (g : BitVec 4) (d : BitVec 6) (s : BitVec 6) (t : BitVec 1) : F.Statement (.board g d s t) := rfl
theorem F.unboard (g : BitVec 4) (d : BitVec 6) (s : BitVec 6) : F.Statement (.unboard g d s) := rfl
theorem F.rpos (g : BitVec 4) (d : BitVec 6) : F.Statement (.rpos g d) := rfl
theorem F.rposStat (g : BitVec 4) (d : BitVec 6) (s : BitVec 6) : F.Statement (.rposStat g d s) := rfl
theorem F.rposId (g : BitVec 4) (d : BitVec 6) (s : BitVec 6) : F.Statement (.rposId g d s) := rfl
theorem F.cpy (g : BitVec 4) (a : BitVec 3) (b : BitVec 3) (s : BitVec 6) (d : BitVec 6) (p : BitVec 1) : F.Statement (.cpy g a b s d p) := rfl
theorem F.cpy2 (g : BitVec 4) (a : BitVec 3) (b : BitVec 3) (s : BitVec 6) (d : BitVec 6) (p : BitVec 1) : F.Statement (.cpy2 g a b s d p) := rfl
theorem F.gath (g : BitVec 4) (a : BitVec 3) (b : BitVec 3) (s : BitVec 6) (d : BitVec 6) (p : BitVec 1) : F.Statement (.gath g a b s d p) := rfl
theorem F.scat (g : BitVec 4) (a : BitVec 3) (b : BitVec 3) (s : BitVec 6) (d : BitVec 6) (p : BitVec 1) : F.Statement (.scat g a b s d p) := rfl
theorem F.cpyp (g : BitVec 4) (a : BitVec 3) (b : BitVec 3) (s : BitVec 6) (d : BitVec 6) (p : BitVec 1) : F.Statement (.cpyp g a b s d p) := rfl
theorem F.kvmig (g : BitVec 4) (a : BitVec 3) (s : BitVec 6) (d : BitVec 6) : F.Statement (.kvmig g a s d) := rfl
theorem F.cwait (g : BitVec 4) (s : BitVec 6) (d : BitVec 6) : F.Statement (.cwait g s d) := rfl
theorem F.cwaitAll (g : BitVec 4) (d : BitVec 6) : F.Statement (.cwaitAll g d) := rfl
theorem F.cnote (g : BitVec 4) (s : BitVec 6) (d : BitVec 6) : F.Statement (.cnote g s d) := rfl
theorem F.cred (g : BitVec 4) (a : BitVec 3) (b : BitVec 3) (s : BitVec 6) (d : BitVec 6) (p : BitVec 1) : F.Statement (.cred g a b s d p) := rfl
theorem F.cbc (g : BitVec 4) (a : BitVec 3) (b : BitVec 3) (s : BitVec 6) (d : BitVec 6) (p : BitVec 1) : F.Statement (.cbc g a b s d p) := rfl
theorem F.cag (g : BitVec 4) (a : BitVec 3) (b : BitVec 3) (s : BitVec 6) (d : BitVec 6) (p : BitVec 1) : F.Statement (.cag g a b s d p) := rfl
theorem F.cbar (g : BitVec 4) (s : BitVec 6) (d : BitVec 6) : F.Statement (.cbar g s d) := rfl
theorem F.send (g : BitVec 4) (v : BitVec 5) (c : BitVec 5) (r : BitVec 4) (m : BitVec 1) (s : BitVec 6) : F.Statement (.send g v c r m s) := rfl
theorem F.recv (g : BitVec 4) (v : BitVec 5) (c : BitVec 5) (r : BitVec 4) (m : BitVec 1) (s : BitVec 6) : F.Statement (.recv g v c r m s) := rfl
theorem F.recva (g : BitVec 4) (v : BitVec 5) (c : BitVec 5) (r : BitVec 4) (m : BitVec 1) (s : BitVec 6) : F.Statement (.recva g v c r m s) := rfl
theorem F.recvm (g : BitVec 4) (v : BitVec 5) (c : BitVec 5) (r : BitVec 4) (m : BitVec 1) (s : BitVec 6) : F.Statement (.recvm g v c r m s) := rfl
theorem F.lstat (g : BitVec 4) (v : BitVec 5) (c : BitVec 5) (s : BitVec 6) : F.Statement (.lstat g v c s) := rfl
theorem F.nop (c : BitVec 6) (m : BitVec 1) (t : BitVec 5) (r : BitVec 6) : F.Statement (.nop c m t r) := rfl
theorem F.registerWrite (pa : RegWrite) (val : BitVec 64) (wide : Bool) : F.Statement (.registerWrite pa val wide) := rfl
theorem F.dieidWrite (val : BitVec 64) : F.Statement (.dieidWrite val) := rfl
theorem F.dtclr (d : Fin 8) (c : Fin 16) (val : BitVec 64) : F.Statement (.dtclr d c val) := rfl
theorem F.qkick (d : Fin 8) (q : Fin 64) (val : BitVec 64) : F.Statement (.qkick d q val) := rfl
theorem F.qcfgWrite (d : Fin 8) (q : Fin 64) (val : BitVec 64) : F.Statement (.qcfgWrite d q val) := rfl
theorem F.tlbinvPage (d : Fin 8) (asid : Fin 64) (bcast : Bool) : F.Statement (.tlbinvPage d asid bcast) := rfl
theorem F.tlbinvAsid (d : Fin 8) (asid : Fin 64) (bcast : Bool) : F.Statement (.tlbinvAsid d asid bcast) := rfl
theorem F.tlbinvAll (d : Fin 8) (bcast : Bool) : F.Statement (.tlbinvAll d bcast) := rfl
theorem F.tlbinvDone (d : Fin 8) : F.Statement (.tlbinvDone d) := rfl
theorem F.pageWalk (id : CtxId) (va : BitVec 64) : F.Statement (.pageWalk id va) := rfl
theorem F.codeScan (id : CtxId) (va : BitVec 64) : F.Statement (.codeScan id va) := rfl
theorem F.loadDelivery (id : CtxId) : F.Statement (.loadDelivery id) := rfl
theorem F.piecePerform (pa : BitVec 52) (op : PieceOp) : F.Statement (.piecePerform pa op) := rfl
theorem F.pubPerform (d : Fin 8) (idx : BitVec 12) (kind : Fin 4) (latched : BitVec 32) : F.Statement (.pubPerform d idx kind latched) := rfl
theorem F.barrierArrival (pa : BitVec 52) : F.Statement (.barrierArrival pa) := rfl
theorem F.barrierPoll (id : CtxId) : F.Statement (.barrierPoll id) := rfl
theorem F.btwaitTimeout (id : CtxId) : F.Statement (.btwaitTimeout id) := rfl
theorem F.regionCommit (id : CtxId) : F.Statement (.regionCommit id) := rfl
theorem F.correctableError (d : Fin 8) (place : ErrPlace) (core : Option (Fin 8 × Fin 16)) : F.Statement (.correctableError d place core) := rfl
theorem F.freezeEnd (d : Fin 8) (c : Fin 16) : F.Statement (.freezeEnd d c) := rfl
theorem F.scrubRead (pa : BitVec 52) (found : ScrubFinding) : F.Statement (.scrubRead pa found) := rfl
theorem F.kvfrposWrite (d : Fin 8) (val : BitVec 64) : F.Statement (.kvfrposWrite d val) := rfl
theorem F.kvrlposWrite (d : Fin 8) (val : BitVec 64) : F.Statement (.kvrlposWrite d val) := rfl
theorem F.kvRequestDone (id : CtxId) : F.Statement (.kvRequestDone id) := rfl
theorem F.kvmigComplete (id : CtxId) (h : BitVec 16) : F.Statement (.kvmigComplete id h) := rfl
theorem F.pbtabWrite (d : Fin 8) (val : BitVec 64) : F.Statement (.pbtabWrite d val) := rfl
theorem F.pbcfgWrite (d : Fin 8) (val : BitVec 64) : F.Statement (.pbcfgWrite d val) := rfl
theorem F.engineOperationComplete (id : CtxId) (h : BitVec 16) : F.Statement (.engineOperationComplete id h) := rfl
theorem F.enginePieceFault (id : CtxId) (h : BitVec 16) : F.Statement (.enginePieceFault id h) := rfl
theorem F.noticeEntry (id : CtxId) : F.Statement (.noticeEntry id) := rfl
theorem F.contextSwitch (d : Fin 8) (c : Fin 16) : F.Statement (.contextSwitch d c) := rfl
theorem F.quantumExpiry (d : Fin 8) (c : Fin 16) : F.Statement (.quantumExpiry d c) := rfl
theorem F.pinmaxExpiry (id : CtxId) : F.Statement (.pinmaxExpiry id) := rfl
theorem F.watchdog (id : CtxId) : F.Statement (.watchdog id) := rfl
theorem F.trapDelivery (x : TrapPoint) : F.Statement (.trapDelivery x) := rfl
theorem F.peerRefused (id : CtxId) (seq : PeerRefusal) : F.Statement (.peerRefused id seq) := rfl
theorem F.descriptorFetch (d : Fin 8) (q : Fin 64) : F.Statement (.descriptorFetch d q) := rfl
theorem F.sequenceRetry (d : Fin 8) (q : Fin 64) : F.Statement (.sequenceRetry d q) := rfl
theorem F.dependencyPoll (d : Fin 8) (q : Fin 64) : F.Statement (.dependencyPoll d q) := rfl
theorem F.taskDispatch (d : Fin 8) : F.Statement (.taskDispatch d) := rfl
theorem F.preemptionSave (d : Fin 8) : F.Statement (.preemptionSave d) := rfl
theorem F.completionAction (d : Fin 8) (t : Fin 1024) : F.Statement (.completionAction d t) := rfl
theorem F.suspend (d : Fin 8) (t : Fin 1024) : F.Statement (.suspend d t) := rfl
theorem F.resume (d : Fin 8) (t : Fin 1024) : F.Statement (.resume d t) := rfl
theorem F.endTask (d : Fin 8) (t : Fin 1024) : F.Statement (.endTask d t) := rfl
theorem F.endq (d : Fin 8) (q : Fin 64) : F.Statement (.endq d q) := rfl
theorem F.scfgWrite (d : Fin 8) (val : BitVec 64) : F.Statement (.scfgWrite d val) := rfl
theorem F.ringTileArrival (d : Fin 8) (wire : Option (List (Nat × BitVec 8))) : F.Statement (.ringTileArrival d wire) := rfl
theorem F.tileRepairDone (d : Fin 8) (ok : Bool) : F.Statement (.tileRepairDone d ok) := rfl
theorem F.segmentBoundary : F.Statement (.segmentBoundary) := rfl
theorem F.dwellLimit (d : Fin 8) : F.Statement (.dwellLimit d) := rfl
theorem F.ringStart (val : BitVec 64) : F.Statement (.ringStart val) := rfl
theorem F.ringStop (val : BitVec 64) : F.Statement (.ringStop val) := rfl
theorem F.bscfgWrite (d : Fin 8) (val : BitVec 64) : F.Statement (.bscfgWrite d val) := rfl
theorem F.laneLight (l : Fin 8) (val : BitVec 64) : F.Statement (.laneLight l val) := rfl
theorem F.laneUnlight (l : Fin 8) (val : BitVec 64) : F.Statement (.laneUnlight l val) := rfl
theorem F.modulatorWindowStart (d : Fin 8) : F.Statement (.modulatorWindowStart d) := rfl
theorem F.windowResult (id : CtxId) : F.Statement (.windowResult id) := rfl
theorem F.xcalComplete (d : Fin 8) (c : Fin 16) (ok : Bool) (temp : BitVec 10) : F.Statement (.xcalComplete d c ok temp) := rfl
theorem F.combFailure (x : CombLoss) : F.Statement (.combFailure x) := rfl
theorem F.combSwap (k : Fin 4) : F.Statement (.combSwap k) := rfl
theorem F.combReturn (k : Fin 4) : F.Statement (.combReturn k) := rfl
theorem F.combSwapComplete : F.Statement (.combSwapComplete) := rfl
theorem F.alignmentComplete (xs : Unit) : F.Statement (.alignmentComplete xs) := rfl
theorem F.skewMeasurement (skew : Unit) : F.Statement (.skewMeasurement skew) := rfl
theorem F.portEnable (q : Fin 16) (val : BitVec 64) : F.Statement (.portEnable q val) := rfl
theorem F.portDisable (q : Fin 16) (val : BitVec 64) : F.Statement (.portDisable q val) := rfl
theorem F.linkTrained (q : Fin 16) (keysOk : Bool) (fibre : BitVec 16) : F.Statement (.linkTrained q keysOk fibre) := rfl
theorem F.telemetrySend (q : Fin 16) : F.Statement (.telemetrySend q) := rfl
theorem F.telemetryFlit (q : Fin 16) (srcm : BitVec 9) (margins : List (BitVec 16)) (corr : List (BitVec 16)) : F.Statement (.telemetryFlit q srcm margins corr) := rfl
theorem F.flitReceive (q : Fin 16) (f : Flit) (crcOk : Trailer) : F.Statement (.flitReceive q f crcOk) := rfl
theorem F.channelFlitArrival (d : Fin 8) (c : Fin 16) (ch : Fin 32) (seq : BitVec 16) (stamp : BitVec 64) (payload : BitVec 2048) : F.Statement (.channelFlitArrival d c ch seq stamp payload) := rfl
theorem F.peerRequest (q : Fin 16) (f : Flit) : F.Statement (.peerRequest q f) := rfl
theorem F.peerResponse (id : CtxId) (seq : BitVec 16) (data : BitVec 2048) (poison : Bool) : F.Statement (.peerResponse id seq data poison) := rfl
theorem F.acknowledgement (q : Fin 16) (n : BitVec 32) : F.Statement (.acknowledgement q n) := rfl
theorem F.ackTimeout (q : Fin 16) : F.Statement (.ackTimeout q) := rfl
theorem F.lossOfLight (q : Fin 16) (lane : Fin 34) : F.Statement (.lossOfLight q lane) := rfl
theorem F.gapNegotiation (q : Fin 16) (offer : GapOffer) : F.Statement (.gapNegotiation q offer) := rfl
theorem F.laneSwapGap (q : Fin 16) : F.Statement (.laneSwapGap q) := rfl
theorem F.spareTrainingDone (q : Fin 16) (ok : Bool) : F.Statement (.spareTrainingDone q ok) := rfl
theorem F.lightArbitration (q : Fin 16) : F.Statement (.lightArbitration q) := rfl
theorem F.reclaim (q : Fin 16) : F.Statement (.reclaim q) := rfl
theorem F.slotGuardExpiry (id : CtxId) : F.Statement (.slotGuardExpiry id) := rfl
theorem F.collectiveInstanceStart (grp : Fin 16) : F.Statement (.collectiveInstanceStart grp) := rfl
theorem F.hostInboundWrite (bar2 : Bool) (off : BitVec 36) (data : List (BitVec 8)) (poisoned : Bool) (inStream : Bool) : F.Statement (.hostInboundWrite bar2 off data poisoned inStream) := rfl
theorem F.hostAtomicop (bar2 : Bool) (off : BitVec 36) (wide : AtomicSize) (op : HostAtomic) (inStream : Bool) : F.Statement (.hostAtomicop bar2 off wide op inStream) := rfl
theorem F.attest (d : Fin 8) (seq : BitVec 16) : F.Statement (.attest d seq) := rfl
theorem F.extend (d : Fin 8) (seq : BitVec 16) : F.Statement (.extend d seq) := rfl
theorem F.cert (d : Fin 8) (chunk : BitVec 8) (seq : BitVec 16) : F.Statement (.cert d chunk seq) := rfl
theorem F.resetRelease (sigOk : Bool) (verOk : Bool) : F.Statement (.resetRelease sigOk verOk) := rfl
theorem F.selftestStageDone (ok : Bool) (d : Fin 8) (unit : BitVec 5) (detail : BitVec 48) : F.Statement (.selftestStageDone ok d unit detail) := rfl
theorem F.pcieFundamentalReset : F.Statement (.pcieFundamentalReset) := rfl
theorem F.smbusReset : F.Statement (.smbusReset) := rfl
theorem F.windowFirstSymbol (id : CtxId) : F.Statement (.windowFirstSymbol id) := rfl
theorem F.kvcfgWrite (d : Fin 8) (base : Bool) (val : BitVec 64) : F.Statement (.kvcfgWrite d base val) := rfl
theorem F.combcfgWrite (val : BitVec 64) : F.Statement (.combcfgWrite val) := rfl
theorem F.combLocked (k : Fin 5) : F.Statement (.combLocked k) := rfl
theorem F.laserPowerLoop (power : List (BitVec 16)) : F.Statement (.laserPowerLoop power) := rfl
theorem F.ideKm (enable : Bool) (stream : BitVec 1) : F.Statement (.ideKm enable stream) := rfl

end Sys2Proof.Laws
end

