-- ==== Sys2Proof/Laws/Slots.lean ====
section
/-! SUPPORT. What a slot operation does, once for all: nothing where its guard is false, class I CTX poison where it
reads a poisoned register, and its own effect otherwise; and what a delivery is. -/

namespace Sys2Proof.Machine

theorem State.slotOp_acts {s : State} {g : BitVec 4} {i : Instr} {body : State → State}
    (h : s.rP g = true) (hp : s.cx.poisonHit i = false) : s.slotOp g i body = .next (body s) := by
  simp [State.slotOp, h, hp]

theorem State.slotOp_guard_false {s : State} {g : BitVec 4} {i : Instr} {body : State → State}
    (h : s.rP g = false) : s.slotOp g i body = .next s := by
  simp [State.slotOp, h]

/-- A slot operation always completes. -/
theorem State.slotOp_next (s : State) (g : BitVec 4) (i : Instr) (body : State → State) :
    ∃ t, s.slotOp g i body = .next t := by
  unfold State.slotOp; split <;> (try split) <;> exact ⟨_, rfl⟩

/-- A fixed-latency result joins the deliveries under way; what earlier slots of its bundle write to the same register gives
way to it. -/
theorem Ctx.deliver_inflight (c : Ctx) (now lat : Nat) (w : Write) (flags : BitVec 5) :
    (c.deliver now lat w flags).inflight = (c.giveWay [w]).inflight ++ [⟨now + lat, w, flags⟩] := rfl

/-- All that a slot operation can do. -/
theorem State.slotOp_cases {s t : State} {g : BitVec 4} {i : Instr} {body : State → State}
    (h : s.slotOp g i body = .next t) :
    (s.rP g = false ∧ t = s) ∨ (s.rP g = true ∧ s.cx.poisonHit i = true ∧ t = s.trapI cECCUNC) ∨
      (s.rP g = true ∧ s.cx.poisonHit i = false ∧ t = body s) := by
  unfold State.slotOp at h
  cases hg : s.rP g <;> cases hp : s.cx.poisonHit i <;> simp_all

/-- All that a load can do: refused, or read and pending. -/
theorem State.load_cases (s : State) (vs : List VRun) (form : LoadForm) (done : State → State) :
    (∃ u f, s.access s.cur (s.cx.req s.cur .load true false) vs = (u, .error f) ∧
      s.load vs form done = u.refuse .load f) ∨
    (∃ u ps v y, s.access s.cur (s.cx.req s.cur .load true false) vs = (u, .ok ps) ∧
      u.readParts s.cur .load ps = (v, y) ∧
      s.load vs form done = done (v.updCx fun c =>
        c.addPend ⟨v.cycle + loadLatency s.cur ps, y.waits, y.bytes, form, 0, y.poison, [], true, false⟩)) := by
  unfold State.load
  rcases hx : s.access s.cur (s.cx.req s.cur .load true false) vs with ⟨u, r⟩
  cases r with
  | error f => exact .inl ⟨u, f, rfl, by simp [hx]⟩
  | ok ps =>
    rcases hy : u.readParts s.cur .load ps with ⟨v, y⟩
    exact .inr ⟨u, ps, v, y, rfl, hy, by simp [hx, hy]⟩

/-- All that a store can do: RESTARTOVF with a full buffer, refused, or held. -/
theorem State.store_cases (s : State) (vs : List VRun) (bytes : List Byte) (done : State → State) :
    (storeLimit ≤ s.cx.held.length ∧ s.store vs bytes done = s.trapI cRESTARTOVF) ∨
    (s.cx.held.length < storeLimit ∧ ∃ u r, s.access s.cur (s.cx.req s.cur .store false true) vs = (u, r) ∧
      ((∃ f, r = .error f ∧ s.store vs bytes done = u.refuse .store f) ∨
       ∃ ps, r = .ok ps ∧ s.store vs bytes done =
        done (u.updCx fun c => { c with held := c.held ++ [⟨u.storeRuns s.cur.die ps bytes⟩] }))) := by
  unfold State.store
  by_cases h : storeLimit ≤ s.cx.held.length
  · exact .inl ⟨h, by simp [h]⟩
  · rcases hx : s.access s.cur (s.cx.req s.cur .store false true) vs with ⟨u, r⟩
    refine .inr ⟨Nat.lt_of_not_le h, u, r, rfl, ?_⟩
    cases r with
    | error f => exact .inl ⟨f, rfl, by simp [h, hx]⟩
    | ok ps => exact .inr ⟨ps, rfl, by simp [h, hx]⟩

/-- A core's turn that begins with a running context has no switch to make. -/
theorem State.switchIn_running {s : State} {d : Fin 8} {c : Fin 16} {x : Fin 4} (h : (s.core d c).running = some x) :
    s.switchIn d c = s := by
  simp [State.switchIn, h]

end Sys2Proof.Machine
end

