-- ==== Sys2Proof/Tests/Slice0.lean ====
section
/-! SUPPORT. Tests on small states: the words of the encoding tables, the limits of WellFormed, results that the
manual's examples give, one step, and for every statement with hypotheses states and operands that meet them. -/

namespace Sys2Proof.Tests
set_option Elab.async false
open Machine Claims

/-! ### Words -/

/-- Every word stands for its instruction to the scanner and at an issue, and is what the encoder gives for it. -/
def decodes (l : List (CodeUnit × BitVec 32 × Instr)) : Bool :=
  l.all fun x => decodeSlot x.1 x.2.1 == some x.2.2 && decodeRun x.1 x.2.1 == some x.2.2 && encode x.2.2 == some x.2.1

/-- Words from the encoding table of the family. -/
theorem test_words_s_arithmetic : decodes [
    (.s, 0x0006C93A#32, .add 10 19 50 6),
    (.s, 0x0687B8C2#32, .mulh 2 12 46 7 2),
    (.s, 0x1FB72C46#32, .sel 6 4 11 55 6),
    (.s, 0x21B22DE2#32, .addi 2 30 11 434),
    (.s, 0x2C3F70F1#32, .srai 1 15 28 63),
    (.s, 0x2E32C721#32, .movi 1 50 3249),
    (.s, 0x381F4457#32, .sext 7 5 17 31)] = true := by decide +kernel

/-- Words from the encoding table of the family. -/
theorem test_words_s_predicate : decodes [
    (.s, 0x3F8F48D9#32, .cmpi 9 13 18 15 6),
    (.s, 0x41580C59#32, .lea 9 5 3 24 5),
    (.s, 0x48D20423#32, .aadd 3 2 1 210),
    (.s, 0x4E0E28DF#32, .pxor 15 13 10 14),
    (.s, 0x54DF98BE#32, .psetBit 14 11 38 31)] = true := by decide +kernel

/-- Words from the encoding table of the family. -/
theorem test_words_s_control : decodes [
    (.s, 0x61337475#32, .br 5 7 0 39354),
    (.s, 0x65CB9B5F#32, .call 15 21 58829),
    (.s, 0x6C78E609#32, .lexit 9 0 15475),
    (.s, 0x76A8EA0D#32, .trap 13 21621),
    (.s, 0x7400000A#32, .halt 10)] = true := by decide +kernel

/-- Words from the encoding table of the family. -/
theorem test_words_s_system : decodes [
    (.s, 0x820187E4#32, .csrw 4 62 97),
    (.s, 0x8400145D#32, .widf 13 5 5),
    (.s, 0x8A00ACA2#32, .tshapeReg 2 10 43),
    (.s, 0x8C08E8FB#32, .tvalid 11 15 58 8),
    (.s, 0x8E403E22#32, .ftsetCur 2 34 15),
    (.s, 0x92418C02#32, .pksetKey 2 3 1 1),
    (.s, 0x94001719#32, .xpset 9 49 5),
    (.s, 0x98000000#32, .uiret 0)] = true := by decide +kernel

/-- Words from the encoding table of the family. -/
theorem test_words_m_scalar : decodes [
    (.m, 0x01FA96DE#32, .ld 14 45 5 2 0 1 2 31),
    (.m, 0x020465B1#32, .st 1 27 9 1 0 1 0),
    (.m, 0x04A0BD9C#32, .lld 12 25 15 2 0 10),
    (.m, 0x0600219E#32, .lst 14 25 8 0 0 0),
    (.m, 0x096CA00D#32, .pref 13 8 2 3 22)] = true := by decide +kernel

/-- Words from the encoding table of the family. -/
theorem test_words_m_tile : decodes [
    (.m, 0x224A517C#32, .tst 12 7 1 4 1 10 1),
    (.m, 0x24005D45#32, .tldg 5 4 1 7 1 0 0),
    (.m, 0x2824215F#32, .kvld 15 5 1 8 36 0),
    (.m, 0x2A282CD4#32, .kvapp 4 13 11 40),
    (.m, 0x2C3A0404#32, .kvfree 4 1 58)] = true := by decide +kernel

/-- Words from the encoding table of the family. -/
theorem test_words_m_atomic : decodes [
    (.m, 0x41A6F32C#32, .amo 12 50 12 3 6 1 6),
    (.m, 0x449C4981#32, .famo 1 24 2 1 28 2),
    (.m, 0x600E1A35#32, .red 5 3 1 6 0 7),
    (.m, 0x642AB840#32, .redb 0 4 0 46 0 5 2),
    (.m, 0x620080C6#32, .fred 6 12 0 32 0),
    (.m, 0x820F2C0B#32, .barinit 11 11 60),
    (.m, 0x880EFCE3#32, .btwait 3 14 15 59),
    (.m, 0x8A0027DF#32, .pub 15 61 9)] = true := by decide +kernel

/-- Words from the encoding table of the family. -/
theorem test_words_v_elementwise : decodes [
    (.v, 0x03C6A342#32, .tsub 2 4 3 10 6 4 1 1),
    (.v, 0x0C3B605F#32, .tfms 15 5 0 6 11 3 0),
    (.v, 0x0E900290#32, .tabs 0 9 2 0 1 1 0),
    (.v, 0x19677B2B#32, .tcmp 11 2 11 7 7 6 1),
    (.v, 0x1A05767A#32, .tsel 10 7 6 7 5),
    (.v, 0x1DA1067C#32, .tcvt 12 7 6 1 2 1 1),
    (.v, 0x1E80000B#32, .tbcast 11 0 0 0 0 1 0),
    (.v, 0x16CEB68F#32, .tclamp 15 8 6 11 14 4 1)] = true := by decide +kernel

/-- Words from the encoding table of the family. -/
theorem test_words_v_integer : decodes [
    (.v, 0x242E372B#32, .timul 11 2 7 3 0 1 3 1),
    (.v, 0x26020F6A#32, .tand 10 6 15 0 1 0 0),
    (.v, 0x2E3CC32B#32, .tshr 11 2 3 12 0 7 1)] = true := by decide +kernel

/-- Words from the encoding table of the family. -/
theorem test_words_v_move : decodes [
    (.v, 0x479175D5#32, .tcput 5 13 21 11 50),
    (.v, 0x480002CE#32, .ttr 14 12 2),
    (.v, 0x4C000855#32, .tbcol 5 5 8),
    (.v, 0x4E076040#32, .tzero 0 4 59)] = true := by decide +kernel

/-- Words from the encoding table of the family. -/
theorem test_words_v_fold : decodes [
    (.v, 0x6283ABF4#32, .tredc 4 15 11 2 7 0 0 1),
    (.v, 0x66CB2300#32, .tscan 0 0 3 2 6 1 1 1),
    (.v, 0x82C68066#32, .tdots 6 6 0 8 6 4 1 0),
    (.v, 0x84204D8A#32, .tsprs 10 8 13 4 2),
    (.v, 0xA9A30EB1#32, .texp2 1 11 14 3 2 1 1),
    (.v, 0xB230E044#32, .twmrg 4 4 0 14 0 3 0 0),
    (.v, 0xC6000120#32, .knot 0 2 2)] = true := by decide +kernel

/-- Words from the encoding table of the family. -/
theorem test_words_x_stream : decodes [
    (.x, 0x02E0F8F4#32, .xdots 4 7 1 62 0 0 1 1 1),
    (.x, 0x0600340F#32, .xrep 15 13 0),
    (.x, 0x08008C37#32, .xrange 7 3 35),
    (.x, 0x0C00E411#32, .xdesk 1 1 57),
    (.x, 0x10002000#32, .xprog 0 8),
    (.x, 0x2200669E#32, .unboard 14 41 25),
    (.x, 0x2402F798#32, .rposId 8 57 61)] = true := by decide +kernel

/-- Words from the encoding table of the family. -/
theorem test_words_x_engine : decodes [
    (.x, 0x4251E5C7#32, .cpy2 7 4 3 57 17 1),
    (.x, 0x4609A3E3#32, .scat 3 6 7 40 9 0),
    (.x, 0x4A266C1D#32, .kvmig 13 1 27 38),
    (.x, 0x4E2E4C03#32, .cnote 3 19 46),
    (.x, 0x641CED44#32, .cag 4 4 2 59 28 0),
    (.x, 0x6614F80C#32, .cbar 12 62 20)] = true := by decide +kernel

/-- Words from the encoding table of the family. -/
theorem test_words_c_channel : decodes [
    (.c, 0x01AF36A7#32, .send 7 10 27 12 1 53),
    (.c, 0x0414A966#32, .recva 6 22 20 2 1 2),
    (.c, 0x075439DA#32, .recvm 10 29 28 0 1 42),
    (.c, 0x08401E29#32, .lstat 9 2 15 8)] = true := by decide +kernel

/-- 10 R235: a header's fields, and a header alone as the table's `nop`. -/
theorem test_header_fields :
    decodeHeader 0xFD4C9C35#32 = some ⟨3, true, 19, 12, 53⟩ ∧
      decodeSlot .header 0xF00C9C30#32 = some (.nop 3 1 19 12) := by decide +kernel

/-- A word without the header tag is no header (R249). -/
theorem test_header_tag : decodeHeader 0xE0820000#32 = none := by decide +kernel

/-- 10 R236: the words of a bundle follow its header in the order S, M, VA, VB, X, C. -/
theorem test_bundle_order :
    decodeBundle ([0xF1400000#32, 0x20011450#32, 0x0E002400#32].flatMap bytesOfWord) =
      some (⟨0, false, 0, 0, 5⟩, [(.s, 0x20011450#32), (.va, 0x0E002400#32)]) := by decide +kernel

/-- Words of the opcode table through the byte order of code. -/
theorem test_table_words :
    decodeTableWord 32 0x20011450 = some (.addi 0 5 5 1) ∧ decodeTableWord 32 0xF00C9C30 = some (.nop 3 1 19 12) ∧
      decodeTableWord 32 0xE0000000 = none := by decide +kernel

/-- Reserved operations and fields do not fall through to a neighbour (R249). -/
theorem test_reserved_words :
    [(CodeUnit.s, 0x9A000000#32), (.m, 0x0A000000#32), (.v, 0x30000000#32), (.x, 0x12000000#32), (.c, 0x0A000000#32),
     (.s, 0x00400000#32 ||| 0x00C00000#32), (.header, 0x00000000#32)].all
      (fun x => decodeSlot x.1 x.2 == none) = true := by decide +kernel

/-! ### Limits -/

/-- One term outside each limit that WellFormed checks, by slot. -/
def illScalar : List Instr := [
  .mulh 0 1 2 3 3, .div 0 1 2 3 2, .rem 0 1 2 3 2, .min 0 1 2 3 2, .max 0 1 2 3 2, .shli 0 1 2 64, .shri 0 1 2 64,
  .srai 0 1 2 64, .sext 0 1 2 64, .zext 0 1 2 64, .cmp 0 1 2 3 7, .cmpi 0 1 2 3 7, .csrr 0 1 8, .csrw 0 1 1, .widf 0 1 6,
  .tshapeImm 0 1 2 3 0]

def illAccess : List Instr := [
  .ld 0 1 2 3 0 0 0 0, .ld 0 1 2 1 0 0 0 1, .ld 0 1 2 0 0 1 3 0, .st 0 1 2 3 0 0 0, .st 0 1 2 0 0 0 1, .lld 0 1 2 3 0 0,
  .lld 0 1 2 1 0 1, .lst 0 1 2 3 0 0, .lst 0 1 2 0 0 1, .pref 0 1 3 0 0, .pref 0 1 1 0 1, .pref 0 1 0 1 0,
  .tld 0 1 2 3 0 0 0, .tld 0 1 0 3 2 0 0, .tld 0 1 0 3 0 0 2, .tst 0 1 2 3 0 0 0, .tst 0 1 0 3 2 0 0, .tst 0 1 0 3 0 0 2,
  .tldg 0 1 0 3 2 0 0, .tldg 0 1 0 3 0 0 2, .tsts 0 1 0 3 2 0 0, .tsts 0 1 0 3 0 0 2, .kvld 0 1 2 3 4 0]

def illAtomic : List Instr := [
  .famo 0 1 2 0 3 3, .red 0 1 0 2 0 1, .fred 0 1 0 2 3, .redb 0 1 0 2 0 1 3, .fredb 0 1 0 2 3 4, .fence 0 5 1, .fence 0 4 0]

def illTile : List Instr := [
  .tadd 0 1 2 3 0 5 0 0, .tadd 0 1 2 3 8 0 0 1, .tadd 0 1 2 3 1 0 0 0, .tsub 0 1 2 3 0 5 0 0, .tmul 0 1 2 3 0 5 0 0,
  .tmin 0 1 2 3 0 5 0 0, .tmax 0 1 2 3 0 5 0 0, .tfma 0 1 2 3 4 5 0, .tfms 0 1 2 3 4 5 0, .tabs 0 1 2 0 5 0 0,
  .tneg 0 1 2 0 5 0 0, .tcpy 0 1 2 1 0, .tcpy 0 1 2 8 1, .tscale 0 1 2 3 0 5 0 0, .tclamp 0 1 2 3 4 5 0,
  .tcmp 0 1 2 3 8 0 1, .tcmp 0 1 2 3 0 7 0, .tsel 0 1 2 3 8, .tcvt 0 1 2 0 5 0 0, .tbcast 0 1 2 0 5 0 0]

def illInteger : List Instr := [
  .tiadd 0 1 2 3 0 0 1 0, .tisub 0 1 2 3 0 0 1 0, .timul 0 1 2 3 0 0 1 0, .tand 0 1 2 3 0 1 0, .tor 0 1 2 3 0 1 0,
  .txor 0 1 2 3 0 1 0, .tshl 0 1 2 3 0 1 0, .tshr 0 1 2 3 0 1 0, .tredr 0 1 2 0 8 0 0 0, .tredc 0 1 2 0 8 0 0 0,
  .tred 0 1 2 0 8 0 0 0, .tscan 0 1 2 0 7 0 0 0, .tsprs 0 1 2 3 3, .tdot 0 1 2 3 5 0 0, .tdots 0 1 2 3 4 5 0 0,
  .trcpa 0 1 2 0 5 0 0, .trsqr 0 1 2 3 0 5 0 0, .twelf 0 1 2 1 0 0 0, .twmrg 0 1 2 3 8 0 0 1]

def illStream : List Instr := [
  .xdot 0 1 2 3 1 0 0 1, .xdot 0 1 2 63 0 0 0 1, .xdots 0 1 2 3 0 0 0 0 3, .xdots 0 1 2 63 0 0 0 1 0, .lstat 0 3 0 1,
  .lstat 0 2 16 1]

def illFormed : List Instr := illScalar ++ illAccess ++ illAtomic ++ illTile ++ illInteger ++ illStream

theorem test_ill_formed_refused : illFormed.all (fun i => !i.wf) = true := by decide +kernel

/-- The word of an ill-formed term is no instruction to the scanner. -/
theorem test_ill_formed_words : illFormed.all (fun i =>
    match i.codeUnit, encode i with
    | some u, some w => decodeSlot u w == none
    | _, _ => false) = true := by decide +kernel

/-- The values at the limits are well formed. -/
theorem test_limits_well_formed : [Instr.mulh 0 1 2 3 2, .div 0 1 2 3 1, .shli 0 1 2 63, .sext 0 1 2 63, .cmpi 0 1 2 3 6,
    .csrr 0 1 0x110, .csrw 0 1 0x72, .widf 0 1 5, .tshapeImm 0 1 2 3 7, .ld 0 1 2 2 0 1 2 31, .pref 0 1 2 3 31,
    .famo 0 1 2 0 3 2, .red 0 1 0 2 0 7, .fence 0 4 1, .tadd 0 1 2 3 7 4 0 1, .tcmp 0 1 2 3 0 6 0, .tredr 0 1 2 0 7 0 0 0,
    .xdot 0 1 2 62 0 0 0 1, .lstat 0 2 15 1].all Instr.wf = true := by decide +kernel

/-! ### Small states -/

def setS (n : Fin 64) (v : W64) (s : State) : State :=
  s.updCx fun c => { c with arch := { c.arch with s := vset c.arch.s n v } }
def setA (n : Fin 16) (v : W64) (s : State) : State :=
  s.updCx fun c => { c with arch := { c.arch with a := vset c.arch.a n v } }
def setD (n : Fin 16) (v : BitVec 32) (s : State) : State :=
  s.updCx fun c => { c with arch := { c.arch with d := vset c.arch.d n v } }
def setLC (n : Fin 4) (v : W64) (s : State) : State :=
  s.updCx fun c => { c with arch := { c.arch with lc := vset c.arch.lc n v } }
def setXP (n : Fin 8) (v : W64) (s : State) : State :=
  s.updCx fun c => { c with arch := { c.arch with xp := vset c.arch.xp n v } }
def setTS (n : Fin 16) (v : BitVec 32) (s : State) : State :=
  s.updCx fun c => { c with arch := { c.arch with ts := vset c.arch.ts n v } }
def setT (n : Fin 16) (v : Nat) (s : State) : State :=
  s.updCx fun c => { c with tiles := vset c.tiles n (BitVec.ofNat 32768 v) }
def setV (n : Fin 32) (v : Nat) (s : State) : State :=
  s.updCx fun c => { c with lines := vset c.lines n (BitVec.ofNat 2048 v) }
def setK (n : Fin 8) (v : Nat) (s : State) : State :=
  s.updCx fun c => { c with masks := vset c.masks n (BitVec.ofNat 4096 v) }

/-- The issuing context once every result of an instruction has been delivered. -/
def after (s : State) (i : Instr) : Ctx :=
  match exec i s with
  | .next t => t.cx.settle (t.cycle + 5000)
  | _ => s.cx

/-- The state after an instruction. -/
def next (s : State) (i : Instr) : State :=
  match exec i s with
  | .next t => t
  | _ => s

/-- The trap that an instruction takes, with its class. -/
def trapped (s : State) (i : Instr) : Option (Nat × Nat) := (next s i).taken.map fun t => (t.trap.cause.toNat, t.cls.toNat)

/-- Two operands, in s2 and s3. -/
def two (x y : W64) : State := setS 2 x (setS 3 y State.reset)

/-! ### Scalar results -/

/-- 12 R279: sums wrap, differences borrow. -/
theorem test_add_sub : (after (two 0xFFFFFFFFFFFFFFFF 2) (.add 0 1 2 3)).rS 1 = 1 ∧
    (after (two 1 2) (.sub 0 1 2 3)).rS 1 = 0xFFFFFFFFFFFFFFFF := by decide +kernel

/-- 12 R279: the low half, and the three kinds of high half. -/
theorem test_mul_mulh :
    let s := two 0xFFFFFFFFFFFFFFFF 0xFFFFFFFFFFFFFFFE
    (after s (.mul 0 1 2 3)).rS 1 = 2 ∧ (after s (.mulh 0 1 2 3 0)).rS 1 = 0xFFFFFFFFFFFFFFFD ∧
      (after s (.mulh 0 1 2 3 1)).rS 1 = 0 ∧ (after s (.mulh 0 1 2 3 2)).rS 1 = 0xFFFFFFFFFFFFFFFF := by decide +kernel

/-- 12 R280: truncation towards 0, division by 0, and −2^63 by −1. -/
theorem test_div_rem :
    (after (two (-7) 2) (.div 0 1 2 3 1)).rS 1 = -3 ∧ (after (two (-7) 2) (.rem 0 1 2 3 1)).rS 1 = -1 ∧
      (after (two 9 0) (.div 0 1 2 3 0)).rS 1 = 0xFFFFFFFFFFFFFFFF ∧ (after (two 9 0) (.rem 0 1 2 3 1)).rS 1 = 9 := by
  decide +kernel
theorem test_div_overflow :
    (after (two 0x8000000000000000 (-1)) (.div 0 1 2 3 1)).rS 1 = 0x8000000000000000 ∧
      (after (two 0x8000000000000000 (-1)) (.rem 0 1 2 3 1)).rS 1 = 0 ∧
      (after (two 0xFFFFFFFFFFFFFFFF 16) (.div 0 1 2 3 0)).rS 1 = 0x0FFFFFFFFFFFFFFF := by decide +kernel

/-- 12 R279: `andn` complements its second operand. -/
theorem test_logic :
    let s := two 0b1100 0b1010
    (after s (.and 0 1 2 3)).rS 1 = 0b1000 ∧ (after s (.or 0 1 2 3)).rS 1 = 0b1110 ∧ (after s (.xor 0 1 2 3)).rS 1 = 0b0110 ∧
      (after s (.andn 0 1 2 3)).rS 1 = 0b0100 := by decide +kernel

/-- 12 R279: shifts by 63, 64 and more. -/
theorem test_shifts :
    (after (two 3 63) (.shl 0 1 2 3)).rS 1 = 0x8000000000000000 ∧ (after (two 3 64) (.shl 0 1 2 3)).rS 1 = 0 ∧
      (after (two (-8) 65) (.shr 0 1 2 3)).rS 1 = 0 ∧ (after (two (-8) 2) (.shr 0 1 2 3)).rS 1 = 0x3FFFFFFFFFFFFFFE ∧
      (after (two (-8) 1000) (.sra 0 1 2 3)).rS 1 = -1 ∧ (after (two (-8) 1) (.sra 0 1 2 3)).rS 1 = -4 := by decide +kernel

theorem test_min_max :
    (after (two (-1) 1) (.min 0 1 2 3 0)).rS 1 = -1 ∧ (after (two (-1) 1) (.min 0 1 2 3 1)).rS 1 = 1 ∧
      (after (two (-1) 1) (.max 0 1 2 3 0)).rS 1 = 1 ∧ (after (two (-1) 1) (.max 0 1 2 3 1)).rS 1 = -1 := by decide +kernel

/-- `sel` takes its first source under a true predicate; p0 is always true. -/
theorem test_sel : (after (two 5 6) (.sel 0 1 2 3 0)).rS 1 = 5 ∧ (after (two 5 6) (.sel 0 1 2 3 1)).rS 1 = 6 := by
  decide +kernel

/-- Immediates are sign-extended; the source may be the destination. -/
theorem test_immediates :
    (after (two 5 0) (.addi 0 2 2 511)).rS 2 = 4 ∧ (after (two 0xF0F 0) (.andi 0 1 2 0x1F0)).rS 1 = 0xF00 ∧
      (after (two 0 0) (.ori 0 1 2 256)).rS 1 = 0xFFFFFFFFFFFFFF00 ∧ (after (two 5 0) (.xori 0 1 2 511)).rS 1 = -6 ∧
      (after (two 1 0) (.shli 0 1 2 63)).rS 1 = 0x8000000000000000 ∧ (after (two (-1) 0) (.shri 0 1 2 63)).rS 1 = 1 ∧
      (after (two (-2) 0) (.srai 0 1 2 63)).rS 1 = -1 := by decide +kernel

/-- 12 R281: `movi` of a negative value; `movh` shifts in 15 bits. -/
theorem test_movi_movh : (after State.reset (.movi 0 1 0x4000)).rS 1 = 0xFFFFFFFFFFFFC000 ∧
    (after (two 0x8000 0) (.movh 0 2 1)).rS 2 = 0x40000001 := by decide +kernel

theorem test_bit_counts :
    (after (two 1 0) (.clz 0 1 2)).rS 1 = 63 ∧ (after (two 0 0) (.clz 0 1 2)).rS 1 = 64 ∧
      (after (two 0x8000000000000000 0) (.ctz 0 1 2)).rS 1 = 63 ∧ (after (two 0 0) (.ctz 0 1 2)).rS 1 = 64 ∧
      (after (two (-1) 0) (.popc 0 1 2)).rS 1 = 64 := by decide +kernel

theorem test_extensions :
    (after (two 0x180 0) (.sext 0 1 2 7)).rS 1 = 0xFFFFFFFFFFFFFF80 ∧ (after (two 0x180 0) (.zext 0 1 2 7)).rS 1 = 0x80 ∧
      (after (two (-1) 0) (.sext 0 1 2 63)).rS 1 = -1 := by decide +kernel

/-- 12 R282: signed and unsigned conditions, and the immediate's two readings. -/
theorem test_compares :
    (after (two (-1) 1) (.cmp 0 3 2 3 2)).rP 3 = true ∧ (after (two (-1) 1) (.cmp 0 3 2 3 4)).rP 3 = false ∧
      (after (two 6 1) (.cmp 0 3 2 3 6)).rP 3 = false ∧ (after (two (-1) 0) (.cmpi 0 3 2 63 0)).rP 3 = true ∧
      (after (two 62 0) (.cmpi 0 3 2 63 4)).rP 3 = true := by decide +kernel

/-- 08 R187: s0 reads 0 and p0 true whatever is written. -/
theorem test_hard_wired : (after State.reset (.movi 0 0 5)).rS 0 = 0 ∧ (after State.reset (.psetConst 0 0 0)).rP 0 = true := by
  decide +kernel

/-- 10 R237: a false guard leaves everything as it is. -/
theorem test_guard_false : (after State.reset (.movi 1 4 5)).rS 4 = 0 := by decide +kernel

theorem test_addresses :
    let s := setA 5 0x1000 (setD 5 0xFFFFFFFC (two 3 0))
    (after s (.lea 0 6 5 2 7)).rA 6 = 0x1180 ∧ (after s (.amov 0 6 2)).rA 6 = 3 ∧ (after s (.agetA 0 1 5)).rS 1 = 0x1000 ∧
      (after s (.agetD 0 1 5)).rS 1 = -4 ∧ (after s (.aadd 0 6 5 511)).rA 6 = 0xFC0 ∧ (after s (.dset 0 6 2)).rD 6 = 3 := by
  decide +kernel

theorem test_predicates :
    let s := next State.reset (.psetConst 0 1 0)
    (after s (.pand 0 2 0 1)).rP 2 = false ∧ (after s (.por 0 2 0 1)).rP 2 = true ∧ (after s (.pxor 0 2 0 0)).rP 2 = false ∧
      (after s (.pnot 0 2 0)).rP 2 = false ∧ (after s (.pmov 0 2 0)).rP 2 = true ∧
      (after (two 4 0) (.psetScalar 0 2 2)).rP 2 = true ∧ (after (two 4 0) (.psetBit 0 2 2 2)).rP 2 = true ∧
      (after (two 4 0) (.psetBit 0 2 2 3)).rP 2 = false := by decide +kernel

/-! ### Control -/

/-- A context whose bundle stands at 0x10000 and is 8 bytes. -/
def atCode : State := State.reset.updCx fun c => { c with arch := { c.arch with pc := 0x10000 }, npc := 0x10008 }

/-- 12 R285: targets count words from the bundle's own address. -/
theorem test_branches :
    (next atCode (.br 0 0 0 0xFFFF)).cx.npc = 0xFFFC ∧ (next atCode (.br 0 0 1 4)).cx.npc = 0x10008 ∧
      (next (setA 4 0x20000 atCode) (.jmp 0 4 2)).cx.npc = 0x20008 ∧ (next atCode (.call 0 9 0x10)).cx.npc = 0x10040 ∧
      (after atCode (.call 0 9 0x10)).rS 9 = 0x10008 ∧ (next (setS 9 0x30000 atCode) (.ret 0 9)).cx.npc = 0x30000 := by
  decide +kernel

/-- 12 R286: the last turn of a loop falls through; `lexit` leaves at once. -/
theorem test_loop :
    (next (setLC 2 2 atCode) (.loop 0 2 0xFFFE)).cx.npc = 0xFFF8 ∧ (after (setLC 2 2 atCode) (.loop 0 2 0xFFFE)).rLC 2 = 1 ∧
      (next (setLC 2 1 atCode) (.loop 0 2 0xFFFE)).cx.npc = 0x10008 ∧
      (next (setLC 2 5 atCode) (.lexit 0 2 3)).cx.npc = 0x1000C ∧ (after (setLC 2 5 atCode) (.lexit 0 2 3)).rLC 2 = 0 := by
  decide +kernel

/-- 12 R287: a filling turn rotates s32 to s33 and sets p8; a draining turn clears it. -/
theorem test_mloop :
    let s := setLC 0 1 (setS 32 7 atCode)
    (after s (.mloop 0 0xFFF8)).rS 33 = 7 ∧ (after s (.mloop 0 0xFFF8)).rP 8 = true ∧ (next s (.mloop 0 0xFFF8)).cx.npc = 0xFFE0 ∧
      (after (setLC 1 1 atCode) (.mloop 0 0)).rP 8 = false ∧ (after (setLC 1 1 atCode) (.mloop 0 0)).rLC 1 = 0 ∧
      (next atCode (.mloop 0 0)).cx.npc = 0x10008 := by decide +kernel

/-- 12 R288: `trap` is class C with its code, and the pc is past its bundle. -/
theorem test_trap : trapped atCode (.trap 0 0x1234) = some (15, 1) ∧ (next atCode (.trap 0 0x1234)).cx.cause = 0x1234000F ∧
    (next atCode (.trap 0 0x1234)).cx.arch.pc = 0x10008 := by decide +kernel

theorem test_pin_halt : (next State.reset (.pin 0)).cx.pin = true ∧ (next State.reset (.halt 0)).cx.status = .blocked .halt := by
  decide +kernel

/-- 08 R184: fields of a WID stand one after the other, of the widths that WIDCFG gives. -/
theorem test_widf :
    let s := State.reset.updCx fun c => { c with wid := 0b101_0110_11, widcfg := BitVec.ofNat 64 (2 + 4 * 2 ^ 6 + 3 * 2 ^ 12 + 3 * 2 ^ 36) }
    (after s (.widf 0 1 0)).rS 1 = 3 ∧ (after s (.widf 0 1 1)).rS 1 = 6 ∧ (after s (.widf 0 1 2)).rS 1 = 5 ∧
      (after s (.widf 0 1 3)).rS 1 = 0 := by decide +kernel

/-- 12 R297: the member register after reset, and an unassigned number. -/
theorem test_csrr : (after State.reset (.csrr 0 1 0x003)).rS 1 = 0xF000 ∧ (after State.reset (.csrr 0 1 0x100)).rS 1 = 0x4C014B59 ∧
    (after State.reset (.csrr 0 1 0x009)).rS 1 = 0 := by decide +kernel

/-- 12 R294: a written 1 clears a flag of FSTAT, and a read-only register keeps its value. -/
theorem test_csrw :
    let s := (two 0b00010 0).updCx fun c => { c with fstat := 0b10011 }
    (after s (.csrw 0 2 0x005)).fstat = 0b10001 ∧ (after s (.csrw 0 2 0x001)).cause = 0 := by decide +kernel

/-- 12 R292, 08 R191: a 64 × 64 shape of one byte fits, one of two bytes does not. -/
theorem test_tshape : (after State.reset (.tshapeImm 0 2 15 15 1)).rTS 2 = 0x848103CF := by decide +kernel
theorem test_tshape_too_large : trapped State.reset (.tshapeImm 0 2 63 63 2) = some (4, 0) := by decide +kernel
theorem test_tvalid :
    let s := setTS 2 (shapeOf 15 15 16 16 1) (two 3 99)
    (after s (.tvalid 0 2 2 3)).rTS 2 = shapeOf 15 15 3 16 1 ∧ trapped State.reset (.tvalid 0 2 2 3) = some (3, 0) := by
  decide +kernel

theorem test_keys_formats :
    (after State.reset (.pksetKey 0 3 0 1)).arch.pkr = 0x80 ∧
      (after (setLC 0 2 (two 0x30055 0)) (.ftsetCur 0 2 15)).rFT 1 = 0x30055 ∧ (after (two 0xFFFF 0) (.fbaseReg 0 2)).arch.fbase = 15 ∧
      (after (two 9 0) (.xpset 0 2 4)).rXP 4 = 9 := by decide +kernel

/-! ### Tiles -/

/-- The shape of an r × c tile of format f, all of it valid. -/
def full (r c f : Nat) : BitVec 32 := shapeOf (r - 1) (c - 1) r c f

/-- Tile n with a shape and its bytes as one number. -/
def setTile (n : Fin 16) (ts : BitVec 32) (v : Nat) (s : State) : State := setT n v (setTS n ts s)

/-- Elements of one width, the first lowest. -/
def pack (w : Nat) : List Nat → Nat
  | [] => 0
  | x :: xs => x + 2 ^ w * pack w xs

/-- The low bits of a tile, and FSTAT. -/
def tileOf (c : Ctx) (n : Fin 16) (bits : Nat) : Nat × Nat := ((vget c.tiles n).toNat % 2 ^ bits, c.fstat.toNat)

/-- An FP32 code into binary8 under a format entry: the code and the flags. -/
def toB8 (entry : BitVec 32) (x : Nat) : Nat × Nat :=
  let s := (setTile 1 (full 1 1 1) x (setTS 2 (full 1 1 7) State.reset)).updCx fun c =>
    { c with arch := { c.arch with ft := vset c.arch.ft 0 entry } }
  tileOf (after s (.tcvt 0 2 1 0 0 0 0)) 2 8

/-- 11 R263 to R273, the example's table: signed, P = 4, INF = 1; flags NV 1, OF 2, UF 4, NX 8, SATF 16. -/
theorem test_binary8_signed :
    toB8 0x1B 0x3F800000 = (0x40, 0) ∧ toB8 0x1B 0x3E99999A = (0x32, 8) ∧ toB8 0x1B 0x43680000 = (0x7E, 8) ∧
      toB8 0x1B 0x436B0000 = (0x7F, 10) ∧ toB8 0x11B 0x436B0000 = (0x7E, 26) ∧ toB8 0x3B 0x436B0000 = (0x7E, 8) ∧
      toB8 0x1B 0x3A000000 = (0x00, 12) ∧ toB8 0x5B 0xBA000000 = (0x00, 12) ∧ toB8 0x5B 0x3A000000 = (0x01, 12) ∧
      toB8 0x1B 0xFF800000 = (0xFF, 0) ∧ toB8 0x1B 0x7FC00000 = (0x80, 0) := by decide +kernel
/-- The same example with INF = 0, and an unsigned entry. -/
theorem test_binary8_other :
    toB8 0x0B 0x436B0000 = (0x7F, 8) ∧ toB8 0x0B 0x437A0000 = (0x80, 10) ∧ toB8 0x10B 0x437A0000 = (0x7F, 26) ∧
      toB8 0x03 0xBFC00000 = (0xFF, 9) ∧ toB8 0x103 0xBFC00000 = (0x00, 25) := by decide +kernel

/-- 11 R263: 0x32 under the signed entry is 0.3125. -/
theorem test_binary8_value :
    let s := (setTile 1 (full 1 1 7) 0x32 (setTS 2 (full 1 1 1) State.reset)).updCx fun c =>
      { c with arch := { c.arch with ft := vset c.arch.ft 0 0x1B } }
    tileOf (after s (.tcvt 0 2 1 0 0 0 0)) 2 32 = (0x3EA00000, 0) := by decide +kernel

/-- Two 1 × 2 FP32 operands in T1 and T2, and a destination T3. -/
def pair (a b : List Nat) : State :=
  setTile 1 (full 1 2 1) (pack 32 a) (setTile 2 (full 1 2 1) (pack 32 b) (setTS 3 (full 1 2 1) State.reset))

/-- 14 R331, R273: 1 + 2^−24 is a tie to even; ∞ − ∞ is invalid and gives the default NaN. -/
theorem test_tadd_tsub :
    tileOf (after (pair [0x3F800000, 0x40400000] [0x33800000, 0x3F800000]) (.tadd 0 3 1 2 0 0 0 0)) 3 64 =
        (pack 32 [0x3F800000, 0x40800000], 8) ∧
      tileOf (after (pair [0x7F800000, 0x3F800000] [0x7F800000, 0x40400000]) (.tsub 0 3 1 2 0 0 0 0)) 3 64 =
        (pack 32 [0x7FC00000, 0xC0000000], 1) := by decide +kernel

theorem test_tmul_tmin_tmax :
    tileOf (after (pair [0x40400000, 0xBF800000] [0x3F000000, 0x40000000]) (.tmul 0 3 1 2 0 0 0 0)) 3 64 =
        (pack 32 [0x3FC00000, 0xC0000000], 0) ∧
      tileOf (after (pair [0x40400000, 0xBF800000] [0x3F000000, 0x40000000]) (.tmin 0 3 1 2 0 0 0 0)) 3 64 =
        (pack 32 [0x3F000000, 0xBF800000], 0) ∧
      tileOf (after (pair [0x40400000, 0xBF800000] [0x3F000000, 0x40000000]) (.tmax 0 3 1 2 0 0 0 0)) 3 64 =
        (pack 32 [0x40400000, 0x40000000], 0) := by decide +kernel

theorem test_tabs_tneg :
    tileOf (after (pair [0xC0400000, 0x80000000] []) (.tabs 0 3 1 0 0 0 0)) 3 64 = (pack 32 [0x40400000, 0], 0) ∧
      tileOf (after (pair [0xC0400000, 0] []) (.tneg 0 3 1 0 0 0 0)) 3 64 = (pack 32 [0x40400000, 0x80000000], 0) := by
  decide +kernel

/-- 14 R331: one rounding of a product and a sum; `tfms` subtracts its third source. -/
theorem test_tfma_tfms :
    let s := setTile 4 (full 1 2 1) (pack 32 [0xBF800000, 0x3F800000]) (pair [0x3F800001, 0x40400000] [0x3F800001, 0x40000000])
    tileOf (after s (.tfma 0 3 1 2 4 0 0)) 3 64 = (pack 32 [0x34800000, 0x40E00000], 8) ∧
      tileOf (after s (.tfms 0 3 1 2 4 0 0)) 3 32 = (0x40000001, 8) := by decide +kernel

/-- 14 R334: 3 scaled by 2^2.9 takes the whole part; a clamp between two tiles. -/
theorem test_tscale_tclamp :
    tileOf (after (pair [0x40400000, 0x3F800000] [0x4039999A, 0xBF800000]) (.tscale 0 3 1 2 0 0 0 0)) 3 64 =
        (pack 32 [0x41400000, 0x3F000000], 0) ∧
      tileOf (after (setTile 4 (full 1 2 1) (pack 32 [0x40000000, 0x40000000]) (pair [0x40400000, 0] [0x3F800000, 0x3F800000]))
        (.tclamp 0 3 1 2 4 0 0)) 3 64 = (pack 32 [0x40000000, 0x3F800000], 0) := by decide +kernel

/-- 14 R332: a NaN is unordered; the bits of a mask stand at 64 i + j. -/
theorem test_tcmp :
    let c := after (pair [0x3F800000, 0x7FC00000] [0x40000000, 0x3F800000]) (.tcmp 0 1 1 2 0 2 0)
    (c.rK 1).getLsbD 0 = true ∧ (c.rK 1).getLsbD 1 = false ∧
      ((after (pair [0x3F800000, 0x7FC00000] [0x40000000, 0x3F800000]) (.tcmp 0 1 1 2 0 6 0)).rK 1).getLsbD 1 = true := by
  decide +kernel

/-- 14 R333, R328: selection by a mask; under a mask the other elements keep their bytes. -/
theorem test_tsel_masked :
    let s := setK 2 2 (pair [1, 2] [3, 4])
    tileOf (after s (.tsel 0 3 1 2 2)) 3 64 = (pack 32 [3, 2], 0) ∧
      tileOf (after (setT 3 (pack 32 [7, 7]) s) (.tcpy 0 3 1 2 1)) 3 64 = (pack 32 [7, 2], 0) := by decide +kernel

theorem test_tbcast : tileOf (after (pair [0x3F800000, 0] []) (.tbcast 0 3 1 0 0 0 0)) 3 64 =
    (pack 32 [0x3F800000, 0x3F800000], 0) := by decide +kernel

/-- INT8 elements in T2 and T7. -/
def bytes (a b : List Nat) : State :=
  setTile 2 (full 1 2 6) (pack 8 a) (setTile 7 (full 1 2 6) (pack 8 b) (setTS 3 (full 1 2 6) State.reset))

/-- 14 R335, the example: 200 + 100 read unsigned clamps to 255 and sets SATF; read signed it is 44. -/
theorem test_tiadd :
    tileOf (after (bytes [200, 1] [100, 2]) (.tiadd 0 2 2 7 1 1 0 0)) 2 16 = (pack 8 [255, 3], 16) ∧
      tileOf (after (bytes [200, 1] [100, 2]) (.tiadd 0 2 2 7 1 0 0 0)) 2 16 = (pack 8 [44, 3], 0) := by decide +kernel

theorem test_tisub_timul :
    tileOf (after (bytes [0x80, 5] [1, 7]) (.tisub 0 3 2 7 1 0 0 0)) 3 16 = (pack 8 [0x80, 0xFE], 16) ∧
      tileOf (after (bytes [0x80, 5] [2, 7]) (.timul 0 3 2 7 0 0 0 0)) 3 16 = (pack 8 [0, 35], 0) := by decide +kernel

theorem test_tile_logic :
    tileOf (after (bytes [0xCC, 0xF0] [0xAA, 0x0F]) (.tand 0 3 2 7 0 0 0)) 3 16 = (pack 8 [0x88, 0], 0) ∧
      tileOf (after (bytes [0xCC, 0xF0] [0xAA, 0x0F]) (.tor 0 3 2 7 0 0 0)) 3 16 = (pack 8 [0xEE, 0xFF], 0) ∧
      tileOf (after (bytes [0xCC, 0xF0] [0xAA, 0x0F]) (.txor 0 3 2 7 0 0 0)) 3 16 = (pack 8 [0x66, 0xFF], 0) := by decide +kernel

theorem test_tile_shifts :
    tileOf (after (bytes [0x81, 0x81] [1, 8]) (.tshl 0 3 2 7 0 0 0)) 3 16 = (pack 8 [2, 0], 0) ∧
      tileOf (after (bytes [0x81, 0x81] [1, 8]) (.tshr 0 3 2 7 0 0 0)) 3 16 = (pack 8 [0xC0, 0xFF], 0) := by decide +kernel

/-- 14 R336, the example: a row of ten FP16 elements, zeros after it; an absent row gives zeros. -/
theorem test_trget :
    let s := setTile 3 (shapeOf 15 15 3 10 2) (pack 16 (List.replicate 32 0 ++ [1, 2, 3, 4, 5, 6, 7, 8, 9, 10, 11, 12])) State.reset
    ((after s (.trget 0 3 9 4 2)).rV 9).toNat = pack 16 [1, 2, 3, 4, 5, 6, 7, 8, 9, 10] ∧
      ((after (setS 4 1 (setV 9 5 s)) (.trget 0 3 9 4 2)).rV 9).toNat = 0 := by decide +kernel

theorem test_tile_moves :
    let s := setTile 1 (full 2 2 6) 0x04030201 (setTile 3 (full 2 2 6) 0x0D0C0B0A (setV 5 0x2221 State.reset))
    tileOf (after s (.ttr 0 3 1)) 3 32 = (0x04020301, 0) ∧ tileOf (after s (.tbrow 0 3 5)) 3 32 = (0x22212221, 0) ∧
      tileOf (after s (.tbcol 0 3 5)) 3 32 = (0x22222121, 0) ∧ tileOf (after (setS 2 0x155 s) (.tzero 0 3 2)) 3 32 = (0x55555555, 0) ∧
      tileOf (after s (.trput 0 3 5 0 1)) 3 32 = (0x22210B0A, 0) ∧ tileOf (after s (.tcput 0 3 5 0 1)) 3 32 = (0x220C210A, 0) ∧
      ((after s (.tcget 0 3 6 0 1)).rV 6).toNat = 0x0D0B := by decide +kernel

/-- 14 R339, the example: the tree gives 16,777,218. -/
theorem test_tredr_tree :
    let s := setTile 1 (full 1 4 1) (pack 32 [0x4B800000, 0x3F800000, 0x3F800000, 0x3F800000]) (setTS 8 (full 1 1 1) State.reset)
    (tileOf (after s (.tredr 0 8 1 0 0 0 0 0)) 8 32).1 = 0x4B800001 := by decide +kernel

/-- 14 R340: the index of the greatest value of a column, and of the whole tile; the first of equals. -/
theorem test_treductions :
    let s := setTile 1 (full 2 2 6) 0x05030501 (setTS 3 (full 1 2 6) (setTS 4 (full 1 1 6) State.reset))
    tileOf (after s (.tredc 0 3 1 0 7 0 0 0)) 3 16 = (pack 8 [1, 0], 0) ∧ tileOf (after s (.tred 0 4 1 0 7 0 0 0)) 4 8 = (1, 0) ∧
      tileOf (after s (.tredc 0 3 1 0 0 0 0 0)) 3 16 = (pack 8 [4, 10], 0) := by decide +kernel

theorem test_tscan :
    let s := setTile 1 (full 1 4 6) 0x04030201 (setTS 3 (full 1 4 6) State.reset)
    tileOf (after s (.tscan 0 3 1 0 0 0 0 0)) 3 32 = (0x0A060301, 0) := by decide +kernel

/-- 14 R341, the example: 4096² + 1 − 4096² is exactly 1. -/
theorem test_tdot :
    let s := setTile 1 (full 1 3 2) (pack 16 [0x6C00, 0x3C00, 0xEC00]) (setTile 2 (full 3 1 2) (pack 16 [0x6C00, 0x3C00, 0x6C00])
      (setTS 4 (full 1 1 1) State.reset))
    tileOf (after s (.tdot 0 4 1 2 0 0 0)) 4 32 = (0x3F800000, 0) := by decide +kernel

/-- 14 R346, the example: 1/√3 to 12 bits is 2365 × 2^−12. -/
theorem test_trsqa :
    let s := setTile 5 (full 1 1 1) 0x40400000 State.reset
    (tileOf (after s (.trsqa 0 5 5 0 0 0 0)) 5 32).1 = 0x3F13D000 := by decide +kernel

/-- 14 R347: one refinement of it rounds y (3 − 3y²) / 2. -/
theorem test_trsqr :
    let s := setTile 1 (full 1 1 1) 0x40400000 (setTile 2 (full 1 1 1) 0x3F13D000 (setTS 3 (full 1 1 1) State.reset))
    (tileOf (after s (.trsqr 0 3 1 2 0 0 0 0)) 3 32).1 = 0x3F13CD3A := by decide +kernel

theorem test_exact_functions :
    let s := setTile 1 (full 1 2 1) (pack 32 [0x40800000, 0x40000000]) (setTS 3 (full 1 2 1) State.reset)
    (tileOf (after s (.trcpa 0 3 1 0 0 0 0)) 3 64).1 = pack 32 [0x3E800000, 0x3F000000] := by decide +kernel

/-- 14 R348, R349: the moments of 1 and 3, and of two such rows together. -/
theorem test_moments :
    let s := setTile 1 (full 1 2 1) (pack 32 [0x3F800000, 0x40400000]) (setTS 3 (full 1 3 1) State.reset)
    let m := pack 32 [0x40000000, 0x40000000, 0x40000000]
    let u := setTile 1 (full 1 3 1) m (setTile 2 (full 1 3 1) m (setTS 3 (full 1 3 1) State.reset))
    (tileOf (after s (.twelf 0 3 1 0 0 0 0)) 3 96).1 = m ∧
      (tileOf (after u (.twmrg 0 3 1 2 0 0 0 0)) 3 96).1 = pack 32 [0x40800000, 0x40000000, 0x40800000] := by decide +kernel

theorem test_masks :
    let s := setK 1 0b1100 (setK 2 0b1010 State.reset)
    ((after s (.kand 0 3 1 2)).rK 3).toNat = 0b1000 ∧ ((after s (.kor 0 3 1 2)).rK 3).toNat = 0b1110 ∧
      ((after s (.kxor 0 3 1 2)).rK 3).toNat = 0b0110 ∧ ((after s (.knot 0 3 1)).rK 3).toNat = 2 ^ 4096 - 13 ∧
      (after s (.kcnt 0 1 12)).rS 12 = 2 := by decide +kernel

/-- 08 R194: an unconfigured tile is class I UNCONF. -/
theorem test_unconfigured : trapped State.reset (.tadd 0 3 1 2 0 0 0 0) = some (3, 0) := by decide +kernel

/-! ### Addresses and translation -/

/-- 01 R18, R19, R24: the example's three addresses. -/
theorem test_address_map :
    region 0x000004C001240 = .spad ∧ homeDie 0x000004C001240 = 1 ∧ homeCore 0x000004C001240 = 3 ∧
      region 0x0013000008000 = .hbm ∧ homeDie 0x0013000008000 = 3 ∧ region 0x8955000000040 = .peer ∧
      (0x8955000000040 - peerBase) / 2 ^ 42 = 37 ∧ homeDie (0x8955000000040 % 2 ^ 42) = 5 := by decide +kernel

/-- 01 R16: the holes of the map and the edges of its regions. -/
theorem test_regions :
    region 0x0000200000000 = .hole ∧ region 0x00001FFFFFFFF = .spad ∧ region 0x0018000000000 = .window ∧
      region 0x003FF00000000 = .ctrl ∧ region 0x0030000000000 = .hole ∧ region 0x0080000000000 = .hole ∧
      region 0x0040000000000 = .host := by decide +kernel

/-- 03 R75, the example's interleave. -/
theorem test_interleave : interleave 0x00180000351A8 1 2 4 = 0x001700000D1A8 := by decide +kernel

/-- 03 R68, the example's indices. -/
theorem test_indices :
    vaIndex 0x00123456789ABCDE 1 = 0x48D ∧ vaIndex 0x00123456789ABCDE 2 = 0x2B3 ∧ vaIndex 0x00123456789ABCDE 3 = 0x189A ∧
      canonical 0x00123456789ABCDE = true ∧ canonical 0x0040000000000000 = false ∧ canonical 0xFFC0000000000000 = true := by
  decide +kernel

/-- Tables for the page of the example, in HBM4, with ASROOT1 naming the first: a leaf for frame 0x1000042. -/
def tables : State :=
  let root := leBytes 8 (2 ^ 63 + hbmBase + 0x10000 + 1)
  let mid := leBytes 8 (2 ^ 63 + hbmBase + 0x20000 + 1)
  let leaf := leBytes 8 (0x13 + 0x10000420000)
  let m := memWrite [] (hbmBase + 0x2468) root
  let m := memWrite m (hbmBase + 0x10000 + 0x1598) mid
  let s := { State.reset with mem := memWrite m (hbmBase + 0x20000 + 0xC4D0) leaf }
  (s.updDie 0 fun d => { d with asroot := vset d.asroot 1 (BitVec.ofNat 64 (hbmBase + 1)) }).updCx fun c => { c with asid := 1 }

/-- 03 R70, R71: a walk finds the leaf, sets A, and places the example's PA; the store of R88 sets D. -/
theorem test_walk :
    let s := tables
    (match s.checkAccess (s.cx.req s.cur .load true false) [⟨0x00123456789ABCDE, 1⟩] with
    | (t, .ok [p]) => decide (p.loc.addr = 0x001000042BCDE ∧ (t.dev64 (hbmBase + 0x20000 + 0xC4D0)).toNat % 512 = 0x93)
    | _ => false) = true := by decide +kernel
theorem test_store_sets_dirty :
    let s := tables
    ((s.access s.cur (s.cx.req s.cur .store false true) [⟨0x00123456789ABCDE, 1⟩]).1.dev64 (hbmBase + 0x20000 + 0xC4D0)).toNat % 512 =
      0x193 := by decide +kernel

/-- 03 R91: a page that is not present, with its address and the level of the walk; class R. -/
theorem test_page_fault :
    let s := setA 1 0x20000 (setLC 0 3 tables)
    let t := next s (.ld 0 5 1 0 0 0 3 0)
    trapped s (.ld 0 5 1 0 0 0 3 0) = some (5, 3) ∧ t.cx.fva = 0x20000 ∧ bitsOf t.cx.finfo 0 4 = 2 ∧ bitsOf t.cx.finfo 7 2 = 1 := by
  decide +kernel

/-! ### Memory -/

/-- VA page 1 is a writable, shared, release-consistent page of a frame; a1 names an address of it. -/
def mapped (frame : Nat) (off : Nat) : State :=
  let s := (State.reset.updCx fun c => { c with asid := 1, status := .running }).updMyCore fun k =>
    { k with running := some 0, l1tlb := [⟨1, 1, false, BitVec.ofNat 64 (0x1D3 + frame)⟩] }
  setA 1 (BitVec.ofNat 64 (0x10000 + off)) s

/-- The same with bytes in its storage. -/
def holding (frame off : Nat) (bs : List Byte) : State :=
  let s := mapped frame off
  { s with mem := memWrite s.mem (frame + off) bs }

/-- 13 R304: byte order, zero and sign extension. -/
theorem test_load_extends :
    let s := holding hbmBase 8 [0x80, 0xFF, 3, 4, 5, 6, 7, 0x88]
    (after s (.ld 0 5 1 0 0 0 0 0)).rS 5 = 0x80 ∧ (after s (.ld 0 5 1 0 0 1 0 0)).rS 5 = 0xFFFFFFFFFFFFFF80 ∧
      (after s (.ld 0 5 1 0 0 1 1 0)).rS 5 = 0xFFFFFFFFFFFFFF80 ∧ (after s (.ld 0 5 1 0 0 0 2 0)).rS 5 = 0x0403FF80 ∧
      (after s (.ld 0 5 1 0 0 0 3 0)).rS 5 = 0x880706050403FF80 := by decide +kernel

/-- 13 R303: a displacement counts access sizes; a stepping form advances after the access. -/
theorem test_address_forms :
    let s := setD 1 24 (holding hbmBase 8 [1, 2, 3, 4, 5, 6, 7, 8])
    (after s (.ld 0 5 1 2 0 0 1 3)).rS 5 = 0x0807 ∧ (after s (.ld 0 5 1 2 0 0 1 0x1F)).rS 5 = 0 ∧
      (after s (.ld 0 5 1 1 0 0 0 0)).rS 5 = 1 ∧ (after s (.ld 0 5 1 1 0 0 0 0)).rA 1 = 0x10020 := by decide +kernel

/-- 18 R429: a store is held, its own context reads it, and a mark performs it. -/
theorem test_store :
    let s := setS 5 0x1122334455667788 (mapped hbmBase 16)
    let t := next s (.st 0 5 1 0 0 2 0)
    t.mem = [] ∧ (after t (.ld 0 6 1 0 0 0 3 0)).rS 6 = 0x55667788 ∧
      memRead (t.mark t.cur).mem (hbmBase + 16) 5 = [0x88, 0x77, 0x66, 0x55, 0] := by decide +kernel

/-- 07 R171: a misaligned atomic is ALIGN, class R; a misaligned load is not. -/
theorem test_misaligned : trapped (mapped hbmBase 2) (.amo 0 5 1 0 4 0 0) = some (8, 3) ∧
    trapped (mapped hbmBase 2) (.ld 0 5 1 0 0 0 2 0) = none := by decide +kernel

theorem test_line :
    let s := setV 3 0x0102 (mapped hbmBase 0x100)
    let t := (next s (.lst 0 3 1 0 0 0)).mark s.cur
    memRead t.mem (hbmBase + 0x100) 3 = [2, 1, 0] ∧ ((after t (.lld 0 4 1 0 0 0)).rV 4).toNat = 0x0102 := by decide +kernel

/-- 13 R306, the example: three rows of ten FP16 elements at pitch 64, four blocks, and the stepped address. -/
theorem test_tile_load :
    let s := setS 8 64 (setD 1 192 (setTS 2 (shapeOf 7 15 3 10 2) (mapped 0 0x30)))
    (tileRuns (s.cx.rTS 2) (s.rA 1) false (some (s.rS 8))).map (fun r => (r.va.toNat % 65536, r.n)) =
        [(0x30, 20), (0x70, 20), (0xB0, 20)] ∧
      (next s (.tld 0 2 0 1 1 8 0)).cx.mrql = 4 ∧ (after s (.tld 0 2 0 1 1 8 0)).rA 1 = 0x100F0 := by decide +kernel

/-- 13 R306: a tile stored by columns and loaded by rows is transposed. -/
theorem test_tile_columns :
    let s := setTile 2 (full 2 2 6) 0x04030201 (setTS 3 (full 2 2 6) (mapped hbmBase 0))
    let t := next s (.tst 0 2 1 1 0 0 0)
    tileOf (after t (.tld 0 3 0 1 0 0 0)) 3 32 = (0x04020301, 0) := by decide +kernel

/-- 13 R306: rows gathered and scattered by signed 32-bit offsets. -/
theorem test_tile_gather :
    let s := setV 7 (pack 32 [4, 0xFFFFFFFE]) (setTile 2 (full 2 1 6) 0x0201 (setTS 3 (full 2 1 6) (mapped hbmBase 8)))
    let t := next s (.tsts 0 2 0 1 0 7 0)
    memRead (t.mark t.cur).mem (hbmBase + 6) 8 = [2, 0, 0, 0, 0, 0, 1, 0] ∧
      tileOf (after t (.tldg 0 3 0 1 0 7 0)) 3 16 = (0x0201, 0) := by decide +kernel

/-- 13 R313: the old value comes back; the update is performed at once. -/
theorem test_atomics :
    let s := setS 4 0x10 (setS 5 7 (holding hbmBase 8 [7, 0, 0, 0, 0xFF]))
    let mem (i : Instr) := memRead (next s i).mem (hbmBase + 8) 5
    (after s (.amo 0 6 1 0 4 0 0)).rS 6 = 7 ∧ mem (.amo 0 6 1 0 4 0 0) = [0x17, 0, 0, 0, 0xFF] ∧
      mem (.amo 0 6 1 0 4 0 1) = [0x10, 0, 0, 0, 0xFF] ∧ (after s (.cas 0 5 1 0 4 0)).rS 5 = 7 ∧
      mem (.cas 0 5 1 0 4 0) = [0x10, 0, 0, 0, 0xFF] ∧ mem (.cas 0 4 1 0 4 0) = [7, 0, 0, 0, 0xFF] ∧
      mem (.red 0 1 0 4 0 5) = [0x10, 0, 0, 0, 0xFF] := by decide +kernel

/-- 13 R314: floating-point atomics in FP32. -/
theorem test_float_atomics :
    let s := setS 4 0x3F800000 (holding hbmBase 8 [0, 0, 0x80, 0x40])
    memRead (next s (.famo 0 6 1 0 4 0)).mem (hbmBase + 8) 4 = [0, 0, 0xA0, 0x40] ∧
      memRead (next s (.fred 0 1 0 4 2)).mem (hbmBase + 8) 4 = [0, 0, 0x80, 0x40] := by decide +kernel

/-- A barrier at offset 0x40 of core 0's slice, with EXPECT = 2. -/
def barred : State := next (setS 4 2 (mapped 0 0x40)) (.barinit 0 1 4)

/-- 07 R174: the first arrival is counted, the second completes the phase. -/
theorem test_barrier :
    (barred.barrier 0x40).expect = 2 ∧ (barred.barrier 0x40).init = true ∧ (after barred (.arrive 0 5 1)).rS 5 = 0 ∧
      (let t := next (next barred (.arrive 0 0 1)) (.arrive 0 5 1)
       (t.barrier 0x40).phase = true ∧ (t.barrier 0x40).gen = 1 ∧ (t.barrier 0x40).arrived = 0 ∧
         (t.cx.settle (t.cycle + 5000)).rS 5 = 2) := by decide +kernel

/-- 13 R322: a wait for a phase that has passed ends with 0; an uninitialised object gives 3; a limit gives 1. -/
theorem test_waits :
    (after (setS 5 1 barred) (.bwait 0 5 1)).rS 5 = 0 ∧ (next (setS 5 0 barred) (.bwait 0 5 1)).cx.status = .blocked .barrier ∧
      (after (mapped 0 0x40) (.bwait 0 5 1)).rS 5 = 3 ∧
      (after (setS 6 9 { barred with cycle := 10 }) (.btwait 0 5 1 6)).rS 5 = 1 := by decide +kernel

/-- 13 R317: the update, then the arrival at the second address. -/
theorem test_redb :
    let s := setA 2 0x10048 (setS 4 3 (mapped 0 0x80))
    let s := { s with mem := memWrite s.mem 0x40 (leBytes 64 (1 + 2 ^ 65)) }
    let t := next (setA 2 0x10040 s) (.redb 0 1 0 4 1 0 2)
    memRead t.mem 0x80 1 = [3] ∧ (t.barrier 0x40).phase = true := by decide +kernel

/-- 13 R320: a fence hands held stores over; a publish on a plain page gives PUBINV. -/
theorem test_fence_pub :
    let t := next (setS 5 9 (mapped hbmBase 0)) (.st 0 5 1 0 0 3 0)
    memRead (next t (.fence 0 0 1)).mem hbmBase 1 = [9] ∧ (next t (.fence 0 0 1)).cx.held = [] ∧
      (after (mapped hbmBase 0) (.pub 0 5 1)).rS 5 = 1 := by decide +kernel

/-- 07 R160 to R164: the example's buffer. A publish turns SEL over and advances PGEN. -/
theorem test_publish :
    let s := State.reset.updDie 2 fun d => { d with pbtab := 0x80100000, pbcfg := BitVec.ofNat 64 (1 + 64 * 16) }
    let s := { s with mem := memWrite s.mem 0x80100940 (leBytes 64 (1 + 6 * 2 ^ 32 + 0x1200400 * 2 ^ 80 + 16 * 2 ^ 128 + 0x1200410 * 2 ^ 208 + 16 * 2 ^ 256)) }
    let t := next s (.pubPerform 2 37 0 0)
    pbSel (t.pbDesc 2 37) = 1 ∧ pbGen (t.pbDesc 2 37) = 7 ∧ (t.die 2).pubcnt = 1 ∧ (s.pubStep 2 37 3 5 2 0).2 = 3 := by decide +kernel

/-! ### The other units -/

/-- 15 R366, the example: 11 for T = 16 and W = 64, no code for T = 4096. -/
theorem test_xrange :
    (after (setXP 1 0x7E01 State.reset) (.xrange 0 1 5)).rS 5 = 11 ∧
      (after (setXP 1 0x7FFF State.reset) (.xrange 0 1 5)).rS 5 = 0x10F := by decide +kernel

/-- 09 R217, the example: −40 is exact at ranges 0 and 3, whatever the free value is. -/
theorem test_converter : converterCode (-40) 0 true 7 = -40 ∧ converterCode (-40) 3 true 7 = -5 ∧
    converterCode 100000 0 true 0 = 8191 ∧ converterCode (-100000) 0 false 0 = -8192 := by decide +kernel

/-- 18 R439, the example: a tile with 128 words alike and 384 zero words codes in 24 bytes. -/
theorem test_image_code :
    let ws := List.replicate 128 (0x3F8000003F800000 : W64) ++ List.replicate 384 0
    (encodeWords ws).length = 24 ∧ (encodeWords ws).getD 0 0 = 0xBF ∧ (encodeWords ws).getD 9 0 = 0xBF ∧
      (encodeWords ws).drop 18 = List.replicate 6 0x7F ∧ decodeWords (encodeWords ws) = ws := by decide +kernel

/-- 19 R456, the example: 37 issues of weight 17 pass a limit of 640, the next waits until cycle 64. -/
theorem test_governor :
    let k : Core := { Core.reset with weights := (List.range 37).reverse.map fun t => (t, 17) }
    weightAt k.weights 36 = 612 ∧ weightAt k.weights 37 = 629 ∧ k.governor 37 17 = 27 ∧ k.governor 64 17 = 0 ∧ k.governor 37 11 = 0 := by decide +kernel

/-- 15 R369, R370: nothing outstanding ends a wait with 0; XPR keeps its 18 bits. -/
theorem test_stream_waits : (after State.reset (.xwait 0 5)).rS 5 = 0 ∧ (next (two 0x7FFFF 0) (.xprog 0 2)).cx.xpr = 0x3FFFF := by
  decide +kernel

/-- 05 R129: a segment of no manifest answers UNKNOWN; 15 R373 reads the ring's position. -/
theorem test_ring_queries :
    (after (State.reset.updJoist fun j => { j with seg := 4, lap := 2 }) (.rpos 0 5)).rS 5 = 0x20004 ∧
      (after State.reset (.unboard 0 5 2)).rS 5 = 0 := by decide +kernel

/-- 16 R389: a send on a channel that its context does not own takes LINKLOST. -/
theorem test_send_not_owned : trapped State.reset (.send 0 3 5 1 0 0) = some (11, 0) := by decide +kernel

/-- 16 R390: a send in its slot leaves for the core of its descriptor and arrives 40 cycles on. -/
theorem test_send :
    let s := ({ State.reset with cycle := 500 }).updMyChan 5 fun x => { x with desc := BitVec.ofNat 64 (1 + 2 * 2 ^ 13 + 3 * 2 ^ 16 + 7 * 2 ^ 20 + 40 * 2 ^ 32) }
    let t := next (setA 1 500 (setV 3 9 s)) (.send 0 3 5 1 0 6)
    t.joist.flying = [⟨540, 2, 3, 7, 1, 500, 9⟩] ∧ (t.cx.settle 501).rS 6 = 0 := by decide +kernel

/-- 15 R379: a handle that was never issued answers as one long past. -/
theorem test_cwait : (after (two 9 0) (.cwait 0 2 5)).rS 5 = 7 := by decide +kernel

/-! ### Events and the step -/

/-- 01 R36: a member identifier beyond 319 is invalid. -/
theorem test_dieid : (next State.reset (.dieidWrite 0x2130)).joist.member = 0x13 ∧
    (next State.reset (.dieidWrite 0x3400)).joist.mvalid = false := by decide +kernel

/-- 17 R411: a kick past the ring sets ERR; one within it moves TAIL. -/
theorem test_qkick :
    let s := State.reset.updQueue 0 3 fun q => { q with slog := 4 }
    ((next s (.qkick 0 3 16)).queue 0 3).tail = 16 ∧ ((next s (.qkick 0 3 17)).queue 0 3).err = true := by decide +kernel

/-- 02 R54, R62: a corrected error is counted by the storage's die, and freezes the core that met it, of another die too. -/
theorem test_correctable :
    ((next State.reset (.correctableError 1 .dram (some (3, 2)))).die 1).ecccnt = 0x10000 ∧
      ((next State.reset (.correctableError 1 .dram (some (3, 2)))).core 3 2).frozenUntil = 24 := by decide +kernel

/-- 19 R450: a failed signature goes to SAFE with stage 1; a good one runs the self-test from stage 3. -/
theorem test_boot : (next State.reset (.resetRelease false true)).boot = .safe ∧ (next State.reset (.resetRelease false true)).stage = 1 ∧
    (next State.reset (.resetRelease true true)).boot = .selftest ∧ (next State.reset (.resetRelease true true)).stage = 3 := by
  decide +kernel

/-- 16 R383, R384: exchanges of 45 cycles there and 55 back give −5, and GTIME holds for 5 cycles; half of them a cycle
more to either side give −5.5, which rounds to the even −6; a skew beyond SLOTW = 4 raises the alarm. -/
theorem test_alignment :
    let s := State.reset.updJoist fun j =>
      { j with mvalid := true, member := 1, gtMaster := 2, gtBusy := true, ports := vupd j.ports 0 fun p => { p with up := true, circ := true, member := 2 } }
    (next (s.updJoist fun j => { j with gtExch := List.replicate 16 ⟨100, 145, 150, 205⟩ }) (.alignmentComplete ())).joist.gtHold = 5 ∧
      alignOffset (List.replicate 8 ⟨100, 145, 150, 205⟩ ++ List.replicate 8 ⟨100, 144, 150, 206⟩) = -6 ∧
      (s.takeSkew 4).joist.gtAlarm = false ∧
      (s.takeSkew 5).joist.gtAlarm = true := by decide +kernel

/-- 10 R235 to R243: a step fetches, decodes and issues the bundle at the pc; the result comes a cycle later. -/
theorem test_step :
    (match step ((setS 5 4 State.reset).withFetchWord 32 0x20011450) with
    | .next t => decide ((t.cx.settle 1).rS 5 = 5 ∧ t.cx.rS 5 = 4 ∧ t.cx.arch.pc = 0x10008 ∧ t.myCore.nextIssue = 1 ∧
        t.cx.quantum = 4095)
    | _ => false) = true := by decide +kernel

/-- 10 R239, R240, the example's first bundle: `rep` issues it again at the same pc, and the sticky slot is set. -/
theorem test_step_repeat :
    let s := setD 2 0x1000 (setA 2 0x20000 (setTS 1 (full 64 64 6) (State.reset.withFetchWord 32 0x22004810)))
    let s := { s with mem := memWrite s.mem fetchPa ([0xF0820000#32, 0x22004810#32].flatMap bytesOfWord) }
    let s := s.updMyCore fun k => { k with l1tlb := ⟨1, 2, false, 0x100000101D3⟩ :: k.l1tlb }
    (match step s with
    | .next t => decide (t.cx.arch.pc = 0x10000 ∧ t.cx.arch.due = some 1 ∧ t.cx.arch.stickyM = some 0x22004810 ∧
        (t.cx.settle 1).rA 2 = 0x21000)
    | _ => false) = true := by decide +kernel

/-- 05 R119: the check value of CRC-32C over "123456789". -/
theorem test_crc : crc32c ([0x31, 0x32, 0x33, 0x34, 0x35, 0x36, 0x37, 0x38, 0x39] : List Byte) = 0xE3069283 := by decide +kernel

/-- 02 R66: a clear leaves the bit of a write of its cycle set, and clears it in a later one. -/
theorem test_dtclr :
    let s := State.reset.devWrite 0 [7]
    let t := next s (.dtclr 0 0 0x10000)
    let u := next { s with cycle := 1 } (.dtclr 0 0 0x10000)
    (t.core 0 0).dirty.getLsbD 0 = true ∧ (u.core 0 0).dirty.getLsbD 0 = false := by decide +kernel

/-- 10 R249: of two results of a bundle for one register the later slot's stands, whatever the latencies. -/
theorem test_later_slot :
    let s := State.reset.updCx fun c => { c with opened := 0 }
    (((s.putS 5 24 1).putS 5 4 2).cx.settle 30).rS 5 = 2 ∧ (((s.putS 5 24 1).putS 6 4 2).cx.settle 30).rS 5 = 1 := by decide +kernel

/-- 15 R379: the status of a handle that an operation still outstanding has pushed out of the last 64. -/
theorem test_cwait_pushed_out :
    let s := (setS 2 0 State.reset).updCx fun c => { c with handles := 64, statuses := [(0, 1)] }
    ((handed s 0).cx.statuses = []) ∧ (after (handed s 0) (.cwait 0 2 5)).rS 5 = 7 := by decide +kernel

/-! ### Witnesses: states and operands that meet the hypotheses of the statements -/

/-- Every operation acts on the state after reset under p0, so no `Runs` or `Reaches` is empty. -/
theorem witness_acts (i : Instr) : Acts State.reset 0 i := ⟨rfl, rfl⟩

/-- An operation acts wherever no register is poisoned, under p0. -/
theorem acts_of (s : State) (h : s.cx.poison.isEmpty = true) (hp : s.rP 0 = true) (i : Instr) : Acts s 0 i :=
  ⟨hp, by simp [Ctx.poisonHit, h]⟩

/-- DivisionResults: a zero divisor, another one, and −2^63 by −1. -/
theorem witness_DivisionResults :
    (Acts (two 9 0) 0 (.div 0 1 2 3 7) ∧ ((two 9 0).rS 3).toNat = 0) ∧
      (Acts (two 9 1) 0 (.rem 0 1 2 3 0) ∧ ((two 9 1).rS 3).toNat ≠ 0) ∧
      (let s := two 0x8000000000000000 (-1)
       Acts s 0 (.div 0 1 2 3 1) ∧ (s.rS 3).toNat ≠ 0 ∧ (s.rS 2).toInt = -2 ^ 63 ∧ (s.rS 3).toInt = -1) := by
  refine ⟨⟨acts_of _ ?_ ?_ _, ?_⟩, ⟨acts_of _ ?_ ?_ _, ?_⟩, ⟨acts_of _ ?_ ?_ _, ?_⟩⟩ <;> decide +kernel

/-- TransferResults: a loop's last turn and one before it. -/
theorem witness_TransferResults :
    ((setLC 2 1 atCode).cx.rLC 2).toNat - 1 = 0 ∧ ((setLC 2 2 atCode).cx.rLC 2).toNat - 1 = 1 ∧ (atCode.cx.rLC 2).toNat - 1 = 0 := by
  decide +kernel

/-- ModuloLoop: a filling turn, a draining turn, the end, and a delivery with nothing else under way. -/
theorem witness_ModuloLoop :
    (let s := setLC 0 1 atCode
     (31#5).toNat = (s.cx.arch.rbs.toNat + 31) % 32 ∧ (7#3).toNat = (s.cx.arch.rbp.toNat + 7) % 8 ∧ 0 < (s.cx.rLC 0).toNat ∧
       s.cx.inflight = [] ∧ s.cx.pend = []) ∧
      (let s := setLC 1 1 atCode
       (s.cx.rLC 0).toNat = 0 ∧ 0 < (s.cx.rLC 1).toNat) ∧
      (atCode.cx.rLC 0).toNat = 0 ∧ (atCode.cx.rLC 1).toNat = 0 := by decide +kernel

/-- Context 0 runs and context 1 is ready. -/
def twoReady : State :=
  ((State.reset.updCx fun c => { c with status := .running }).updMyCore fun k => { k with running := some 0 }).updCtx ⟨0, 0, 1⟩
    fun c => { c with status := .ready }

/-- ContextControl: pinned and not, another context ready and none, in a handler and outside, with a task to end. -/
theorem witness_ContextControl :
    State.reset.cx.pin = false ∧ (next State.reset (.pin 0)).cx.pin = true ∧
      (∃ x, x ≠ twoReady.cur.ctx ∧ (twoReady.ctxOf ⟨twoReady.cur.die, twoReady.cur.core, x⟩).status = .ready) ∧
      twoReady.cx.pin = false ∧ twoReady.myCore.running = some twoReady.cur.ctx ∧
      (¬∃ x, x ≠ State.reset.cur.ctx ∧ (State.reset.ctxOf ⟨State.reset.cur.die, State.reset.cur.core, x⟩).status = .ready) ∧
      State.reset.cx.inh = false ∧ (State.reset.updCx fun c => { c with inh := true }).cx.inh = true ∧
      ((State.reset.updCx fun c => { c with task := some 3 }).flushHeld ⟨0, 0, 0⟩).cx.task = some 3 := by decide +kernel

/-- A package with a member identifier, a time master and a port to it. -/
def timed (master : BitVec 9) (up : Bool) : State :=
  State.reset.updJoist fun j => { j with mvalid := true, member := 1, gtMaster := master, ports := vupd j.ports 15 fun p => { p with up := up, circ := true, member := 2 } }

/-- SystemRegisters: each answer of `realign`, and the numbers next to those of the loop counters. -/
theorem witness_SystemRegisters :
    State.reset.joist.mvalid = false ∧ ((timed 2 true).updJoist fun j => { j with gtBusy := true }).joist.gtBusy = true ∧
      ((timed 1 false).updJoist fun j => { j with gtAsked := some (0, 6) }).joist.gtAsked = some ((timed 1 false).cycle, 6) ∧
      (timed 1 false).joist.gtAsked = none ∧
      ((timed 1 false).joist.mvalid = true ∧ (timed 1 false).joist.gtBusy = false ∧ (timed 1 false).joist.member = (timed 1 false).joist.gtMaster) ∧
      ((timed 0x1FF false).joist.gtMaster = 0x1FF ∧ (timed 0x1FF false).joist.member ≠ (timed 0x1FF false).joist.gtMaster) ∧
      ((timed 2 false).joist.member ≠ (timed 2 false).joist.gtMaster ∧ (timed 2 false).joist.gtMaster ≠ 0x1FF ∧
        ∀ q, (timed 2 false).joist.circuit (timed 2 false).joist.gtMaster q = false) ∧
      (¬∀ q, (timed 2 true).joist.circuit (timed 2 true).joist.gtMaster q = false) ∧
      (0x10 ≤ (0x13#12).toNat ∧ (0x13#12).toNat ≤ 0x13) ∧ ¬((0x14#12).toNat ≤ 0x13) := by decide +kernel

/-- ShapeResults: the largest shape that fits and the least that does not, nothing, and a configured tile or none. -/
theorem witness_ShapeResults :
    ShapeFits 63 63 64 64 6 ∧ ¬ShapeFits 63 63 64 64 5 ∧ ¬ShapeFits 0 0 1 1 0 ∧ ¬ShapeFits 0 0 1 1 8 ∧ ¬ShapeFits 3 3 5 4 1 ∧
      ((two 0x40000000 0).rS 2).toNat % 2 ^ 30 = 0 ∧ ((two 0x04081000 0).rS 2).toNat % 2 ^ 30 ≠ 0 ∧
      ShapeFits (part 0x04081000 0 6) (part 0x04081000 6 6) (part 0x04081000 12 7) (part 0x04081000 19 7) (part 0x04081000 26 4) ∧
      ¬ShapeFits (part 0x20081000 0 6) (part 0x20081000 6 6) (part 0x20081000 12 7) (part 0x20081000 19 7) (part 0x20081000 26 4) ∧
      part (State.reset.cx.rTS 2).toNat 31 1 = 0 ∧ part ((setTS 2 (full 1 1 1) State.reset).cx.rTS 2).toNat 31 1 = 1 := by
  unfold ShapeFits; decide +kernel

/-! Accesses -/

def oks {σ ε α : Type} (x : σ × Except ε α) : Bool := match x.2 with | .ok _ => true | .error _ => false

theorem oks_split {σ ε α : Type} {x : σ × Except ε α} (h : oks x = true) : ∃ s a, x = (s, .ok a) := by
  obtain ⟨s, a | a⟩ := x
  · simp [oks] at h
  · exact ⟨s, a, rfl⟩

theorem fails_split {σ ε α : Type} {x : σ × Except ε α} (h : oks x = false) : ∃ s a, x = (s, .error a) := by
  obtain ⟨s, a | a⟩ := x
  · exact ⟨s, a, rfl⟩
  · simp [oks] at h

theorem loads_of {s : State} {vs : List VRun} (h : oks (s.access s.cur (s.cx.req s.cur .load true false) vs) = true) :
    ∃ ps u y, Loads s vs ps u y := by
  obtain ⟨s', ps, e⟩ := oks_split h
  exact ⟨ps, _, _, s', e, rfl⟩

theorem stores_of {s : State} {vs : List VRun} (hl : s.cx.held.length < 64)
    (h : oks (s.access s.cur (s.cx.req s.cur .store false true) vs) = true) : ∃ ps u, Stores s vs ps u := by
  obtain ⟨u, ps, e⟩ := oks_split h
  exact ⟨ps, u, hl, e⟩

/-- A page of HBM4 with a tile shape, offsets and a pitch at hand. -/
def accesses : State := setS 8 64 (setV 7 (pack 32 [0, 0x100]) (setTS 2 (full 2 2 6) (mapped hbmBase 0x200)))

/-- LoadResults: each form's runs are allowed; a page found and one not. -/
theorem witness_LoadResults :
    (∃ ps u y, Loads accesses [⟨ea accesses 1 2 31 8, 8⟩] ps u y) ∧ (∃ ps u y, Loads accesses [⟨ea accesses 1 0 0 256, 256⟩] ps u y) ∧
      Configured accesses [2] ∧
      (∃ ps u y, Loads accesses (tileRuns (accesses.cx.rTS 2) (accesses.rA 1) true (some (accesses.rS 8))) ps u y) ∧
      ∃ ps u y, Loads accesses (gatherRuns (accesses.cx.rTS 2) (accesses.rA 1) 1 (accesses.cx.rV 7)) ps u y := by
  refine ⟨loads_of ?_, loads_of ?_, ?_, loads_of ?_, loads_of ?_⟩
  · decide +kernel
  · decide +kernel
  · unfold Configured; decide +kernel
  · decide +kernel
  · decide +kernel
theorem witness_LoadResults_prefetch :
    (∃ u p, accesses.findLeaf (accesses.cx.req accesses.cur .load false false) (ea accesses 1 0 0 8) = (u, .ok p)) ∧
      State.reset.findLeaf (State.reset.cx.req State.reset.cur .load false false) 0x40000000000000 = (State.reset, .error (.trap 5 0 0)) :=
  ⟨oks_split (by decide +kernel), rfl⟩

/-- StoreResults: room and runs allowed; a full buffer; a part refused. -/
theorem witness_StoreResults :
    (∃ ps u, Stores accesses [⟨ea accesses 1 2 31 8, 8⟩] ps u) ∧ (∃ ps u, Stores accesses [⟨ea accesses 1 0 0 256, 256⟩] ps u) ∧
      (∃ ps u, Stores accesses (tileRuns (accesses.cx.rTS 2) (accesses.rA 1) false none) ps u) ∧
      (∃ ps u, Stores accesses (gatherRuns (accesses.cx.rTS 2) (accesses.rA 1) 0 (accesses.cx.rV 7)) ps u) ∧
      64 ≤ (accesses.updCx fun c => { c with held := List.replicate 64 ⟨[]⟩ }).cx.held.length := by
  refine ⟨stores_of ?_ ?_, stores_of ?_ ?_, stores_of ?_ ?_, stores_of ?_ ?_, ?_⟩ <;> decide +kernel
theorem witness_StoreResults_refused :
    (∃ u a, (setA 1 0x30000 tables).access tables.cur (tables.cx.req tables.cur .store false true) [⟨0x30000, 8⟩] = (u, .error a)) ∧
      (match ((setA 1 0x30000 tables).access tables.cur (tables.cx.req tables.cur .load true false) [⟨0x30000, 8⟩]).2 with
       | .error a => (match a.fault with | .trap _ _ _ => true | _ => false) | .ok _ => false) = true :=
  ⟨fails_split (by decide +kernel), by decide +kernel⟩

/-- LoadedValues: a part of an unpoisoned device cell and of the host, the canonical memory, and shapes with and
without columns. -/
theorem witness_LoadedValues :
    (let p : Part := ⟨0x10008, 8, ⟨.dev, hbmBase + 8, 0x1D3, none⟩⟩
     p.loc.space = .dev ∧ lfOrd p.loc.leaf ≠ 0 ∧ accesses.MemOk ∧ accesses.poisoned p.loc.addr p.n = false ∧
       (accesses.ctxOf ⟨0, 0, 0⟩).held = [] ∧ p ∈ [p, ⟨0, 4, ⟨.host, hostBase, 0, none⟩⟩]) ∧
      (1 < part (full 2 2 6).toNat 12 7 ∧ 1 < part (full 2 2 6).toNat 19 7) ∧ part (shapeOf 1 1 2 0 6).toNat 19 7 = 0 := by
  unfold State.MemOk; decide +kernel

/-- MarkCommitsStores: a context with a held store of device storage. -/
theorem witness_MarkCommitsStores :
    let t := next (setS 5 9 (mapped hbmBase 0)) (.st 0 5 1 0 0 3 0)
    (t.ctxOf t.cur).held ≠ [] ∧ ∀ r, r ∈ (t.ctxOf t.cur).held.flatMap HeldStore.runs → r.space = .dev := by decide +kernel

def getOk {σ ε : Type} (x : σ × Except ε (List Part)) : List Part := match x.2 with | .ok ps => ps | .error _ => []

theorem getOk_split {σ ε : Type} {x : σ × Except ε (List Part)} (h : oks x = true) : x = (x.1, .ok (getOk x)) := by
  obtain ⟨s, a | a⟩ := x
  · simp [oks] at h
  · rfl

/-- A sequence of a header's tokens and capacity at a1, with its slot 0 naming block 0; the unit is on. -/
def sequence (ntok cap : Nat) : State :=
  let s := mapped hbmBase 0x100
  let m := memWrite s.mem (hbmBase + 0x100) (leBytes 4 ntok ++ leBytes 4 cap ++ leBytes 4 0)
  let s := { s with mem := memWrite m (hbmBase + 0x1000000) (leBytes 8 (1 + hbmBase + 0x50000) ++ leBytes 8 1) }
  setTS 2 (full 2 4 6) (s.updDie 0 fun d => { d with
    kvcfg := 0x0000000840000011
    kvbase := BitVec.ofNat 64 (hbmBase + 0x1000000)
    l2tlb := [⟨1, 1, false, BitVec.ofNat 64 (0x1D3 + hbmBase)⟩] })

def kvHeader (s : State) (list : W64) : State × Except PartFault (List Part) :=
  s.checkFor s.cur (s.cx.req s.cur .load true false) [⟨list, 8⟩]
def kvHeaderRead (s : State) (list : W64) : State × Gather :=
  (kvHeader s list).1.readList s.cur (getOk (kvHeader s list))
def kvSlotsRead (s : State) (list : W64) (slots : List Nat) : State × Except PartFault (List Part) :=
  (kvHeader s list).1.checkFor s.cur (s.cx.req s.cur .load true false)
    (slots.map fun j => ⟨BitVec.ofNat 64 (list.toNat + 8 + 4 * j), 4⟩)
def kvAgain (s : State) (list : W64) (slots : List Nat) : State :=
  ((kvSlotsRead s list slots).1.readList s.cur (getOk (kvHeader s list))).1
def kvList (s : State) (list : W64) (slots : List Nat) : State × Gather :=
  (kvAgain s list slots).readList s.cur (getOk (kvSlotsRead s list slots))

/-- What a `kvld` finds out. -/
def kvFound (s : State) (ts : BitVec 32) (list : W64) (k0 : Nat) (slots : List Nat) (block : Nat) : KvReads s ts list k0 :=
  ⟨(kvHeader s list).1, getOk (kvHeader s list), (kvHeaderRead s list).1, (kvHeaderRead s list).2, (kvSlotsRead s list slots).1,
    getOk (kvSlotsRead s list slots), kvAgain s list slots, (kvList s list slots).1, (kvList s list slots).2, fun _ => block⟩

/-- No part of an access waits for a circuit. -/
def near (s : State) (ps : List Part) : Bool := ps.all fun p => !s.peerWaits p

theorem near_each {s : State} {ps : List Part} (h : near s ps = true) : ∀ p, p ∈ ps → s.peerWaits p = false := by
  simpa [near] using h

theorem kvFound_header (s : State) (ts : BitVec 32) (list : W64) (k0 block : Nat) (slots : List Nat) (h : oks (kvHeader s list) = true)
    (hn : near (kvHeader s list).1 (getOk (kvHeader s list)) = true)
    (hp : (kvHeaderRead s list).2.poison = false) : (kvFound s ts list k0 slots block).Header :=
  ⟨getOk_split h, near_each hn, rfl, hp⟩

theorem one_slot {k j : Nat} (h : ([0] : List Nat)[k]? = some j) : k = 0 := by
  cases k <;> simp_all

theorem listed_of {s : State} {ts : BitVec 32} {list : W64} {k0 : Nat} (x : KvReads s ts list k0) (hh : x.Header) (hs : x.slots = [0])
    (hc : x.cap ≠ 0)
    (h2 : x.a.checkFor s.cur (s.cx.req s.cur .load true false) ([0].map fun j => ⟨BitVec.ofNat 64 (list.toNat + 8 + 4 * j), 4⟩) =
      (x.c, .ok x.sp))
    (hm : near x.c x.sp = true) (he : (x.c.readList s.cur x.hp).1 = x.e) (hd : x.e.readList s.cur x.sp = (x.d, x.w))
    (hw : x.w.poison = false) (hb : x.d.kvBad s.cur.die (x.index 0) = []) : x.Listed := by
  refine ⟨hh, hc, fun j hj => ?_, by rw [hs]; exact h2, near_each hm, he, hd, hw, fun k j hk _ => ?_⟩
  · rw [hs] at hj
    have : j = 0 := by simpa using hj
    exact this ▸ Nat.pos_of_ne_zero hc
  · rw [hs] at hk
    exact (one_slot hk).symm ▸ hb

theorem kvFound_listed (s : State) (ts : BitVec 32) (list : W64) (k0 block : Nat) (h1 : oks (kvHeader s list) = true)
    (hn : near (kvHeader s list).1 (getOk (kvHeader s list)) = true)
    (hp : (kvHeaderRead s list).2.poison = false)
    (hs : slotsFor (part ts.toNat 12 7) (leNat ((kvHeaderRead s list).2.bytes.take 4)) k0 = [0])
    (hc : leNat (((kvHeaderRead s list).2.bytes.drop 4).take 2) ≠ 0) (h2 : oks (kvSlotsRead s list [0]) = true)
    (hm : near (kvSlotsRead s list [0]).1 (getOk (kvSlotsRead s list [0])) = true)
    (hw : (kvList s list [0]).2.poison = false)
    (hb : (kvFound s ts list k0 [0] block).d.kvBad s.cur.die ((kvFound s ts list k0 [0] block).index 0) = []) :
    (kvFound s ts list k0 [0] block).slots = [0] ∧ (kvFound s ts list k0 [0] block).Listed := by
  have e : (kvHeader s list).1.checkFor s.cur (s.cx.req s.cur .load true false) ([0].map fun j => ⟨BitVec.ofNat 64 (list.toNat + 8 + 4 * j), 4⟩) =
      ((kvSlotsRead s list [0]).1, .ok (getOk (kvSlotsRead s list [0]))) := getOk_split (x := kvSlotsRead s list [0]) h2
  have e' : (kvAgain s list [0]).readList s.cur (getOk (kvSlotsRead s list [0])) = ((kvList s list [0]).1, (kvList s list [0]).2) :=
    (Prod.eta (kvList s list [0])).symm
  have e'' : ((kvSlotsRead s list [0]).1.readList s.cur (getOk (kvHeader s list))).1 = kvAgain s list [0] := rfl
  have hh := kvFound_header s ts list k0 block [0] h1 hn hp
  revert hb hh hs hc
  unfold kvFound
  revert e e' e'' hm hw
  generalize kvAgain s list [0] = xe
  generalize (kvList s list [0]).1 = xd
  generalize (kvList s list [0]).2 = xw
  generalize getOk (kvSlotsRead s list [0]) = xsp
  generalize (kvSlotsRead s list [0]).1 = xc
  intro hm hw e e' e'' hs hc hb hh
  exact ⟨hs, listed_of _ hh hs hc e hm e'' e' hw hb⟩

theorem kvFound_good (s : State) (ts : BitVec 32) (list : W64) (k0 block : Nat)
    (h : (kvFound s ts list k0 [0] block).slots = [0] ∧ (kvFound s ts list k0 [0] block).Listed)
    (hb : (kvFound s ts list k0 [0] block).d.readableBlock s.cur.die ((kvFound s ts list k0 [0] block).index 0) = some block) :
    (kvFound s ts list k0 [0] block).Good := by
  refine ⟨h.2, fun k j hk => ?_⟩
  rw [h.1] at hk
  exact (one_slot hk).symm ▸ hb

/-- Slot 0 names the block given. -/
def naming (b : Nat) : State := let s := sequence 2 1; { s with mem := memWrite s.mem (hbmBase + 0x108) (leBytes 4 b) }

/-- BlockTable: a `kvld` whose slots name a readable block, one of no capacity, and one that names a block without an
entry. -/
theorem witness_BlockTable_read :
    let s := sequence 2 1
    Configured s [2] ∧ s.myDie.kvcfg.toNat % 2 = 1 ∧ (s.rA 1).toNat % 8 = 0 ∧ (∃ x : KvReads s (s.cx.rTS 2) (s.rA 1) 0, x.Good ∧ x.d.MemOk) ∧
      (∃ x : KvReads (sequence 2 0) ((sequence 2 0).cx.rTS 2) ((sequence 2 0).rA 1) 0, x.Header ∧ x.cap = 0) ∧
      ∃ x : KvReads (naming 5) ((naming 5).cx.rTS 2) ((naming 5).rA 1) 0, x.Listed ∧
        ∃ k j, x.slots[k]? = some j ∧ x.d.readableBlock (naming 5).cur.die (x.index k) = none := by
  refine ⟨by unfold Configured; decide +kernel, by decide +kernel, by decide +kernel, ⟨_, kvFound_good (sequence 2 1) _ _ 0 (hbmBase + 0x50000)
    (kvFound_listed _ _ _ _ _ ?_ ?_ ?_ ?_ ?_ ?_ ?_ ?_ ?_) ?_, ?_⟩, ⟨_, kvFound_header (sequence 2 0) _ _ 0 0 [0] ?_ ?_ ?_, ?_⟩, ?_⟩
  any_goals decide +kernel
  · unfold State.MemOk; decide +kernel
  · have h := kvFound_listed (naming 5) ((naming 5).cx.rTS 2) ((naming 5).rA 1) 0 0 (by decide +kernel) (by decide +kernel) (by decide +kernel)
      (by decide +kernel) (by decide +kernel) (by decide +kernel) (by decide +kernel) (by decide +kernel) (by decide +kernel)
    exact ⟨_, h.2, 0, 0, by rw [h.1]; rfl, by decide +kernel⟩

/-- A request of context 0 on the list at page 1. -/
def kvAsks (append : Bool) (status : Option W64) : KvReq :=
  ⟨3, ⟨0, 0, 0⟩, none, append, 0x10100, 1, 0, 0, (.dev, hbmBase + 0x100), 0, none, none, false, [], none, 0, false, status, false⟩

/-- The unit off, a misaligned list, requests allowed and one answered. -/
theorem witness_BlockTable_requests :
    State.reset.myDie.kvcfg.toNat % 2 = 0 ∧ ((setA 1 0x10104 (sequence 2 1)).rA 1).toNat % 8 ≠ 0 ∧ State.reset.cx.kvReq = none ∧
      (∀ append, ∃ u ps v qs, (sequence 2 1).checkFor (sequence 2 1).cur ((sequence 2 1).cx.req (sequence 2 1).cur .store true true) [⟨(sequence 2 1).rA 1, 8⟩] = (u, .ok ps) ∧
        (∀ p, p ∈ ps → u.peerWaits p = false) ∧
        u.checkFor (sequence 2 1).cur ((sequence 2 1).cx.req (sequence 2 1).cur .store true true)
          (listRuns append ((sequence 2 1).rA 1) (u.readList (sequence 2 1).cur ps).2.bytes) = (v, .ok qs)) ∧
      (let w : KvWait := ⟨3, 4, false⟩
       let s := ((sequence 2 1).updCx fun c => { c with kvReq := some w }).updDie 0 fun d => { d with kvReqs := [kvAsks true (some 5)] }
       s.cx.kvReq = some w ∧ s.myDie.kvReqs.find? (fun q => q.num == w.num && q.status.isSome) = some (kvAsks true (some 5))) := by
  refine ⟨by decide +kernel, by decide +kernel, rfl, fun append => ?_, by decide +kernel⟩
  let a := (sequence 2 1).checkFor (sequence 2 1).cur ((sequence 2 1).cx.req (sequence 2 1).cur .store true true) [⟨(sequence 2 1).rA 1, 8⟩]
  have h : oks a = true := by decide +kernel
  have n : near a.1 (getOk a) = true := by decide +kernel
  have g : oks (a.1.checkFor (sequence 2 1).cur ((sequence 2 1).cx.req (sequence 2 1).cur .store true true)
      (listRuns append ((sequence 2 1).rA 1) (a.1.readList (sequence 2 1).cur (getOk a)).2.bytes)) = true := by
    cases append <;> decide +kernel
  obtain ⟨v, qs, e⟩ := oks_split g
  exact ⟨_, _, v, qs, getOk_split h, near_each n, e⟩
/-- Headers of no capacity, of a full list at its edge, and of a list that needs a block from an empty ring and from one
that holds block 0; a block in use by one and in a migration; the rights that an append needs. -/
theorem witness_BlockTable_append :
    let q := kvAsks true none
    let bytes (x : State × ListBytes) : Option (List Byte) := match x.2 with | .got bs => some bs | _ => none
    let may (x : State × ListBytes) : Nat := match x.2 with | .got [] => 1 | .fault => 2 | _ => 0
    let head (n c : Nat) : Option (List Byte) := bytes ((sequence n c).unitRead q q.list 8)
    let ring (s : State) : State := { s.updDie 0 fun d => { d with kvfrb := 0x200000, kvfrTail := 1 } with
      mem := memWrite s.mem 0x200000 (leBytes 4 0) }
    head 0 0 = some [0, 0, 0, 0, 0, 0, 0, 0] ∧ head 16 1 = some [16, 0, 0, 0, 1, 0, 0, 0] ∧
      head 16 2 = some [16, 0, 0, 0, 2, 0, 0, 0] ∧ ((sequence 16 2).die 0).kvfrHead = ((sequence 16 2).die 0).kvfrTail ∧
      (ring (sequence 16 2)).nextFree 0 = some 0 ∧ 0 < ((ring (sequence 16 2)).die 0).nblk ∧
      may ((sequence 2 1).unitMay q q.list 8) = 1 ∧ may ((sequence 2 1).unitMay q 0x10108 4) = 1 ∧
      may ((sequence 2 1).unitMay { q with list := 0x30000 } 0x30000 8) = 2 ∧ q.placed = none ∧
      (let s := ring (sequence 16 2)
       s.badUnits (s.die 0).freeRecord 4 = [] ∧ s.kvBad 0 0 = [] ∧ (s.kvEntry 0 0).state ≠ 3 ∧
         (s.blockAddr 0 (s.kvEntry 0 0)).isSome = true) ∧
      bytes ((sequence 2 1).unitRead q 0x10108 4) = some [0, 0, 0, 0] ∧ q.copying = none ∧
      (let s := sequence 2 1
       let e := s.kvEntry 0 0
       0 < (s.die 0).nblk ∧ e.v = true ∧ e.refs = 1 ∧ e.state = 0 ∧ (s.blockAddr 0 e).isSome = true) ∧
      (let s := (sequence 2 1).setKvLo 0 0 fun w => setField w 2 2 2
       (s.kvEntry 0 0).v = true ∧ (s.kvEntry 0 0).refs ≠ 0 ∧ (s.kvEntry 0 0).state = 2) := by
  decide +kernel

/-! Atomics -/

/-- A read-modify-write of one part that is allowed. -/
def single {σ ε : Type} (x : σ × Except ε (List Part)) : Bool := match x.2 with | .ok [_] => true | _ => false

theorem single_split {σ ε : Type} {x : σ × Except ε (List Part)} (h : single x = true) : ∃ s p, x = (s, .ok [p]) := by
  obtain ⟨s, a | ps⟩ := x
  · simp [single] at h
  · match ps with
    | [p] => exact ⟨s, p, rfl⟩
    | [] => simp [single] at h
    | _ :: _ :: _ => simp [single] at h

theorem modifies_of {s : State} {acc : AccKind} {rd : Bool} {r : BitVec 4} {n : Nat} {host add : Bool}
    (h : single (s.access s.cur { s.cx.req s.cur acc rd true with atom := some (n, host), add := add } [⟨s.rA r, n⟩]) = true) :
    ∃ p u, Modifies s acc rd r n host add p u := by
  obtain ⟨s', p, e⟩ := single_split h
  exact ⟨p, _, s', e, rfl⟩

/-- AtomicResults: each performer's access is allowed, at both sizes. -/
theorem witness_AtomicResults :
    (∃ p u, Modifies accesses .rmw true 1 8 true false p u) ∧ (∃ p u, Modifies accesses .rmw true 1 4 false false p u) ∧
      (∃ p u, Modifies accesses .reduction false 1 8 false false p u) ∧ ∃ p u, Modifies accesses .reduction false 1 4 true true p u := by
  refine ⟨modifies_of ?_, modifies_of ?_, modifies_of ?_, modifies_of ?_⟩ <;> decide +kernel
/-- Both addresses of a reduction that names a barrier. -/
theorem witness_AtomicResults_barrier :
    let s := setA 2 0x10040 (mapped 0 0x80)
    ∃ v w p e, s.checkFor s.cur { s.cx.req s.cur .reduction false true with atom := some (8, false), add := true } [⟨s.rA 1, 8⟩] = (v, .ok [p]) ∧
      v.checkFor s.cur { s.cx.req s.cur .store false true with barrier := true } [⟨s.rA 2, 64⟩] = (w, .ok [e]) := by
  intro s
  obtain ⟨v, p, e⟩ := single_split (x := s.checkFor s.cur { s.cx.req s.cur .reduction false true with atom := some (8, false), add := true } [⟨s.rA 1, 8⟩])
    (by decide +kernel)
  obtain ⟨w, q, f⟩ := single_split (x := (s.checkFor s.cur { s.cx.req s.cur .reduction false true with atom := some (8, false), add := true } [⟨s.rA 1, 8⟩]).1.checkFor
    s.cur { s.cx.req s.cur .store false true with barrier := true } [⟨s.rA 2, 64⟩]) (by decide +kernel)
  rw [e] at f
  exact ⟨v, w, p, q, e, f⟩
/-- A package without a member identifier, and one whose own member the address names. -/
theorem witness_AtomicResults_refused :
    State.reset.joist.mvalid = false ∧ ((timed 2 true).joist.mvalid = true ∧ (1#9) = (timed 2 true).joist.member ∧ peerRefuses 0x003FF00000008 = true) := by
  decide +kernel
/-- An update at home: plain and poisoned, with the greatest operation and the widest operand. -/
theorem witness_AtomicResults_update :
    let p : Part := ⟨0x10008, 8, ⟨.dev, hbmBase + 8, 0x1D3, none⟩⟩
    p.loc.space = .dev ∧ (p.n = 4 ∨ p.n = 8) ∧ 2 ^ 64 - 1 < 2 ^ (8 * p.n) ∧ 7 < 8 ∧ accesses.MemOk ∧
      accesses.poisoned p.loc.addr p.n = false ∧ ({ accesses with poison := [hbmBase] } : State).poisoned p.loc.addr p.n = true := by
  unfold State.MemOk; decide +kernel

/-- A part at another package and one at the package's own member, and the last request of a list. -/
theorem witness_AtomicResults_away :
    let s := timed 2 true
    let r : PeerReq := ⟨⟨0, 0, 0⟩, 9, 3, .atDie, 0x10000, 1, .reduction, 0, false, none, false, none, ⟨2, 0⟩⟩
    s.joist.mvalid = true ∧ (3#9).toNat ≠ s.joist.member.toNat ∧ ([] ++ [r] : List PeerReq) = [r] := by decide +kernel

/-! Fences, publishes and barriers -/

/-- A publishable buffer of one descriptor on die 0, mapped at page 1. -/
def publishable (w0 : Nat) : State :=
  let s := (mapped 0 0).updDie 0 fun d => { d with pbtab := 0x100000, pbcfg := 0x11 }
  let s := s.updMyCore fun k => { k with l1tlb := [⟨1, 1, false, BitVec.ofNat 64 (0x1D3 + 2 ^ 58)⟩] }
  { s with mem := memWrite s.mem 0x100000 (leBytes 64 (w0 + 0x1200400 * 2 ^ 80 + 16 * 2 ^ 128)) }

def leafOf (s : State) : W64 :=
  match (s.findLeaf (s.cx.req s.cur .store false false) (s.rA 1)).2 with | .ok (l, _, _) => l | .error _ => 0

/-- FencePublish: held stores and none, the last kind but one, a plain page, and a buffer with the rights to it. -/
theorem witness_FencePublish :
    (3#3 ≠ 4 ∧ State.reset.cx.held = []) ∧ (next (setS 5 9 (mapped hbmBase 0)) (.st 0 5 1 0 0 3 0)).cx.held ≠ [] ∧
      (oks ((mapped hbmBase 0).findLeaf ((mapped hbmBase 0).cx.req (mapped hbmBase 0).cur .store false false) ((mapped hbmBase 0).rA 1)) = true ∧
        part (leafOf (mapped hbmBase 0)).toNat 58 1 = 0) ∧
      (let s := publishable 1
       let l := leafOf s
       oks (s.findLeaf (s.cx.req s.cur .store false false) (s.rA 1)) = true ∧ part l.toNat 58 1 = 1 ∧ part l.toNat 3 1 = 0 ∧
         part l.toNat 1 1 = 1 ∧ part s.cx.arch.pkr.toNat (2 * part l.toNat 52 5 + 1) 1 = 0 ∧
         s.opsOf s.cur = [] ∧ s.joist.peerReqs = []) := by decide +kernel
/-- A SYS fence with a piece at a peer; a poisoned descriptor. -/
theorem witness_FencePublish_waits :
    (let r : PeerReq := ⟨⟨0, 0, 0⟩, 9, 3, .sent 2, 0x10000, 1, .load, 0, true, none, false, none, ⟨2, 0⟩⟩
     let s := (State.reset.updJoist fun j => { j with peerReqs := [r] }).updCx fun c => { c with fencing := true }
     s.cx.fencing = true ∧ (s.joist.peerReqs.any fun r => r.of s.cur) = true ∧ s.rP (Instr.guard (.ld 0 5 1 0 0 0 3 0)) = true) ∧
      (let s : State := { publishable 1 with poison := [0x100000] }
       (s.die 0).pbcfg.toNat % 2 = 1 ∧ 0 < min 4096 (part (s.die 0).pbcfg.toNat 4 13) ∧ s.poisoned ((s.die 0).pbAddr 0) 64 = true) := by
  decide +kernel
/-- A descriptor inside the table and outside it, owned by nobody, by kind 1 and by another, and a passed generation. -/
theorem witness_FencePublish_step :
    (publishable 1).MemOk ∧
      (let x := (publishable 1).die 0
       let b := (publishable 1).pbDesc 0 0
       x.pbcfg.toNat % 2 = 1 ∧ 0 < min 4096 (part x.pbcfg.toNat 4 13) ∧ ¬(1 < min 4096 (part x.pbcfg.toNat 4 13)) ∧ b % 2 = 1 ∧
         part b 2 2 = 0 ∧ part b 32 32 = 0) ∧
      part ((publishable 5).pbDesc 0 0) 2 2 = 1 ∧ part ((publishable 9).pbDesc 0 0) 2 2 = 2 ∧
      part ((publishable (1 + 2 ^ 32)).pbDesc 0 0) 32 32 ≠ (0#32).toNat := by
  unfold State.MemOk; decide +kernel

theorem atBarrier_of {s : State} {acc : AccKind} {rd wr : Bool} {r : BitVec 4}
    (h : single (s.access s.cur { s.cx.req s.cur acc rd wr with barrier := true } [⟨s.rA r, 64⟩]) = true) :
    ∃ p u, AtBarrier s acc rd wr r p u := by
  obtain ⟨u, p, e⟩ := single_split h
  exact ⟨p, u, e⟩

/-- BarrierWaits: each access to an object is allowed. -/
theorem witness_BarrierWaits :
    (∃ p u, AtBarrier barred .store false true 1 p u) ∧ (∃ p u, AtBarrier barred .store false true 1 p u) ∧
      (∃ p u, AtBarrier barred .load true false 1 p u) ∧ barred.cx.wait = none := by
  refine ⟨atBarrier_of ?_, atBarrier_of ?_, atBarrier_of ?_, ?_⟩ <;> decide +kernel
/-- The object uninitialised, with EXPECT 0, one arrival short, and further; the waits of its statuses. -/
theorem witness_BarrierWaits_object :
    (barred.MemOk ∧ barred.poisoned 0x40 64 = false ∧ 2 ^ 32 - 1 < 2 ^ 32) ∧
      ((mapped 0 0x40).barrier 0x40).init = false ∧ ((barred.barrierInit 0x40 0 0 0).barrier 0x40).expect = 0 ∧
      (let b := (barred.barrierInit 0x40 1 0 0).barrier 0x40
       b.init = true ∧ b.expect = (b.arrived + 1) % 2 ^ 32 ∧ b.expect ≠ 0) ∧
      (let b := barred.barrier 0x40
       b.init = true ∧ b.expect ≠ (b.arrived + 1) % 2 ^ 32 ∧ b.expect ≠ 0 ∧ b.phase = decide ((barred.rS 5).toNat % 2 = 1) ∧
         b.phase ≠ decide (((setS 5 1 barred).rS 5).toNat % 2 = 1)) ∧
      (9#64).toNat < ({ barred with cycle := 10 } : State).gtime ∧ ¬((9#64).toNat < ({ barred with cycle := 9 } : State).gtime) ∧
      (let w : Wait := ⟨some 0x40, false, 0, none, false, some 2, false, 5, false⟩
       (barred.updCx fun c => { c with wait := some w }).cx.wait = some w ∧ w.result = some 2 ∧ w.bad = false) := by
  unfold State.MemOk; decide +kernel

/-! Tiles -/

/-- Every tile 4 × 4 FP32 and valid. -/
def allTiles : State := State.reset.updCx fun c => { c with arch := { c.arch with ts := Vector.replicate 16 (full 4 4 1) } }

theorem allTiles_configured (l : List (BitVec 4)) : Configured allTiles l := by
  have h : ∀ t : BitVec 4, (allTiles.cx.rTS t).toNat / 2 ^ 31 = 1 := by decide +kernel
  exact fun t _ => h t

/-- TileArithmetic, TileMoves, TileReductions, DotProducts, TileFunctions, the tile forms of LoadResults and
StoreResults: every operation acts on configured tiles. -/
theorem witness_tiles (i : Instr) : Acts allTiles 0 i ∧ Configured allTiles i.tileOps :=
  ⟨acts_of _ (by decide +kernel) (by decide +kernel) i, allTiles_configured _⟩

/-- TileMoves, DotProducts: a result that takes one value under a condition and another where it fails exists. -/
theorem witness_results {α : Type} (p : Nat → Nat → Prop) (f g : Nat → Nat → α) :
    ∃ res : Nat → Nat → α, ∀ i j, (p i j → res i j = f i j) ∧ (¬p i j → res i j = g i j) := by
  classical
  exact ⟨fun i j => if p i j then f i j else g i j, fun i j => ⟨fun h => by simp [h], fun h => by simp [h]⟩⟩

/-- TileMasks: the largest extent of `tcmp`, and elements at both ends of a tile of 64 × 64 bytes. -/
theorem witness_TileMasks :
    (let ta := (setTS 1 (full 64 64 6) State.reset).cx.tile 1
     ta.vr ≤ 64 ∧ ta.vc ≤ 64 ∧ ta.rows * ta.cols * ta.size ≤ 4096) ∧
      (let x : Cells := ⟨[(0, 0, 255), (63, 63, 0)], 0⟩
       let t := (setTS 1 (full 64 64 6) State.reset).cx.tile 1
       (∀ c, c ∈ x.cells → c.1 < t.rows ∧ c.2.1 < t.cols ∧ c.2.2 < 2 ^ (8 * t.size)) ∧ (x.cells.map fun c => (c.1, c.2.1)).Nodup) := by
  decide +kernel

/-- TileReductions: the kinds about 7, and a best index among four values, at a tie, and among none. -/
theorem witness_TileReductions :
    kindOf 6 ≠ 7 ∧ kindOf 7 = 7 ∧ kindOf 8 ≠ 7 ∧
      Best (fun n => Val.ofNat (if n = 1 ∨ n = 2 then 3 else 1)) (fun n => n < 4) 64 1 ∧ Best (fun _ => .zero) (fun _ => False) 64 (-1) := by
  refine ⟨by decide, by decide, by decide, .inr ⟨1, by decide, by decide, by decide, by decide +kernel, by decide +kernel⟩, .inl ⟨fun _ _ h => h, rfl⟩⟩

/-- DotProducts: a compressed operand of one group of four that agrees, and one whose mask has three bits. -/
theorem witness_DotProducts :
    let s := setTile 3 (full 1 1 4) 0x80000421 (setTS 2 (full 4 1 6) State.reset)
    let agrees (s : State) : Prop :=
      let tb := s.cx.tile 2
      let tc := s.cx.tile 3
      let groups := tc.vr
      let per := tb.vr / groups
      (groups = 1 ∨ groups = 2) ∧ tb.vr = per * groups ∧ (per = 4 ∨ per = 8 ∨ per = 16) ∧
        ∀ q, q < groups → (List.range 32).countP (fun k => (tc.maskWord q 0).testBit k) = per
    agrees s ∧ ¬agrees (setT 3 0x421 s) := by decide +kernel

/-! Streams -/

/-- xp1 is a geometry of one window on lane 3 of T = 8, W = 4. -/
def streaming : State := setXP 1 (BitVec.ofNat 64 (3 * 2 ^ 9 + 2 ^ 16 + 2 ^ 40)) (setTS 2 (full 1 1 1) State.reset)

/-- StreamIssue: an accepted stream of either source and destination, a geometry that is refused, and four outstanding. -/
theorem witness_StreamIssue :
    (streaming.cx.streams.length < 4 ∧ part (streaming.cx.rTS 2).toNat 31 1 = 1 ∧ part (streaming.cx.rTS 2).toNat 26 4 = 1) ∧
      DotAllowed streaming 1 2 5 0 0 4 ∧ ¬DotAllowed State.reset 1 2 5 0 0 0 := by
  refine ⟨by decide +kernel, ⟨by decide +kernel, fun _ => by decide +kernel, fun h => absurd h (by decide), fun h => absurd h (by decide), fun h => ?_⟩, fun h => ?_⟩
  · exact absurd h (by decide +kernel)
  · exact absurd h.1 (by decide +kernel)
theorem witness_StreamIssue_slot :
    let s := setXP 2 7 ((setS 6 0x200 streaming).updSlot 0 1 fun b => { b with segid := 7, hold := 1, len := 1 })
    DotAllowed s 1 2 5 1 1 0 := by
  refine ⟨by decide +kernel, fun h => absurd rfl h, fun _ => ⟨by decide +kernel, 1, by decide +kernel, by decide +kernel⟩, fun _ => by decide +kernel, fun h => ?_⟩
  exact absurd h (by decide +kernel)
/-- A resumed stream at its last window, and a full queue. -/
theorem witness_StreamIssue_resumed :
    (let s := streaming.updCx fun c => { c with xpr := 0x10000 }
     part s.cx.xpr.toNat 16 1 = 1 ∧ part s.cx.xpr.toNat 0 16 < geomWin (s.cx.rXP 1)) ∧
      4 ≤ (next (next (next (next State.reset (.xcal 0)) (.xcal 0)) (.xcal 0)) (.xcal 0)).cx.streams.length := by decide +kernel
/-- A broadcast whose lanes are lit and driven by its die, and one whose lanes are dark. -/
theorem witness_StreamIssue_broadcast :
    let geom := streaming.cx.rXP 1
    let lit := streaming.updJoist fun j => { j with lanes := vset j.lanes 3 ⟨1, []⟩ }
    streaming.cx.streams.length < 4 ∧ part (streaming.cx.rTS 2).toNat 26 4 ≠ 4 ∧ part (streaming.cx.rTS 2).toNat 26 4 ≠ 5 ∧
      (geomBad geom = false ∧ part (lit.cx.rXP 2).toNat 36 28 = 0 ∧
        ∀ l, l ∈ geomLanes geom → laneLit (vget lit.joist.lanes l).reg = true ∧ laneDrv (vget lit.joist.lanes l).reg = lit.cur.die) ∧
      ¬∀ l, l ∈ geomLanes geom → laneLit (vget streaming.joist.lanes l).reg = true := by decide +kernel

/-- StreamStatusResults: a report and none, nothing outstanding and something, room for a calibration. -/
theorem witness_StreamStatusResults :
    (State.reset.updCx fun c => { c with reports := [5, 6] }).cx.reports = [5, 6] ∧ State.reset.cx.reports = [] ∧
      State.reset.cx.streams = [] ∧ (next State.reset (.xcal 0)).cx.streams ≠ [] ∧
      (next (next (next State.reset (.xcal 0)) (.xcal 0)) (.xcal 0)).cx.streams.length < 4 := by decide +kernel

/-! Boarding and engines -/

def aManifest : Manifest := ⟨1, [⟨7, 255, 1, false, 0, 1, [hbmBase]⟩, ⟨8, 1, 1, false, 0, 1, [hbmBase]⟩, ⟨9, 254, 1, false, 0, 1, [hbmBase]⟩]⟩

/-- The ring runs a manifest of three segments; die 0 captures the first two, slot 1 as its state says. -/
def riding (st : SlotState) : State :=
  ((State.reset.updJoist fun j => { j with manifest := some aManifest, stopped := false, injecting := true, tileAt := 1 }).updDie 0 fun d =>
    { d with bscfg := 0x81 }).updSlot 0 1 fun b => { b with state := st, segid := 7, mgen := 1, hold := 1, len := 1, src := hbmBase }

/-- CaravanResults: each answer of `board`. -/
theorem witness_CaravanResults :
    let free (s : State) := s.updSlot 0 1 fun b => { b with hold := 0 }
    ((riding .boarded).heldSlot (riding .boarded).cur 7).isSome = true ∧ (free (riding .boarded)).heldSlot ⟨0, 0, 0⟩ 7 = none ∧
      (riding .boarded).boundaryNow = false ∧ (∀ k, ((riding .boarded).slot 0 k).state ≠ .dwell) ∧ (riding .boarded).resolve 0 6 = .none 3 ∧ (riding .boarded).resolve 0 9 = .none 4 ∧ (free (riding .faulted)).resolve 0 7 = .fault (some 1) ∧
      (free (riding .boarded)).resolve 0 7 = .hit 1 ∧ (free (riding .filling)).resolve 0 7 = .wait 1 ∧ (free (riding .empty)).resolve 0 7 = .wait 2 ∧
      (let w : BoardWait := ⟨7, 1, some 5, false⟩
       ((riding .boarded).updCx fun c => { c with boarding := some w }).cx.boarding = some w ∧ w.done = some 5) := by decide +kernel
/-- A release at once, behind a stream, one asked for before, and slots within NSLOT and beyond it. -/
theorem witness_CaravanResults_release :
    let s := riding .boarded
    let t := next (setXP 2 7 (setXP 1 0x10000010600 (setTS 2 (full 1 1 1) s))) (.xdot 0 1 2 5 2 0 1 0)
    s.heldSlot s.cur 7 = some 1 ∧ s.cx.unboards = [] ∧ s.cx.held = [] ∧ s.cx.streams = [] ∧ s.opsOf s.cur = [] ∧
      (let u : Unboard := ⟨7, [], []⟩
       u ∈ (s.updCx fun c => { c with unboards := [u] }).cx.unboards ∧ u.seg = 7) ∧
      (t.cx.streams.filter fun o => t.streamUses t.cur o 7 1) ≠ [] ∧ t.heldSlot t.cur 7 = some 1 ∧
      7 % 8 < s.myDie.nslot ∧ ¬(7 % 8 < (s.updDie 0 fun d => { d with bscfg := 0x71 }).myDie.nslot) := by decide +kernel

/-- EngineIssue: room and none, a length of 2^40 and below it, no bytes, pages that translate and not. -/
theorem witness_EngineIssue :
    (accesses.opsOf accesses.cur).length < 8 ∧
      (accesses.newOp .cpy 0x10000 0x10000 (BitVec.ofNat 64 (2 ^ 40)) 0 false).badSize = true ∧
      (accesses.newOp .cpy 0x10000 0x10000 (BitVec.ofNat 64 (2 ^ 40 - 1)) 0 false).badSize = false ∧
      (accesses.newOp .cpy 0x10000 0x10000 0 0 false).total = 0 ∧
      (let o := accesses.newOp .cpy 0x10000 0x10000 64 0 false
       o.total ≠ 0 ∧ oks (State.namePages o.namedPages (handed accesses 5) o) = true) ∧
      (let o := (sequence 2 1).newOp .cpy 0x10000 0x10000 64 0 true
       oks (State.namePages o.namedPages (handed (sequence 2 1) 5) o) = false) := by decide +kernel

/-- A group 2 of one rank: context 0 of core 0 of die 0. -/
def grouped : State := accesses.updJoist fun j => { j with groups := vset j.groups 2 ⟨3, 0, Vector.replicate 16 0⟩ }
theorem witness_EngineIssue_collective :
    (vget accesses.joist.groups 2).rankOf accesses.cur = none ∧ (vget grouped.joist.groups 2).rankOf grouped.cur = some 0 ∧
      (grouped.newOp .cbar 0 0 0x12 0 false).badOperand 1 = true ∧ (grouped.newOp .cbar 0 0 2 0 false).badOperand 1 = false ∧
      (let o := { grouped.newOp .cbar 0 0 2 0 false with comp := BitVec.ofNat 64 0 }
       oks (State.namePages (spanPages 0 (o.dstLen 1)) (handed grouped 5) o) = true ∧ o.grp = 2) := by decide +kernel

/-- EngineStatusResults: a handle outstanding, over and kept, over and lost, recent and not, and room for notices. -/
theorem witness_EngineStatusResults :
    let s := accesses.updCx fun c => { c with handles := 70, statuses := [(69, 1), (68, 4)] }
    let o : EngineOp := { s.newOp .cpy 0x10000 0x10000 64 0 false with handle := 67 }
    let t := s.updDie 0 fun d => { d with engOps := [o, { o with handle := 5 }] }
    (s.opsOf s.cur = [] ∧ ((s.opsOf s.cur).find? fun o => o.handle == 69) = none ∧ (s.cx.statuses.find? fun y => y.1 == 69) = some (69, 1) ∧
      (s.cx.statuses.find? fun y => y.1 == 67) = none) ∧
      ((t.opsOf t.cur).find? fun o => o.handle == 67) ≠ none ∧ (t.cx.handles - 1 - 67).toNat < 64 ∧
      ((t.opsOf t.cur).find? fun o => o.handle == 5) ≠ none ∧ ¬((t.cx.handles - 1 - 5).toNat < 64) ∧ (t.opsOf t.cur).length < 8 ∧
      s.migBad 0 0 0 = true ∧ (s.cx.notices.filter fun n => n.fired.isNone).length < 8 := by decide +kernel
/-- A block in LPDDR6 behind a publishable buffer and a target in HBM4 that a migration takes. -/
theorem witness_EngineStatusResults_migration :
    let s := sequence 2 1
    let s := { s with mem := memWrite s.mem (hbmBase + 0x1000000) (leBytes 8 (1 + 2 + 16 + hbmBase + 0x50000)) }
    s.migBad s.cur.die 0 (BitVec.ofNat 64 (hbmBase + 0x60000)) = false := by decide +kernel

/-- Eight operations outstanding and eight notices armed; a wait at a faulted segment and one that goes on. -/
theorem witness_full_queues :
    let o : EngineOp := accesses.newOp .cpy 0x10000 0x10000 64 0 false
    let s := (accesses.updDie 0 fun d => { d with engOps := List.replicate 8 o }).updCx fun c =>
      { c with notices := List.replicate 8 ⟨0, 0, none, 0⟩, boarding := some ⟨7, 2, none, true⟩ }
    8 ≤ (s.opsOf s.cur).length ∧ 8 ≤ (s.cx.notices.filter fun n => n.fired.isNone).length ∧ s.cx.boarding = some ⟨7, 2, none, true⟩ ∧
      (s.updCx fun c => { c with boarding := some ⟨7, 2, none, false⟩ }).cx.boarding = some ⟨7, 2, none, false⟩ := by decide +kernel

/-! Channels and the empty bundle -/

/-- Channel 5 of core 0 belongs to context 0, timed, with a delay of 40, to die 2 core 3 channel 7. -/
def sending (now : Nat) (q : List ChFlit) : State :=
  setA 1 500 (({ State.reset with cycle := now }).updMyChan 5 fun x =>
    { x with desc := BitVec.ofNat 64 (1 + 2 * 2 ^ 13 + 3 * 2 ^ 16 + 7 * 2 ^ 20 + 40 * 2 ^ 32), queue := q })

theorem onTime_of {s : State} {ch : BitVec 5} {t : W64} {u : Nat}
    (h : part (s.myChan ch).desc.toNat 0 1 = 1 ∧ part (s.myChan ch).desc.toNat 1 2 = s.cur.ctx.val ∧
      ¬(s.joist.gtAlarm = true ∧ part (s.myChan ch).desc.toNat 3 1 = 1) ∧ u ≤ s.gtime ∧
      s.cx.readyAt ch t s.gtime ≤ u + guardOf s) : OnTime s ch t u (s.cx.readyAt ch t s.gtime) :=
  ⟨h.1, h.2.1, h.2.2.1, rfl, h.2.2.2.1, h.2.2.2.2⟩

/-- ChannelResults: a send in the first and the last cycle of its slot, one before it, one on a channel that is not its
context's; a receive with its flit and a stale one before it, and with none at the last cycle. -/
theorem witness_ChannelResults :
    (∃ e, OnTime (sending 500 []) 5 500 500 e) ∧ (∃ e, OnTime (sending 532 []) 5 500 500 e) ∧
      ((sending 499 []).gtime < 500 ∧ (sending 499 []).joist.gtAlarm = false ∧ part ((sending 499 []).myChan 5).desc.toNat 0 1 = 1) ∧
      part ((sending 500 []).myChan 6).desc.toNat 0 1 = 0 ∧ part ((sending 500 []).myChan 5).desc.toNat 3 1 = 0 ∧
      (let f : ChFlit := ⟨2, 500, 572, false, 9⟩
       let s := sending 572 [⟨1, 499, 400, false, 7⟩, f]
       (∃ e, OnTime s 5 500 540 e) ∧ dropStale 500 (s.myChan 5).queue = (1, [f]) ∧ f.arrived ≤ 540 + guardOf s) ∧
      (let s := sending 572 []
       dropStale 500 (s.myChan 5).queue = (0, []) ∧ s.gtime ≤ 540 + guardOf s) := by
  refine ⟨⟨_, onTime_of ?_⟩, ⟨_, onTime_of ?_⟩, ?_, ?_, ?_, ⟨⟨_, onTime_of ?_⟩, ?_, ?_⟩, ?_⟩ <;> decide +kernel

/-- EmptyBundleResult: with a mark and without, with a repeat due and none, and at the governor's limit. -/
theorem witness_EmptyBundleResult :
    (State.reset.cx.arch.stickyM = none ∧ State.reset.cx.arch.stickyC = none ∧ State.reset.cx.jumped = false ∧
      (State.reset.mark State.reset.cur).taken = none ∧ weightAt (State.reset.mark State.reset.cur).myCore.weights 0 ≤ max 26 640 ∧
      State.reset.cx.arch.due = none ∧ State.reset.cx.streams = []) ∧
      (let s := ({ State.reset with cycle := 64 }).updMyCore fun k => { k with weights := [(63, 640)] }
       weightAt s.myCore.weights s.cycle ≤ max 26 s.myCore.clim.toNat) ∧
      (State.reset.updCx fun c => { c with arch := { c.arch with due := some 63 } }).cx.arch.due = some 63 ∧
      (∃ o ∈ (next streaming (.xdot 0 1 2 5 2 0 0 0)).cx.streams, o.kind.toNat ≤ 1) ∧ State.reset.cx.latches = [] ∧
      State.reset.myCore.climAt ≠ 1 ∧ ((State.reset.updMyCore fun k => { k with climAt := 0 }).myCore.climAt = 0) ∧
      (let s := (next (setS 5 9 (mapped hbmBase 0)) (.st 0 5 1 0 0 3 0)).updCx fun c =>
         { c with pend := [⟨9, [pubAwait 0 3], [], .given [], 0, false, [], true, false⟩] }
       s.cx.publishing = true ∧ s.cx.held ≠ []) ∧
      (let r : PeerReq := ⟨⟨0, 0, 1⟩, 9, 3, .sent 2, 0x10000, 1, .load, 0, true, none, false, none, ⟨2, 0⟩⟩
       let s := (State.reset.updJoist fun j => { j with peerReqs := [r] }).updCx fun c => { c with fencing := true }
       s.cx.fencing = true ∧ ∀ r ∈ s.joist.peerReqs, r.of s.cur = false) ∧
      (State.reset.updCx fun c => { c with markDue := true }).cx.markDue = true := by decide +kernel

/-! Register writes, host and translation -/

/-- RegisterEvents: an aligned control address and a misaligned one, the last member, both sides of every ring and table. -/
theorem witness_RegisterEvents :
    (region 0x003FF00000008 = .ctrl ∧ Aligned 0x003FF00000008 true ∧ ¬Aligned 0x003FF00000004 true ∧ Aligned 0x003FF00000004 false) ∧
      (part 0x13F0 4 9 ≤ 319 ∧ 319 < part 0x1400 4 9) ∧ (State.reset.die 0).kvBusy = false ∧
      (let s := ((sequence 2 1).updDie 0 fun d => { d with kvReqs := [kvAsks true none] })
       (s.die 0).kvBusy = true) ∧
      ((16#32 - (State.reset.die 0).kvfrHead).toNat ≤ ringSize (State.reset.die 0).kvcfg 28) ∧
      ¬((0x100001#32 - (State.reset.die 0).kvfrHead).toNat ≤ ringSize (State.reset.die 0).kvcfg 28) ∧
      ((State.reset.die 0).kvrlTail - 0#32).toNat ≤ ringSize (State.reset.die 0).kvcfg 33 ∧
      ringSize (State.reset.die 0).kvcfg 33 < ((State.reset.die 0).kvrlTail - 1#32).toNat := by
  unfold Aligned; decide +kernel
theorem witness_RegisterEvents_table :
    TableFits 1 0x7FFC0000 4096 ∧ ¬TableFits 1 0x7FFC0040 4096 ∧ ¬TableFits 1 0x3FFFFFC0 1 ∧ (State.reset.die 1).pbcfg.toNat % 2 = 0 ∧
      ((State.reset.updDie 1 fun d => { d with pbcfg := 1 }).die 1).pbcfg.toNat % 2 = 1 := by
  unfold TableFits; decide +kernel

/-- A package that has booted. -/
def ready : State := { State.reset with boot := .ready }

/-- HostEvents: PCIe down, SAFE for BAR2, outside the stream; an aligned register write, the mailbox's last byte, a wrong
size, and the atomics. -/
theorem witness_HostEvents :
    (¬HostOpen State.reset false true ∧ ¬HostOpen { State.reset with boot := .safe } true true ∧ ¬HostOpen { ready with ideSel := true } true false) ∧
      (HostOpen ready true false ∧ HostOpen { State.reset with boot := .safe, ideLink := true } false true) ∧
      (barRegAt true 0).isSome = true ∧ (barRegAt false 0).isSome = true ∧ inMailbox 0 8 = false ∧
      (0x10001FF = (1 : Fin 8).val * 0x1000000 + 0x100 + 0x10001FF % 0x100) ∧
      (ready.boot ≠ .safe ∧ 0x4 < 2 ^ 32 ∧ (ctrlRegAt (0x4 / 8 * 8)).isSome = true ∧ (bar0RegAt (0x4 / 8 * 8)).isSome = true ∧
        inMailbox 0x4 4 = false ∧ (4 = 4 ∧ 0x4 % 4 = 0 ∧ ¬(8 = 8 ∧ 0x4 % 8 = 0))) := by
  unfold HostOpen; decide +kernel

/-- TranslationEvents: one page at both ends of the range, an invalidation under way, a walk that finds a page, and the
refusals of the scanner. -/
theorem witness_TranslationEvents :
    (State.reset.die 0).tlbInv = none ∧ (-(2 ^ 54 : Int) ≤ (0x003FFFFFFFFFFFFF#64).toInt ∧ (0x003FFFFFFFFFFFFF#64).toInt < 2 ^ 54) ∧
      ¬((0x0040000000000000#64).toInt < 2 ^ 54) ∧ -(2 ^ 54 : Int) ≤ (0xFFC0000000000000#64).toInt ∧
      ((next State.reset (.tlbinvAsid 0 3 false)).die 0).tlbInv = some ⟨1, 3, false, 0⟩ := by decide +kernel
theorem witness_TranslationEvents_walk :
    (let c := tables.ctxOf ⟨0, 0, 0⟩
     tables.cachedLeaf (c.req ⟨0, 0, 0⟩ .load true false) 0x00123456789ABCDE = none ∧
       tables.cachedLeaf (c.req ⟨0, 0, 0⟩ .fetch true false) 0x00123456789ABCDE = none) ∧
      ∃ t x, tables.findLeaf ((tables.ctxOf ⟨0, 0, 0⟩).req ⟨0, 0, 0⟩ .load true false) 0x00123456789ABCDE = (t, .ok x) :=
  ⟨by decide +kernel, oks_split (by decide +kernel)⟩

/-- The same page executable, with words of code in it. -/
def codePage (words : List (BitVec 32)) : State :=
  let leaf := leBytes 8 (0x15 + 0x10000420000)
  let m := memWrite tables.mem (hbmBase + 0x20000 + 0xC4D0) leaf
  { tables with mem := memWrite m (hbmBase + 0x420000) (words.flatMap bytesOfWord) }

theorem witness_TranslationEvents_scan :
    let r := (tables.ctxOf ⟨0, 0, 0⟩).req ⟨0, 0, 0⟩ .fetch true false
    (match ((codePage [0xE0000000#32]).findLeaf r 0x00123456789ABCDE).2 with | .error (.scan _ _ _) => true | _ => false) = true := by
  decide +kernel

/-- StorageEvents: pieces within a unit and across one, corrected errors, a scrub of each storage, a freeze over. -/
theorem witness_StorageEvents :
    (OnePiece hbmBase 32 ∧ ¬OnePiece (hbmBase + 1) 32 ∧ OnePiece 0 64 ∧ OnePiece (lpddrBase + 31) 1 ∧ OnePiece 8 8) ∧
      (accesses.MemOk ∧ 8 % 8 = 0 ∧ accesses.poisoned 8 8 = false) ∧ (famoUpdate 2 0x3F800000 0x40000000).1 = some 0x40000000 ∧
      (State.reset.die 0).mscrub.toNat % 2 = 1 ∧ (State.reset.core 0 0).frozenUntil ≤ State.reset.cycle ∧ (State.reset.die 0).merrV = false := by
  unfold OnePiece State.MemOk; decide +kernel

/-! Contexts and waits -/

def loadDone : Pend := ⟨3, [], [], .given [.s 5 9], 0, false, [], true, false⟩

/-- ContextEvents: a load due, a mark due, a switch, the end of a quantum, of a pin and of the watchdog's limit. -/
theorem witness_ContextEvents :
    (let s := ({ State.reset with cycle := 3 }).updCx fun c => { c with pend := [loadDone] }
     loadDone ∈ (s.ctxOf ⟨0, 0, 0⟩).pend ∧ loadDone.waits = [] ∧ loadDone.due ≤ s.cycle) ∧
      ((State.reset.updCx fun c => { c with markDue := true }).ctxOf ⟨0, 0, 0⟩).markDue = true ∧ (State.reset.ctxOf ⟨0, 0, 0⟩).streams = [] ∧
      (let s := State.reset.updCtx ⟨0, 0, 2⟩ fun c => { c with status := .ready }
       (s.core 0 0).running = none ∧ (s.ctxOf ⟨0, 0, 2⟩).status = .ready ∧
         ∀ y, (s.ctxOf ⟨0, 0, y⟩).status = .ready → turnOf (s.core 0 0).lastRan 2 ≤ turnOf (s.core 0 0).lastRan y) ∧
      (let s := twoReady.updCx fun c => { c with quantum := 0 }
       (s.core 0 0).running = some 0 ∧ (s.ctxOf ⟨0, 0, 0⟩).status = .running ∧ (s.ctxOf ⟨0, 0, 0⟩).quantum = 0 ∧
         (s.ctxOf ⟨0, 0, 0⟩).pin = false ∧ ∃ y, y ≠ 0 ∧ (s.ctxOf ⟨0, 0, y⟩).status = .ready) ∧
      (let s := ({ State.reset with cycle := 65536 }).updCx fun c => { c with pin := true }
       (s.ctxOf ⟨0, 0, 0⟩).pin = true ∧ max 1 (s.die 0).pinmax.toNat ≤ s.cycle - (s.ctxOf ⟨0, 0, 0⟩).pinStart) := by decide +kernel
/-- A context that waits for what is due, and for more. -/
theorem witness_ContextEvents_pending :
    let s (more : List Pend) := ({ State.reset with cycle := 3 }).updCx fun c =>
      { c with status := .blocked .pending, waitRegs := [.s 5, .s 6], pend := loadDone :: more }
    (∀ r ∈ ((s []).ctxOf ⟨0, 0, 0⟩).waitRegs, (((s []).ctxOf ⟨0, 0, 0⟩).settle 3).isPending r = false) ∧
      (let k := ((s [⟨9, [], [], .given [.s 6 9], 0, false, [], true, false⟩]).ctxOf ⟨0, 0, 0⟩).settle 3
       k.isPending (.s 6) = true ∧ k.entryDue = false) := by decide +kernel
theorem witness_ContextEvents_watchdog :
    let id : CtxId := ⟨0, 0, 0⟩
    let s := ({ State.reset with cycle := 1024 * 0x100000 }).updCx fun c => { c with status := .running, task := some 3, wdRuns := true }
    (s.die id.die).wdEn = true ∧ (s.ctxOf id).wdRuns = true ∧ (s.ctxOf id).task ≠ none ∧ (s.ctxOf id).status = .running ∧
      (s.ctxOf id).streamFault = none ∧ (s.ctxOf id).pendingA = PendingA.none ∧ (s.core id.die id.core).frozenUntil ≤ s.cycle ∧
      s.wdLimitOf id ≤ (s.ctxOf id).wdCount s.cycle := by decide +kernel

theorem nothingOut_of {s : State} {id : CtxId} (h : (s.ctxOf id).pend = [] ∧ (s.ctxOf id).streams = [] ∧ s.joist.peerReqs = []) :
    NothingOut s id := by
  refine ⟨fun p hp => ?_, h.2.1, fun r hr => ?_⟩
  · simp [h.1] at hp
  · simp [h.2.2] at hr

/-- A trap waiting, a save waiting, each pending cause, and a notice that has fired. -/
theorem witness_ContextEvents_causes :
    let id : CtxId := ⟨0, 0, 0⟩
    let r : TrapRec := ⟨5, 0, 0, 0⟩
    let n : Notice := ⟨3, 0x2A, some 0, 7⟩
    NothingOut State.reset id ∧
      (let s := State.reset.updCx fun c => { c with status := .saving, trapDue := some r }
       (s.ctxOf id).status = .saving ∧ (s.ctxOf id).trapDue = some r ∧ NothingOut s id) ∧
      (let s := State.reset.updCx fun c => { c with status := .ready, streamFault := some r, pendingA := { PendingA.none with linkLost := true, faults := [⟨false, 0, r⟩] } }
       (s.ctxOf id).streamFault = some r ∧ (s.ctxOf id).pendingA.linkLost = true ∧ (s.ctxOf id).pendingA.faults = [⟨false, 0, r⟩]) ∧
      (let s := State.reset.updCx fun c => { c with status := .ready, iuvec := 1, notices := [⟨2, 1, none, 0⟩, n] }
       (s.ctxOf id).status = .ready ∧ (s.ctxOf id).inh = false ∧ (s.ctxOf id).pin = false ∧ (s.ctxOf id).streams = [] ∧
         ((s.ctxOf id).settle s.cycle).inflight = [] ∧ ((s.ctxOf id).settle s.cycle).latches = [] ∧ (s.ctxOf id).publishing = false ∧
         ((s.ctxOf id).settle s.cycle).firstFired = some n ∧ ((s.ctxOf id).settle s.cycle).iuvec.toNat % 2 = 1) :=
  ⟨nothingOut_of (by decide +kernel), ⟨by decide +kernel, by decide +kernel, nothingOut_of (by decide +kernel)⟩, by decide +kernel,
    by decide +kernel⟩

/-- WaitEvents: an object uninitialised, flipped, of another generation and unchanged; a limit at its edge; a guard passed. -/
theorem witness_WaitEvents :
    let id : CtxId := ⟨0, 0, 0⟩
    let w (phase : Bool) (g : BitVec 32) (l : Option W64) (reg : Bool) : Wait := ⟨some 0x40, phase, g, l, reg, none, false, 5, false⟩
    let at_ (w : Wait) (now : Nat) : State := { barred with cycle := now }.updCx fun c => { c with wait := some w, status := .blocked .barrier }
    (((at_ (w false 0 none false) 0).ctxOf id).wait = some (w false 0 none false) ∧ ((mapped 0 0x40).barrier 0x40).init = false) ∧
      ((at_ (w false 0 none false) 0).barrier 0x40).init = true ∧ ((at_ (w true 0 none false) 0).barrier 0x40).phase ≠ true ∧
      ((at_ (w false 1 none false) 0).barrier 0x40).gen ≠ 1 ∧ ((at_ (w false 0 none false) 0).barrier 0x40).phase = false ∧
      ((at_ (w false 0 none false) 0).barrier 0x40).gen = 0 ∧ (9#64).toNat < (at_ (w false 0 (some 9) true) 10).gtime ∧
      ¬((9#64).toNat < (at_ (w false 0 (some 9) true) 9).gtime) ∧ (region 0x40 = .spad ∧ 0x40 % 64 = 0) ∧
      (let v : SlotWait := ⟨5, 500, 500, 540, true⟩
       let s := ({ State.reset with cycle := 573 }).updCx fun c => { c with slotWait := some v, status := .blocked .receive }
       (s.ctxOf id).slotWait = some v ∧ (s.ctxOf id).status = .blocked .receive ∧ v.slot + guardOf s < s.gtime) := by decide +kernel

/-- A wait of its own barrier, canonical memory, no wait put aside; a poisoned object; a flip within the limit and past it. -/
theorem witness_WaitEvents_flips :
    let w : Wait := ⟨some 0x40, true, 1, some 9, false, none, false, 5, false⟩
    let s : State := { (barred.updCx fun c => { c with wait := some w }) with flips := [(flipKey 0x40 1, 9)] }
    s.MemOk ∧ (s.ctxOf ⟨0, 0, 0⟩).keepWait = none ∧ s.poisoned 0x40 64 = false ∧ ({ s with poison := [0x40] } : State).poisoned 0x40 64 = true ∧
      ¬(9#64).toNat < (s.flipOf 0x40 1).getD s.gtime ∧ (8#64).toNat < (s.flipOf 0x40 1).getD s.gtime := by
  unfold State.MemOk; decide +kernel

/-! Light, time, ports and flits -/

/-- The package of a lane register of two receivers on lane 3, its combs as the index says. -/
def joisted (f : Joist → Joist) : State := State.reset.updJoist f

def combAt (n : Fin 5) (st : BitVec 3) (j : Joist) : Joist := { j with combEn := true, combAuto := true, combs := vupd j.combs n fun c => { c with state := st } }

theorem jloss_le (d : Nat) : jloss d ≤ 30 := by
  unfold jloss
  exact Int.ofNat_le.mpr (Nat.min_le_left _ _)

/-- LightEvents: a dark lane with points that get their floor and with one that does not, a lit lane, no points. -/
theorem witness_LightEvents_floor : ∀ p, p ∈ State.reset.joist.points 0x301 → p.2.2 ≤ p.2.1 := by
  intro p hp
  unfold Joist.points at hp
  simp only [List.mem_append, List.mem_filterMap] at hp
  obtain ⟨d, -, h⟩ | h := hp
  · split at h
    · cases h
      have := jloss_le d.val
      have h1 : launch - split (lanePoints 0x301) = 29 := by decide +kernel
      have h2 : s16 State.reset.joist.ctFloor = -80 := by decide +kernel
      show s16 State.reset.joist.ctFloor ≤ launch - jloss d.val - split (lanePoints 0x301)
      omega
    · cases h
  · simp [show bit (0x301#64) 16 = false by decide +kernel] at h
theorem witness_LightEvents_refused :
    (((joisted fun j => { j with ctFloor := 0x7FFF }).joist.points 0x301).find? fun p => decide (p.2.1 < p.2.2)).isSome = true := by
  rw [List.find?_isSome]
  refine ⟨(0, launch - jloss 0 - split (lanePoints 0x301), 0x7FFF), ?_, ?_⟩
  · unfold Joist.points
    rw [List.mem_append, List.mem_filterMap]
    exact .inl ⟨0, by decide +kernel, by rw [if_pos (by decide +kernel)]; rfl⟩
  · have h : 0 ≤ jloss 0 := Int.natCast_nonneg _
    have h1 : launch - split (lanePoints 0x301) = 29 := by decide +kernel
    simp only [decide_eq_true_eq]
    omega
theorem witness_LightEvents :
    let lit (v : W64) : W64 := BitVec.ofNat 64 (v.toNat / 2 * 2 + 1) &&& 0x1FFF0F
    (vget State.reset.joist.lanes 3).reg.toNat % 2 = 0 ∧ lit 0x300 = 0x301 ∧ lanePoints 0x301 ≠ 0 ∧ lanePoints (lit 0xF) = 0 ∧
      (vget (joisted fun j => { j with lanes := vset j.lanes 3 ⟨1, []⟩ }).joist.lanes 3).reg.toNat % 2 = 1 := by decide +kernel
theorem witness_LightEvents_combs :
    (let j := (joisted fun j => combAt 1 2 (combAt 4 4 j)).joist
     j.combEn = true ∧ j.combAuto = true ∧ (vget j.combs 1).state ≠ 0 ∧ (vget j.combs 1).state ≠ 3 ∧ (vget j.combs 4).state = 4 ∧
       j.combSwap = none ∧ j.combFor = none ∧ j.combFor ≠ some 1) ∧
      (let j := (joisted fun j => { (combAt 4 5 j) with combFor := some 2 }).joist
       j.combEn = true ∧ (vget j.combs 4).state = 5 ∧ j.combFor = some 2 ∧ j.combSwap = none) ∧
      (let s := joisted fun j => { (combAt 4 4 j) with combSwap := some ⟨2, true, true, 0⟩ }
       s.joist.combSwap = some ⟨2, true, true, 0⟩ ∧ 0 ≤ s.cycle) ∧
      (let j := (joisted (combAt 0 1)).joist
       j.combEn = true ∧ (vget j.combs 0).state = 1) ∧ State.reset.boot ≠ .safe ∧
      (let j := State.reset.joist
       j.combFor = none ∧ ({ j with combFor := some 2 } : Joist).combFor = some 2 ∧ (2 : Fin 4) ≠ 1 ∧ (50#16).toInt + (10#8).toNat ≤ 60) := by
  decide +kernel

/-- TimeEvents: 16 exchanges and fewer, a reached master and none, an offset of either sign, a flit that has left, a quiet
port and one with room, a skew at SLOTW and beyond. -/
theorem witness_TimeEvents :
    (let j := ((timed 2 true).updJoist fun j => { j with gtBusy := true, gtExch := List.replicate 16 ⟨0, 0, 0, 0⟩ }).joist
     j.gtBusy = true ∧ (∃ q, j.circuit j.gtMaster q = true) ∧ j.gtBehind ≤ (timed 2 true).cycle + j.gtAhead ∧
       j.gtExch.length = 16 ∧ (timed 2 true).joist.gtExch.length < 16 ∧
       (-2 ^ 35 ≤ (j.gtExch.map fun x => (x.t2 - x.t1).toInt - (x.t4 - x.t3).toInt).foldl (· + ·) 0)) ∧
      (let j := ((timed 2 false).updJoist fun j => { j with gtBusy := true }).joist
       j.gtBusy = true ∧ ¬∃ q, j.circuit j.gtMaster q = true) ∧ (0 : Int) ≤ (0#32).toInt ∧ (0xFFFFFFFF#32).toInt < 0 ∧
      (let j := ((timed 2 true).updJoist fun j => { j with gtSent := [⟨7, 100⟩] }).joist
       j.gtSent.find? (fun x => x.seq == 7) = some ⟨7, 100⟩) ∧
      (let s := (timed 2 true).updJoist fun j => { j with gtAligned := true }
       s.joist.gtAligned = true ∧ (s.joist.circuit s.joist.gtMaster 15 = true ∧ ∀ p, p < 15 → s.joist.circuit s.joist.gtMaster p = false) ∧
         s.joist.skewAt ≤ s.cycle ∧ s.portQuiet 15 = false ∧ (vget s.joist.ports 15).replay.length < 512 ∧
         (4#32).toInt.natAbs ≤ max 1 s.joist.gtSlotw.toNat ∧ max 1 s.joist.gtSlotw.toNat < (0xFFFFFFFB#32).toInt.natAbs) := by
  decide +kernel

/-- Port 2 as a function makes it. -/
def ported (f : Port → Port) : State := joisted fun j => { j with mvalid := true, member := 1, ports := vupd j.ports 2 f }

/-- PortEvents: training, trained and up, a foreign member and a wrong one, every lane state, a gap held and not, a swap. -/
theorem witness_PortEvents :
    let p (f : Port → Port) : Port := vget (ported f).joist.ports 2
    (p fun p => { p with en := true }).trained = false ∧ (p fun p => { p with en := true, trained := true }).trained = true ∧
      (p fun p => { p with training := true }).training = true ∧
      (let x := p fun p => { p with trained := true }
       x.trained = true ∧ x.telemetryAt ≤ State.reset.cycle ∧ x.replay.length < 512 ∧ x.up = false ∧ (1#9) = (ported id).joist.member ∧
         (7#9) ≠ (ported id).joist.member ∧ (7#9) ≠ 0x1FF) ∧
      (let x := p fun p => { p with trained := true, up := true }
       x.trained = true ∧ x.up = true ∧ (List.replicate 34 (0x300#16)).length = 34 ∧ (x.lane 0).state = .active ∧
         ∀ n : Fin 34, x.soft.toInt ≤ ((List.replicate 34 (0x300#16)).getD n.val 0).toInt ∧ x.hard.toInt ≤ ((List.replicate 34 (0x300#16)).getD n.val 0).toInt) ∧
      (let x := p fun p => { p with trained := true, replay := List.replicate 512 ⟨⟨0, 0⟩, none⟩ }
       x.trained = true ∧ 512 ≤ x.replay.length) ∧
      (let x := p fun p => { p with up := true, untimed := false, gap := 8448, gapp := 0x10000001000 }
       x.up = true ∧ x.untimed = false ∧ x.listsGap 8448 = true ∧ x.listsGap 12544 = true ∧ x.listsGap 8449 = false ∧ x.listsGap 4352 = false ∧
         256 + 8192 ≤ 8448 ∧ ¬(257 + 8192 ≤ 8448)) ∧
      (let x := p fun p => { p with up := true, untimed := true }
       x.up = true ∧ x.untimed = true) := by decide +kernel
theorem witness_PortEvents_lanes :
    let p (f : Port → Port) : Port := vget (ported f).joist.ports 2
    let lane (l : Fin 34) (st : LaneState) (p : Port) : Port := { p with lanes := vupd p.lanes l fun x => { x with state := st } }
    (let x := p fun p => { (lane 33 .pending p) with gapAgreed := some 0, swaps := [(33, 32)] }
     x.gapAgreed = some 0 ∧ ((33, 32) : Fin 34 × Fin 34) ∈ x.swaps ∧ 0 ≤ (ported id).gtime ∧ (x.lane 33).state = .pending) ∧
      (let x := p fun p => { (lane 0 .swapping p) with swaps := [(0, 32)] }
       x.swaps = (0, 32) :: [] ∧ (0 : Fin 34) ≠ 32 ∧ (x.lane 0).state = .swapping ∧ (0 ≤ x.swapAt + 256 ∧ x.swapAt + 256 < 257)) ∧
      (p id).askLess = none ∧ (p fun p => { p with askMore := some 5 }).askMore = some 5 ∧ (p id).lightAt ≤ 0 ∧
      0 < (p fun p => { p with lightAt := 1 }).lightAt ∧
      (let x := p fun p => { p with askLess := some 7 }
       x.askMore = none ∧ x.askLess = some 7) := by decide +kernel

def aFlit (type srcm seq len : Nat) : Flit := ⟨BitVec.ofNat 128 (type + srcm * 2 ^ 4 + 1 * 2 ^ 13 + len * 2 ^ 34 + seq * 2 ^ 48 + hbmBase * 2 ^ 64), 0⟩

/-- FlitEvents: a queue with room and full, a request that is due and three that are not, replays at their limit, an
acknowledged flit, a silent link. -/
theorem witness_FlitEvents :
    ((State.reset.chan 0 0 5).queue.length < 8) ∧
      (let s := State.reset.updMyChan 5 fun x => { x with queue := List.replicate 8 ⟨1, 2, 3, false, 4⟩ }
       8 ≤ (s.chan 0 0 5).queue.length) ∧
      (let p := vget (ported fun p => { p with up := true, pseqin := [(16, 7)] }).joist.ports 2
       let due (f : Flit) : Prop :=
         let h := readHead f.header
         let k := 8 * h.srcm + h.sdie
         (alookup k p.pseqin = none ∨ h.seq = ((match alookup k p.pseqin with | some a => a | none => 0) + 1).toNat) ∧ (h.type = 1 ∨ h.type = 2 ∨ h.type = 4) ∧ h.len ≤ 32
       p.up = true ∧ due (aFlit 2 2 8 1) ∧ due (aFlit 4 3 0 8) ∧ ¬due (aFlit 2 2 7 1) ∧ ¬due (aFlit 3 2 8 1)) ∧
      (let p := vget (ported fun p => { p with trained := true, fails := [(1, 16), (2, 15)], replay := [⟨aFlit 1 1 1 1, none⟩], txSeq := 1 }).joist.ports 2
       let gone (n : BitVec 32) : Nat := match p.fails.find? fun y => y.1 == n with | some y => y.2 | none => 0
       p.trained = true ∧ 16 ≤ gone 1 ∧ gone 2 < 16 ∧ gone 3 < 16 ∧ (1#32) = p.rxSeq + 1 ∧ (2#32) ≠ p.rxSeq + 1 ∧
         (p.txSeq - 1).toNat ≤ p.replay.length ∧ p.replay ≠ [] ∧ p.lastAck + 1024 * p.linkto.toNat ≤ 1024 * 65535) := by
  decide +kernel
/-- A flit whose trailer fits it, and one whose does not. -/
theorem witness_FlitEvents_trailer :
    let f := aFlit 1 1 1 1
    let c := crc32c (leBytes 16 f.header.toNat ++ leBytes 256 f.payload.toNat)
    (⟨c, 1⟩ : Trailer).crc = c ∧ (⟨c ^^^ 1, 1⟩ : Trailer).crc ≠ c := by
  refine ⟨rfl, fun h => ?_⟩
  have := congrArg (fun x : BitVec 32 => x.getLsbD 0) h
  simp at this
/-- A request of context 0 sent on port 2, of an access that waits for it. -/
theorem witness_FlitEvents_answer :
    let r : PeerReq := ⟨⟨0, 0, 0⟩, 9, 3, .sent 2, 0x10000, 1, .load, 0, true, none, false, none, ⟨BitVec.ofNat 128 2, 0⟩⟩
    let q : PeerReq := { r with read := false, arrive := some 0x40 }
    (joisted fun j => { j with peerReqs := [r] }).sentReq ⟨0, 0, 0⟩ 9 = some r ∧ r.dead = false ∧ r.engine = none ∧ r.arrive = none ∧
      (joisted fun j => { j with peerReqs := [q] }).sentReq ⟨0, 0, 0⟩ 9 = some q ∧ (State.reset.ctxOf ⟨0, 0, 0⟩).pend = [] := by decide +kernel

/-! Boot -/

/-- BootEvents: each boot state and stage; a command of each kind waiting in READY and before it. -/
theorem witness_BootEvents :
    State.reset.boot = .reset ∧
      (let at_ (n : BitVec 8) : State := { State.reset with boot := .selftest, stage := n }
       (at_ 3).boot = .selftest ∧ (at_ 3).stage = 3 ∧ (at_ 4).stage = 4 ∧ (at_ 5).stage = 5 ∧ (at_ 6).stage = 6 ∧ (at_ 8).stage = 8) ∧
      (let c (op arg : BitVec 8) : MbCmd := ⟨7, op, arg, 0x42, 0⟩
       let s (op arg : BitVec 8) : State := { ready with mbQueue := [c op arg] }
       (s 1 0).mbQueue = [c 1 0] ∧ (c 1 0).die = 7 ∧ (s 1 0).boot ≠ .safe ∧ (c 1 0).at_ < ({ s 1 0 with cycle := 1 } : State).cycle ∧ (c 3 255).arg = 255) ∧
      ready.boot = .ready ∧ ({ State.reset with boot := .safe } : State).boot = .safe := by decide +kernel
/-! Stream windows and engines -/

def streamed : State := next streaming (.xdot 0 1 2 5 2 0 0 0)

/-- StreamEvents: a window about to begin, a result due with windows left, a broadcast under way, a calibration's end. -/
theorem witness_StreamEvents :
    (let s := { streamed with cycle := 100 }
     (s.ctxOf ⟨0, 0, 0⟩).firstBegin = s.cx.streams.head?.map (·, 0) ∧ s.cx.streams.length = 1 ∧
       s.cx.streams.all (fun o => decide (o.start + 0 * (part o.geom.toNat 0 9 + 1) ≤ s.gtime ∧ o.first ≤ 0)) = true) ∧
      (let s := ({ streamed with cycle := 200 }).updCx fun c => { c with streams := c.streams.map fun (o : StreamOp) =>
         { o with begun := [.ran (List.replicate 64 0) 0], geom := 0x10000020600 } }
       (s.ctxOf ⟨0, 0, 0⟩).firstResult = s.cx.streams.head? ∧ s.cx.streams.length = 1 ∧
         s.cx.streams.all (fun o => decide (o.first ≤ o.next ∧ o.start + (o.next - o.first + 1) * (part o.geom.toNat 0 9 + 1) + 15 ≤ s.gtime ∧
           o.next + 1 < part o.geom.toNat 16 16 ∧ o.halting = false)) = true) ∧
      (let s := State.reset.updMyCore fun k => { k with calEnd := some 0 }
       (s.core 0 0).calEnd = some 0 ∧ 0 ≤ s.cycle) := by decide +kernel
/-- A result that nothing holds up and its tile destination; a window that met a fault and one whose hold was revoked. -/
theorem witness_StreamEvents_stops :
    let at_ (w : WindowOut) : State := ({ streamed with cycle := 200 }).updCx fun c =>
      { c with streams := c.streams.map fun (o : StreamOp) => { o with begun := [w] } }
    (∀ w ∈ [.ran [] 0, .fault ⟨5, 0, 0, 0⟩, .revoked], ((at_ w).ctxOf ⟨0, 0, 0⟩).firstResult = (at_ w).cx.streams.head? ∧
      (at_ w).cx.streams.length = 1 ∧ (at_ w).cx.streams.all (fun o => o.begun == [w] && !(at_ w).resultHeld ⟨0, 0, 0⟩ o) = true) ∧
      (∀ o : StreamOp, o.dst = .tile 2 → streamed.resultParts ⟨0, 0, 0⟩ o = (streamed, .ok [])) ∧ streamed.cx.unboards = [] := by
  refine ⟨by decide +kernel, fun o h => by simp [State.resultParts, h], by decide +kernel⟩

/-- ConverterCodes: saturation, both sides of the limit, and sums close to a boundary and away from it, of either sign. -/
theorem witness_ConverterCodes :
    (16383 * (2 ^ 2 : Int) < 2 * 32767 ∧ ¬16383 * (2 ^ 2 : Int) < 2 * 32766) ∧ (2 * (-32767) < -16383 * (2 ^ 2 : Int) ∧ -16383 * (2 ^ 2 : Int) ≤ 2 * (-32766)) ∧
      (20 * ((-32 : Int) % 2 ^ 4) ≤ 2 ^ 4 ∧ ¬(20 * ((-24 : Int) % 2 ^ 4) ≤ 2 ^ 4 ∨ 19 * (2 ^ 4 : Int) ≤ 20 * ((-24 : Int) % 2 ^ 4)) ∧
        19 * (2 ^ 6 : Int) ≤ 20 * (63 % 2 ^ 6)) := by decide

/-- EngineEvents: a copy, collectives that ended well and badly, a migration waiting, refused and under way. -/
theorem witness_EngineEvents :
    let id : CtxId := ⟨0, 0, 0⟩
    let o : EngineOp := { accesses.newOp .cpy 0x10000 0x10000 64 0 false with handle := 3, engine := some 0 }
    let s (o : EngineOp) : State := accesses.updDie 0 fun d => { d with engOps := [o] }
    let c : EngineOp := { o with kind := .cred, started := true, engine := none }
    let m : EngineOp := { o with kind := .kvmig, engine := none }
    (Outstanding (s o) id 3 o ∧ o.kind.copies = true) ∧
      (Outstanding (s c) id 3 c ∧ c.kind.collective = true ∧ c.started = true ∧ (s c).joist.peerReqs = [] ∧ c.failed = false ∧ c.pub = false) ∧
      (((s m).die id.die).engOps.find? (fun y => y.id == id && y.handle == 3 && y.kind == .kvmig) = some m ∧ m.started = false ∧
        (s m).mayRun m = true ∧ (s m).migBad id.die m.block m.dst = true ∧ ((s m).die id.die).rlFull = false) := by
  unfold Outstanding; decide +kernel
/-- A request of the block-table unit, and a group of one rank that has issued. -/
theorem witness_EngineEvents_requests :
    let q : KvReq := kvAsks false none
    let r : KvReq := { q with num := 4, order := 1, id := ⟨0, 0, 1⟩ }
    let with_ (s : State) (l : List KvReq) : State := s.updDie 0 fun d => { d with kvReqs := l }
    let s := with_ (sequence 2 1) [q]
    let ends (s : State) : Nat := match s.kvStep q with | .done _ _ => 0 | .wait _ => 1 | .poison _ => 2
    (s.openReq ⟨0, 0, 0⟩ = some q ∧ s.kvBehind q = false ∧ (with_ s [q, r]).openReq ⟨0, 0, 1⟩ = some r ∧ (with_ s [q, r]).kvBehind r = true ∧
      ends s = 0 ∧ ends { s with poison := [hbmBase + 0x100] } = 2 ∧ ends (s.setKvLo 0 0 fun w => setField w 2 2 1) = 1) ∧
      (∃ w, ((s.updCx fun c => { c with kvReq := some ⟨3, 4, false⟩ }).ctxOf ⟨0, 0, 0⟩).kvReq = some w ∧ w.num = q.num) ∧
      (s.ctxOf ⟨0, 0, 0⟩).kvReq = none ∧
      (let o : EngineOp := { grouped.newOp .cbar 0 0 2 0 false with comp := 2, engine := some 0 }
       let s := grouped.updDie 0 fun d => { d with engOps := [o] }
       let g := o.grp
       s.instance_ g = [o] ∧ [o].length = (vget s.joist.groups g).nrank ∧ agree [o] = true ∧ s.mayRun o = true) := by
  refine ⟨by decide +kernel, ⟨_, rfl, rfl⟩, rfl, by decide +kernel⟩
/-- A migration whose block is busy, at its copy with an engine free and none, at its publish with a poisoned source and a
good one, and at its record with room and without. -/
theorem witness_EngineEvents_migration :
    let s := sequence 2 1
    let s : State := { s with mem := memWrite s.mem (hbmBase + 0x1000000) (leBytes 8 (1 + 2 + 16 + hbmBase + 0x50000)) }
    let o : EngineOp := { s.newOp .kvmig (BitVec.ofNat 64 (hbmBase + 0x60000)) 0 0 0 false with handle := 3 }
    let own (o : EngineOp) (s : State) : State := s.updDie 0 fun d => { d with engOps := [o] }
    let m (pos : Nat) : EngineOp := { o with started := true, pos := pos, comp := 1 }
    let stands (s : State) (o : EngineOp) : Prop :=
      ((own o s).die 0).engOps.find? (fun y => y.id == ⟨0, 0, 0⟩ && y.handle == 3 && y.kind == .kvmig) = some o
    (stands s o ∧ o.started = false ∧ s.mayRun o = true ∧ s.migBad 0 o.block o.dst = false ∧ (s.kvEntry 0 o.block).state = 0 ∧
      ((s.setKvLo 0 0 fun w => setField w 2 2 1).kvEntry 0 0).state ≠ 0 ∧ s.mayRun { o with held := true } = false) ∧
      (stands s (m 0) ∧ (m 0).started = true ∧ (s.die 0).freeEngine = some 0 ∧
        ((s.updDie 0 fun d => { d with engines := vmapAll d.engines fun _ e => { e with hw := true } }).die 0).freeEngine = none) ∧
      (stands s (m 1) ∧ (m 1).poison = false ∧ (m 1).migOwned = true ∧ { m 1 with poison := true }.poison = true ∧
        ((s.updDie 0 fun d => { d with pbcfg := 0x11 }).die 0).pbEn = true ∧
        (s.kvEntry 0 (m 1).block).pbidx < ((s.updDie 0 fun d => { d with pbcfg := 0x11 }).die 0).npb) ∧
      stands s (m 2) ∧ (s.die 0).rlFull = false ∧ ((s.updDie 0 fun d => { d with kvrlTail := 0x100000 }).die 0).rlFull = true := by
  decide +kernel
theorem witness_EngineEvents_memory :
    let s := sequence 2 1
    ({ s with mem := memWrite s.mem (hbmBase + 0x1000000) (leBytes 8 (1 + 2 + 16 + hbmBase + 0x50000)) } : State).MemOk := by
  unfold State.MemOk; decide +kernel

/-! Queues, tasks and boarding -/

/-- The page that `tables` maps. -/
def tablePage : W64 := 0x00123456789A0000
def stored (off : Nat) (ws : List W64) (s : State) : State :=
  { s with mem := memWrite s.mem (hbmBase + 0x420000 + off) (ws.flatMap fun w => leBytes 8 w.toNat) }

/-- Queue 5 of die 0 in address space 1 with a descriptor at its head. -/
def queued (desc : List W64) : State :=
  ({ (stored 0 desc tables) with boot := .ready }).updQueue 0 5 fun y => { y with qbase := tablePage, en := true, asid := 1, tail := 1 }

/-- One task on core 0, with a dependency in the same page. -/
def aLaunch : List W64 := [0x14B544431, 0x10000, 0, BitVec.ofNat 64 (8 + 2 ^ 36), 0, 1, BitVec.ofNat 64 (5 * 2 ^ 8 + 2 ^ 17 + 2 ^ 32), 0, 0, 0, tablePage + 0x800, 0]

/-- What a read gives, where it does. -/
def readOf (x : State × SchedRead) : Option (List Byte) := match x.2 with | .ok bs => some bs | _ => none
theorem readOf_some {x : State × SchedRead} {p : List Byte → Bool} (h : (readOf x).any p = true) : ∃ u bs, x = (u, .ok bs) ∧ p bs = true := by
  obtain ⟨u, r⟩ := x
  cases r with
  | ok bs => exact ⟨u, bs, rfl, h⟩
  | fault => simp [readOf] at h
  | poison => simp [readOf] at h
  | waits => simp [readOf] at h

def isFault (x : State × SchedRead) : Bool := match x.2 with | .fault => true | _ => false
theorem isFault_some {x : State × SchedRead} (h : isFault x = true) : ∃ u, x = (u, .fault) := by
  obtain ⟨u, r⟩ := x
  cases r with
  | ok bs => simp [isFault] at h
  | fault => exact ⟨u, rfl⟩
  | poison => simp [isFault] at h
  | waits => simp [isFault] at h

/-- QueueEvents: an entry that fits, is refused, cannot be read; tails at the last place and beyond; a queue to move. -/
theorem witness_QueueEvents :
    (let x := (queued aLaunch).queue 0 5
     ((queued aLaunch).boot = .ready ∧ x.en = true ∧ x.asid ≠ 0 ∧ x.head ≠ x.tail ∧ x.launch = none) ∧ x.seqTry = 0 ∧ x.qseqb.toNat % 2 = 0 ∧
       ((1#32 - x.head).toNat ≤ 2 ^ min 12 x.slog.toNat ∧ (x.tail - x.head).toNat ≤ (1#32 - x.head).toNat) ∧
       ¬((0x1001#32 - x.head).toNat ≤ 2 ^ min 12 x.slog.toNat) ∧ part 0x200 8 6 ≠ x.asid.val ∧ part 0x100 8 6 = x.asid.val) ∧
      (∃ u bs, (queued aLaunch).schedRead 0 1 true tablePage 256 = (u, .ok bs) ∧
        decide (descReason (dwords 32 bs) 5 = none ∧ wordAt (dwords 32 bs) 9 = 0 ∧ wordAt (dwords 32 bs) 10 ≠ 0 ∧
          part (wordAt (dwords 32 bs) 5).toNat 0 40 ≠ 0) = true) ∧
      (∃ u bs, (queued [1]).schedRead 0 1 true tablePage 256 = (u, .ok bs) ∧ decide (descReason (dwords 32 bs) 5 = some 0) = true) ∧
      ∃ u, (queued []).schedRead 0 1 true 0x10000 256 = (u, .fault) :=
  ⟨by decide +kernel, readOf_some (by decide +kernel), readOf_some (by decide +kernel), isFault_some (by decide +kernel)⟩

def launched : Launch := ⟨.dependency, aLaunch, tablePage, List.replicate 16 0, 0, 1, 0, false, false, 0⟩

/-- A sequence word that differs, before its last read and at it, and a dependency that is met, not met and unreadable. -/
theorem witness_QueueEvents_waits :
    (∀ n : Fin 2, let s := (stored 0x1000 [7] (queued aLaunch)).updQueue 0 5 fun y => { y with qseqb := tablePage + 0x1001, seqTry := if n = 0 then 62 else 63 }
      let x := s.queue 0 5
      0 < x.seqTry ∧ x.seqAt ≤ s.cycle ∧ x.qseqb.toNat % 2 = 1 ∧
        BitVec.ofNat 64 (x.qseqb.toNat / 256 * 256 + 4 * (x.head.toNat % 2 ^ min 12 x.slog.toNat)) = tablePage + 0x1000) ∧
      (∃ u bs, (stored 0x1000 [7] (queued aLaunch)).schedRead 0 1 true (tablePage + 0x1000) 4 = (u, .ok bs) ∧ decide (leNat bs = 7 ∧ bs.length = 4) = true) ∧
      (let s := (queued aLaunch).updQueue 0 5 fun y => { y with launch := some launched }
       (s.queue 0 5).launch = some launched ∧ launched.stage = .dependency ∧ launched.depFail = false ∧ launched.depAt ≤ s.cycle ∧
         (∃ u bs, s.schedRead 0 1 false (tablePage + 0x800) 8 = (u, .ok bs) ∧ decide (leNat bs = 0) = true) ∧
         (∃ u bs, (stored 0x800 [3] s).schedRead 0 1 false (tablePage + 0x800) 8 = (u, .ok bs) ∧ decide (leNat bs ≠ 0) = true) ∧
         (∃ u, s.schedRead 0 1 false 0x10000 8 = (u, .fault)) ∧ part (wordAt launched.desc 6).toNat 18 1 = 0 ∧ (s.die 0).schedBusy = false) :=
  ⟨by decide +kernel, readOf_some (by decide +kernel), by decide +kernel, by decide +kernel, by decide +kernel, by decide +kernel,
    readOf_some (by decide +kernel), readOf_some (by decide +kernel), isFault_some (by decide +kernel), by decide +kernel, by decide +kernel⟩

/-- A task of queue 5 in a state. -/
def aTask (st : TaskState) : Task :=
  { state := st, core := 0, ctx := 0, queue := 5, cause := 0, wid := 3, desc := aLaunch ++ List.replicate 20 0, descVa := tablePage
    ft := [], asid := 1, seq := 0, hasImage := false, noResume := false, suspendTo := false, saveFor := none, acted := false
    handles := 0, statuses := [], xwaited := none, keepM := none, keepC := none, faults := [], latchPend := []
    poison := [], latchBad := [], doneAt := [], parked := [], wdCount := 0 }
def tasked (t : Task) : State :=
  ({ tables with boot := .ready }).updDie 0 fun d => { d with schedEn := true, tasks := [(3, t)] }

/-- TaskEvents: a candidate placed and none, ranges that translate, a task in each state that a command meets, one over. -/
theorem witness_TaskEvents :
    (let s := (queued aLaunch).updQueue 0 5 fun y => { y with launch := some { launched with stage := .eligible } }
     s.boot = .ready ∧ (s.die 0).schedEn = true ∧ (s.die 0).dispatchAt ≤ s.cycle ∧ (State.dispatchOne 0 ((s.die 0).cands.take 64) s).2 = true) ∧
      ((tasked (aTask .suspended)).die 0).cands = [] ∧
      (∃ u xs, (tasked (aTask .resident)).taskExtents 0 3 (aTask .resident) = (u, .ok xs)) ∧ (aTask .resident).hasImage = false ∧
      (let s := { tasked (aTask .dispatching) with cycle := 1 }.updDie 0 fun d => { d with asroot := vset d.asroot 1 0 }
       part (vget (s.die 0).asroot 1).toNat 0 1 = 0 ∧ s.task 0 3 ≠ none) ∧
      (let s := tasked (aTask .ending)
       s.task 0 3 = some (aTask .ending) ∧ (aTask .ending).acted = false ∧ (aTask .ending).desc.length = 32 ∧
         part (wordAt (aTask .ending).desc 11).toNat 3 61 = 0 ∧ s.opsOf ⟨0, 0, 0⟩ = [] ∧ NothingOut s ⟨0, 0, 0⟩) ∧
      ((tasked (aTask .saved)).die 0).schedBusy = false ∧ (tasked (aTask .saved)).task 0 4 = none := by
  refine ⟨by decide +kernel, by decide +kernel, oks_split (by decide +kernel), rfl, by decide +kernel, ⟨by decide +kernel, by decide +kernel, by decide +kernel,
    by decide +kernel, by decide +kernel, nothingOut_of (by decide +kernel)⟩, by decide +kernel, by decide +kernel⟩

/-- A candidate of level 1 whose core has no idle context, and its victim of level 0. -/
theorem witness_TaskEvents_preemption :
    let t : Task := { aTask .saved with desc := (aTask .saved).desc.set 6 (BitVec.ofNat 64 (1 + 5 * 2 ^ 8 + 2 ^ 17 + 2 ^ 32)) }
    let busy (s : State) (x : Fin 4) : State := s.updCtx ⟨0, 0, x⟩ fun c => { c with status := .running }
    let s := busy (busy (busy (busy (({ tables with boot := .ready } : State).updDie 0 fun d =>
      { d with schedEn := true, tasks := [(3, t), (4, aTask .resident)] }) 0) 1) 2) 3
    (s.die 0).saveAt ≤ s.cycle ∧ (s.die 0).cands = [.saved 3] ∧ s.spot 0 (descCores (s.candDesc 0 (.saved 3))) = none ∧
      (∀ p, p ∈ (s.die 0).tasks → p.2.saveFor ≠ some (.saved 3)) ∧ s.victim 0 (s.candDesc 0 (.saved 3)) = some (4, aTask .resident) := by
  decide +kernel
/-- A segment entry and a manifest of one segment of one tile for die 0, at the start of HBM4's first frame. -/
def aManifestAt : State :=
  let head := leBytes 8 (0x43564E31 + 2 ^ 32 + 3 * 2 ^ 40) ++ leBytes 8 1
  let seg := leBytes 8 (7 * 2 ^ 16 + 2 ^ 32) ++ leBytes 8 1 ++ leBytes 8 (hbmBase + 0x10000)
  let s : State := { State.reset with mem := memWrite (memWrite [] hbmBase head) (hbmBase + 64) seg }
  s.updJoist fun j => { j with rmanV := true, rmanBase := BitVec.ofNat 64 hbmBase, stopped := true }

/-- CaravanEvents: a tile for a slot that fills, the last one and not, a repair under way, the ring at its last segment
and before it, held, stopped with a manifest and without one, a dwell at its limit. -/
theorem witness_CaravanEvents :
    (let s := riding .filling
     let b := s.slot 0 1
     s.tileNext 0 = true ∧ s.fillingSlot 0 = some 1 ∧ b.failed = false ∧ b.tileSrc b.next = hbmBase ∧ s.MemOk ∧
       s.poisoned hbmBase 65536 = false ∧ b.got + 1 = b.len) ∧
      (let s := (riding .filling).updSlot 0 1 fun b => { b with len := 2 }
       let b := s.slot 0 1
       s.tileNext 0 = true ∧ s.fillingSlot 0 = some 1 ∧ b.got + 1 ≠ b.len) ∧
      (let s := (riding .filling).updSlot 0 1 fun b => { b with repairs := [0] }
       let u := s.startRepairs 0
       let c := u.slot 0 1
       (fins 8).find? (fun k => (u.slot 0 k).repairOn.isSome) = some 1 ∧ c.repairs = [0] ∧ c.tileSrc 0 = hbmBase ∧
         u.poisoned hbmBase 65536 = false ∧ c.failed = false ∧ c.tries = 0 ∧
         ({ u with poison := [hbmBase] } : State).poisoned (c.tileSrc 0) 65536 = true) ∧
      (riding .boarded).tileNext 0 = false ∧ (riding .filling).joist.curSeg = aManifest.segs[0]? ∧
      (let s := (riding .filling).updJoist fun j => { j with seg := 2 }
       s.joist.stopped = false ∧ s.joist.injecting = true ∧ s.joist.segs.length ≤ s.joist.seg.toNat + 1 ∧
         (riding .filling).joist.seg.toNat + 1 < (riding .filling).joist.segs.length) := by
  unfold State.MemOk; decide +kernel
/-- A shared share whose tile has been read once, for the slot that has still two to take. -/
theorem witness_CaravanEvents_shared :
    let s := ((riding .filling).updSlot 0 1 fun b => { b with len := 2 }).updJoist fun j =>
      { j with manifest := some ⟨1, [⟨7, 255, 1, true, 0, 2, [hbmBase]⟩]⟩, wire := some (0, List.replicate 65536 0, false) }
    s.tileNext 0 = true ∧ s.fillingSlot 0 = some 1 ∧ (s.slot 0 1).failed = false ∧ s.joist.curSeg.any (fun g => g.shared) = true ∧
      s.joist.wire.any (fun x => x.1 == (s.slot 0 1).next && !x.2.2) = true ∧ (s.slot 0 1).got + 1 ≠ (s.slot 0 1).len := by decide +kernel
theorem witness_CaravanEvents_ring :
    (let s := ({ (riding .dwell) with cycle := 1024 * 9 }).updSlot 0 1 fun b => { b with dwell := 9, parked := 1 }
     let b := s.slot 0 1
     (fins 8).find? (fun k => (s.slot 0 k).state == .dwell) = some 1 ∧ b.dwell ≠ 0xFFFF ∧ b.dwellAt + 1024 * b.dwell.toNat ≤ s.cycle ∧
       b.count ≠ 0) ∧
      (aManifestAt.joist.stopped = true ∧ aManifestAt.joist.rmanV = true ∧ (aManifestAt.loadManifest aManifestAt.joist.rmanBase.toNat).isSome = true) ∧
      State.reset.joist.stopped = true ∧ State.reset.joist.rmanV = false ∧ State.reset.loadManifest 0 = none ∧
      (part 0x00180080 8 5 + min 8 (max 1 (part 0x00180080 4 4)) ≤ 32 ∧ ¬part 0x1980 8 5 + min 8 (max 1 (part 0x1980 4 4)) ≤ 32) := by decide +kernel

/-! The machine -/

/-- A context that runs a bundle at VA 0x10000, a page of code that is cached in the core. -/
def running (words : List (BitVec 32)) : State :=
  let s := holding hbmBase 0 (words.flatMap bytesOfWord)
  (s.updCx fun c => { c with arch := { c.arch with pc := 0x10000 }, quantum := 9 }).updMyCore fun k =>
    { k with l1tlb := [⟨1, 1, false, BitVec.ofNat 64 (0x1D7 + hbmBase)⟩] }

/-- `addi s5, s5, 1` alone in its bundle. -/
def oneAdd : State := running [0xF0400000, 0x20011450]
def oneHeader : Header := ⟨0, false, 0, 0, 1⟩

def given {σ ε α : Type} (x : σ × Except ε α) (p : α → Bool) : Bool := match x.2 with | .ok a => p a | .error _ => false
theorem given_split {σ ε α : Type} {x : σ × Except ε α} {p : α → Bool} (h : given x p = true) : ∃ a, x = (x.1, .ok a) ∧ p a = true := by
  obtain ⟨s, r⟩ := x
  cases r with
  | error e => simp [given] at h
  | ok a => exact ⟨a, rfl, h⟩

/-- StepRunsDecoded: an event at the head of the agenda, a core's turn at its bundle, in its second form too. -/
theorem witness_StepRunsDecoded :
    ({ oneAdd with agenda := [.event (.combFailure ⟨0, none⟩), .core 0 0] } : State).agenda = [.event (.combFailure ⟨0, none⟩), .core 0 0] ∧
      TurnOf { oneAdd with agenda := [.core 0 0] } oneAdd 0 0 ∧ TurnOf oneAdd oneAdd 0 0 ∧ (oneAdd.core 0 0).running = some 0 ∧
      ∃ v, FetchesBundle (atIssue oneAdd ⟨0, 0, 0⟩) v ⟨0, 0, 0⟩ oneHeader [(.s, 0x20011450)] ∧ v.saveDue ⟨0, 0, 0⟩ = false ∧
        v.boundary ⟨0, 0, 0⟩ false = none := by
  have h1 : given ((atIssue oneAdd ⟨0, 0, 0⟩).fetchBytes ⟨0, 0, 0⟩ (atIssue oneAdd ⟨0, 0, 0⟩).cx.arch.pc 4)
      (fun bs => decide ((wordsOf bs).head? = some 0xF0400000)) = true := by decide +kernel
  obtain ⟨hd, e1, p1⟩ := given_split h1
  have h2 : given (((atIssue oneAdd ⟨0, 0, 0⟩).fetchBytes ⟨0, 0, 0⟩ (atIssue oneAdd ⟨0, 0, 0⟩).cx.arch.pc 4).1.fetchBytes ⟨0, 0, 0⟩
      (atIssue oneAdd ⟨0, 0, 0⟩).cx.arch.pc oneHeader.size) (fun bs => decide (decodeBundle bs = some (oneHeader, [(.s, 0x20011450)]))) = true := by
    decide +kernel
  obtain ⟨bs, e2, p2⟩ := given_split h2
  refine ⟨by decide +kernel, .inl ⟨[], by decide +kernel, by decide +kernel⟩, .inr ⟨by decide +kernel, by decide +kernel, by decide +kernel, rfl⟩,
    by decide +kernel, _, ⟨hd, 0xF0400000, oneHeader, _, bs, e1, of_decide_eq_true p1, by decide +kernel, by decide +kernel, by decide +kernel, e2, of_decide_eq_true p2⟩, by decide +kernel, ?_⟩
  exact Option.isNone_iff_eq_none.mp (by decide +kernel)

theorem endFence_of {s : State} (h : s.cx.fencing = false) : s.endFence s.cur = s := by
  have h' : (s.ctxOf s.cur).fencing = false := h
  simp [State.endFence, h']

theorem oneOperation_of {s : State} {h : Header} {sl : Slot} {w : BitVec 32} {i : Instr}
    (e : decodeRun sl.unit w = some i ∧ s.cx.arch.stickyM = none ∧ s.cx.arch.stickyC = none ∧ s.cx.markDue = false ∧ s.taken = none ∧
      needsMark s.cx h [⟨sl, i, false⟩] = false ∧ wantsCommit exec (liveOps s.cx [⟨sl, i, false⟩]) s = false ∧ s.cx.latches = [] ∧
      s.cx.fencing = false ∧ s.cx.publishing = false)
    (n : (s.holdUp [⟨sl, i, false⟩]).isNone = true) : OneOperation s h sl w i := by
  obtain ⟨e1, e2, e3, e4, e5, e6, e7, e8, e9, e10⟩ := e
  exact ⟨e1, e2, e3, e4, e5, e6, e7, endFence_of e9, e8, .inl e10, Option.isNone_iff_eq_none.mp n⟩

/-- BundleRunsOperation: a bundle whose guard is true, and one whose guard is false; repeats due, none, and a transfer. -/
theorem witness_BundleRunsOperation :
    OneOperation oneAdd oneHeader .s 0x20011450 (.addi 0 5 5 1) ∧ oneAdd.rP 0 = true ∧
      (∃ t, exec (.addi 0 5 5 1) (oneAdd.openBundle oneHeader [(.s, 0x20011450)] [⟨.s, .addi 0 5 5 1, false⟩]) = .next t ∧
        t.stopped = false ∧ t.taken = none) ∧
      OneOperation oneAdd oneHeader .s 0x20011453 (.addi 3 5 5 1) ∧ oneAdd.rP 3 = false := by
  exact ⟨oneOperation_of (by decide +kernel) (by decide +kernel), by decide +kernel, ⟨_, rfl, by decide +kernel, by decide +kernel⟩,
    oneOperation_of (by decide +kernel) (by decide +kernel), by decide +kernel⟩
/-- One that takes a trap after it, and one that a trap stops. -/
theorem witness_BundleRunsOperation_traps :
    (∃ w, OneOperation oneAdd oneHeader .s w (.trap 0 5) ∧
      ∃ t, exec (.trap 0 5) (oneAdd.openBundle oneHeader [(.s, w)] [⟨.s, .trap 0 5, false⟩]) = .next t ∧ t.stopped = false ∧ t.taken ≠ none) ∧
      ∃ w, OneOperation oneAdd oneHeader .m w (.ld 0 5 3 0 0 0 3 0) ∧
        ∃ t, exec (.ld 0 5 3 0 0 0 3 0) (oneAdd.openBundle oneHeader [(.m, w)] [⟨.m, .ld 0 5 3 0 0 0 3 0, false⟩]) = .next t ∧ t.stopped = true := by
  exact ⟨⟨(encode (.trap 0 5)).getD 0, oneOperation_of (by decide +kernel) (by decide +kernel), _, rfl, by decide +kernel, by decide +kernel⟩,
    ⟨(encode (.ld 0 5 3 0 0 0 3 0)).getD 0, oneOperation_of (by decide +kernel) (by decide +kernel), _, rfl, by decide +kernel⟩⟩

/-- DecodeExamples has no premise. EncodingRoundTrip, WordHasOneMeaning: a well-formed operation of each unit. -/
theorem witness_EncodingRoundTrip :
    ([.addi 0 5 5 1, .ld 0 7 3 2 0 1 2 4, .tadd 0 3 4 5 2 1 1 1, .xwait 0 9, .recv 0 7 5 4 1 22] : List Instr).all
      (fun i => i.wf && i.codeUnit.isSome && (encode i).isSome) = true := by decide +kernel
theorem witness_WordHasOneMeaning :
    decodeSlot .s 0x20011450 = some (.addi 0 5 5 1) ∧ decodeSlot .m 0x20011450 ≠ some (.addi 0 5 5 1) := by decide +kernel

/-- StepKeepsMemory: a state whose memories have their form, and its step. -/
theorem witness_StepKeepsMemory : oneAdd.MemOk ∧ ∃ t, step oneAdd = .next t := ⟨by unfold State.MemOk; decide +kernel, _, rfl⟩

/-- TrapEntry: traps of either kind with a task, a conflict and none; a bundle that traps before it issues. -/
theorem witness_TrapEntry :
    let id : CtxId := ⟨0, 0, 0⟩
    let t := aTask .resident
    let s := (tasked t).updCtx id fun c => { c with task := some 3, status := .running }
    let bad := s.updCtx id fun c => { c with confT := 1 }
    (NothingOut s id ∧ (s.ctxOf id).streamFault = none ∧ (s.ctxOf id).rollDue = false ∧ (s.ctxOf id).held = [] ∧
      ((s.latch id).ctxOf id).conflict = false) ∧
      (NothingOut bad id ∧ (bad.ctxOf id).streamFault = none ∧ (bad.ctxOf id).rollDue = false ∧ ((bad.latch id).ctxOf id).conflict = true) ∧
      (s.ctxOf id).task = some 3 ∧ alookup 3 (s.die 0).tasks = some t :=
  ⟨⟨nothingOut_of (by decide +kernel), by decide +kernel⟩, ⟨nothingOut_of (by decide +kernel), by decide +kernel⟩, by decide +kernel⟩
/-- A strict bundle that reads s5 too early. -/
theorem witness_TrapEntry_early :
    let s := oneAdd.updCx fun c => { c with sbctl := 1, inflight := [⟨9, .s 5 1, 0⟩] }
    ∃ v : State, s.holdUp (issueOps s.cx oneHeader [(.s, 0x20011450)]) = some (v.trapI cSTALLCHK) ∧
      needsMark s.cx oneHeader (issueOps s.cx oneHeader [(.s, 0x20011450)]) = false ∧ s.cx.markDue = false ∧
      wantsCommit exec (liveOps s.cx (issueOps s.cx oneHeader [(.s, 0x20011450)])) s = false ∧ s.endFence s.cur = s ∧ s.cx.publishing = false := by
  have h (s : State) (ops : List Op) (x : Short) (h1 : ((liveOps s.cx ops).any fun o => o.instr.lasting) = false)
      (h2 : s.cx.fencing = false)
      (h3 : (liveOps s.cx ops).any (fun o => (Instr.reads s.cx.names o.instr).any s.cx.isPending) = false) (h4 : bit s.cx.sbctl 0 = true)
      (h5 : s.cx.firstShort s.myCore s.cycle ops = some x) : s.holdUp ops = some ((s.updCx fun c => c.recordShort x).trapI cSTALLCHK) := by
    simp only [State.holdUp, h1, h2, h3, h4, h5, Bool.false_and, Bool.false_eq_true, if_false, if_true]
  refine ⟨_, h _ _ ⟨0, 0, 5, 9⟩ (by decide +kernel) (by decide +kernel) (by decide +kernel) (by decide +kernel) ?_, by decide +kernel, by decide +kernel,
    by decide +kernel, endFence_of (by decide +kernel), by decide +kernel⟩
  decide +kernel

/-- ControlRegisters: counts within their fields. -/
theorem witness_ControlRegisters :
    State.reset.cx.quantum ≤ 4096 ∧ State.reset.cx.reports.length ≤ 64 ∧ State.reset.cx.notices.length ≤ 8 := by decide +kernel

/-- ResultDelivered: nothing under way, and both sides of the latency. -/
theorem witness_ResultDelivered :
    State.reset.cx.inflight = [] ∧ State.reset.cx.pend = [] ∧ 2 < State.reset.cycle + 3 ∧ State.reset.cycle + 3 ≤ 3 := by decide +kernel

/-- RegisterOnlyFrame: a completing operation of the S slot and one of the vector slots. -/
theorem witness_RegisterOnlyFrame :
    (RegisterOnly (.addi 0 5 5 1) = true ∧ ∃ t, exec (.addi 0 5 5 1) State.reset = .next t ∧ t.taken = none) ∧
      (RegisterOnly (.tadd 0 3 4 5 2 1 1 1) = true ∧ ∃ t, exec (.tadd 0 3 4 5 2 1 1 1) allTiles = .next t ∧ t.taken = none) :=
  ⟨⟨by decide, _, rfl, by decide +kernel⟩, by decide, _, rfl, by decide +kernel⟩

/-- LoadStoreFrame: a cached page that may be stored to, and accesses through it that complete. -/
theorem witness_LoadStoreFrame :
    accesses.cx.held = [] ∧ PagesCached accesses true (ea accesses 1 0 0 256) 256 ∧
      (∃ t, exec (.ld 0 5 1 0 0 0 3 0) accesses = .next t ∧ t.taken = none) ∧ ∃ t, exec (.st 0 5 1 0 0 3 0) accesses = .next t ∧ t.taken = none := by
  refine ⟨by decide +kernel, fun k hk => ?_, ⟨_, rfl, by decide +kernel⟩, ⟨_, rfl, by decide +kernel⟩⟩
  have h : ∀ k : Fin 256, (match accesses.cachedLeaf (accesses.cx.req accesses.cur .store false true) (ea accesses 1 0 0 256 + BitVec.ofNat 64 k.val) with
    | some (l, _) => l.getLsbD 8 | none => false) = true := by decide +kernel
  have g := h ⟨k, hk⟩
  show ∃ l big, accesses.cachedLeaf (accesses.cx.req accesses.cur .store false true) _ = some (l, big) ∧ _
  revert g
  cases accesses.cachedLeaf (accesses.cx.req accesses.cur .store false true) (ea accesses 1 0 0 256 + BitVec.ofNat 64 k) with
  | none => simp
  | some x => exact fun g => ⟨x.1, x.2, rfl, fun _ => g⟩

end Sys2Proof.Tests
end

/-! Register writes from outside (01 R7, R36, 02 R65, 04 R103, R104, 07 R160): what each write leaves, accepted and
refused, and from these O31. -/

namespace Sys2Proof.Machine

/-! ### Updates that agree on the part they update -/

theorem vupd_congr {α : Type} {n : Nat} {v : Vector α n} {i : Fin n} {f g : α → α} (h : f (vget v i) = g (vget v i)) :
    vupd v i f = vupd v i g := by
  rw [vupd, vupd, h]

theorem State.updDie_congr {s : State} {d : Fin 8} {f g : Die → Die} (h : f (s.die d) = g (s.die d)) :
    s.updDie d f = s.updDie d g :=
  congrArg (fun v => { s with dies := v }) (vupd_congr h)

theorem State.updCore_congr {s : State} {d : Fin 8} {c : Fin 16} {f g : Core → Core}
    (h : f (s.core d c) = g (s.core d c)) : s.updCore d c f = s.updCore d c g :=
  State.updDie_congr (congrArg (fun v => { s.die d with cores := v }) (vupd_congr h))

theorem State.updJoist_congr {s : State} {f g : Joist → Joist} (h : f s.joist = g s.joist) : s.updJoist f = s.updJoist g :=
  congrArg (fun j => { s with joist := j }) h

/-! ### Fields of a written word -/

theorem bit_zero_iff {w : Nat} (x : BitVec w) : bit x 0 = true ↔ x.toNat % 2 = 1 := by
  simp [bit, BitVec.getLsbD, Nat.testBit_zero]

theorem toNat_extractLsb'_eq_bitsOf {w : Nat} (x : BitVec w) (i n : Nat) : (x.extractLsb' i n).toNat = bitsOf x i n := by
  rw [BitVec.extractLsb'_toNat, Nat.shiftRight_eq_div_pow, bitsOf]

/-- A mask that keeps a field whole does not change it. -/
theorem bitsOf_and_of_keeps {w : Nat} (x mask : BitVec w) {i n : Nat} (h : mask.extractLsb' i n = BitVec.allOnes n) :
    bitsOf (x &&& mask) i n = bitsOf x i n := by
  rw [← toNat_extractLsb'_eq_bitsOf, BitVec.extractLsb'_and, h, BitVec.and_allOnes, toNat_extractLsb'_eq_bitsOf]

theorem bit_and_of_keeps {w : Nat} (x mask : BitVec w) {i : Nat} (h : bit mask i = true) : bit (x &&& mask) i = bit x i := by
  rw [bit, BitVec.getLsbD_and, ← bit, ← bit, h, Bool.and_true]

theorem bitsOf_and_pbcfgMask_count (v : W64) : bitsOf (v &&& pbcfgMask) 4 13 = bitsOf v 4 13 :=
  bitsOf_and_of_keeps v pbcfgMask (by decide)

theorem bit_and_pbcfgMask_enable (v : W64) : bit (v &&& pbcfgMask) 0 = bit v 0 :=
  bit_and_of_keeps v pbcfgMask (by decide)

/-! ### The regions that DTCLR clears -/

/-- A difference of two powers of 2 has the bits between them. -/
theorem testBit_two_pow_sub_two_pow {i j : Nat} (h : i ≤ j) (r : Nat) :
    (2 ^ j - 2 ^ i).testBit r = decide (i ≤ r ∧ r < j) := by
  obtain ⟨n, rfl⟩ := Nat.exists_eq_add_of_le h
  have hf : 2 ^ (i + n) - 2 ^ i = 2 ^ i * (2 ^ n - 1) := by rw [Nat.mul_sub, Nat.pow_add, Nat.mul_one]
  rw [hf, Nat.testBit_two_pow_mul, Nat.testBit_two_pow_sub_one, ← Bool.decide_and, decide_eq_decide]
  omega

theorem touchDirty_clear_dirty (k : Core) (now r : Nat) (clear : BitVec 16384) (hr : r < 16384) :
    (k.touchDirty now 0 clear).dirty.getLsbD r =
      ((decide (k.dirtyAt = now) && k.dirtyNew.getLsbD r) || (k.dirty.getLsbD r && !clear.getLsbD r)) := by
  by_cases h : k.dirtyAt = now <;> simp [Core.touchDirty, h, hr, Bool.or_comm]

theorem touchDirty_clear_dirtyNew (k : Core) (now r : Nat) (clear : BitVec 16384) :
    (k.touchDirty now 0 clear).dirtyNew.getLsbD r = (decide (k.dirtyAt = now) && k.dirtyNew.getLsbD r) := by
  by_cases h : k.dirtyAt = now <;> simp [Core.touchDirty, h]

end Sys2Proof.Machine

namespace Sys2Proof.Claims
open Machine

/-! ### The fields and sizes of the statements are the model's -/

theorem field_eq_ofNat_part {w : Nat} (x : BitVec w) (i n : Nat) : field x i n = BitVec.ofNat n (part x.toNat i n) := by
  apply BitVec.eq_of_toNat_eq
  simp [field, part]

theorem bit_eq_decide_part {w : Nat} (x : BitVec w) (i : Nat) : bit x i = decide (part x.toNat i 1 = 1) := by
  rw [bit, BitVec.getLsbD, Nat.testBit_eq_decide_div_mod_eq, part, Nat.pow_one]

theorem aligned48_iff (a : Nat) (wide : Bool) : aligned48 a wide = true ↔ Aligned a wide := by
  simp [aligned48, Aligned]

theorem pbFits_iff (d : Fin 8) (base n : Nat) : pbFits d base n = true ↔ TableFits d base n := by
  simp [pbFits, TableFits]

/-! ### An event that updates one die, or the Joist -/

theorem gives_updDie {s : State} {i : Instr} {d : Fin 8} {f g : Die → Die} (he : exec i s = .next (s.updDie d f))
    (h : f (s.die d) = g (s.die d)) : Gives s i (s.updDie d g) :=
  he.trans (congrArg Host.Outcome.next (State.updDie_congr h))

theorem gives_updJoist {s : State} {i : Instr} {f g : Joist → Joist} (he : exec i s = .next (s.updJoist f))
    (h : f s.joist = g s.joist) : Gives s i (s.updJoist g) :=
  he.trans (congrArg Host.Outcome.next (State.updJoist_congr h))

/-! ### Control space (01 R7, R30) -/

theorem gives_registerWrite_accepted {s : State} {d : Fin 8} {pa : BitVec 52} {val : W64} {wide : Bool}
    (hr : region pa.toNat = .ctrl) (ha : Aligned pa.toNat wide) :
    Gives s (.registerWrite ⟨d, pa⟩ val wide)
      ((if (pa.toNat - ctrlBase) / 0x10000000 = 8 then s.joistTurn d else s).ctrlWrite (pa.toNat - ctrlBase) wide val) :=
  congrArg Host.Outcome.next (if_pos ⟨hr, (aligned48_iff _ _).2 ha⟩)

theorem gives_registerWrite_ofDie {s : State} {d : Fin 8} {pa : BitVec 52} {val : W64} {wide : Bool}
    (hr : region pa.toNat = .ctrl) (ha : Aligned pa.toNat wide) (h : (pa.toNat - ctrlBase) / 0x10000000 ≠ 8) :
    Gives s (.registerWrite ⟨d, pa⟩ val wide) (s.ctrlWrite (pa.toNat - ctrlBase) wide val) := by
  simpa only [if_neg h] using gives_registerWrite_accepted (s := s) (d := d) (val := val) hr ha

/-- The Joist takes its writes in turn (log 110). -/
theorem gives_registerWrite_ofJoist {s : State} {d : Fin 8} {pa : BitVec 52} {val : W64} {wide : Bool}
    (hr : region pa.toNat = .ctrl) (ha : Aligned pa.toNat wide) (h : (pa.toNat - ctrlBase) / 0x10000000 = 8) :
    Gives s (.registerWrite ⟨d, pa⟩ val wide) ((s.joistTurn d).ctrlWrite (pa.toNat - ctrlBase) wide val) := by
  simpa only [if_pos h] using gives_registerWrite_accepted (s := s) (d := d) (val := val) hr ha

theorem gives_registerWrite_ignored {s : State} {d : Fin 8} {pa : BitVec 52} {val : W64} {wide : Bool}
    (h : region pa.toNat ≠ .ctrl ∨ ¬Aligned pa.toNat wide) : Gives s (.registerWrite ⟨d, pa⟩ val wide) s :=
  congrArg Host.Outcome.next (if_neg (by rwa [aligned48_iff, not_and_or]))

/-! ### DIEID (01 R36) -/

theorem gives_dieidWrite_member {s : State} {val : W64} (h : part val.toNat 4 9 ≤ 319) :
    Gives s (.dieidWrite val) (s.updJoist fun j =>
      { j with member := BitVec.ofNat 9 (part val.toNat 4 9), mvalid := decide (part val.toNat 13 1 = 1) }) := by
  rw [← field_eq_ofNat_part, ← bit_eq_decide_part]
  exact gives_updJoist rfl (if_pos h)

theorem gives_dieidWrite_tooHigh {s : State} {val : W64} (h : 319 < part val.toNat 4 9) :
    Gives s (.dieidWrite val) (s.updJoist fun j => { j with mvalid := false }) :=
  gives_updJoist rfl (if_neg (Nat.not_le.2 h))

/-! ### DTCLR (02 R65) -/

/-- The regions that a value written to DTCLR names, as a mask of the map. -/
def dtclrMask (v : Nat) : BitVec 16384 :=
  BitVec.ofNat 16384 (2 ^ min 16384 (part v 0 14 + part v 16 15) - 2 ^ part v 0 14)

theorem dtclrMask_getLsbD (v : Nat) {r : Nat} (hr : r < 16384) :
    (dtclrMask v).getLsbD r = decide (part v 0 14 ≤ r ∧ r < part v 0 14 + part v 16 15) := by
  have hfirst : part v 0 14 < 16384 := Nat.mod_lt _ (by decide)
  rw [dtclrMask, BitVec.getLsbD_ofNat, testBit_two_pow_sub_two_pow (by omega), decide_eq_true hr, Bool.true_and,
    decide_eq_decide]
  omega

theorem gives_dtclr (s : State) (d : Fin 8) (c : Fin 16) (val : W64) :
    let k := (s.core d c).touchDirty s.cycle 0 (dtclrMask val.toNat)
    Gives s (.dtclr d c val) (s.updCore d c fun y =>
      { y with dirty := k.dirty, dirtyOld := k.dirtyOld, dirtyNew := k.dirtyNew, dirtyAt := s.cycle }) :=
  congrArg Host.Outcome.next (State.updCore_congr rfl)

/-! ### The block table (04 R103, R104) -/

theorem gives_kvcfgWrite_base {s : State} {d : Fin 8} (val : W64) (h : (s.die d).kvBusy = false) :
    Gives s (.kvcfgWrite d true val) (s.updDie d fun y => { y with kvbase := val &&& 0x000FFFFFFFFFFFF0 }) :=
  gives_updDie rfl (if_neg (Bool.eq_false_iff.1 h))

theorem gives_kvcfgWrite_cfg {s : State} {d : Fin 8} (val : W64) (h : (s.die d).kvBusy = false) :
    Gives s (.kvcfgWrite d false val) (s.updDie d fun y => { y with kvcfg := val &&& 0x0000003FFFFFFFF1 }) :=
  gives_updDie rfl (if_neg (Bool.eq_false_iff.1 h))

theorem gives_kvcfgWrite_refused {s : State} {d : Fin 8} (val : W64) (base : Bool) (h : (s.die d).kvBusy = true) :
    Gives s (.kvcfgWrite d base val) (s.updDie d fun y => { y with kvErr := true }) :=
  gives_updDie rfl (if_pos h)

theorem gives_kvfrposWrite_accepted {s : State} {d : Fin 8} {val : W64} {t : BitVec 32}
    (ht : t = BitVec.ofNat 32 (part val.toNat 32 32))
    (h : (t - (s.die d).kvfrHead).toNat ≤ ringSize (s.die d).kvcfg 28) :
    Gives s (.kvfrposWrite d val) (s.updDie d fun y =>
      { y with kvfrTail := t, kvEmptyEpisode := (s.die d).kvEmptyEpisode && decide (t = (s.die d).kvfrHead) }) := by
  rw [← field_eq_ofNat_part] at ht
  subst ht
  exact gives_updDie rfl (if_neg (Nat.not_lt.2 h))

theorem gives_kvfrposWrite_refused {s : State} {d : Fin 8} {val : W64} {t : BitVec 32}
    (ht : t = BitVec.ofNat 32 (part val.toNat 32 32))
    (h : ¬(t - (s.die d).kvfrHead).toNat ≤ ringSize (s.die d).kvcfg 28) :
    Gives s (.kvfrposWrite d val) (s.updDie d fun y => { y with kvErr := true }) := by
  rw [← field_eq_ofNat_part] at ht
  subst ht
  exact gives_updDie rfl (if_pos (Nat.lt_of_not_le h))

/-- The ring is full exactly at its size, which HEAD's check has bounded. -/
theorem gives_kvrlposWrite_accepted {s : State} {d : Fin 8} {val : W64} {t : BitVec 32}
    (ht : t = BitVec.ofNat 32 (part val.toNat 0 32))
    (h : ((s.die d).kvrlTail - t).toNat ≤ ringSize (s.die d).kvcfg 33) :
    Gives s (.kvrlposWrite d val) (s.updDie d fun y => { y with
      kvrlHead := t
      kvFullEpisode := (s.die d).kvFullEpisode && decide (((s.die d).kvrlTail - t).toNat = ringSize (s.die d).kvcfg 33) }) := by
  rw [← field_eq_ofNat_part] at ht
  subst ht
  have hfull : ((s.die d).kvrlTail - field val 0 32).toNat = ringSize (s.die d).kvcfg 33 ↔
      (s.die d).rlSize ≤ ((s.die d).kvrlTail - field val 0 32).toNat := ⟨fun e => e.ge, fun g => Nat.le_antisymm h g⟩
  simp only [hfull]
  exact gives_updDie rfl (if_neg (Nat.not_lt.2 h))

theorem gives_kvrlposWrite_refused {s : State} {d : Fin 8} {val : W64} {t : BitVec 32}
    (ht : t = BitVec.ofNat 32 (part val.toNat 0 32))
    (h : ringSize (s.die d).kvcfg 33 < ((s.die d).kvrlTail - t).toNat) :
    Gives s (.kvrlposWrite d val) (s.updDie d fun y => { y with kvErr := true }) := by
  rw [← field_eq_ofNat_part] at ht
  subst ht
  exact gives_updDie rfl (if_pos h)

/-! ### The table of publishable buffers (07 R160) -/

/-- What a value written to PBTAB must meet: EN is clear, and the table fits. -/
def PbtabOk (x : Die) (d : Fin 8) (v : Nat) : Prop :=
  x.pbcfg.toNat % 2 = 0 ∧ TableFits d (part v 6 46 * 64) (min 4096 (part x.pbcfg.toNat 4 13))

theorem pbtab_refused_iff (x : Die) (d : Fin 8) (val : W64) :
    (x.pbEn = true ∨ (!pbFits d (bitsOf val 6 46 * 64) x.npb) = true) ↔
      ¬PbtabOk x d val.toNat := by
  rw [PbtabOk, not_and_or, Nat.mod_two_not_eq_zero, ← pbFits_iff, Bool.not_eq_true', Bool.not_eq_true, Die.pbEn, bit_zero_iff]
  rfl

theorem gives_pbtabWrite_accepted {s : State} {d : Fin 8} {val : W64} (h : PbtabOk (s.die d) d val.toNat) :
    Gives s (.pbtabWrite d val) (s.updDie d fun y => { y with pbtab := val &&& 0x000FFFFFFFFFFFC0 }) :=
  gives_updDie rfl (if_neg (mt (pbtab_refused_iff _ d val).1 (not_not_intro h)))

theorem gives_pbtabWrite_refused {s : State} {d : Fin 8} {val : W64} (h : ¬PbtabOk (s.die d) d val.toNat) :
    Gives s (.pbtabWrite d val) (s.updDie d fun y => { y with pbErr := true }) :=
  gives_updDie rfl (if_pos ((pbtab_refused_iff _ d val).2 h))

/-- What a value written to PBCFG must meet: EN is not set while it is set, and a table that is enabled or counted fits. -/
def PbcfgOk (x : Die) (d : Fin 8) (v : Nat) : Prop :=
  ¬(x.pbcfg.toNat % 2 = 1 ∧ v % 2 = 1) ∧
    (v % 2 = 1 ∨ 0 < min 4096 (part v 4 13) → TableFits d (part x.pbtab.toNat 6 46 * 64) (min 4096 (part v 4 13)))

/-- The model reads EN and the count from the masked value; the mask keeps both. -/
theorem pbcfg_refused_iff (x : Die) (d : Fin 8) (val : W64) :
    ((x.pbEn = true ∧ bit (val &&& pbcfgMask) 0 = true) ∨
      ((bit (val &&& pbcfgMask) 0 = true ∨ 0 < Nat.min 4096 (bitsOf (val &&& pbcfgMask) 4 13)) ∧
        (!pbFits d (bitsOf x.pbtab 6 46 * 64) (Nat.min 4096 (bitsOf (val &&& pbcfgMask) 4 13))) = true)) ↔
      ¬PbcfgOk x d val.toNat := by
  rw [bitsOf_and_pbcfgMask_count, bit_and_pbcfgMask_enable, Die.pbEn, bit_zero_iff, bit_zero_iff, Bool.not_eq_true',
    ← Bool.not_eq_true, pbFits_iff, PbcfgOk, not_and_or, not_not, Classical.not_imp]
  rfl

theorem gives_pbcfgWrite_accepted {s : State} {d : Fin 8} {val : W64} (h : PbcfgOk (s.die d) d val.toNat) :
    Gives s (.pbcfgWrite d val) (s.updDie d fun y => { y with pbcfg := val &&& 0x000000000001FFF1 }) :=
  gives_updDie rfl (if_neg (mt (pbcfg_refused_iff _ d val).1 (not_not_intro h)))

theorem gives_pbcfgWrite_refused {s : State} {d : Fin 8} {val : W64} (h : ¬PbcfgOk (s.die d) d val.toNat) :
    Gives s (.pbcfgWrite d val) (s.updDie d fun y => { y with pbErr := true }) :=
  gives_updDie rfl (if_pos ((pbcfg_refused_iff _ d val).2 h))

/-- Settles O31: a write that its unit checks is accepted or refused by that check, register by register. -/
theorem registerEvents : Obligations.RegisterEvents := by
  intro s d c pa val wide
  refine ⟨fun hr ha => ⟨gives_registerWrite_ofDie hr ha, gives_registerWrite_ofJoist hr ha⟩, gives_registerWrite_ignored,
    gives_dieidWrite_member, gives_dieidWrite_tooHigh, ?dtclr,
    fun h => ⟨gives_kvcfgWrite_base val h, gives_kvcfgWrite_cfg val h⟩, fun h base => gives_kvcfgWrite_refused val base h,
    ⟨gives_kvfrposWrite_accepted rfl, gives_kvfrposWrite_refused rfl⟩,
    ⟨gives_kvrlposWrite_accepted rfl, gives_kvrlposWrite_refused rfl⟩,
    ⟨gives_pbtabWrite_accepted, gives_pbtabWrite_refused⟩, ⟨gives_pbcfgWrite_accepted, gives_pbcfgWrite_refused⟩⟩
  case dtclr =>
    refine ⟨_, _, _, gives_dtclr s d c val, fun r hr => ⟨touchDirty_clear_dirtyNew _ _ r _, ?_⟩, rfl⟩
    rw [touchDirty_clear_dirty _ _ r _ hr, dtclrMask_getLsbD _ hr]

end Sys2Proof.Claims

/-! Both memories keep their one form along every step (01 R16, 06 R136), and from this O53. -/

namespace Sys2Proof.Machine

/-- The dispatch of `exec`, arm by arm: each arm's own law is its case. -/
theorem exec_memOk (i : Instr) (s : State) (hok : s.MemOk) : ∀ t, exec i s = .next t → t.MemOk :=
  match i with
  | .add g d a b => execAdd_memOk g d a b s hok
  | .sub g d a b => execSub_memOk g d a b s hok
  | .mul g d a b => execMul_memOk g d a b s hok
  | .mulh g d a b f => execMulh_memOk g d a b f s hok
  | .div g d a b f => execDiv_memOk g d a b f s hok
  | .rem g d a b f => execRem_memOk g d a b f s hok
  | .and g d a b => execAnd_memOk g d a b s hok
  | .or g d a b => execOr_memOk g d a b s hok
  | .xor g d a b => execXor_memOk g d a b s hok
  | .andn g d a b => execAndn_memOk g d a b s hok
  | .shl g d a b => execShl_memOk g d a b s hok
  | .shr g d a b => execShr_memOk g d a b s hok
  | .sra g d a b => execSra_memOk g d a b s hok
  | .min g d a b f => execMin_memOk g d a b f s hok
  | .max g d a b f => execMax_memOk g d a b f s hok
  | .sel g d a b p => execSel_memOk g d a b p s hok
  | .addi g d a i1 => execAddi_memOk g d a i1 s hok
  | .andi g d a i1 => execAndi_memOk g d a i1 s hok
  | .ori g d a i1 => execOri_memOk g d a i1 s hok
  | .xori g d a i1 => execXori_memOk g d a i1 s hok
  | .shli g d a i1 => execShli_memOk g d a i1 s hok
  | .shri g d a i1 => execShri_memOk g d a i1 s hok
  | .srai g d a i1 => execSrai_memOk g d a i1 s hok
  | .movi g d i1 => execMovi_memOk g d i1 s hok
  | .movh g d i1 => execMovh_memOk g d i1 s hok
  | .clz g d a => execClz_memOk g d a s hok
  | .ctz g d a => execCtz_memOk g d a s hok
  | .popc g d a => execPopc_memOk g d a s hok
  | .sext g d a w => execSext_memOk g d a w s hok
  | .zext g d a w => execZext_memOk g d a w s hok
  | .cmp g p a b c => execCmp_memOk g p a b c s hok
  | .cmpi g p a i1 c => execCmpi_memOk g p a i1 c s hok
  | .lea g d a b h => execLea_memOk g d a b h s hok
  | .amov g d a => execAmov_memOk g d a s hok
  | .agetA g d a => execAgetA_memOk g d a s hok
  | .agetD g d a => execAgetD_memOk g d a s hok
  | .dset g d a => execDset_memOk g d a s hok
  | .aadd g d a i1 => execAadd_memOk g d a i1 s hok
  | .pand g d a b => execPand_memOk g d a b s hok
  | .por g d a b => execPor_memOk g d a b s hok
  | .pxor g d a b => execPxor_memOk g d a b s hok
  | .pnot g d a => execPnot_memOk g d a s hok
  | .pmov g d a => execPmov_memOk g d a s hok
  | .psetConst g d v => execPsetConst_memOk g d v s hok
  | .psetScalar g d a => execPsetScalar_memOk g d a s hok
  | .psetBit g d a n => execPsetBit_memOk g d a n s hok
  | .br g p n o => execBr_memOk g p n o s hok
  | .jmp g a o => execJmp_memOk g a o s hok
  | .call g l o => execCall_memOk g l o s hok
  | .ret g l => execRet_memOk g l s hok
  | .loop g n o => execLoop_memOk g n o s hok
  | .mloop g o => execMloop_memOk g o s hok
  | .lexit g n o => execLexit_memOk g n o s hok
  | .pin g => execPin_memOk g s hok
  | .unpin g => execUnpin_memOk g s hok
  | .yield g => execYield_memOk g s hok
  | .halt g => execHalt_memOk g s hok
  | .trap g k => execTrap_memOk g k s hok
  | .csrr g d k => execCsrr_memOk g d k s hok
  | .csrw g d k => execCsrw_memOk g d k s hok
  | .widf g d k => execWidf_memOk g d k s hok
  | .gtime g d => execGtime_memOk g d s hok
  | .realign g d => execRealign_memOk g d s hok
  | .tshapeImm g t r c f => execTshapeImm_memOk g t r c f s hok
  | .tshapeReg g t n => execTshapeReg_memOk g t n s hok
  | .tvalid g t r c => execTvalid_memOk g t r c s hok
  | .ftsetAbs g d n => execFtsetAbs_memOk g d n s hok
  | .ftsetCur g d n => execFtsetCur_memOk g d n s hok
  | .fbaseImm g n => execFbaseImm_memOk g n s hok
  | .fbaseReg g d => execFbaseReg_memOk g d s hok
  | .pkset g d => execPkset_memOk g d s hok
  | .pksetKey g k r w => execPksetKey_memOk g k r w s hok
  | .xpset g d n => execXpset_memOk g d n s hok
  | .beat g => execBeat_memOk g s hok
  | .uiret g => execUiret_memOk g s hok
  | .ld g d r m f s1 z x => execLd_memOk g d r m f s1 z x s hok
  | .st g d r m f z x => execSt_memOk g d r m f z x s hok
  | .lld g d r m f x => execLld_memOk g d r m f x s hok
  | .lst g d r m f x => execLst_memOk g d r m f x s hok
  | .pref g r m z x => execPref_memOk g r m z x s hok
  | .tld g t q r m s1 f => execTld_memOk g t q r m s1 f s hok
  | .tst g t q r m s1 f => execTst_memOk g t q r m s1 f s hok
  | .tldg g t q r m s1 f => execTldg_memOk g t q r m s1 f s hok
  | .tsts g t q r m s1 f => execTsts_memOk g t q r m s1 f s hok
  | .kvld g t q r s1 c => execKvld_memOk g t q r s1 c s hok
  | .kvapp g t r s1 => execKvapp_memOk g t r s1 s hok
  | .kvfree g r s1 => execKvfree_memOk g r s1 s hok
  | .amo g d r f b z o => execAmo_memOk g d r f b z o s hok
  | .cas g d r f b z => execCas_memOk g d r f b z s hok
  | .famo g d r f b o => execFamo_memOk g d r f b o s hok
  | .red g r f b z o => execRed_memOk g r f b z o s hok
  | .fred g r f b o => execFred_memOk g r f b o s hok
  | .redb g r f b z o q => execRedb_memOk g r f b z o q s hok
  | .fredb g r f b o q => execFredb_memOk g r f b o q s hok
  | .fence g k s1 => execFence_memOk g k s1 s hok
  | .barinit g r b => execBarinit_memOk g r b s hok
  | .arrive g d r => execArrive_memOk g d r s hok
  | .bwait g d r => execBwait_memOk g d r s hok
  | .btwait g d r b => execBtwait_memOk g d r b s hok
  | .pub g d r => execPub_memOk g d r s hok
  | .tadd g d a b c r s1 m => execTadd_memOk g d a b c r s1 m s hok
  | .tsub g d a b c r s1 m => execTsub_memOk g d a b c r s1 m s hok
  | .tmul g d a b c r s1 m => execTmul_memOk g d a b c r s1 m s hok
  | .tmin g d a b c r s1 m => execTmin_memOk g d a b c r s1 m s hok
  | .tmax g d a b c r s1 m => execTmax_memOk g d a b c r s1 m s hok
  | .tfma g d a b c r s1 => execTfma_memOk g d a b c r s1 s hok
  | .tfms g d a b c r s1 => execTfms_memOk g d a b c r s1 s hok
  | .tabs g d a c r s1 m => execTabs_memOk g d a c r s1 m s hok
  | .tneg g d a c r s1 m => execTneg_memOk g d a c r s1 m s hok
  | .tcpy g d a c m => execTcpy_memOk g d a c m s hok
  | .tscale g d a b c r s1 m => execTscale_memOk g d a b c r s1 m s hok
  | .tclamp g d a b c r s1 => execTclamp_memOk g d a b c r s1 s hok
  | .tcmp g d a b c k m => execTcmp_memOk g d a b c k m s hok
  | .tsel g d a b c => execTsel_memOk g d a b c s hok
  | .tcvt g d a c r s1 m => execTcvt_memOk g d a c r s1 m s hok
  | .tbcast g d a c r s1 m => execTbcast_memOk g d a c r s1 m s hok
  | .tiadd g d a b s1 u k m => execTiadd_memOk g d a b s1 u k m s hok
  | .tisub g d a b s1 u k m => execTisub_memOk g d a b s1 u k m s hok
  | .timul g d a b s1 u k m => execTimul_memOk g d a b s1 u k m s hok
  | .tand g d a b u k m => execTand_memOk g d a b u k m s hok
  | .tor g d a b u k m => execTor_memOk g d a b u k m s hok
  | .txor g d a b u k m => execTxor_memOk g d a b u k m s hok
  | .tshl g d a b u k m => execTshl_memOk g d a b u k m s hok
  | .tshr g d a b u k m => execTshr_memOk g d a b u k m s hok
  | .trget g t v s1 i1 => execTrget_memOk g t v s1 i1 s hok
  | .trput g t v s1 i1 => execTrput_memOk g t v s1 i1 s hok
  | .tcget g t v s1 i1 => execTcget_memOk g t v s1 i1 s hok
  | .tcput g t v s1 i1 => execTcput_memOk g t v s1 i1 s hok
  | .ttr g t a => execTtr_memOk g t a s hok
  | .tbrow g t v => execTbrow_memOk g t v s hok
  | .tbcol g t v => execTbcol_memOk g t v s hok
  | .tzero g t s1 => execTzero_memOk g t s1 s hok
  | .tredr g d a k o r s1 m => execTredr_memOk g d a k o r s1 m s hok
  | .tredc g d a k o r s1 m => execTredc_memOk g d a k o r s1 m s hok
  | .tred g d a k o r s1 m => execTred_memOk g d a k o r s1 m s hok
  | .tscan g d a k o r s1 m => execTscan_memOk g d a k o r s1 m s hok
  | .tdot g d a b r s1 x => execTdot_memOk g d a b r s1 x s hok
  | .tdots g d a b c r s1 x => execTdots_memOk g d a b c r s1 x s hok
  | .tsprs g d a b n => execTsprs_memOk g d a b n s hok
  | .trcpa g d a c r s1 m => execTrcpa_memOk g d a c r s1 m s hok
  | .trsqa g d a c r s1 m => execTrsqa_memOk g d a c r s1 m s hok
  | .trcpr g d a b c r s1 m => execTrcpr_memOk g d a b c r s1 m s hok
  | .trsqr g d a b c r s1 m => execTrsqr_memOk g d a b c r s1 m s hok
  | .texp2 g d a c r s1 m => execTexp2_memOk g d a c r s1 m s hok
  | .tlog2 g d a c r s1 m => execTlog2_memOk g d a c r s1 m s hok
  | .ttanh g d a c r s1 m => execTtanh_memOk g d a c r s1 m s hok
  | .tsigm g d a c r s1 m => execTsigm_memOk g d a c r s1 m s hok
  | .twelf g d a c r s1 m => execTwelf_memOk g d a c r s1 m s hok
  | .twmrg g d a b c r s1 m => execTwmrg_memOk g d a b c r s1 m s hok
  | .kand g d a b => execKand_memOk g d a b s hok
  | .kor g d a b => execKor_memOk g d a b s hok
  | .kxor g d a b => execKxor_memOk g d a b s hok
  | .knot g d a => execKnot_memOk g d a s hok
  | .kcnt g a d => execKcnt_memOk g a d s hok
  | .xdot g a b s1 t c k d => execXdot_memOk g a b s1 t c k d s hok
  | .xdots g a b s1 t c k d n => execXdots_memOk g a b s1 t c k d n s hok
  | .xbcast g a b s1 t => execXbcast_memOk g a b s1 t s hok
  | .xrep g s1 w => execXrep_memOk g s1 w s hok
  | .xrange g a s1 => execXrange_memOk g a s1 s hok
  | .xcal g => execXcal_memOk g s hok
  | .xdesk g l s1 => execXdesk_memOk g l s1 s hok
  | .xwait g s1 => execXwait_memOk g s1 s hok
  | .xprog g s1 => execXprog_memOk g s1 s hok
  | .xprogClear g => execXprogClear_memOk g s hok
  | .board g d s1 t => execBoard_memOk g d s1 t s hok
  | .unboard g d s1 => execUnboard_memOk g d s1 s hok
  | .rpos g d => execRpos_memOk g d s hok
  | .rposStat g d s1 => execRposStat_memOk g d s1 s hok
  | .rposId g d s1 => execRposId_memOk g d s1 s hok
  | .cpy g a b s1 d p => execCpy_memOk g a b s1 d p s hok
  | .cpy2 g a b s1 d p => execCpy2_memOk g a b s1 d p s hok
  | .gath g a b s1 d p => execGath_memOk g a b s1 d p s hok
  | .scat g a b s1 d p => execScat_memOk g a b s1 d p s hok
  | .cpyp g a b s1 d p => execCpyp_memOk g a b s1 d p s hok
  | .kvmig g a s1 d => execKvmig_memOk g a s1 d s hok
  | .cwait g s1 d => execCwait_memOk g s1 d s hok
  | .cwaitAll g d => execCwaitAll_memOk g d s hok
  | .cnote g s1 d => execCnote_memOk g s1 d s hok
  | .cred g a b s1 d p => execCred_memOk g a b s1 d p s hok
  | .cbc g a b s1 d p => execCbc_memOk g a b s1 d p s hok
  | .cag g a b s1 d p => execCag_memOk g a b s1 d p s hok
  | .cbar g s1 d => execCbar_memOk g s1 d s hok
  | .send g v c r m s1 => execSend_memOk g v c r m s1 s hok
  | .recv g v c r m s1 => execRecv_memOk g v c r m s1 s hok
  | .recva g v c r m s1 => execRecva_memOk g v c r m s1 s hok
  | .recvm g v c r m s1 => execRecvm_memOk g v c r m s1 s hok
  | .lstat g v c s1 => execLstat_memOk g v c s1 s hok
  | .nop c m t r => execNop_memOk c m t r s hok
  | .registerWrite pa val wide => execRegisterWrite_memOk pa val wide s hok
  | .dieidWrite val => execDieidWrite_memOk val s hok
  | .dtclr d c val => execDtclr_memOk d c val s hok
  | .qkick d q val => execQkick_memOk d q val s hok
  | .qcfgWrite d q val => execQcfgWrite_memOk d q val s hok
  | .tlbinvPage d asid bcast => execTlbinvPage_memOk d asid bcast s hok
  | .tlbinvAsid d asid bcast => execTlbinvAsid_memOk d asid bcast s hok
  | .tlbinvAll d bcast => execTlbinvAll_memOk d bcast s hok
  | .tlbinvDone d => execTlbinvDone_memOk d s hok
  | .pageWalk id va => execPageWalk_memOk id va s hok
  | .codeScan id va => execCodeScan_memOk id va s hok
  | .loadDelivery id => execLoadDelivery_memOk id s hok
  | .piecePerform pa op => execPiecePerform_memOk pa op s hok
  | .pubPerform d idx kind latched => execPubPerform_memOk d idx kind latched s hok
  | .barrierArrival pa => execBarrierArrival_memOk pa s hok
  | .barrierPoll id => execBarrierPoll_memOk id s hok
  | .btwaitTimeout id => execBtwaitTimeout_memOk id s hok
  | .regionCommit id => execRegionCommit_memOk id s hok
  | .correctableError d place core => execCorrectableError_memOk d place core s hok
  | .freezeEnd d c => execFreezeEnd_memOk d c s hok
  | .scrubRead pa found => execScrubRead_memOk pa found s hok
  | .kvfrposWrite d val => execKvfrposWrite_memOk d val s hok
  | .kvrlposWrite d val => execKvrlposWrite_memOk d val s hok
  | .kvRequestDone id => execKvRequestDone_memOk id s hok
  | .kvmigComplete id h => execKvmigComplete_memOk id h s hok
  | .pbtabWrite d val => execPbtabWrite_memOk d val s hok
  | .pbcfgWrite d val => execPbcfgWrite_memOk d val s hok
  | .engineOperationComplete id h => execEngineOperationComplete_memOk id h s hok
  | .enginePieceFault id h => execEnginePieceFault_memOk id h s hok
  | .noticeEntry id => execNoticeEntry_memOk id s hok
  | .contextSwitch d c => execContextSwitch_memOk d c s hok
  | .quantumExpiry d c => execQuantumExpiry_memOk d c s hok
  | .pinmaxExpiry id => execPinmaxExpiry_memOk id s hok
  | .watchdog id => execWatchdog_memOk id s hok
  | .trapDelivery x => execTrapDelivery_memOk x s hok
  | .peerRefused id seq => execPeerRefused_memOk id seq s hok
  | .descriptorFetch d q => execDescriptorFetch_memOk d q s hok
  | .sequenceRetry d q => execSequenceRetry_memOk d q s hok
  | .dependencyPoll d q => execDependencyPoll_memOk d q s hok
  | .taskDispatch d => execTaskDispatch_memOk d s hok
  | .preemptionSave d => execPreemptionSave_memOk d s hok
  | .completionAction d t => execCompletionAction_memOk d t s hok
  | .suspend d t => execSuspend_memOk d t s hok
  | .resume d t => execResume_memOk d t s hok
  | .endTask d t => execEndTask_memOk d t s hok
  | .endq d q => execEndq_memOk d q s hok
  | .scfgWrite d val => execScfgWrite_memOk d val s hok
  | .ringTileArrival d wire => execRingTileArrival_memOk d wire s hok
  | .tileRepairDone d ok => execTileRepairDone_memOk d ok s hok
  | .segmentBoundary => execSegmentBoundary_memOk s hok
  | .dwellLimit d => execDwellLimit_memOk d s hok
  | .ringStart val => execRingStart_memOk val s hok
  | .ringStop val => execRingStop_memOk val s hok
  | .bscfgWrite d val => execBscfgWrite_memOk d val s hok
  | .laneLight l val => execLaneLight_memOk l val s hok
  | .laneUnlight l val => execLaneUnlight_memOk l val s hok
  | .modulatorWindowStart d => execModulatorWindowStart_memOk d s hok
  | .windowResult id => execWindowResult_memOk id s hok
  | .xcalComplete d c ok temp => execXcalComplete_memOk d c ok temp s hok
  | .combFailure x => execCombFailure_memOk x s hok
  | .combSwap k => execCombSwap_memOk k s hok
  | .combReturn k => execCombReturn_memOk k s hok
  | .combSwapComplete => execCombSwapComplete_memOk s hok
  | .alignmentComplete xs => execAlignmentComplete_memOk xs s hok
  | .skewMeasurement skew => execSkewMeasurement_memOk skew s hok
  | .portEnable q val => execPortEnable_memOk q val s hok
  | .portDisable q val => execPortDisable_memOk q val s hok
  | .linkTrained q keysOk fibre => execLinkTrained_memOk q keysOk fibre s hok
  | .telemetrySend q => execTelemetrySend_memOk q s hok
  | .telemetryFlit q srcm margins corr => execTelemetryFlit_memOk q srcm margins corr s hok
  | .flitReceive q f crcOk => execFlitReceive_memOk q f crcOk s hok
  | .channelFlitArrival d c ch seq stamp payload => execChannelFlitArrival_memOk d c ch seq stamp payload s hok
  | .peerRequest q f => execPeerRequest_memOk q f s hok
  | .peerResponse id seq data poison => execPeerResponse_memOk id seq data poison s hok
  | .acknowledgement q n => execAcknowledgement_memOk q n s hok
  | .ackTimeout q => execAckTimeout_memOk q s hok
  | .lossOfLight q lane => execLossOfLight_memOk q lane s hok
  | .gapNegotiation q offer => execGapNegotiation_memOk q offer s hok
  | .laneSwapGap q => execLaneSwapGap_memOk q s hok
  | .spareTrainingDone q ok => execSpareTrainingDone_memOk q ok s hok
  | .lightArbitration q => execLightArbitration_memOk q s hok
  | .reclaim q => execReclaim_memOk q s hok
  | .slotGuardExpiry id => execSlotGuardExpiry_memOk id s hok
  | .collectiveInstanceStart grp => execCollectiveInstanceStart_memOk grp s hok
  | .hostInboundWrite bar2 off data poisoned inStream =>
    execHostInboundWrite_memOk bar2 off data poisoned inStream s hok
  | .hostAtomicop bar2 off wide op inStream => execHostAtomicop_memOk bar2 off wide op inStream s hok
  | .attest d seq => execAttest_memOk d seq s hok
  | .extend d seq => execExtend_memOk d seq s hok
  | .cert d chunk seq => execCert_memOk d chunk seq s hok
  | .resetRelease sigOk verOk => execResetRelease_memOk sigOk verOk s hok
  | .selftestStageDone ok d unit detail => execSelftestStageDone_memOk ok d unit detail s hok
  | .pcieFundamentalReset => execPcieFundamentalReset_memOk s hok
  | .smbusReset => execSmbusReset_memOk s hok
  | .windowFirstSymbol id => execWindowFirstSymbol_memOk id s hok
  | .kvcfgWrite d base val => execKvcfgWrite_memOk d base val s hok
  | .combcfgWrite val => execCombcfgWrite_memOk val s hok
  | .combLocked k => execCombLocked_memOk k s hok
  | .laserPowerLoop power => execLaserPowerLoop_memOk power s hok
  | .ideKm enable stream => execIdeKm_memOk enable stream s hok

theorem turn_exec_memOk (s : State) (d : Fin 8) (c : Fin 16) (hok : s.MemOk) :
    ∀ t, State.turn exec s d c = .next t → t.MemOk :=
  State.turn_memOk exec (fun i s t hs => exec_memOk i s hs t) s d c hok

/-- A step is an event, a core's turn or a cycle; moving the agenda on leaves both memories as they are. -/
theorem step_memOk (s : State) (hok : s.MemOk) : ∀ t, step s = .next t → t.MemOk := by
  unfold step
  split
  next i rest _ => exact exec_memOk i { s with agenda := rest, taken := none } hok
  next d c rest _ => exact turn_exec_memOk { s with agenda := rest } d c hok
  next =>
    split
    next d c _ =>
      split
      next e _ => exact State.happen_memOk s e hok
      next => exact turn_exec_memOk s d c hok
    next =>
      split
      next e _ => exact State.happen_memOk s e hok
      next => exact fun t ht => Host.Outcome.next.inj ht ▸ State.tick_memOk s hok

end Sys2Proof.Machine

namespace Sys2Proof.Claims
open Machine

/-- Settles O53: every kind of step keeps both memories in their one form, so a step does. -/
theorem stepKeepsMemory : Obligations.StepKeepsMemory :=
  fun s t hok hst => step_memOk s hok t hst

end Sys2Proof.Claims

/-! Storage at its home (02 R53 to R62, 06 R136, 18 R433): what a piece reads and leaves there, the error that arises in
a unit, the counts of corrected errors, and the end of a freeze; from these O34. -/

namespace Sys2Proof.Machine

/-! ### Numbers in bytes -/

theorem leNat_append_singleton (bs : List Byte) (b : Byte) :
    leNat (bs ++ [b]) = leNat bs + b.toNat * 256 ^ bs.length := by
  induction bs with
  | nil => simp [leNat]
  | cons c bs ih =>
    simp only [List.cons_append, leNat, ih, List.length_cons, Nat.pow_succ]
    ring

theorem leNat_lt (bs : List Byte) : leNat bs < 256 ^ bs.length := by
  induction bs with
  | nil => simp [leNat]
  | cons b bs ih =>
    have hb : b.toNat < 256 := b.isLt
    simp only [leNat, List.length_cons, Nat.pow_succ]
    omega

theorem leNat_map_range (f : Nat → Byte) (n : Nat) :
    leNat ((List.range n).map f) = (List.range n).foldl (fun v k => v + (f k).toNat * 256 ^ k) 0 := by
  induction n with
  | zero => rfl
  | succ n ih => simp [List.range_succ, leNat_append_singleton, ih]

theorem leNat_memRead_lt {m : Memory} (h : memWf m = true) (a n : Nat) : leNat (memRead m a n) < 2 ^ (8 * n) := by
  have hlt := leNat_lt (memRead m a n)
  rwa [memRead_eq h, List.length_map, List.length_range, ← memRead_eq h, show 256 = 2 ^ 8 from rfl, ← Nat.pow_mul] at hlt

/-! ### A field that another field's write leaves -/

theorem getLsbD_setField {w : Nat} (x : BitVec w) {lo n : Nat} (v : Nat) {i : Nat} (hi : i < w) :
    (setField x lo n v).getLsbD i = if lo ≤ i ∧ i < lo + n then v.testBit (i - lo) else x.getLsbD i := by
  simp only [setField, BitVec.getLsbD_or, BitVec.getLsbD_and, BitVec.getLsbD_not, BitVec.getLsbD_shiftLeft,
    BitVec.getLsbD_ofNat, Nat.testBit_two_pow_sub_one, Nat.testBit_mod_two_pow, hi, show i - lo < w by omega, decide_true,
    Bool.true_and]
  by_cases hlo : lo ≤ i
  · by_cases hn : i - lo < n
    · simp [hn, hlo, Nat.not_lt.2 hlo, show i < lo + n by omega]
    · simp [hn, show ¬i < lo + n by omega]
  · simp [hlo, Nat.not_le.1 hlo]

theorem bitsOf_setField_same {w : Nat} (x : BitVec w) {lo n v : Nat} (hw : lo + n ≤ w) (hv : v < 2 ^ n) :
    bitsOf (setField x lo n v) lo n = v := by
  apply Nat.eq_of_testBit_eq
  intro i
  rw [bitsOf, Nat.testBit_mod_two_pow, Nat.testBit_div_two_pow]
  by_cases hi : i < n
  · have := getLsbD_setField x v (lo := lo) (n := n) (i := i + lo) (by omega)
    rw [BitVec.getLsbD, if_pos (by omega), Nat.add_sub_cancel] at this
    simp [hi, this]
  · simp [hi, Nat.testBit_lt_two_pow (Nat.lt_of_lt_of_le hv (Nat.pow_le_pow_right (by decide) (Nat.not_lt.1 hi)))]

theorem bitsOf_setField_other {w : Nat} (x : BitVec w) {lo n j m : Nat} (v : Nat) (hw : j + m ≤ w)
    (h : lo + n ≤ j ∨ j + m ≤ lo) : bitsOf (setField x lo n v) j m = bitsOf x j m := by
  apply Nat.eq_of_testBit_eq
  intro i
  simp only [bitsOf, Nat.testBit_mod_two_pow, Nat.testBit_div_two_pow]
  by_cases hi : i < m
  · have := getLsbD_setField x v (lo := lo) (n := n) (i := i + j) (by omega)
    rw [if_neg (by omega)] at this
    exact congrArg _ this
  · simp [hi]

/-! ### Counts of corrected errors (02 R62) -/

theorem bumpEcc_eq (w : W64) (k : Nat) :
    bumpEcc w k = setField w (16 * k) 16 (min 65535 (bitsOf w (16 * k) 16 + 1)) := by
  have hf : (field w (16 * k) 16).toNat = bitsOf w (16 * k) 16 := by simp [field, bitsOf]
  have hlt : bitsOf w (16 * k) 16 < 65536 := Nat.mod_lt _ (by decide)
  rw [bumpEcc, satAdd, hf]
  split
  · rw [BitVec.toNat_ofNat]
    congr 1
    omega
  · rw [BitVec.toNat_allOnes]
    congr 1
    omega

theorem bitsOf_bumpEcc_same (w : W64) {k : Nat} (hk : k < 4) :
    bitsOf (bumpEcc w k) (16 * k) 16 = min 65535 (bitsOf w (16 * k) 16 + 1) := by
  rw [bumpEcc_eq, bitsOf_setField_same w (by omega) (by omega)]

theorem bitsOf_bumpEcc_other (w : W64) {j k : Nat} (hj : j < 4) (h : j ≠ k) :
    bitsOf (bumpEcc w k) (16 * j) 16 = bitsOf w (16 * j) 16 := by
  rw [bumpEcc_eq, bitsOf_setField_other w _ (by omega) (by omega)]

/-! ### The freeze that a corrected error brings (18 R433) -/

theorem Core.eccFreeze_frozenUntil (k : Core) (now g : Nat) :
    (k.eccFreeze now g).frozenUntil = max (max now k.frozenUntil) (now + 24) := by
  change max (max now k.frozenUntil) (now + (max (max now k.frozenUntil) (now + 24) - now)) = _
  omega

theorem State.core_updDie_of_cores (s : State) (d e : Fin 8) (c : Fin 16) {f : Die → Die}
    (h : ∀ x, (f x).cores = x.cores) : (s.updDie d f).core e c = s.core e c := by
  by_cases hd : d = e
  · subst hd
    rw [State.core, State.die_updDie, h, State.core]
  · rw [State.core, State.die_updDie_ne s hd, State.core]

theorem State.ecccnt_updCore (s : State) (d e : Fin 8) (c : Fin 16) (f : Core → Core) :
    ((s.updCore d c f).die e).ecccnt = (s.die e).ecccnt := by
  by_cases hd : d = e
  · subst hd
    rw [State.updCore, State.die_updDie]
  · rw [State.updCore, State.die_updDie_ne s hd]

/-! ### Poison of a unit (02 R56) -/

theorem mem_insertNat_self (x : Nat) (l : List Nat) : x ∈ insertNat x l := by
  induction l with
  | nil => simp [insertNat]
  | cons y l ih =>
    rw [insertNat]
    split
    · simp
    · split
      · simp [*]
      · exact List.mem_cons_of_mem y ih

/-- A cell and the first cell of its unit are of one kind of storage. -/
theorem unitSize_unit (a : Nat) : unitSize (a / unitSize a * unitSize a) = unitSize a := by
  by_cases h : a < 0x0000200000000
  · simp only [unitSize, if_pos h]
    exact if_pos (by omega)
  · simp only [unitSize, if_neg h]
    exact if_neg (by omega)

theorem State.poisoned_congr {s t : State} (h : t.poison = s.poison) (a n : Nat) : t.poisoned a n = s.poisoned a n := by
  rw [State.poisoned, State.poisoned, h]

theorem State.poisoned_scrubPoison (s : State) (a : Nat) : (s.scrubPoison a).poisoned a 1 = true := by
  have hpos : 0 < unitSize a := by
    unfold unitSize
    split <;> decide
  have hlow : a / unitSize a * unitSize a ≤ a := Nat.div_mul_le_self a _
  have hhigh : a < a / unitSize a * unitSize a + unitSize a := Nat.lt_div_mul_add hpos
  refine List.any_eq_true.2 ⟨_, mem_insertNat_self _ _, ?_⟩
  simp [unitSize_unit, Nat.lt_succ_of_le hlow, hhigh]

theorem State.badUnits_eq_nil {s : State} {a n : Nat} (h : s.poisoned a n = false) : s.badUnits a n = [] :=
  List.filter_eq_nil_iff.2 (by simpa [State.poisoned] using h)

theorem State.recordUnits_eq_self {s : State} {a n : Nat} (h : s.poisoned a n = false) (src : Nat) (die : Fin 8)
    (core : Nat) : s.recordUnits a n src die core = s := by
  rw [State.recordUnits, State.badUnits_eq_nil h, State.recordBad, List.foldl_nil]

/-! ### What an error record leaves (02 R58) -/

theorem State.sendMsix_mem (s : State) (n : Nat) : (s.sendMsix n).mem = s.mem := by
  unfold State.sendMsix
  dsimp only
  split <;> rfl

theorem State.sendMsix_poison (s : State) (n : Nat) : (s.sendMsix n).poison = s.poison := by
  unfold State.sendMsix
  dsimp only
  split <;> rfl

theorem State.sendMsix_die (s : State) (n : Nat) (d : Fin 8) : (s.sendMsix n).die d = s.die d := by
  unfold State.sendMsix
  dsimp only
  split <;> rfl

theorem State.postEvent_mem (s : State) (d : Fin 8) (code : Nat) (src : EvSrc) (w1 w2 : Nat) :
    (s.postEvent d code src w1 w2).mem = s.mem := by
  unfold State.postEvent
  dsimp only
  split
  · rfl
  · rw [State.sendMsix_mem]
    rfl

theorem State.postEvent_poison (s : State) (d : Fin 8) (code : Nat) (src : EvSrc) (w1 w2 : Nat) :
    (s.postEvent d code src w1 w2).poison = s.poison := by
  unfold State.postEvent
  dsimp only
  split
  · rfl
  · rw [State.sendMsix_poison]
    rfl

/-- Of its own die an event changes only the event queue, so not the error record. -/
theorem State.postEvent_record (s : State) (d : Fin 8) (code : Nat) (src : EvSrc) (w1 w2 : Nat) :
    ((s.postEvent d code src w1 w2).die d).merrV = (s.die d).merrV ∧
      ((s.postEvent d code src w1 w2).die d).merra = (s.die d).merra := by
  unfold State.postEvent
  dsimp only
  split
  · rw [State.die_updDie]
    exact ⟨rfl, rfl⟩
  · rw [State.sendMsix_die, State.die_updDie]
    exact ⟨rfl, rfl⟩

theorem State.recordError_mem (s : State) (d : Fin 8) (kind src core rdie addr : Nat) :
    (s.recordError d kind src core rdie addr).mem = s.mem := by
  rw [State.recordError, State.postEvent_mem, State.updDie_mem]

theorem State.recordError_poison (s : State) (d : Fin 8) (kind src core rdie addr : Nat) :
    (s.recordError d kind src core rdie addr).poison = s.poison := by
  rw [State.recordError, State.postEvent_poison, State.updDie_poison]

/-- A die that holds no record takes the error's. -/
theorem State.recordError_held {s : State} {d : Fin 8} (h : (s.die d).merrV = false) (kind src core rdie addr : Nat) :
    ((s.recordError d kind src core rdie addr).die d).merrV = true ∧
      ((s.recordError d kind src core rdie addr).die d).merra = BitVec.ofNat 64 (addr / 32 * 32) := by
  rw [State.recordError, (State.postEvent_record _ _ _ _ _ _).1, (State.postEvent_record _ _ _ _ _ _).2, State.die_updDie]
  simp [h, Die.holdError]

theorem State.recordAt_home (s : State) (a src core : Nat) : ∃ k,
    s.recordAt a src (homeDie a) core = s.recordError (homeDie a) (errKind a) src k 0 a :=
  ⟨_, if_pos rfl⟩

/-! ### An update at the home (07 R170) -/

theorem State.updateAt_of_some {s : State} {a n v : Nat} {f : Update} (hgood : s.poisoned a n = false)
    (hf : (f (leNat (s.devRead a n))).1 = some v) (die : Fin 8) (core src : Nat) :
    (s.updateAt a n f die core src).1 = s.devWrite a (leBytes n v) := by
  obtain ⟨fl, hfl⟩ : ∃ fl, f (leNat (s.devRead a n)) = (some v, fl) := ⟨_, Prod.ext hf rfl⟩
  simp [State.updateAt, hgood, hfl]

theorem State.updateAt_of_none {s : State} {a n : Nat} {f : Update} (hgood : s.poisoned a n = false)
    (hf : (f (leNat (s.devRead a n))).1 = none) (die : Fin 8) (core src : Nat) :
    (s.updateAt a n f die core src).1 = s := by
  obtain ⟨fl, hfl⟩ : ∃ fl, f (leNat (s.devRead a n)) = (none, fl) := ⟨_, Prod.ext hf rfl⟩
  simp [State.updateAt, hgood, hfl]

end Sys2Proof.Machine

namespace Sys2Proof.Claims
open Machine

/-! ### The pieces, bytes and new values of the statements are the model's -/

theorem isDev_iff (a : Nat) : isDev a = true ↔ region a = .spad ∨ region a = .hbm ∨ region a = .lpddr := by
  unfold isDev
  cases region a <;> simp

theorem isPiece_iff (a n : Nat) : isPiece a n = true ↔ OnePiece a n := by
  rw [isPiece, Bool.and_eq_true, isDev_iff, decide_eq_true_iff]
  exact Iff.rfl

theorem leBytes_eq_lowBytes (n v : Nat) : leBytes n v = lowBytes n v := by
  induction n generalizing v with
  | zero => rfl
  | succ n ih =>
    rw [leBytes, ih, lowBytes, lowBytes, List.range_succ_eq_map, List.map_cons, List.map_map]
    congr 1
    · simp [byteAt]
    · refine List.map_congr_left fun k _ => ?_
      simp [byteAt, Nat.pow_succ', Nat.div_div_eq_div_mul]

/-- The number that n bytes of the package's storage hold (R6). -/
def storedAt (s : State) (a n : Nat) : Nat :=
  (List.range n).foldl (fun v k => v + (memByte s.mem (a + k)).toNat * 256 ^ k) 0

theorem leNat_devRead {s : State} (h : s.MemOk) (a n : Nat) : leNat (s.devRead a n) = storedAt s a n := by
  rw [State.devRead, memRead_eq h.1, leNat_map_range, storedAt]

theorem storedAt_lt {s : State} (h : s.MemOk) (a n : Nat) : storedAt s a n < 2 ^ (8 * n) :=
  leNat_devRead h a n ▸ leNat_memRead_lt h.1 a n

theorem signedNat_eq_signedOf {w v : Nat} (h : v < 2 ^ w) : signedNat v w = signedOf w v := by
  rw [signedNat, signedOf, Nat.mod_eq_of_lt h]
  rcases w with _ | w
  · have : v = 0 := by simpa using h
    simp [this]
  · rw [Nat.pow_succ] at h ⊢
    have htop : v / 2 ^ w = 1 ↔ ¬2 * v < 2 ^ w * 2 := by
      rw [Nat.div_eq_iff (Nat.two_pow_pos w)]
      omega
    by_cases hlt : 2 * v < 2 ^ w * 2
    · simp [htop, hlt]
    · simp [htop, hlt, pow_succ]

/-- The model's new value meets R312, operation by operation. -/
theorem newValue_amoNew {n old x : Nat} (hold : old < 2 ^ (8 * n)) (hx : x < 2 ^ (8 * n)) :
    ∀ op, NewValue (8 * n) op old x (amoNew n op old x)
  | 0 => rfl
  | 1 => rfl
  | 2 => fun _ => Nat.testBit_and ..
  | 3 => fun _ => Nat.testBit_or ..
  | 4 => by
    simp only [NewValue, amoNew, signedNat_eq_signedOf hold, signedNat_eq_signedOf hx, decide_eq_true_eq]
    split <;> omega
  | 5 => by
    simp only [NewValue, amoNew, signedNat_eq_signedOf hold, signedNat_eq_signedOf hx, decide_eq_true_eq]
    split <;> omega
  | 6 => by
    change (min old x = old ∨ min old x = x) ∧ min old x ≤ old ∧ min old x ≤ x
    omega
  | _ + 7 => by
    change (max old x = old ∨ max old x = x) ∧ old ≤ max old x ∧ x ≤ max old x
    omega

/-! ### Pieces (06 R136) -/

theorem gives_piecePerform_write {s : State} {pa : BitVec 52} {bytes : List Byte} (h : OnePiece pa.toNat bytes.length) :
    Gives s (.piecePerform pa (.write bytes)) (s.devWrite pa.toNat bytes) :=
  congrArg Host.Outcome.next (if_pos ((isPiece_iff _ _).2 h))

theorem gives_piecePerform_read {s : State} {pa : BitVec 52} {n : Nat} (h : OnePiece pa.toNat n) :
    Gives s (.piecePerform pa (.read n))
      (s.recordUnits pa.toNat n 0 (homeDie pa.toNat) (homeCore pa.toNat).val) :=
  congrArg Host.Outcome.next (if_pos ((isPiece_iff _ _).2 h))

theorem gives_piecePerform_read_good {s : State} {pa : BitVec 52} {n : Nat} (h : OnePiece pa.toNat n)
    (hgood : s.poisoned pa.toNat n = false) : Gives s (.piecePerform pa (.read n)) s :=
  (gives_piecePerform_read h).trans (congrArg Host.Outcome.next (State.recordUnits_eq_self hgood _ _ _))

theorem leads_piecePerform_fail_dev {s : State} {pa : BitVec 52} (d : Fin 8)
    (h : region pa.toNat = .spad ∨ region pa.toNat = .hbm ∨ region pa.toNat = .lpddr) :
    Leads s (.piecePerform pa (.fail d)) fun t => t.poisoned pa.toNat 1 = true ∧ t.mem = s.mem ∧ t.dies = s.dies :=
  ⟨s.scrubPoison pa.toNat, congrArg Host.Outcome.next (if_pos ((isDev_iff _).2 h)), State.poisoned_scrubPoison s _, rfl, rfl⟩

theorem leads_piecePerform_fail_host {s : State} {pa : BitVec 52} (d : Fin 8) (h : region pa.toNat = .host) :
    Leads s (.piecePerform pa (.fail d)) fun t =>
      (d, pa.toNat / 64 * 64) ∈ t.hostBad ∧ t.poison = s.poison ∧ t.mem = s.mem ∧ t.dies = s.dies := by
  refine ⟨s.failCell d pa.toNat, rfl, ?_⟩
  have hdev : ¬isDev pa.toNat = true := by simp [isDev, h]
  rw [State.failCell, if_neg hdev]
  by_cases hbad : (d, pa.toNat / 64 * 64) ∈ s.hostBad
  · rw [if_neg (by simp [hbad])]
    exact ⟨hbad, rfl, rfl, rfl⟩
  · rw [if_pos ⟨h, by simpa using hbad⟩]
    exact ⟨List.mem_append_right _ (List.mem_singleton_self _), rfl, rfl, rfl⟩

/-! ### Read-modify-writes of good storage (06 R138, 13 R312) -/

section
variable {s : State} {pa : BitVec 52} {n : Nat}

/-- What an update of an aligned piece leaves: the model's new value where it has one. -/
theorem updatePiece_of_some {f : Update} {v : Nat} (hok : s.MemOk) (hp : OnePiece pa.toNat n) (ha : pa.toNat % n = 0)
    (hgood : s.poisoned pa.toNat n = false) (hf : (f (storedAt s pa.toNat n)).1 = some v) (die : Fin 8) (core : Nat) :
    (if isPiece pa.toNat n = true ∧ pa.toNat % n = 0 then (s.updateAt pa.toNat n f die core 4).1 else s) =
      s.devWrite pa.toNat (lowBytes n v) := by
  rw [if_pos ⟨(isPiece_iff _ _).2 hp, ha⟩, ← leBytes_eq_lowBytes]
  exact State.updateAt_of_some hgood (by rwa [leNat_devRead hok]) ..

theorem updatePiece_of_none {f : Update} (hok : s.MemOk) (hgood : s.poisoned pa.toNat n = false)
    (hf : (f (storedAt s pa.toNat n)).1 = none) (die : Fin 8) (core : Nat) :
    (if isPiece pa.toNat n = true ∧ pa.toNat % n = 0 then (s.updateAt pa.toNat n f die core 4).1 else s) = s :=
  ite_eq_right_iff.2 fun _ => State.updateAt_of_none hgood (by rwa [leNat_devRead hok]) ..

theorem gives_piecePerform_amo {w : Bool} {x : W64} (o : BitVec 3) (hn : n = if w then 8 else 4) (hok : s.MemOk)
    (hp : OnePiece pa.toNat n) (ha : pa.toNat % n = 0) (hgood : s.poisoned pa.toNat n = false) :
    ∃ v, NewValue (8 * n) o.toNat (storedAt s pa.toNat n) (x.toNat % 2 ^ (8 * n)) v ∧
      Gives s (.piecePerform pa (.amo w o x)) (s.devWrite pa.toNat (lowBytes n v)) := by
  refine ⟨_, newValue_amoNew (storedAt_lt hok _ _) (Nat.mod_lt _ (Nat.two_pow_pos _)) _, ?_⟩
  subst hn
  exact congrArg Host.Outcome.next (updatePiece_of_some hok hp ha hgood rfl ..)

theorem gives_piecePerform_cas {w : Bool} {cmp x : W64} (hn : n = if w then 8 else 4) (hok : s.MemOk)
    (hp : OnePiece pa.toNat n) (ha : pa.toNat % n = 0) (hgood : s.poisoned pa.toNat n = false) :
    Gives s (.piecePerform pa (.cas w cmp x))
      (if storedAt s pa.toNat n = cmp.toNat % 2 ^ (8 * n) then s.devWrite pa.toNat (lowBytes n (x.toNat % 2 ^ (8 * n)))
        else s) := by
  split
  · next heq =>
    subst hn
    exact congrArg Host.Outcome.next (updatePiece_of_some hok hp ha hgood (if_pos heq) ..)
  · next hne =>
    subst hn
    exact congrArg Host.Outcome.next (updatePiece_of_none hok hgood (if_neg hne) ..)

theorem gives_piecePerform_famo {o : BitVec 3} {y : BitVec 32} {v : Nat} (hok : s.MemOk) (hp : OnePiece pa.toNat 4)
    (ha : pa.toNat % 4 = 0) (hgood : s.poisoned pa.toNat 4 = false)
    (hv : (famoUpdate o.toNat y.toNat (storedAt s pa.toNat 4)).1 = some v) :
    Gives s (.piecePerform pa (.famo o y)) (s.devWrite pa.toNat (lowBytes 4 v)) :=
  congrArg Host.Outcome.next (updatePiece_of_some hok hp ha hgood hv ..)

end

/-! ### Errors corrected (02 R54, R62) -/

/-- The field of ECCCNT that counts the errors of a place. -/
def eccField : ErrPlace → Nat
  | .scratchpad => 0
  | .dram => 1
  | .regFile => 2

theorem gives_correctableError (s : State) (d : Fin 8) (p : ErrPlace) :
    Gives s (.correctableError d p none) (s.updDie d fun y => { y with ecccnt := bumpEcc y.ecccnt (eccField p) }) := by
  cases p <;> rfl

theorem leads_correctableError_core (s : State) (d e : Fin 8) (c : Fin 16) (p : ErrPlace) :
    Leads s (.correctableError d p (some (e, c))) fun t =>
      (t.die d).ecccnt = bumpEcc (s.die d).ecccnt (eccField p) ∧ (e ≠ d → (t.die e).ecccnt = (s.die e).ecccnt) ∧
      (t.core e c).frozenUntil = max (max s.cycle (s.core e c).frozenUntil) (s.cycle + 24) := by
  let u := s.updDie d fun y => { y with ecccnt := bumpEcc y.ecccnt (eccField p) }
  have hcore : u.core e c = s.core e c := State.core_updDie_of_cores s d e c fun _ => rfl
  refine ⟨u.updCore e c fun k => k.eccFreeze s.cycle s.gtime, by cases p <;> rfl, ?_, fun hne => ?_, ?_⟩
  · rw [State.ecccnt_updCore, State.die_updDie]
  · rw [State.ecccnt_updCore, State.die_updDie_ne s (Ne.symm hne)]
  · rw [State.core_updCore, Core.eccFreeze_frozenUntil, hcore]

/-! ### Scrub reads (02 R59) -/

section
variable {s : State} {pa : BitVec 52}

/-- Of a die whose scrubber runs, a scrub read of storage does as it finds. -/
theorem gives_scrubRead (hdev : region pa.toNat = .spad ∨ region pa.toNat = .hbm ∨ region pa.toNat = .lpddr)
    (hon : (s.die (homeDie pa.toNat)).mscrub.toNat % 2 = 1) (found : ScrubFinding) :
    Gives s (.scrubRead pa found) (match found with
      | .clean => s
      | .correctable => s.updDie (homeDie pa.toNat) fun x =>
        { x with ecccnt := bumpEcc (bumpEcc x.ecccnt (if region pa.toNat = .spad then 0 else 1)) 3 }
      | .uncorrectable => (s.scrubPoison pa.toNat).recordAt pa.toNat 5 (homeDie pa.toNat) 0) :=
  (if_neg (by simp [(isDev_iff _).2 hdev, (bit_zero_iff _).2 hon])).trans (by cases found <;> rfl)

theorem leads_scrubRead_correctable
    (hdev : region pa.toNat = .spad ∨ region pa.toNat = .hbm ∨ region pa.toNat = .lpddr)
    (hon : (s.die (homeDie pa.toNat)).mscrub.toNat % 2 = 1) :
    Leads s (.scrubRead pa .correctable) fun t => t.mem = s.mem ∧ t.poison = s.poison ∧
      let old := (s.die (homeDie pa.toNat)).ecccnt
      let new := (t.die (homeDie pa.toNat)).ecccnt
      bitsOf new 48 16 = min 65535 (bitsOf old 48 16 + 1) ∧
      let k := if region pa.toNat = .spad then 0 else 16
      bitsOf new k 16 = min 65535 (bitsOf old k 16 + 1) := by
  refine ⟨_, gives_scrubRead hdev hon .correctable, rfl, rfl, ?_⟩
  dsimp only
  rw [State.die_updDie]
  obtain ⟨j, hj, hk, hspad⟩ : ∃ j, j < 3 ∧ (if region pa.toNat = .spad then 0 else 1) = j ∧
      (if region pa.toNat = .spad then 0 else 16) = 16 * j := by
    split
    · exact ⟨0, by decide, rfl, rfl⟩
    · exact ⟨1, by decide, rfl, rfl⟩
  rw [hk, hspad]
  constructor
  · rw [show 48 = 16 * 3 from rfl, bitsOf_bumpEcc_same _ (by decide), bitsOf_bumpEcc_other _ (by decide) (by omega)]
  · rw [bitsOf_bumpEcc_other _ (by omega) (by omega), bitsOf_bumpEcc_same _ (by omega)]

theorem leads_scrubRead_uncorrectable
    (hdev : region pa.toNat = .spad ∨ region pa.toNat = .hbm ∨ region pa.toNat = .lpddr)
    (hon : (s.die (homeDie pa.toNat)).mscrub.toNat % 2 = 1) :
    Leads s (.scrubRead pa .uncorrectable) fun t => t.mem = s.mem ∧ t.poisoned pa.toNat 1 = true ∧
      ((s.die (homeDie pa.toNat)).merrV = false → (t.die (homeDie pa.toNat)).merrV = true ∧
        (t.die (homeDie pa.toNat)).merra.toNat = pa.toNat / 32 * 32) := by
  obtain ⟨core, hrec⟩ := State.recordAt_home (s.scrubPoison pa.toNat) pa.toNat 5 0
  refine ⟨_, gives_scrubRead hdev hon .uncorrectable, ?_⟩
  dsimp only
  rw [hrec]
  refine ⟨State.recordError_mem .., ?_, fun hV => ?_⟩
  · rw [State.poisoned_congr (State.recordError_poison ..), State.poisoned_scrubPoison]
  · have hheld := State.recordError_held (s := s.scrubPoison pa.toNat) hV (errKind pa.toNat) 5 core 0 pa.toNat
    refine ⟨hheld.1, ?_⟩
    rw [hheld.2, BitVec.toNat_ofNat, Nat.mod_eq_of_lt]
    omega

end

/-! ### The end of a freeze (18 R433) -/

theorem gives_freezeEnd {s : State} {d : Fin 8} {c : Fin 16} (h : (s.core d c).frozenUntil ≤ s.cycle) :
    Gives s (.freezeEnd d c) (s.updCore d c fun k => { k with frozenUntil := 0 }) :=
  congrArg Host.Outcome.next (State.updCore_congr (if_pos h))

/-- Settles O34: each event of storage, by its own law: pieces, errors that arise, read-modify-writes, errors corrected,
scrub reads and the end of a freeze. -/
theorem storageEvents : Obligations.StorageEvents := by
  intro s d c pa bytes x cmp o w
  refine ⟨gives_piecePerform_write, fun n hp => ⟨gives_piecePerform_read hp, gives_piecePerform_read_good hp⟩,
    leads_piecePerform_fail_dev d, leads_piecePerform_fail_host d,
    fun hok hp ha hgood => ⟨gives_piecePerform_amo o rfl hok hp ha hgood, gives_piecePerform_cas rfl hok hp ha hgood⟩,
    fun y v hok hp ha hgood hv => gives_piecePerform_famo hok hp ha hgood hv,
    ⟨?corrected, fun hdev hon => ⟨gives_scrubRead hdev hon .clean, leads_scrubRead_correctable hdev hon,
      leads_scrubRead_uncorrectable hdev hon⟩⟩, gives_freezeEnd⟩
  case corrected =>
    intro p k hk
    obtain rfl : eccField p = k := by
      rcases hk with ⟨rfl, rfl⟩ | ⟨rfl, rfl⟩ | ⟨rfl, rfl⟩ <;> rfl
    have hbump (y : Die) : setField y.ecccnt (16 * eccField p) 16
        (min 65535 (part y.ecccnt.toNat (16 * eccField p) 16 + 1)) = bumpEcc y.ecccnt (eccField p) :=
      (bumpEcc_eq y.ecccnt _).symm
    simp only [hbump]
    exact ⟨gives_correctableError s d p, fun e => leads_correctableError_core s d e c p⟩

end Sys2Proof.Claims

/-! Invalidations, walks and scans (03 R70, R82, R83, R88, R93, R94, 10 R248): what each invalidation starts and ends, and
what a walk installs; from these O33. -/

namespace Sys2Proof.Machine

/-! ### Every index, once -/

theorem fins_eq_finRange (n : Nat) : fins n = List.finRange n := by
  induction n with
  | zero => rfl
  | succ n ih => rw [fins, ih, List.finRange_succ]

theorem mem_fins {n : Nat} (i : Fin n) : i ∈ fins n := fins_eq_finRange n ▸ List.mem_finRange i

theorem nodup_fins (n : Nat) : (fins n).Nodup := fins_eq_finRange n ▸ List.nodup_finRange n

theorem mem_dieCtxs {d : Fin 8} {id : CtxId} : id ∈ dieCtxs d ↔ id.die = d := by
  constructor
  · intro h
    obtain ⟨c, -, hc⟩ := List.mem_flatMap.1 h
    obtain ⟨x, -, rfl⟩ := List.mem_map.1 hc
    rfl
  · rintro rfl
    exact List.mem_flatMap.2 ⟨id.core, mem_fins _, List.mem_map.2 ⟨id.ctx, mem_fins _, rfl⟩⟩

theorem nodup_dieCtxs (d : Fin 8) : (dieCtxs d).Nodup := by
  refine List.nodup_flatMap.2 ⟨fun c _ => (nodup_fins 4).map fun x y h => congrArg CtxId.ctx h, ?_⟩
  refine (nodup_fins 16).imp fun {c e} hne id hc he => ?_
  obtain ⟨x, -, rfl⟩ := List.mem_map.1 hc
  obtain ⟨y, -, hy⟩ := List.mem_map.1 he
  exact hne (congrArg CtxId.core hy).symm

/-! ### Updates made one index after another -/

section
variable {σ ι α : Type} {step : σ → ι → σ} {read : σ → α} {i : ι} {l : List ι}

/-- What no step of a fold changes is as before. -/
theorem read_foldl_of_frame (hframe : ∀ s, ∀ j ∈ l, read (step s j) = read s) (s : σ) : read (l.foldl step s) = read s := by
  induction l generalizing s with
  | nil => rfl
  | cons j l ih =>
    rw [List.foldl_cons, ih fun s k hk => hframe s k (List.mem_cons_of_mem j hk), hframe s j List.mem_cons_self]

/-- What only the step of one index changes has that step's change. -/
theorem read_foldl_of_own {R : α → α → Prop} (hnodup : l.Nodup) (hi : i ∈ l) (hown : ∀ s, R (read s) (read (step s i)))
    (hframe : ∀ s j, j ≠ i → read (step s j) = read s) (s : σ) : R (read s) (read (l.foldl step s)) := by
  induction l generalizing s with
  | nil => exact absurd hi List.not_mem_nil
  | cons j l ih =>
    obtain ⟨hj, hl⟩ := List.nodup_cons.1 hnodup
    rw [List.foldl_cons]
    rcases List.mem_cons.1 hi with rfl | hi
    · rw [read_foldl_of_frame fun s k hk => hframe s k fun h => hj (h ▸ hk)]
      exact hown s
    · rw [← hframe s j fun h => hj (h ▸ hi)]
      exact ih hl hi _

end

theorem vget_vmapAll {α : Type} {n : Nat} (v : Vector α n) (f : Fin n → α → α) (i : Fin n) :
    vget (vmapAll v f) i = f i (vget v i) :=
  read_foldl_of_own (read := fun v => vget v i) (R := fun x y => y = f i x) (nodup_fins n) (mem_fins i)
    (fun v => vget_vupd_same v i (f i)) (fun v j h => vget_vupd_ne v h (f j)) v

/-! ### What an update of a context leaves -/

theorem State.die_updCtx_ne (s : State) {id : CtxId} {e : Fin 8} (h : id.die ≠ e) (f : Ctx → Ctx) :
    (s.updCtx id f).die e = s.die e :=
  State.die_updDie_ne s h _

theorem State.l1tlb_updCtx (s : State) (id : CtxId) (e : Fin 8) (c : Fin 16) (f : Ctx → Ctx) :
    ((s.updCtx id f).core e c).l1tlb = (s.core e c).l1tlb := by
  by_cases h : (id.die, id.core) = (e, c)
  · obtain ⟨rfl, rfl⟩ := Prod.mk.inj h
    rw [State.updCtx, State.core_updCore]
  · rw [State.updCtx, State.core_updCore_ne s h]

/-! ### The start of an invalidation (03 R93) -/

/-- A canonical address is one of 55 bits, sign-extended (01 R31). -/
theorem canonical_iff (va : W64) : canonical va = true ↔ -(2 ^ 54 : Int) ≤ va.toInt ∧ va.toInt < 2 ^ 54 := by
  have hlt := va.isLt
  have hbit : bit va 54 = decide (va.toNat / 2 ^ 54 % 2 = 1) := Nat.testBit_eq_decide_div_mod_eq
  simp only [canonical, bitsOf, hbit, BitVec.toInt_eq_toNat_cond, beq_iff_eq, decide_eq_true_eq]
  split <;> split <;> omega

section
variable {s : State} {d : Fin 8} {kind : BitVec 2} {asid : Fin 64} {bcast : Bool}

theorem State.startInv_accepted (hidle : (s.die d).tlbInv = none) (hkind : kind ≠ 3)
    (hpage : kind = 0 → canonical (s.die d).tlbinvva = true) :
    s.startInv d kind asid bcast =
      s.updDie d fun y => { y with tlbInv := some ⟨kind, asid, bcast, vpage (s.die d).tlbinvva⟩ } :=
  State.updDie_congr (if_neg (by simpa [hidle] using ⟨hkind, hpage⟩))

theorem State.startInv_refused (h : (s.die d).tlbInv ≠ none ∨ (kind = 0 ∧ canonical (s.die d).tlbinvva ≠ true)) :
    s.startInv d kind asid bcast = s.updDie d fun y => { y with tlbErr := true } := by
  refine State.updDie_congr (if_pos ?_)
  rcases h with hbusy | ⟨hkind, hpage⟩
  · exact .inr (.inl (Option.isSome_iff_ne_none.2 hbusy))
  · exact .inr (.inr ⟨hkind, by simpa using hpage⟩)

end

/-! ### What an invalidation does to a context and to a die (03 R94) -/

theorem TlbInv.mem_dies {i : TlbInv} {d e : Fin 8} : e ∈ i.dies d ↔ i.bcast = true ∨ e = d := by
  cases h : i.bcast <;> simp [TlbInv.dies, h, mem_fins]

theorem TlbInv.nodup_dies (i : TlbInv) (d : Fin 8) : (i.dies d).Nodup := by
  cases h : i.bcast <;> simp [TlbInv.dies, h, nodup_fins]

theorem Ctx.holdsUnder_eq_false_iff {c : Ctx} {i : TlbInv} :
    c.holdsUnder i = false ↔ ∀ h r, h ∈ c.held → r ∈ h.runs → i.hitsVa c.asid r.va = false := by
  simp only [Ctx.holdsUnder, List.any_eq_false, List.mem_flatMap, Bool.not_eq_true]
  exact ⟨fun hc h r hh hr => hc r ⟨h, hh, hr⟩, fun hc r ⟨h, hh, hr⟩ => hc h r hh hr⟩

/-- A mark is due of a context that holds a store which an invalidation covers. -/
def Ctx.mark (i : TlbInv) (c : Ctx) : Ctx := { c with markDue := c.holdsUnder i || c.markDue }

/-- The extents of a context that an invalidation covers are gone. -/
def Ctx.purge (i : TlbInv) (c : Ctx) : Ctx := { c with extents := c.extents.filter fun e => !i.hitsExtent c.asid e }

/-- The entries of a core's L1 TLB that an invalidation covers, and the extents of its contexts, are gone. -/
def Core.purge (i : TlbInv) (k : Core) : Core :=
  { k with
    l1tlb := k.l1tlb.filter fun e => !i.hits e
    ctxs := vmapAll k.ctxs fun _ => Ctx.purge i }

theorem Die.purge_cores (x : Die) (i : TlbInv) : (x.purge i).cores = vmapAll x.cores fun _ => Core.purge i := rfl

theorem Die.purge_core (x : Die) (i : TlbInv) (c : Fin 16) : vget (x.purge i).cores c = Core.purge i (vget x.cores c) := by
  rw [Die.purge_cores, vget_vmapAll]

theorem Die.purge_ctx (x : Die) (i : TlbInv) (c : Fin 16) (k : Fin 4) :
    vget (vget (x.purge i).cores c).ctxs k = Ctx.purge i (vget (vget x.cores c).ctxs k) := by
  rw [Die.purge_core, Core.purge, vget_vmapAll]

/-- A die after the removal of what an invalidation covers: `y` from `x`. -/
structure Die.Invalidated (i : TlbInv) (x y : Die) : Prop where
  l2tlb : y.l2tlb = x.l2tlb.filter fun e => !i.hits e
  walks : y.walks = x.walks.filter fun e => !i.hitsTable e
  l1tlb : ∀ c, (vget y.cores c).l1tlb = (vget x.cores c).l1tlb.filter fun e => !i.hits e
  ctxs  : ∀ c k, vget (vget y.cores c).ctxs k = Ctx.purge i (Ctx.mark i (vget (vget x.cores c).ctxs k))

/-! ### Marks for the stores that an invalidation covers -/

/-- What no update of a context of the die changes, the marks leave as it is. -/
theorem State.read_markUnder {α : Type} {read : State → α} {d : Fin 8}
    (hread : ∀ s (id : CtxId) f, id.die = d → read (s.updCtx id f) = read s) (s : State) (i : TlbInv) :
    read (s.markUnder i d) = read s := by
  refine read_foldl_of_frame (fun s id hid => ?_) s
  split
  · exact hread s id _ (mem_dieCtxs.1 hid)
  · rfl

theorem State.tables_markUnder (s : State) (i : TlbInv) (d : Fin 8) :
    ((s.markUnder i d).die d).l2tlb = (s.die d).l2tlb ∧ ((s.markUnder i d).die d).walks = (s.die d).walks ∧
      ((s.markUnder i d).die d).tlbInv = (s.die d).tlbInv := by
  have hread {α : Type} {get : Die → α} (hget : ∀ x cores, get { x with cores := cores } = get x) :
      get ((s.markUnder i d).die d) = get (s.die d) := by
    refine State.read_markUnder (read := fun u => get (u.die d)) (fun u id f hid => ?_) s i
    subst hid
    rw [State.updCtx, State.updCore, State.die_updDie, hget]
  exact ⟨hread fun _ _ => rfl, hread fun _ _ => rfl, hread fun _ _ => rfl⟩

theorem State.ctxOf_markUnder (s : State) (i : TlbInv) (id : CtxId) :
    (s.markUnder i id.die).ctxOf id = Ctx.mark i (s.ctxOf id) := by
  refine read_foldl_of_own (read := fun s => s.ctxOf id) (R := fun x y => y = Ctx.mark i x)
    (nodup_dieCtxs id.die) (mem_dieCtxs.2 rfl) (fun s => ?_) (fun s j hne => ?_) s
  · rw [Ctx.mark]
    split
    next h => rw [State.ctxOf_updCtx, h, Bool.true_or]
    next h => rw [Bool.eq_false_iff.2 h, Bool.false_or]
  · split
    · exact State.ctxOf_updCtx_ne s hne _
    · rfl

/-! ### The removal on one die and on all that are covered -/

/-- What the end of an invalidation does on one die. -/
def State.invalidateDie (i : TlbInv) (s : State) (e : Fin 8) : State := (s.markUnder i e).updDie e fun y => y.purge i

/-- What the end of an invalidation does on every die that it covers. -/
def State.invalidateDies (s : State) (i : TlbInv) (d : Fin 8) : State := (i.dies d).foldl (State.invalidateDie i) s

theorem State.die_invalidateDie_ne (i : TlbInv) (s : State) {d e : Fin 8} (h : d ≠ e) :
    (s.invalidateDie i d).die e = s.die e := by
  rw [State.invalidateDie, State.die_updDie_ne _ h]
  exact State.read_markUnder (read := fun s => s.die e) (fun s id f hid => State.die_updCtx_ne s (hid ▸ h) f) s i

theorem State.die_invalidateDie (i : TlbInv) (s : State) (e : Fin 8) :
    Die.Invalidated i (s.die e) ((s.invalidateDie i e).die e) ∧
      ((s.invalidateDie i e).die e).tlbInv = (s.die e).tlbInv := by
  obtain ⟨hl2tlb, hwalks, htlbInv⟩ := State.tables_markUnder s i e
  have hcore (c : Fin 16) : (vget ((s.markUnder i e).die e).cores c).l1tlb = (vget (s.die e).cores c).l1tlb :=
    State.read_markUnder (read := fun u => (u.core e c).l1tlb) (fun u id f _ => State.l1tlb_updCtx u id e c f) s i
  have hctx (c : Fin 16) (k : Fin 4) : vget (vget ((s.markUnder i e).die e).cores c).ctxs k =
      Ctx.mark i (vget (vget (s.die e).cores c).ctxs k) := State.ctxOf_markUnder s i ⟨e, c, k⟩
  rw [State.invalidateDie, State.die_updDie]
  refine ⟨⟨by rw [Die.purge, hl2tlb], by rw [Die.purge, hwalks], fun c => ?_, fun c k => ?_⟩, by rw [Die.purge, htlbInv]⟩
  · rw [Die.purge_core, Core.purge, hcore]
  · rw [Die.purge_ctx, hctx]

theorem State.read_invalidateDies {α : Type} {read : State → α} (hctx : ∀ s id f, read (State.updCtx s id f) = read s)
    (hdie : ∀ s d f, read (State.updDie s d f) = read s) (s : State) (i : TlbInv) (d : Fin 8) :
    read (s.invalidateDies i d) = read s :=
  read_foldl_of_frame (fun u _ _ => (hdie _ _ _).trans (State.read_markUnder (fun v id f _ => hctx v id f) u i)) s

theorem State.die_invalidateDies {i : TlbInv} {d e : Fin 8} (h : e ∈ i.dies d) (s : State) :
    Die.Invalidated i (s.die e) ((s.invalidateDies i d).die e) ∧
      ((s.invalidateDies i d).die e).tlbInv = (s.die e).tlbInv :=
  read_foldl_of_own (read := fun u => u.die e) (R := fun x y => Die.Invalidated i x y ∧ y.tlbInv = x.tlbInv)
    (i.nodup_dies d) h (fun u => State.die_invalidateDie i u e) (fun u _ hne => State.die_invalidateDie_ne i u hne) s

theorem State.ctxOf_invalidateDies {i : TlbInv} {d : Fin 8} {id : CtxId} (h : id.die ∈ i.dies d) (s : State) :
    (s.invalidateDies i d).ctxOf id = Ctx.purge i (Ctx.mark i (s.ctxOf id)) :=
  (State.die_invalidateDies h s).1.ctxs id.core id.ctx

/-! ### The end of an invalidation -/

theorem State.usesUnder_eq_false_iff {s : State} {i : TlbInv} {d : Fin 8} : s.usesUnder i d = false ↔
    (∀ id : CtxId, id.die = d → (s.ctxOf id).holdsUnder i = false) ∧
      ∀ r, r ∈ s.joist.peerReqs → r.id.die = d → r.place = .atDie → i.hitsVa r.asid r.va = false := by
  simp [State.usesUnder, mem_dieCtxs]

section
variable {s : State} {i : TlbInv} {d e : Fin 8}

/-- The removal ends no use: stores are still held, and requests still at their dies. -/
theorem State.usesUnder_invalidateDies (he : e ∈ i.dies d) :
    (s.invalidateDies i d).usesUnder i e = false ↔ s.usesUnder i e = false := by
  have hheld (id : CtxId) (hid : id.die = e) :
      ((s.invalidateDies i d).ctxOf id).holdsUnder i = (s.ctxOf id).holdsUnder i := by
    rw [State.ctxOf_invalidateDies (hid ▸ he)]
    rfl
  have hreqs : (s.invalidateDies i d).joist = s.joist :=
    State.read_invalidateDies (read := State.joist) (fun _ _ _ => rfl) (fun _ _ _ => rfl) s i d
  rw [State.usesUnder_eq_false_iff, State.usesUnder_eq_false_iff, hreqs]
  exact and_congr_left' (forall₂_congr fun id hid => by rw [hheld id hid])

/-- What an invalidation ends in: it is over once no use that it covers is left. -/
def State.invalidateEnd (s : State) (i : TlbInv) (d : Fin 8) : State :=
  let t := s.invalidateDies i d
  if (i.dies d).any (t.usesUnder i) then t else t.updDie d fun y => { y with tlbInv := none }

theorem State.mem_invalidateEnd (s : State) (i : TlbInv) (d : Fin 8) : (s.invalidateEnd i d).mem = s.mem := by
  have hmem : (s.invalidateDies i d).mem = s.mem :=
    State.read_invalidateDies (read := State.mem) (fun _ _ _ => rfl) (fun _ _ _ => rfl) s i d
  rw [State.invalidateEnd]
  split
  · exact hmem
  · exact hmem

theorem State.die_invalidateEnd (he : e ∈ i.dies d) (s : State) :
    Die.Invalidated i (s.die e) ((s.invalidateEnd i d).die e) := by
  obtain ⟨hdie, -⟩ := State.die_invalidateDies he s
  rw [State.invalidateEnd]
  split
  · exact hdie
  · by_cases h : d = e
    · subst h
      rw [State.die_updDie]
      exact ⟨hdie.l2tlb, hdie.walks, hdie.l1tlb, hdie.ctxs⟩
    · rwa [State.die_updDie_ne _ h]

theorem State.ctxOf_invalidateEnd {id : CtxId} (hid : id.die ∈ i.dies d) (s : State) :
    (s.invalidateEnd i d).ctxOf id = Ctx.purge i (Ctx.mark i (s.ctxOf id)) :=
  (State.die_invalidateEnd hid s).ctxs id.core id.ctx

theorem State.tlbInv_invalidateEnd (h : (s.die d).tlbInv = some i) :
    ((s.invalidateEnd i d).die d).tlbInv = none ↔ ∀ e, e ∈ i.dies d → s.usesUnder i e = false := by
  have hd : d ∈ i.dies d := TlbInv.mem_dies.2 (.inr rfl)
  have hnone : (i.dies d).any ((s.invalidateDies i d).usesUnder i) = false ↔
      ∀ e, e ∈ i.dies d → s.usesUnder i e = false := by
    rw [List.any_eq_false]
    exact forall₂_congr fun e he => Bool.eq_false_iff.symm.trans (State.usesUnder_invalidateDies he)
  rw [← hnone, State.invalidateEnd]
  split
  next huse => simp [(State.die_invalidateDies hd s).2, h, huse]
  next huse => simp [huse]

end

/-! ### What a walk installs (03 R70, R88) -/

section
variable {s t : State} {r : Req} {va : W64}

theorem State.walkLeaf_of_findLeaf {x : W64 × Bool × Option Nat} (hmiss : s.cachedLeaf r va = none)
    (h : s.findLeaf r va = (t, .ok x)) : s.walkLeaf r va = (t, .ok x) := by
  rw [State.findLeaf, hmiss] at h
  split at h
  · cases h
  · exact h

/-- A walk that finds a leaf sets A and ends by its install. -/
theorem State.walkLeaf_of_ok {leaf : W64} {big : Bool} {e : Option Nat} (h : s.walkLeaf r va = (t, .ok (leaf, big, e))) :
    bit leaf 7 = true ∧ ∃ u : State, t = u.install r va leaf big := by
  rw [State.walkLeaf] at h
  split at h
  · cases h
  · split at h
    · cases h
    · cases h
      exact ⟨by simp [bit], _, rfl⟩

/-- The newest entry, where it covers the page, is the one found. -/
theorem find?_tlbInsert {cap p : Nat} {e : TlbEntry} {asid : Fin 64} (h : e.covers asid p = true) (l : List TlbEntry) :
    (tlbInsert cap e l).find? (fun x => x.covers asid p) = some e :=
  List.find?_cons_of_pos h

/-- The entry that an install makes for a page. -/
def TlbEntry.ofPage (asid : Fin 64) (p : Nat) (big : Bool) (leaf : W64) : TlbEntry :=
  ⟨asid, if big then p / 8192 * 8192 else p, big, leaf⟩

theorem TlbEntry.covers_ofPage (asid : Fin 64) (p : Nat) (big : Bool) (leaf : W64) :
    (TlbEntry.ofPage asid p big leaf).covers asid p = true := by
  cases big <;> simp [TlbEntry.covers, TlbEntry.ofPage]

theorem State.l1tlb_install {c : Fin 16} (hcore : r.core = some c) (leaf : W64) (big : Bool) :
    ∃ l, ((s.install r va leaf big).core r.die c).l1tlb = tlbInsert 384 (.ofPage r.asid (vpage va) big leaf) l := by
  rw [State.install, hcore]
  exact ⟨_, congrArg Core.l1tlb (State.core_updCore ..)⟩

/-- What no extent translates, the caches answer by the leaf that a core's install brought last. -/
theorem State.cachedLeaf_install {c : Fin 16} (hcore : r.core = some c) (hmiss : s.cachedLeaf r va = none) (u : State)
    (leaf : W64) (big : Bool) : (u.install r va leaf big).cachedLeaf r va = some (leaf, big) := by
  obtain ⟨l, hl⟩ := State.l1tlb_install (s := u) (va := va) hcore leaf big
  rw [State.cachedLeaf] at hmiss ⊢
  split at hmiss
  · cases hmiss
  · simp only [hcore, hl, find?_tlbInsert (TlbEntry.covers_ofPage ..)]
    rfl

/-- A walk that finds a leaf leaves it cached, with A set. -/
theorem State.cachedLeaf_of_findLeaf {c : Fin 16} {leaf : W64} {big : Bool} {e : Option Nat} (hcore : r.core = some c)
    (hmiss : s.cachedLeaf r va = none) (h : s.findLeaf r va = (t, .ok (leaf, big, e))) :
    t.cachedLeaf r va = some (leaf, big) ∧ bit leaf 7 = true := by
  obtain ⟨hA, u, rfl⟩ := State.walkLeaf_of_ok (State.walkLeaf_of_findLeaf hmiss h)
  exact ⟨State.cachedLeaf_install hcore hmiss u leaf big, hA⟩

end

/-! ### What an event record leaves of the contexts -/

theorem State.ctxOf_updDie_of_cores (s : State) (d : Fin 8) (id : CtxId) {f : Die → Die}
    (h : ∀ x, (f x).cores = x.cores) : (s.updDie d f).ctxOf id = s.ctxOf id :=
  congrArg (fun k : Core => vget k.ctxs id.ctx) (State.core_updDie_of_cores s d id.die id.core h)

theorem State.ctxOf_sendMsix (s : State) (n : Nat) (id : CtxId) : (s.sendMsix n).ctxOf id = s.ctxOf id := by
  rw [State.ctxOf, State.core, State.sendMsix_die, State.ctxOf, State.core]

theorem State.ctxOf_postEvent (s : State) (d : Fin 8) (code : Nat) (src : EvSrc) (w1 w2 : Nat) (id : CtxId) :
    (s.postEvent d code src w1 w2).ctxOf id = s.ctxOf id := by
  unfold State.postEvent
  dsimp only
  split
  · exact State.ctxOf_updDie_of_cores s d id fun _ => rfl
  · rw [State.ctxOf_sendMsix]
    exact State.ctxOf_updDie_of_cores (s.hostWrite _ _) d id fun _ => rfl

end Sys2Proof.Machine

namespace Sys2Proof.Claims
open Machine

/-! ### The start and the end of an invalidation (03 R93, R94) -/

section
variable {s : State} {d : Fin 8} {i : TlbInv}

theorem gives_tlbinvPage_started (asid : Fin 64) (bcast : Bool) (hidle : (s.die d).tlbInv = none)
    (hpage : -(2 ^ 54 : Int) ≤ (s.die d).tlbinvva.toInt ∧ (s.die d).tlbinvva.toInt < 2 ^ 54) :
    Gives s (.tlbinvPage d asid bcast)
      (s.updDie d fun y => { y with tlbInv := some ⟨0, asid, bcast, (s.die d).tlbinvva.toNat / 65536⟩ }) :=
  congrArg Host.Outcome.next (State.startInv_accepted hidle (by decide) fun _ => (canonical_iff _).2 hpage)

theorem gives_tlbinvPage_refused (asid : Fin 64) (bcast : Bool)
    (hpage : ¬(-(2 ^ 54 : Int) ≤ (s.die d).tlbinvva.toInt ∧ (s.die d).tlbinvva.toInt < 2 ^ 54)) :
    Gives s (.tlbinvPage d asid bcast) (s.updDie d fun y => { y with tlbErr := true }) :=
  congrArg Host.Outcome.next (State.startInv_refused (.inr ⟨rfl, mt (canonical_iff _).1 hpage⟩))

theorem gives_tlbinvAsid_started (asid : Fin 64) (bcast : Bool) (hidle : (s.die d).tlbInv = none) :
    Gives s (.tlbinvAsid d asid bcast)
      (s.updDie d fun y => { y with tlbInv := some ⟨1, asid, bcast, (s.die d).tlbinvva.toNat / 65536⟩ }) :=
  congrArg Host.Outcome.next (State.startInv_accepted hidle (by decide) fun h => absurd h (by decide))

theorem gives_tlbinvAll_started (bcast : Bool) (hidle : (s.die d).tlbInv = none) :
    Gives s (.tlbinvAll d bcast)
      (s.updDie d fun y => { y with tlbInv := some ⟨2, 0, bcast, (s.die d).tlbinvva.toNat / 65536⟩ }) :=
  congrArg Host.Outcome.next (State.startInv_accepted hidle (by decide) fun h => absurd h (by decide))

/-- While an invalidation is under way, none starts. -/
theorem gives_tlbinv_busy (asid : Fin 64) (bcast : Bool) (hbusy : (s.die d).tlbInv ≠ none) :
    let refused := s.updDie d fun y => { y with tlbErr := true }
    Gives s (.tlbinvPage d asid bcast) refused ∧ Gives s (.tlbinvAsid d asid bcast) refused ∧
      Gives s (.tlbinvAll d bcast) refused :=
  have hrefused (kind : BitVec 2) (a : Fin 64) :=
    State.startInv_refused (kind := kind) (asid := a) (bcast := bcast) (.inl hbusy)
  ⟨congrArg Host.Outcome.next (hrefused 0 asid), congrArg Host.Outcome.next (hrefused 1 asid),
    congrArg Host.Outcome.next (hrefused 2 0)⟩

theorem gives_tlbinvDone (hbusy : (s.die d).tlbInv = some i) : Gives s (.tlbinvDone d) (s.invalidateEnd i d) := by
  change execTlbinvDone d s = _
  rw [execTlbinvDone, hbusy]
  rfl

/-- No use is left on any die that is covered: no held store and no request at its die. -/
theorem noUses_iff : (∀ e, e ∈ i.dies d → s.usesUnder i e = false) ↔
    (∀ id : CtxId, id.die ∈ i.dies d →
      ∀ h r, h ∈ (s.ctxOf id).held → r ∈ h.runs → i.hitsVa (s.ctxOf id).asid r.va = false) ∧
    ∀ r, r ∈ s.joist.peerReqs → r.id.die ∈ i.dies d → r.place = .atDie → i.hitsVa r.asid r.va = false := by
  simp only [State.usesUnder_eq_false_iff, Ctx.holdsUnder_eq_false_iff]
  constructor
  · intro hno
    exact ⟨fun id hid => (hno id.die hid).1 id rfl, fun r hr hid => (hno r.id.die hid).2 r hr rfl⟩
  · rintro ⟨hheld, hreqs⟩ e he
    exact ⟨fun id hid => hheld id (hid ▸ he), fun r hr hid => hreqs r hr (hid ▸ he)⟩

end

/-! ### Walks and scans (03 R70, R82, 10 R248) -/

section
variable {s t u : State} {id : CtxId} {va leaf : W64} {big : Bool} {e : Option Nat}

theorem gives_pageWalk (hmiss : s.cachedLeaf ((s.ctxOf id).req id .load true false) va = none)
    (h : s.findLeaf ((s.ctxOf id).req id .load true false) va = (t, .ok (leaf, big, e))) : Gives s (.pageWalk id va) t := by
  change execPageWalk id va s = _
  rw [execPageWalk]
  simp only [hmiss, h]

theorem gives_codeScan (hmiss : s.cachedLeaf ((s.ctxOf id).req id .fetch true false) va = none)
    (h : s.findLeaf ((s.ctxOf id).req id .fetch true false) va = (t, .ok (leaf, big, e))) :
    Gives s (.codeScan id va) (if part leaf.toNat 2 1 = 1 then t else s) := by
  change execCodeScan id va s = _
  rw [execCodeScan]
  simp [hmiss, h, lfX, bit_eq_decide_part]

theorem gives_codeScan_rejected {frame off check : Nat}
    (hmiss : s.cachedLeaf ((s.ctxOf id).req id .fetch true false) va = none)
    (h : s.findLeaf ((s.ctxOf id).req id .fetch true false) va = (u, .error (.scan frame off check)))
    (hready : (s.ctxOf id).status = .ready) (hpc : (s.ctxOf id).arch.pc.toNat / 65536 = va.toNat / 65536) :
    Gives s (.codeScan id va) ((s.postEvent id.die 0x0D (s.srcOf id) (frame * 65536) (off + check * 65536)).takeTrap id
      ⟨0x13, 0, va, finfoOf (s.ctxOf id) 0 AccKind.fetch.code 0 va⟩ false) := by
  have hstands : (s.ctxOf id).status.stands = true ∧ vpage (s.ctxOf id).arch.pc = vpage va := ⟨by rw [hready]; rfl, hpc⟩
  change execCodeScan id va s = _
  rw [execCodeScan]
  simp only [hmiss, h, Option.isSome_none, if_pos hstands, State.ctxOf_postEvent]
  rfl

end

/-- Settles O33: an invalidation's start and refusals, what its end removes, marks and waits for, and what a walk and a
scan of a code page leave. -/
theorem translationEvents : Obligations.TranslationEvents := by
  refine ⟨fun s d asid bcast i => ?invalidations, fun s t id va leaf big e => ?walks⟩
  case invalidations =>
    refine ⟨fun hidle => ⟨gives_tlbinvPage_started asid bcast hidle, gives_tlbinvPage_refused asid bcast,
      gives_tlbinvAsid_started asid bcast hidle, gives_tlbinvAll_started bcast hidle⟩,
      gives_tlbinv_busy asid bcast, fun hbusy => ?_⟩
    refine ⟨_, gives_tlbinvDone hbusy, ?_⟩
    simp only [← TlbInv.mem_dies]
    refine ⟨(State.tlbInv_invalidateEnd hbusy).trans noUses_iff, State.mem_invalidateEnd s i d, fun e he => ?_⟩
    obtain ⟨hl2tlb, hwalks, hl1tlb, -⟩ := State.die_invalidateEnd he s
    refine ⟨fun y => ?_, fun y => ?_, fun c => ⟨fun y => ?_, fun k => ?_⟩⟩
    · simp [hl2tlb]
    · simp [hwalks]
    · simp [State.core, hl1tlb]
    · rw [State.ctxOf_invalidateEnd (id := ⟨e, c, k⟩) he]
      refine ⟨rfl, fun hheld => ?_, fun y => by simp [Ctx.purge, Ctx.mark]⟩
      rw [← Ctx.holdsUnder_eq_false_iff] at hheld
      simp [Ctx.purge, Ctx.mark, hheld]
  case walks =>
    refine ⟨fun hmiss h => ?_, gives_codeScan, fun frame off check u => gives_codeScan_rejected⟩
    obtain ⟨hcached, hA⟩ := State.cachedLeaf_of_findLeaf rfl hmiss h
    exact ⟨gives_pageWalk hmiss h, hcached, by simpa [bit_eq_decide_part] using hA⟩

end Sys2Proof.Claims

/-! The Caravan (05): what captures, repairs, boundaries and dwells leave of the ring, the slots and the die's counts; and
from these O42. -/

namespace Sys2Proof.Machine

/-! ### What publishes, faults and repairs leave -/

/-- What a slot captures: all of it but its holds, its repair under way and its descriptor. -/
def BSlot.capture (b : BSlot) : BSlot :=
  { b with parked := 0, hold := 0, repairOn := none, tries := 0, pbSel := false, pbGen := 0 }

section
variable {b c : BSlot} (h : b.capture = c.capture)
include h

theorem BSlot.state_of_capture : b.state = c.state := (congrArg BSlot.state h :)
theorem BSlot.got_of_capture : b.got = c.got := (congrArg BSlot.got h :)
theorem BSlot.next_of_capture : b.next = c.next := (congrArg BSlot.next h :)
theorem BSlot.repairs_of_capture : b.repairs = c.repairs := (congrArg BSlot.repairs h :)
theorem BSlot.failed_of_capture : b.failed = c.failed := (congrArg BSlot.failed h :)

end

/-- BSCFG, RPRCNT and RVKCNT. -/
def Die.boardRegs (x : Die) : W64 × W64 × W64 := (x.bscfg, x.rprcnt, x.rvkcnt)

section
variable {x y : Die} (h : x.boardRegs = y.boardRegs)
include h

theorem Die.bscfg_of_boardRegs : x.bscfg = y.bscfg := congrArg Prod.fst h
theorem Die.rprcnt_of_boardRegs : x.rprcnt = y.rprcnt := congrArg (·.2.1) h
theorem Die.rvkcnt_of_boardRegs : x.rvkcnt = y.rvkcnt := congrArg (·.2.2) h

end

theorem State.slot_updDie_of_slots (s : State) (d e k : Fin 8) {f : Die → Die} (h : ∀ x, (f x).slots = x.slots) :
    (s.updDie d f).slot e k = s.slot e k := by
  by_cases hd : d = e
  · subst hd
    rw [State.slot, State.die_updDie, h, State.slot]
  · rw [State.slot, State.die_updDie_ne s hd, State.slot]

@[simp] theorem State.slot_updSlot (s : State) (d k : Fin 8) (f : BSlot → BSlot) :
    (s.updSlot d k f).slot d k = f (s.slot d k) := by
  simp [State.slot, State.updSlot]

theorem State.slot_updSlot_ne (s : State) {d k e j : Fin 8} (h : ¬(d = e ∧ k = j)) (f : BSlot → BSlot) :
    (s.updSlot d k f).slot e j = s.slot e j := by
  by_cases hd : d = e
  · subst hd
    simp only [State.slot, State.updSlot, State.die_updDie]
    exact vget_vupd_ne _ (fun hk => h ⟨rfl, hk⟩) f
  · simp only [State.slot, State.updSlot, State.die_updDie_ne s hd]

theorem State.boardRegs_updSlot (s : State) (d e k : Fin 8) (f : BSlot → BSlot) :
    ((s.updSlot d k f).die e).boardRegs = (s.die e).boardRegs := by
  by_cases hd : d = e
  · subst hd
    rw [State.updSlot, State.die_updDie]
    rfl
  · rw [State.updSlot, State.die_updDie_ne s hd]

/-- A part of the state outside contexts, queues, holds, repairs under way and host memory. -/
structure Apart {α : Type} (read : State → α) : Prop where
  die (s : State) (d : Fin 8) {f : Die → Die} (h : ∀ x, (f x).slots = x.slots ∧ (f x).boardRegs = x.boardRegs) :
    read (s.updDie d f) = read s
  slot (s : State) (d k : Fin 8) {f : BSlot → BSlot} (h : ∀ b, (f b).capture = b.capture) :
    read (s.updSlot d k f) = read s
  host (s : State) (m : Memory) (p : BitVec 64) : read { s with host := m, msixPba := p } = read s

theorem apart_joist : Apart State.joist := ⟨fun _ _ _ _ => rfl, fun _ _ _ _ _ => rfl, fun _ _ _ => rfl⟩

theorem apart_mem : Apart State.mem := ⟨fun _ _ _ _ => rfl, fun _ _ _ _ _ => rfl, fun _ _ _ => rfl⟩

theorem apart_capture (d k : Fin 8) : Apart fun s => (s.slot d k).capture where
  die s e _ h := congrArg BSlot.capture (s.slot_updDie_of_slots e d k fun x => (h x).1)
  slot s e j f h := by
    by_cases hs : e = d ∧ j = k
    · obtain ⟨rfl, rfl⟩ := hs
      rw [State.slot_updSlot, h]
    · rw [State.slot_updSlot_ne s hs]
  host _ _ _ := rfl

theorem apart_boardRegs (d : Fin 8) : Apart fun s => (s.die d).boardRegs where
  die s e f h := by
    by_cases hd : e = d
    · subst hd
      rw [State.die_updDie, (h _).2]
    · rw [State.die_updDie_ne s hd]
  slot s e k f _ := s.boardRegs_updSlot e d k f
  host _ _ _ := rfl

/-- The waits of a die's contexts for a segment, each settled by what the publish or the fault makes of them. -/
theorem read_settleWaits {α : Type} {read : State → α} (s : State) (d : Fin 8) (seg : BitVec 16)
    {settle : State → CtxId → State} {lose : State → CtxId → StreamOp → State} (hsettle : ∀ s id, read (settle s id) = read s)
    (hlose : ∀ s id o, read (lose s id o) = read s) :
    read ((dieCtxs d).foldl (fun s id =>
      let c := s.ctxOf id
      let s := if c.awaits seg then settle s id else s
      (c.lostHolds seg).foldl (fun s o => lose s id o) s) s) = read s := by
  refine read_foldl_of_frame (fun s id _ => ?_) s
  dsimp only
  rw [read_foldl_of_frame fun s o _ => hlose s id o]
  split
  · exact hsettle s id
  · rfl

namespace Apart
variable {α : Type} {read : State → α} (h : Apart read)
include h

theorem updCore (s : State) (d : Fin 8) (c : Fin 16) (f : Core → Core) : read (s.updCore d c f) = read s :=
  h.die s d fun _ => ⟨rfl, rfl⟩

theorem updCtx (s : State) (id : CtxId) (f : Ctx → Ctx) : read (s.updCtx id f) = read s := h.updCore s _ _ _

theorem updQueue (s : State) (d : Fin 8) (q : Fin 64) (f : Queue → Queue) : read (s.updQueue d q f) = read s :=
  h.die s d fun _ => ⟨rfl, rfl⟩

theorem grant (s : State) (id : CtxId) (k : Fin 8) : read (s.grant id k) = read s := h.slot s id.die k fun _ => rfl

theorem setStage (s : State) (d : Fin 8) (q : Fin 64) (st : LaunchStage) : read (s.setStage d q st) = read s :=
  h.updQueue s d q _

theorem missed (s : State) (d : Fin 8) : read (s.missed d) = read s := h.die s d fun _ => ⟨rfl, rfl⟩

theorem setHw (s : State) (d : Fin 8) (e : Fin 4) (b : Bool) : read (s.setHw d e b) = read s :=
  h.die s d fun _ => ⟨rfl, rfl⟩

theorem sendMsix (s : State) (n : Nat) : read (s.sendMsix n) = read s := by
  unfold State.sendMsix
  dsimp only
  split
  · exact h.host s s.host _
  · exact h.host s _ s.msixPba

theorem postEvent (s : State) (d : Fin 8) (code : Nat) (src : EvSrc) (w1 w2 : Nat) :
    read (s.postEvent d code src w1 w2) = read s := by
  unfold State.postEvent
  dsimp only
  split
  · exact h.die s d fun _ => ⟨rfl, rfl⟩
  · exact (h.sendMsix ..).trans (Eq.trans (h.die _ d fun _ => ⟨rfl, rfl⟩) (h.host s _ s.msixPba))

theorem recordError (s : State) (d : Fin 8) (kind src core rdie addr : Nat) :
    read (s.recordError d kind src core rdie addr) = read s := by
  rw [State.recordError, h.postEvent]
  refine h.die s d fun x => ?_
  dsimp only
  split <;> exact ⟨rfl, rfl⟩

theorem recordUnits (s : State) (pa n src : Nat) (die : Fin 8) (core : Nat) :
    read (s.recordUnits pa n src die core) = read s := by
  refine read_foldl_of_frame (fun s u _ => ?_) s
  rw [State.recordAt]
  split <;> exact h.recordError ..

theorem wake (s : State) (id : CtxId) : read (s.wake id) = read s := by
  unfold State.wake
  split
  · split
    · exact h.updCtx s id _
    · rfl
  · rfl

theorem release (s : State) (id : CtxId) (u : Unboard) : read (s.release id u) = read s := by
  unfold State.release
  split
  · exact h.slot s id.die _ fun _ => rfl
  · rfl

theorem lateUnboards (s : State) (id : CtxId) : read (s.lateUnboards id) = read s := by
  rw [State.lateUnboards, read_foldl_of_frame (fun s u _ => h.release s id u), h.updCtx]

theorem endStream (s : State) (id : CtxId) (o : StreamOp) (status : BitVec 3) :
    read (s.endStream id o status) = read s := by
  rw [State.endStream, h.wake, h.lateUnboards, h.updCtx]

theorem faultWaiting (s : State) (id : CtxId) (o : StreamOp) : read (s.faultWaiting id o) = read s := by
  rw [State.faultWaiting, h.updCtx, h.endStream]

theorem settleBoard (s : State) (id : CtxId) (seg : BitVec 16) (f : BoardWait → BoardWait) :
    read (s.settleBoard id seg f) = read s := by
  rw [State.settleBoard, h.wake, h.updCtx]

theorem holdLaunch (s : State) (d : Fin 8) (q : Fin 64) (seg : BitVec 16) (k : Option (Fin 8)) :
    read (s.holdLaunch d q seg k) = read s := by
  unfold State.holdLaunch
  rw [h.postEvent, h.setStage]

theorem resolveLaunch (s : State) (d : Fin 8) (q : Fin 64) (l : Launch) : read (s.resolveLaunch d q l) = read s := by
  unfold State.resolveLaunch
  split
  · rw [State.endBadSeg, State.closeLaunch, h.updQueue, h.postEvent]
  · exact h.holdLaunch ..
  · exact h.setStage ..
  · split
    · rw [h.updQueue, h.missed]
    · rfl

theorem resolveBoard (s : State) (id : CtxId) (seg : BitVec 16) : read (s.resolveBoard id seg) = read s := by
  unfold State.resolveBoard
  split
  · exact h.settleBoard ..
  · exact h.settleBoard ..
  · rw [h.settleBoard, h.grant]
  · rfl

theorem resolveLaunches (s : State) (d : Fin 8) (l : List (Fin 64 × Launch)) :
    read (l.foldl (fun s x => s.resolveLaunch d x.1 x.2) s) = read s :=
  read_foldl_of_frame (fun s x _ => h.resolveLaunch s d x.1 x.2) s

theorem resolveAgain (s : State) : read s.resolveAgain = read s := by
  rw [State.resolveAgain]
  refine Eq.trans (read_foldl_of_frame (fun s id _ => ?_) _)
    (read_foldl_of_frame (fun s d _ => h.resolveLaunches s d _) s)
  dsimp only
  refine Eq.trans (read_foldl_of_frame (fun s o _ => ?stream) _) ?waits
  case stream =>
    split
    · exact h.endStream ..
    · exact h.faultWaiting ..
    · rfl
  refine Eq.trans (read_foldl_of_frame (fun s seg _ => ?board) _) ?count
  case board =>
    split
    · exact h.resolveBoard ..
    · rfl
  case count =>
    split
    · exact h.updCtx ..
    · rfl

theorem stopRepair (s : State) (d k : Fin 8) : read (s.stopRepair d k) = read s := by
  unfold State.stopRepair
  split
  · rfl
  · exact (h.setHw ..).trans (h.slot s d k fun _ => rfl)

theorem startRepairs (s : State) (d : Fin 8) : read (s.startRepairs d) = read s := by
  refine read_foldl_of_frame (fun s k _ => ?_) s
  dsimp only
  split
  · split
    · rfl
    · exact (h.setHw ..).trans (h.slot s d k fun _ => rfl)
  · rfl

/-- After its own entry is BOARDED, a publish changes nothing more of what lies apart. -/
theorem boardSlot (s : State) (d k : Fin 8) :
    read (s.boardSlot d k) =
      read ((s.slotDesc d k (s.slot d k).len 0 true).updSlot d k fun b => { b with state := .boarded }) := by
  unfold State.boardSlot
  dsimp only
  split
  · rfl
  · refine (read_foldl_of_frame (fun s x _ => ?launches) _).trans
      (read_settleWaits _ d _ (fun s id => ?boards) (fun s id o => ?streams))
    case launches =>
      split
      · exact h.setStage ..
      · rfl
    case boards => rw [h.settleBoard, h.grant]
    case streams => rw [h.endStream, h.grant]

/-- After its own entry is FAULTED, a fault changes nothing more of what lies apart. -/
theorem faultSlot (s : State) (d k : Fin 8) :
    read (s.faultSlot d k) = read (s.updSlot d k fun b => { b with state := .faulted }) := by
  have hcount := h.die (s.updSlot d k fun b => { b with state := .faulted }) d
    (f := fun x => { x with rpfcnt := x.rpfcnt + 1 }) fun _ => ⟨rfl, rfl⟩
  unfold State.faultSlot
  dsimp only
  split
  · exact hcount
  · refine (read_foldl_of_frame (fun s x _ => ?launches) _).trans
      ((read_settleWaits _ d _ (fun s id => h.settleBoard ..) (fun s id o => h.faultWaiting ..)).trans hcount)
    case launches =>
      split
      · exact h.holdLaunch ..
      · rfl

end Apart

theorem State.capture_startRepairs (s : State) (d e k : Fin 8) :
    ((s.startRepairs d).slot e k).capture = (s.slot e k).capture :=
  (apart_capture e k).startRepairs s d

theorem State.rprcnt_startRepairs (s : State) (d e : Fin 8) : ((s.startRepairs d).die e).rprcnt = (s.die e).rprcnt :=
  Die.rprcnt_of_boardRegs ((apart_boardRegs e).startRepairs s d)

theorem State.capture_recordUnits (s : State) (pa n src : Nat) (die : Fin 8) (core : Nat) (d k : Fin 8) :
    ((s.recordUnits pa n src die core).slot d k).capture = (s.slot d k).capture :=
  (apart_capture d k).recordUnits s pa n src die core

/-! ### What writes of descriptors and the filling of slots leave -/

theorem Apart.markDirty {α : Type} {read : State → α} (h : Apart read) (s : State) (pa n : Nat) :
    read (s.markDirty pa n) = read s := by
  unfold State.markDirty
  split
  · exact read_foldl_of_frame (fun s _ _ => h.updCore s _ _ _) s
  · rfl

/-- A part of the state outside the package's storage and the slots, too. -/
structure Outside {α : Type} (read : State → α) : Prop extends Apart read where
  store (s : State) (m : Memory) (p : List Nat) : read { s with mem := m, poison := p } = read s
  updSlot (s : State) (d k : Fin 8) (f : BSlot → BSlot) : read (s.updSlot d k f) = read s

theorem outside_joist : Outside State.joist := ⟨apart_joist, fun _ _ _ => rfl, fun _ _ _ _ => rfl⟩

theorem outside_boardRegs (d : Fin 8) : Outside fun s => (s.die d).boardRegs where
  toApart := apart_boardRegs d
  store _ _ _ := rfl
  updSlot s e k f := s.boardRegs_updSlot e d k f

section
variable {α : Type} {read : State → α} (h : Apart read)
  (hstore : ∀ (s : State) (m : Memory) (p : List Nat), read { s with mem := m, poison := p } = read s)
include h hstore

theorem Apart.devWrite (s : State) (pa : Nat) (bs : List Byte) : read (s.devWrite pa bs) = read s :=
  (h.markDirty ..).trans (hstore ..)

theorem Apart.slotDesc (s : State) (d k : Fin 8) (active shadow : Nat) (swap : Bool) :
    read (s.slotDesc d k active shadow swap) = read s := by
  have hwrite (pa : Nat) (bs : List Byte) (sel : Bool) (gen : BitVec 32) :
      read ((s.devWrite pa bs).updSlot d k fun b => { b with pbSel := sel, pbGen := gen }) = read s :=
    Eq.trans (h.slot _ d k fun _ => rfl) (h.devWrite hstore ..)
  unfold State.slotDesc
  dsimp only
  split
  · rfl
  · split
    · exact Eq.trans (h.die _ d fun _ => ⟨rfl, rfl⟩) (hwrite ..)
    · exact hwrite ..

end

namespace Outside
variable {α : Type} {read : State → α} (h : Outside read)
include h

theorem map {β : Type} (g : α → β) : Outside fun s => g (read s) where
  die s d _ hf := congrArg g (h.die s d hf)
  slot s d k _ hf := congrArg g (h.slot s d k hf)
  host s m p := congrArg g (h.host s m p)
  store s m p := congrArg g (h.store s m p)
  updSlot s d k f := congrArg g (h.updSlot s d k f)

theorem slotDesc (s : State) (d k : Fin 8) (active shadow : Nat) (swap : Bool) :
    read (s.slotDesc d k active shadow swap) = read s :=
  h.toApart.slotDesc h.store s d k active shadow swap

theorem boardSlot (s : State) (d k : Fin 8) : read (s.boardSlot d k) = read s := by
  rw [h.toApart.boardSlot, h.updSlot, h.slotDesc]

theorem faultSlot (s : State) (d k : Fin 8) : read (s.faultSlot d k) = read s := by
  rw [h.toApart.faultSlot, h.updSlot]

theorem settleSlot (s : State) (d k : Fin 8) : read (s.settleSlot d k) = read s := by
  unfold State.settleSlot
  dsimp only
  split
  · rfl
  · split
    · split
      · rfl
      · exact h.faultSlot s d k
    · split
      · exact h.boardSlot s d k
      · rfl

theorem fillSlot (s : State) (d k : Fin 8) (g : Segment) : read (s.fillSlot d k g) = read s := by
  have hstart (active : Nat) : read ((s.slotDesc d k 0 active true).stopRepair d k) = read s :=
    (h.stopRepair ..).trans (h.slotDesc ..)
  unfold State.fillSlot
  dsimp only
  refine Eq.trans (h.die _ d fun _ => ⟨rfl, rfl⟩) ?_
  rw [h.slotDesc, h.updSlot, hstart]

theorem boardOn (s : State) (d : Fin 8) : read (s.boardOn d) = read s := by
  refine Eq.trans (read_foldl_of_frame (fun s k _ => ?_) _) (h.die s d fun _ => ⟨rfl, rfl⟩)
  rw [h.slotDesc, h.updSlot]

theorem boardOff (s : State) (d : Fin 8) : read (s.boardOff d) = read s := by
  rw [State.boardOff]
  refine (h.resolveLaunches ..).trans ?_
  refine Eq.trans (read_foldl_of_frame (fun s id _ => ?waits) _) (read_foldl_of_frame (fun s k _ => ?slots) s)
  case waits =>
    refine Eq.trans (read_foldl_of_frame (fun s o _ => h.faultWaiting s id o) _)
      (read_foldl_of_frame (fun s seg _ => ?_) s)
    split
    · exact h.settleBoard ..
    · rfl
  case slots =>
    rw [h.updSlot]
    split
    · rw [h.slotDesc, h.stopRepair]
    · exact h.stopRepair s d k

end Outside

/-! ### What segments leave of the ring's course -/

/-- The ring's course: all of the Joist but what one segment's injection sets, and SPEED. -/
def Joist.course (j : Joist) : Joist :=
  { j with dwelling := false, dwelled := false, injecting := false, wire := none, tileAt := 0, speed := 0 }

section
variable {i j : Joist} (h : i.course = j.course)
include h

theorem Joist.seg_of_course : i.seg = j.seg := (congrArg Joist.seg h :)
theorem Joist.lap_of_course : i.lap = j.lap := (congrArg Joist.lap h :)
theorem Joist.run_of_course : i.run = j.run := (congrArg Joist.run h :)
theorem Joist.stopped_of_course : i.stopped = j.stopped := (congrArg Joist.stopped h :)
theorem Joist.manifest_of_course : i.manifest = j.manifest := (congrArg Joist.manifest h :)
theorem Joist.rmannxV_of_course : i.rmannxV = j.rmannxV := (congrArg Joist.rmannxV h :)
theorem Joist.segs_of_course : i.segs = j.segs := (congrArg Joist.segs h :)

end

theorem State.course_updJoist (s : State) {f : Joist → Joist} (h : ∀ j, (f j).course = j.course) :
    (s.updJoist f).joist.course = s.joist.course :=
  h s.joist

theorem outside_course : Outside fun s => s.joist.course := outside_joist.map Joist.course

section
variable {α : Type} {read : State → α} (h : Outside read)
  (hjoist : ∀ (s : State) {f : Joist → Joist}, (∀ j, (f j).course = j.course) → read (s.updJoist f) = read s)
include h hjoist

theorem Outside.endDwells (s : State) : read s.endDwells = read s := by
  have hfill (g : Segment) (l : List (Fin 8 × Fin 8)) : read (l.foldl (fun s x =>
      let b := s.slot x.1 x.2
      if b.state = .dwell ∧ b.count = 0 then s.fillSlot x.1 x.2 g else s) s) = read s := by
    refine read_foldl_of_frame (fun s x _ => ?_) s
    dsimp only
    split
    · exact h.fillSlot ..
    · rfl
  unfold State.endDwells
  split
  · rfl
  · dsimp only
    split
    · exact hfill ..
    · exact Eq.trans (hjoist _ fun _ => rfl) (Eq.trans (hjoist _ fun _ => rfl) (hfill ..))

end

theorem State.course_endDwells (s : State) : s.endDwells.joist.course = s.joist.course :=
  outside_course.endDwells State.course_updJoist s

theorem State.boardRegs_endDwells (s : State) (d : Fin 8) : (s.endDwells.die d).boardRegs = (s.die d).boardRegs :=
  (outside_boardRegs d).endDwells (fun _ _ _ => rfl) s

theorem State.course_startSegment (s : State) : s.startSegment.joist.course = s.joist.course := by
  unfold State.startSegment
  split
  · rfl
  · dsimp only
    rw [State.course_endDwells]
    refine Eq.trans (State.course_updJoist _ fun _ => rfl) ?_
    refine read_foldl_of_frame (read := fun s => s.joist.course) (fun s x _ => ?_) s
    split
    · split <;> rfl
    · exact outside_course.fillSlot ..

theorem State.course_govern (s : State) : s.govern.joist.course = s.joist.course := rfl

theorem State.course_endSegment (s : State) : s.endSegment.joist.course = s.joist.course := by
  unfold State.endSegment
  split
  · rfl
  · dsimp only
    refine Eq.trans (read_foldl_of_frame (read := fun s : State => s.joist.course) (fun s d _ => ?settle) _) ?lost
    case settle =>
      exact read_foldl_of_frame (read := fun s : State => s.joist.course) (fun s k _ => outside_course.settleSlot s d k) s
    refine Eq.trans (State.course_updJoist _ fun _ => rfl) ?_
    refine read_foldl_of_frame (read := fun s => s.joist.course) (fun s x _ => ?_) s
    exact (outside_course.startRepairs ..).trans (outside_course.updSlot ..)

/-! ### Segment and lap boundaries (R122, R128) -/

theorem State.joist_noteManifest (s : State) (base : Nat) : (s.noteManifest base).joist = s.joist :=
  apart_joist.recordUnits ..

theorem State.joist_postAll (s : State) (code w1 w2 : Nat) : (s.postAll code w1 w2).joist = s.joist :=
  read_foldl_of_frame (fun s d _ => apart_joist.postEvent s d code noSrc w1 w2) s

/-- RMANNX is served at a lap boundary, whatever its manifest; the ring's place and its running stay. -/
theorem State.joist_switchManifest (s : State) :
    s.switchManifest.joist.rmannxV = false ∧ s.switchManifest.joist.seg = s.joist.seg ∧
      s.switchManifest.joist.lap = s.joist.lap ∧ s.switchManifest.joist.run = s.joist.run ∧
      s.switchManifest.joist.stopped = s.joist.stopped := by
  unfold State.switchManifest
  split
  next h => exact ⟨by simpa using h, rfl, rfl, rfl, rfl⟩
  next =>
    dsimp only
    rw [State.joist_postAll, State.updJoist_joist, State.joist_noteManifest]
    split <;> exact ⟨rfl, rfl, rfl, rfl, rfl⟩

/-- The ring goes on to the next lap; its manifest is still the old one. -/
def State.nextLap (s : State) : State := s.updJoist fun j => { j with lap := j.lap + 1, seg := 0, injecting := false }

theorem State.lapBoundary_eq (s : State) :
    s.lapBoundary = if s.joist.run then s.nextLap.switchManifest.resolveAgain.startSegment
      else s.nextLap.switchManifest.resolveAgain.updJoist fun j => { j with stopped := true } := by
  obtain ⟨-, -, -, hrun, -⟩ := s.nextLap.joist_switchManifest
  unfold State.lapBoundary
  dsimp only
  rw [← State.nextLap, apart_joist.resolveAgain, hrun, State.nextLap]
  rfl

theorem State.joist_lapBoundary {s : State} (h : s.joist.stopped = false) :
    s.lapBoundary.joist.seg = 0 ∧ s.lapBoundary.joist.lap = s.joist.lap + 1 ∧ s.lapBoundary.joist.rmannxV = false ∧
      (s.lapBoundary.joist.stopped = true ↔ s.joist.run = false) := by
  obtain ⟨hnext, hseg, hlap, -, hstopped⟩ := s.nextLap.joist_switchManifest
  rw [← apart_joist.resolveAgain s.nextLap.switchManifest] at hnext hseg hlap hstopped
  rw [State.lapBoundary_eq]
  split
  next hrun =>
    have hcourse := s.nextLap.switchManifest.resolveAgain.course_startSegment
    refine ⟨(Joist.seg_of_course hcourse).trans hseg, (Joist.lap_of_course hcourse).trans hlap,
      (Joist.rmannxV_of_course hcourse).trans hnext, ?_⟩
    rw [Joist.stopped_of_course hcourse, hstopped, hrun, State.nextLap, State.updJoist_joist, h]
    decide
  next hrun =>
    simp only [State.updJoist_joist, hseg, hlap, hnext, Bool.eq_false_iff.2 hrun]
    simp [State.nextLap]

theorem State.course_endSegment_govern (s : State) : s.endSegment.govern.joist.course = s.joist.course :=
  (State.course_govern _).trans s.course_endSegment

theorem State.passSegment_of_injecting {s : State} (hstopped : s.joist.stopped = false)
    (hinj : s.joist.injecting = true) :
    s.passSegment =
      if s.joist.seg.toNat + 1 < s.joist.segs.length then
        (s.endSegment.govern.updJoist fun j => { j with seg := j.seg + 1 }).startSegment
      else s.endSegment.govern.lapBoundary := by
  have hseg : s.endSegment.govern.joist.seg = s.joist.seg := Joist.seg_of_course s.course_endSegment_govern
  have hsegs : s.endSegment.govern.joist.segs = s.joist.segs := Joist.segs_of_course s.course_endSegment_govern
  simp only [State.passSegment, hstopped, hinj, hseg, hsegs, Bool.false_eq_true, Bool.not_true, if_false]

theorem State.passSegment_of_dwelling {s : State} (hstopped : s.joist.stopped = false)
    (hinj : s.joist.injecting = false) :
    s.passSegment = s.endDwells := by
  simp only [State.passSegment, hstopped, hinj, Bool.false_eq_true, Bool.not_false, if_false, if_true]

theorem State.joist_passSegment_next {s : State} (hstopped : s.joist.stopped = false) (hinj : s.joist.injecting = true)
    (hmore : s.joist.seg.toNat + 1 < s.joist.segs.length) :
    s.passSegment.joist.seg = s.joist.seg + 1 ∧ s.passSegment.joist.lap = s.joist.lap ∧
      s.passSegment.joist.stopped = false := by
  have hend := s.course_endSegment_govern
  have hstart := State.course_startSegment (s.endSegment.govern.updJoist fun j => { j with seg := j.seg + 1 })
  simp only [State.passSegment_of_injecting hstopped hinj, if_pos hmore, Joist.seg_of_course hstart,
    Joist.lap_of_course hstart, Joist.stopped_of_course hstart, State.updJoist_joist, Joist.seg_of_course hend,
    Joist.lap_of_course hend, Joist.stopped_of_course hend, hstopped, and_self]

theorem State.joist_passSegment_lap {s : State} (hstopped : s.joist.stopped = false) (hinj : s.joist.injecting = true)
    (hlast : s.joist.segs.length ≤ s.joist.seg.toNat + 1) :
    s.passSegment.joist.seg = 0 ∧ s.passSegment.joist.lap = s.joist.lap + 1 ∧ s.passSegment.joist.rmannxV = false ∧
      (s.passSegment.joist.stopped = true ↔ s.joist.run = false) := by
  have hend := s.course_endSegment_govern
  rw [State.passSegment_of_injecting hstopped hinj, if_neg (Nat.not_lt.2 hlast), ← Joist.lap_of_course hend,
    ← Joist.run_of_course hend]
  exact State.joist_lapBoundary ((Joist.stopped_of_course hend).trans hstopped)

/-! ### The start of the ring (R122) -/

theorem State.joist_ringStart_accepted {s : State} {m : Manifest} (hv : s.joist.rmanV = true)
    (hload : s.loadManifest s.joist.rmanBase.toNat = some m) :
    s.ringStart.joist.course = { s.joist with manifest := some m, stopped := false, seg := 0 }.course := by
  rw [State.ringStart, if_pos hv, hload]
  exact State.course_startSegment _

theorem State.joist_ringStart_refused {s : State}
    (h : s.joist.rmanV = false ∨ s.loadManifest s.joist.rmanBase.toNat = none) :
    s.ringStart.joist = { s.joist with merr := true, run := false } := by
  have hnone : (if s.joist.rmanV then s.loadManifest s.joist.rmanBase.toNat else none) = none := by
    rcases h with h | h <;> simp [h]
  simp only [State.ringStart, hnone, State.updJoist_joist]
  split
  · rw [State.joist_noteManifest]
  · rfl

/-- The fields of RGOV written, before a start of the ring. -/
def State.setGovernor (s : State) (v : W64) : State :=
  s.updJoist fun j =>
    { j with
      run := bit v 0, auto := bit v 1, speed := field v 8 7, minspd := field v 16 7, maxspd := field v 24 7
      merr := j.merr && !bit v 34 }

theorem State.rgovWrite_of_run {s : State} {v : W64} (hrun : bit v 0 = true) (hstopped : s.joist.stopped = true) :
    s.rgovWrite v = (s.setGovernor v).ringStart :=
  if_pos ⟨hrun, hstopped⟩

theorem State.rgovWrite_of_not_run {s : State} {v : W64} (hrun : bit v 0 = false) : s.rgovWrite v = s.setGovernor v :=
  if_neg fun h => Bool.false_ne_true (hrun.symm.trans h.1)

/-! ### Bit 0 of a written word -/

theorem getLsbD_setBit {w : Nat} (x : BitVec w) (n : Nat) (b : Bool) {i : Nat} (hi : i < w) :
    (setBit x n b).getLsbD i = if i = n then b else x.getLsbD i := by
  by_cases h : i = n
  · subst h
    cases b <;> simp [setBit, hi]
  · cases b <;> simp [setBit, hi, h]

theorem bit_setBit_zero (x : W64) (b : Bool) : bit (setBit x 0 b) 0 = b :=
  (getLsbD_setBit x 0 b (by decide)).trans (if_pos rfl)

theorem bitsOf_setBit_zero (x : W64) (b : Bool) {lo n : Nat} (hlo : 0 < lo) (hw : lo + n ≤ 64) :
    bitsOf (setBit x 0 b) lo n = bitsOf x lo n := by
  apply Nat.eq_of_testBit_eq
  intro i
  simp only [bitsOf, Nat.testBit_mod_two_pow, Nat.testBit_div_two_pow]
  by_cases hi : i < n
  · have := getLsbD_setBit x 0 b (i := i + lo) (by omega)
    rw [if_neg (by omega)] at this
    exact congrArg _ this
  · simp [hi]

/-! ### Slots -/

theorem State.slot_updCore (s : State) (d e k : Fin 8) (c : Fin 16) (f : Core → Core) :
    (s.updCore d c f).slot e k = s.slot e k :=
  s.slot_updDie_of_slots d e k fun _ => rfl

@[simp] theorem State.slot_updJoist (s : State) (f : Joist → Joist) (d k : Fin 8) :
    (s.updJoist f).slot d k = s.slot d k :=
  rfl

@[simp] theorem State.slot_devWrite (s : State) (pa : Nat) (bs : List Byte) (d k : Fin 8) :
    (s.devWrite pa bs).slot d k = s.slot d k := by
  unfold State.devWrite State.markDirty
  split
  · exact read_foldl_of_frame (read := fun s : State => s.slot d k) (fun s r _ => s.slot_updCore ..) _
  · rfl

@[simp] theorem State.mem_devWrite (s : State) (pa : Nat) (bs : List Byte) :
    (s.devWrite pa bs).mem = memWrite s.mem pa bs :=
  apart_mem.markDirty ..

/-- A write of a slot's descriptor changes no more of any slot than SEL and PGEN. -/
theorem State.slot_slotDesc (s : State) (d k : Fin 8) (active shadow : Nat) (swap : Bool) (e j : Fin 8) :
    ∃ sel gen, (s.slotDesc d k active shadow swap).slot e j = { s.slot e j with pbSel := sel, pbGen := gen } := by
  have hwrite (pa : Nat) (bs : List Byte) (x : Bool) (y : BitVec 32) : ∃ sel gen,
      ((s.devWrite pa bs).updSlot d k fun b => { b with pbSel := x, pbGen := y }).slot e j =
        { s.slot e j with pbSel := sel, pbGen := gen } := by
    by_cases h : d = e ∧ k = j
    · obtain ⟨rfl, rfl⟩ := h
      exact ⟨x, y, by rw [State.slot_updSlot, State.slot_devWrite]⟩
    · exact ⟨_, _, by rw [State.slot_updSlot_ne _ h, State.slot_devWrite]⟩
  unfold State.slotDesc
  dsimp only
  split
  · exact ⟨_, _, rfl⟩
  · split
    · obtain ⟨sel, gen, hs⟩ := hwrite ..
      exact ⟨sel, gen, Eq.trans (State.slot_updDie_of_slots _ d e j fun _ => rfl) hs⟩
    · exact hwrite ..

theorem State.slot_stopRepair (s : State) (d k e j : Fin 8) :
    ∃ x, (s.stopRepair d k).slot e j = { s.slot e j with repairOn := x } := by
  unfold State.stopRepair
  split
  · exact ⟨_, rfl⟩
  · rw [State.setHw, State.slot_updDie_of_slots _ d e j fun _ => by rfl]
    by_cases h : d = e ∧ k = j
    · obtain ⟨rfl, rfl⟩ := h
      exact ⟨none, by rw [State.slot_updSlot]⟩
    · exact ⟨_, by rw [State.slot_updSlot_ne _ h]⟩

/-! ### Dwells (R130) -/

/-- A slot without holds, of contexts or of tasks that are saved. -/
def BSlot.Unheld (b : BSlot) : Prop := b.hold = 0 ∧ b.parked = 0

theorem State.unheld_slotDesc {s : State} {e j : Fin 8} (h : (s.slot e j).Unheld) (d k : Fin 8) (active shadow : Nat)
    (swap : Bool) : ((s.slotDesc d k active shadow swap).slot e j).Unheld := by
  obtain ⟨sel, gen, hs⟩ := s.slot_slotDesc d k active shadow swap e j
  rw [hs]
  exact h

theorem State.unheld_stopRepair {s : State} {e j : Fin 8} (h : (s.slot e j).Unheld) (d k : Fin 8) :
    ((s.stopRepair d k).slot e j).Unheld := by
  obtain ⟨x, hs⟩ := s.slot_stopRepair d k e j
  rw [hs]
  exact h

theorem State.unheld_fillSlot {s : State} {e j : Fin 8} (h : (s.slot e j).Unheld) (d k : Fin 8) (g : Segment) :
    ((s.fillSlot d k g).slot e j).Unheld := by
  have hempty (active : Nat) : (((s.slotDesc d k 0 active true).stopRepair d k).slot e j).Unheld :=
    State.unheld_stopRepair (State.unheld_slotDesc h ..) d k
  unfold State.fillSlot
  dsimp only
  rw [State.slot_updDie_of_slots _ d e j fun _ => by rfl]
  refine State.unheld_slotDesc ?_ ..
  by_cases hk : d = e ∧ k = j
  · obtain ⟨rfl, rfl⟩ := hk
    rw [State.slot_updSlot]
    exact ⟨rfl, rfl⟩
  · rw [State.slot_updSlot_ne _ hk]
    exact hempty _

theorem State.unheld_endDwells {s : State} {e j : Fin 8} (h : (s.slot e j).Unheld) : (s.endDwells.slot e j).Unheld := by
  have hfill (g : Segment) (l : List (Fin 8 × Fin 8)) : ((l.foldl (fun s x =>
      let b := s.slot x.1 x.2
      if b.state = .dwell ∧ b.count = 0 then s.fillSlot x.1 x.2 g else s) s).slot e j).Unheld := by
    refine List.foldlRecOn (motive := fun s : State => (s.slot e j).Unheld) l _ h fun s hs x _ => ?_
    dsimp only
    split
    · exact State.unheld_fillSlot hs ..
    · exact hs
  unfold State.endDwells
  split
  · exact h
  · dsimp only
    split
    · exact hfill ..
    · rw [State.slot_updJoist, State.slot_updJoist]
      exact hfill ..

theorem State.unheld_revoke (s : State) (d k : Fin 8) : ((s.revoke d k).slot d k).Unheld := by
  rw [State.revoke, State.slot_updDie_of_slots _ d d k fun _ => by rfl, State.slot_updSlot]
  exact ⟨rfl, rfl⟩

theorem State.rvkcnt_revoke (s : State) (d k : Fin 8) : ((s.revoke d k).die d).rvkcnt = (s.die d).rvkcnt + 1 := by
  rw [State.revoke, State.die_updDie, State.updSlot, State.die_updDie]

theorem State.limitDwell_of_over {s : State} {d k : Fin 8}
    (hk : (fins 8).find? (fun k => (s.slot d k).state == .dwell) = some k) (hlimit : (s.slot d k).dwell ≠ 0xFFFF)
    (hover : (s.slot d k).dwellAt + 1024 * (s.slot d k).dwell.toNat ≤ s.cycle) (hheld : (s.slot d k).count ≠ 0) :
    s.limitDwell d = (s.revoke d k).endDwells := by
  simp only [State.limitDwell, hk, hlimit, Nat.not_lt.2 hover, hheld, or_self, if_false]

/-! ### A slot settled (R125, R127) -/

theorem State.settleSlot_of_short {s : State} {d k : Fin 8} (hgood : (s.slot d k).failed = false)
    (hshort : (s.slot d k).got ≠ (s.slot d k).len) : s.settleSlot d k = s := by
  simp [State.settleSlot, hgood, hshort]

theorem State.settleSlot_of_full {s : State} {d k : Fin 8} (hfill : (s.slot d k).state = .filling)
    (hgood : (s.slot d k).failed = false) (hfull : (s.slot d k).got = (s.slot d k).len) :
    s.settleSlot d k = s.boardSlot d k := by
  simp [State.settleSlot, hfill, hgood, hfull]

theorem State.state_boardSlot (s : State) (d k : Fin 8) : ((s.boardSlot d k).slot d k).state = .boarded := by
  have h : ((s.boardSlot d k).slot d k).capture = _ := (apart_capture d k).boardSlot s d k
  rw [State.slot_updSlot] at h
  exact BSlot.state_of_capture h

/-- A slot whose repair has failed is faulted, or waits for its segment's end. -/
theorem State.slot_settleSlot_of_failed {s : State} {d k : Fin 8} (h : (s.slot d k).failed = true) :
    ((s.settleSlot d k).slot d k).failed = true ∧ ((s.settleSlot d k).slot d k).repairs = (s.slot d k).repairs := by
  have hfault : ((s.faultSlot d k).slot d k).capture = _ := (apart_capture d k).faultSlot s d k
  rw [State.slot_updSlot] at hfault
  unfold State.settleSlot
  dsimp only
  rw [if_pos h]
  split
  · exact ⟨h, rfl⟩
  · split
    · exact ⟨h, rfl⟩
    · exact ⟨(BSlot.failed_of_capture hfault).trans h, (BSlot.repairs_of_capture hfault :)⟩

/-! ### The next tile of the ring (R119, R125, R127) -/

theorem State.fillingSlot_eq_some {s : State} {d k : Fin 8} (h : s.fillingSlot d = some k) :
    (s.slot d k).state = .filling ∧ ∃ g, s.joist.curSeg = some g := by
  unfold State.fillingSlot at h
  split at h
  next g _ hg =>
    have hk := List.find?_some h
    simp only [Bool.and_eq_true, beq_iff_eq] at hk
    obtain ⟨⟨⟨hfill, -⟩, -⟩, -⟩ := hk
    exact ⟨hfill, g, hg⟩
  next => simp at h

/-- A tile has gone by a die's slot, and the ring sends the next one at a cycle. -/
def State.passTile (s : State) (d k : Fin 8) (next at_ : Nat) : State :=
  (s.updSlot d k fun b => { b with next := next }).updJoist fun j => { j with tileAt := at_ }

theorem State.slot_passTile (s : State) (d k : Fin 8) (next at_ : Nat) :
    (s.passTile d k next at_).slot d k = { s.slot d k with next := next } := by
  rw [State.passTile, State.slot_updJoist, State.slot_updSlot]

/-- A tile captured: its bytes in their place, and counted. -/
def State.captureTile (s : State) (d k : Fin 8) (bs : List Byte) (at_ : Nat) : State :=
  ((s.passTile d k ((s.slot d k).next + 1) at_).putTile d k (s.slot d k).next bs).updSlot d k fun b =>
    { b with got := b.got + 1 }

theorem State.slot_captureTile (s : State) (d k : Fin 8) (bs : List Byte) (at_ : Nat) :
    (s.captureTile d k bs at_).slot d k =
      { s.slot d k with next := (s.slot d k).next + 1, got := (s.slot d k).got + 1 } := by
  rw [State.captureTile, State.slot_updSlot, State.putTile, State.slot_devWrite, State.slot_passTile]

theorem Die.slotBase_of_boardRegs {x y : Die} (h : x.boardRegs = y.boardRegs) (d : Fin 8) (k : Nat) :
    x.slotBase d k = y.slotBase d k := by
  rw [Die.slotBase, Die.bscfg_of_boardRegs h, Die.slotBase]

theorem memByte_memWrite_offset {m : Memory} (h : memWf m = true) (a : Nat) (bs : List Byte) {n : Nat}
    (hn : n < bs.length) : memByte (memWrite m a bs) (a + n) = bs.getD n 0 := by
  rw [memByte_memWrite h, if_pos (by omega), Nat.add_sub_cancel_left]

theorem State.memByte_captureTile {s : State} (hok : s.MemOk) (d k : Fin 8) {bs : List Byte} (at_ : Nat) {n : Nat}
    (hn : n < bs.length) : memByte (s.captureTile d k bs at_).mem
      ((s.die d).slotBase d k.val + 65536 * (s.slot d k).next + n) = bs.getD n 0 := by
  have hbase : ((s.passTile d k ((s.slot d k).next + 1) at_).die d).slotBase d k.val = (s.die d).slotBase d k.val :=
    Die.slotBase_of_boardRegs ((outside_boardRegs d).updSlot s d k _) d k.val
  rw [State.captureTile, State.updSlot, State.updDie_mem, State.putTile, State.mem_devWrite, hbase]
  exact memByte_memWrite_offset hok.1 _ _ hn

theorem length_devRead {s : State} (hok : s.MemOk) (a n : Nat) : (s.devRead a n).length = n := by
  rw [State.devRead, memRead_eq hok.1, List.length_map, List.length_range]

theorem getD_devRead {s : State} (hok : s.MemOk) (a : Nat) {n i : Nat} (hi : i < n) :
    (s.devRead a n).getD i 0 = memByte s.mem (a + i) := by
  rw [State.devRead, memRead_eq hok.1]
  simp [List.getD_eq_getElem?_getD, hi]

/-! ### What the feeder sends (R119) -/

theorem State.feedTile_of_noWire {s : State} (h : s.joist.wire = none) (d : Fin 8) (i src : Nat) :
    ∃ w, s.feedTile d i src = ((s.recordUnits src 65536 3 d 0).updJoist fun j => { j with wire := w },
      s.devRead src 65536, s.poisoned src 65536) := by
  have hw : (s.recordUnits src 65536 3 d 0).joist.wire = none := by rw [apart_joist.recordUnits, h]
  unfold State.feedTile State.feedTile.fresh
  simp only [h]
  split
  · exact ⟨_, rfl⟩
  · refine ⟨none, ?_⟩
    rw [← hw]
    rfl

theorem State.feedTile_of_good {s : State} (hwire : s.joist.wire = none) {src : Nat}
    (hgood : s.poisoned src 65536 = false) (d : Fin 8) (i : Nat) :
    ∃ w, s.feedTile d i src = (s.updJoist fun j => { j with wire := w }, s.devRead src 65536, false) := by
  obtain ⟨w, hfeed⟩ := State.feedTile_of_noWire hwire d i src
  rw [State.recordUnits_eq_self hgood, hgood] at hfeed
  exact ⟨w, hfeed⟩

theorem State.feedTile_of_wire {s : State} {g : Segment} {i : Nat} {bs : List Byte} {bad : Bool}
    (hg : s.joist.curSeg = some g) (hshared : g.shared = true) (h : s.joist.wire = some (i, bs, bad)) (d : Fin 8)
    (src : Nat) : s.feedTile d i src = (s, bs, bad) := by
  simp [State.feedTile, h, hg, hshared]

theorem tileTaken_intact (g : Segment) (d : Fin 8) (i lap : Nat) (payload : List Byte) :
    tileTaken g d i lap payload [] = some payload :=
  if_pos rfl

section
variable {s u : State} {d k : Fin 8} {bs : List Byte} {bad : Bool}
  (hnext : s.tileNext d = true) (hk : s.fillingSlot d = some k)
  (hfeed : s.feedTile d (s.slot d k).next ((s.slot d k).tileSrc (s.slot d k).next) = (u, bs, bad))
include hnext hk hfeed

theorem execRingTileArrival_of_taken {flips : List (Nat × BitVec 8)} {g : Segment} {tile : List Byte}
    (hslot : u.slot d k = s.slot d k) (hg : u.joist.curSeg = some g) (hgood : bad = false)
    (htaken : tileTaken g d (s.slot d k).next u.joist.lap.toNat bs flips = some tile) :
    ∃ at_, execRingTileArrival d (some flips) s = .next ((u.captureTile d k tile at_).settleSlot d k) := by
  subst hgood
  simp only [State.captureTile, hslot]
  unfold execRingTileArrival
  simp only [hnext, hk, hfeed, hg, htaken, Bool.not_true, Bool.false_eq_true, if_false]
  exact ⟨_, rfl⟩

theorem execRingTileArrival_of_lost {flips : Option (List (Nat × BitVec 8))} {g : Segment} (hg : u.joist.curSeg = some g)
    (hlost : flips = none ∨ bad = true ∨ ∃ f, flips = some f ∧
      tileTaken g d (s.slot d k).next u.joist.lap.toNat bs f = none) :
    ∃ at_, execRingTileArrival d flips s = .next ((((u.passTile d k ((s.slot d k).next + 1) at_).updSlot d k fun b =>
      b.spoil (s.slot d k).next)).startRepairs d) := by
  unfold execRingTileArrival
  simp only [hnext, hk, hfeed, hg, Bool.not_true, Bool.false_eq_true, if_false]
  rcases hlost with rfl | rfl | ⟨f, rfl, hnone⟩
  · exact ⟨_, rfl⟩
  · cases flips <;> exact ⟨_, rfl⟩
  · cases bad
    · simp only [hnone, Bool.false_eq_true, if_false]
      exact ⟨_, rfl⟩
    · exact ⟨_, rfl⟩

end

/-! ### Repairs (R127) -/

/-- A slot whose tile cannot be repaired: nothing is left to repair, and the segment fails. -/
def State.failRepair (s : State) (d k : Fin 8) : State :=
  (s.stopRepair d k).updSlot d k fun b => { b with repairs := [], failed := true }

/-- A tile repaired: its bytes in their place, its engine free, and counted. -/
def State.repairTile (s : State) (d k : Fin 8) (e : Fin 4) (i : Nat) (rest : List Nat) : State :=
  (((s.putTile d k i (s.devRead ((s.slot d k).tileSrc i) 65536)).stopRepair d k).updSlot d k fun b =>
    { b with repairs := rest, got := b.got + 1 }).updDie d fun x =>
    { x with
      rprcnt := x.rprcnt + 1
      engines := vupd x.engines e fun y => { y with bytes := y.bytes + 65536 } }

section
variable {s : State} {d k : Fin 8} {ok : Bool} {i : Nat} {rest : List Nat}
  (hk : (fins 8).find? (fun k => ((s.startRepairs d).slot d k).repairOn.isSome) = some k)
  (hrep : ((s.startRepairs d).slot d k).repairs = i :: rest)
include hk hrep

theorem execTileRepairDone_of_failed
    (h : (s.startRepairs d).poisoned (((s.startRepairs d).slot d k).tileSrc i) 65536 = true ∨
      (ok = false ∧ ((s.startRepairs d).slot d k).tries ≠ 0)) :
    execTileRepairDone d ok s = .next (((((s.startRepairs d).recordUnits
      (((s.startRepairs d).slot d k).tileSrc i) 65536 3 d 0).failRepair d k).settleSlot d k).startRepairs d) := by
  unfold execTileRepairDone
  simp only [hk, hrep, Bool.not_eq_true', if_pos h]
  rfl

theorem execTileRepairDone_of_first
    (hgood : (s.startRepairs d).poisoned (((s.startRepairs d).slot d k).tileSrc i) 65536 = false)
    (htries : ((s.startRepairs d).slot d k).tries = 0) :
    execTileRepairDone d false s = .next ((s.startRepairs d).updSlot d k fun b => { b with tries := 1 }) := by
  unfold execTileRepairDone
  simp [hk, hrep, hgood, htries, State.recordUnits_eq_self hgood]

theorem execTileRepairDone_of_repaired
    (hgood : (s.startRepairs d).poisoned (((s.startRepairs d).slot d k).tileSrc i) 65536 = false) :
    ∃ e, execTileRepairDone d true s =
      .next ((((s.startRepairs d).repairTile d k e i rest).settleSlot d k).startRepairs d) := by
  have hon := List.find?_some hk
  obtain ⟨e, he⟩ := Option.isSome_iff_exists.1 hon
  refine ⟨e, ?_⟩
  unfold execTileRepairDone
  simp only [hk, hrep, he, hgood, State.recordUnits_eq_self hgood, Bool.not_true, Bool.false_eq_true, false_and, or_false,
    if_false]
  rfl

end

theorem State.slot_failRepair (s : State) (d k : Fin 8) :
    ((s.failRepair d k).slot d k).failed = true ∧ ((s.failRepair d k).slot d k).repairs = [] := by
  rw [State.failRepair, State.slot_updSlot]
  exact ⟨rfl, rfl⟩

theorem State.slot_repairTile (s : State) (d k : Fin 8) (e : Fin 4) (i : Nat) (rest : List Nat) :
    ((s.repairTile d k e i rest).slot d k).repairs = rest ∧
      ((s.repairTile d k e i rest).slot d k).got = (s.slot d k).got + 1 ∧
      ((s.repairTile d k e i rest).slot d k).len = (s.slot d k).len ∧
      ((s.repairTile d k e i rest).slot d k).failed = (s.slot d k).failed := by
  obtain ⟨x, hslot⟩ := (s.putTile d k i (s.devRead ((s.slot d k).tileSrc i) 65536)).slot_stopRepair d k d k
  rw [State.repairTile, State.slot_updDie_of_slots _ d d k fun _ => by rfl, State.slot_updSlot, hslot, State.putTile,
    State.slot_devWrite]
  exact ⟨rfl, rfl, rfl, rfl⟩

theorem State.rprcnt_repairTile (s : State) (d k : Fin 8) (e : Fin 4) (i : Nat) (rest : List Nat) :
    ((s.repairTile d k e i rest).die d).rprcnt = (s.die d).rprcnt + 1 := by
  have h := outside_boardRegs d
  rw [State.repairTile, State.die_updDie]
  exact congrArg (· + 1)
    (Die.rprcnt_of_boardRegs ((h.updSlot ..).trans ((h.stopRepair ..).trans (h.devWrite h.store ..))))

end Sys2Proof.Machine

namespace Sys2Proof.Claims
open Machine

/-! ### Tiles captured, and left to a repair (05 R119, R125, R127) -/

section
variable {s : State} {d k : Fin 8} (hnext : s.tileNext d = true) (hk : s.fillingSlot d = some k)
include hnext hk

section
variable {bs : List Byte} {w : Option (Nat × List Byte × Bool)}
  (hfeed : s.feedTile d (s.slot d k).next ((s.slot d k).tileSrc (s.slot d k).next) =
    (s.updJoist fun j => { j with wire := w }, bs, false))
include hfeed

theorem gives_ringTileArrival_captured : ∃ at_, Gives s (.ringTileArrival d (some []))
    (((s.updJoist fun j => { j with wire := w }).captureTile d k bs at_).settleSlot d k) := by
  obtain ⟨-, g, hg⟩ := State.fillingSlot_eq_some hk
  exact execRingTileArrival_of_taken hnext hk hfeed rfl hg rfl (tileTaken_intact ..)

theorem leads_ringTileArrival_captured (hok : s.MemOk) (hgood : (s.slot d k).failed = false)
    (hshort : (s.slot d k).got + 1 ≠ (s.slot d k).len) : Leads s (.ringTileArrival d (some [])) (fun t =>
      t.slot d k = { s.slot d k with next := (s.slot d k).next + 1, got := (s.slot d k).got + 1 } ∧
      ∀ n, n < bs.length →
        memByte t.mem ((s.die d).slotBase d k.val + 65536 * (s.slot d k).next + n) = bs.getD n 0) := by
  obtain ⟨at_, hgives⟩ := gives_ringTileArrival_captured hnext hk hfeed
  have hslot := (s.updJoist fun j => { j with wire := w }).slot_captureTile d k bs at_
  rw [State.settleSlot_of_short (by rw [hslot]; exact hgood) (by rw [hslot]; exact hshort)] at hgives
  have hok' : (s.updJoist fun j => { j with wire := w }).MemOk := hok
  exact ⟨_, hgives, hslot, fun n hn => State.memByte_captureTile hok' d k at_ hn⟩

theorem leads_ringTileArrival_boarded (hgood : (s.slot d k).failed = false)
    (hfull : (s.slot d k).got + 1 = (s.slot d k).len) :
    Leads s (.ringTileArrival d (some [])) (fun t => (t.slot d k).state = .boarded) := by
  obtain ⟨at_, hgives⟩ := gives_ringTileArrival_captured hnext hk hfeed
  obtain ⟨hfill, -⟩ := State.fillingSlot_eq_some hk
  have hslot := (s.updJoist fun j => { j with wire := w }).slot_captureTile d k bs at_
  rw [State.settleSlot_of_full (by rw [hslot]; exact hfill) (by rw [hslot]; exact hgood)
    (by rw [hslot]; exact hfull)] at hgives
  exact ⟨_, hgives, State.state_boardSlot _ d k⟩

end

theorem leads_ringTileArrival_lost {g : Segment} {wire : Option (List (Nat × BitVec 8))} (hg : s.joist.curSeg = some g)
    (hwire : s.joist.wire = none)
    (hlost : wire = none ∨ s.poisoned ((s.slot d k).tileSrc (s.slot d k).next) 65536 = true ∨
      (∃ flips, wire = some flips ∧ tileTaken g d (s.slot d k).next s.joist.lap.toNat
        (s.devRead ((s.slot d k).tileSrc (s.slot d k).next) 65536) flips = none)) :
    Leads s (.ringTileArrival d wire) (fun t =>
      (t.slot d k).next = (s.slot d k).next + 1 ∧ (t.slot d k).got = (s.slot d k).got ∧
      (t.slot d k).repairs = (s.slot d k).repairs ++ [(s.slot d k).next] ∧ t.mem = s.mem) := by
  obtain ⟨w, hfeed⟩ := State.feedTile_of_noWire hwire d (s.slot d k).next ((s.slot d k).tileSrc (s.slot d k).next)
  generalize hu : s.recordUnits ((s.slot d k).tileSrc (s.slot d k).next) 65536 3 d 0 = u at hfeed
  have hj : u.joist = s.joist := hu ▸ apart_joist.recordUnits ..
  have hm : u.mem = s.mem := hu ▸ apart_mem.recordUnits ..
  have hc : (u.slot d k).capture = (s.slot d k).capture := hu ▸ s.capture_recordUnits ..
  have hgot : (u.slot d k).got = (s.slot d k).got := BSlot.got_of_capture hc
  have hrepairs : (u.slot d k).repairs = (s.slot d k).repairs := BSlot.repairs_of_capture hc
  rw [← hj] at hg hlost
  obtain ⟨at_, hgives⟩ := execRingTileArrival_of_lost hnext hk hfeed hg hlost
  have ht := State.capture_startRepairs (((u.updJoist fun j => { j with wire := w }).passTile d k
    ((s.slot d k).next + 1) at_).updSlot d k fun b => b.spoil (s.slot d k).next) d d k
  rw [State.slot_updSlot, State.slot_passTile, State.slot_updJoist] at ht
  exact ⟨_, hgives, BSlot.next_of_capture ht, (BSlot.got_of_capture ht).trans hgot,
    (BSlot.repairs_of_capture ht).trans (congrArg (· ++ [(s.slot d k).next]) hrepairs),
    (apart_mem.startRepairs _ d).trans hm⟩

end

theorem gives_ringTileArrival_other {s : State} {d : Fin 8} (h : s.tileNext d = false)
    (wire : Option (List (Nat × BitVec 8))) : Gives s (.ringTileArrival d wire) s :=
  if_pos (by rw [h]; rfl)

/-! ### Repairs (05 R127) -/

section
variable {s : State} {d k : Fin 8} {i : Nat} {rest : List Nat}
  (hk : (fins 8).find? (fun k => ((s.startRepairs d).slot d k).repairOn.isSome) = some k)
  (hrep : ((s.startRepairs d).slot d k).repairs = i :: rest)
include hk hrep

theorem leads_tileRepairDone_failed {ok : Bool}
    (h : (s.startRepairs d).poisoned (((s.startRepairs d).slot d k).tileSrc i) 65536 = true ∨
      (ok = false ∧ ((s.startRepairs d).slot d k).tries ≠ 0)) :
    Leads s (.tileRepairDone d ok) (fun t => (t.slot d k).failed = true ∧ (t.slot d k).repairs = []) := by
  have hexec := execTileRepairDone_of_failed hk hrep h
  generalize (s.startRepairs d).recordUnits (((s.startRepairs d).slot d k).tileSrc i) 65536 3 d 0 = u at hexec
  obtain ⟨hfailed, hnone⟩ := u.slot_failRepair d k
  obtain ⟨hfailed', hnone'⟩ := State.slot_settleSlot_of_failed hfailed
  have ht := State.capture_startRepairs ((u.failRepair d k).settleSlot d k) d d k
  exact ⟨_, hexec, (BSlot.failed_of_capture ht).trans hfailed',
    (BSlot.repairs_of_capture ht).trans (hnone'.trans hnone)⟩

theorem leads_tileRepairDone_repaired
    (hgood : (s.startRepairs d).poisoned (((s.startRepairs d).slot d k).tileSrc i) 65536 = false)
    (hsound : ((s.startRepairs d).slot d k).failed = false)
    (hshort : ((s.startRepairs d).slot d k).got + 1 ≠ ((s.startRepairs d).slot d k).len) :
    Leads s (.tileRepairDone d true) (fun t => (t.slot d k).repairs = rest ∧
      (t.slot d k).got = ((s.startRepairs d).slot d k).got + 1 ∧ (t.die d).rprcnt = (s.die d).rprcnt + 1) := by
  obtain ⟨e, hexec⟩ := execTileRepairDone_of_repaired hk hrep hgood
  obtain ⟨hrest, hgot, hlen, hfailed⟩ := (s.startRepairs d).slot_repairTile d k e i rest
  rw [State.settleSlot_of_short (hfailed.trans hsound) (by rwa [hgot, hlen])] at hexec
  have ht := State.capture_startRepairs ((s.startRepairs d).repairTile d k e i rest) d d k
  refine ⟨_, hexec, (BSlot.repairs_of_capture ht).trans hrest, (BSlot.got_of_capture ht).trans hgot, ?_⟩
  rw [State.rprcnt_startRepairs, State.rprcnt_repairTile, State.rprcnt_startRepairs]

end

/-! ### Dwells (05 R130) -/

theorem leads_dwellLimit {s : State} {d k : Fin 8}
    (hk : (fins 8).find? (fun k => (s.slot d k).state == .dwell) = some k) (hlimit : (s.slot d k).dwell ≠ 0xFFFF)
    (hover : (s.slot d k).dwellAt + 1024 * (s.slot d k).dwell.toNat ≤ s.cycle) (hheld : (s.slot d k).count ≠ 0) :
    Leads s (.dwellLimit d) (fun t =>
      (t.die d).rvkcnt = (s.die d).rvkcnt + 1 ∧ (t.slot d k).hold = 0 ∧ (t.slot d k).parked = 0) := by
  refine ⟨_, congrArg Host.Outcome.next (State.limitDwell_of_over hk hlimit hover hheld), ?_,
    State.unheld_endDwells (s.unheld_revoke d k)⟩
  rw [Die.rvkcnt_of_boardRegs ((s.revoke d k).boardRegs_endDwells d), State.rvkcnt_revoke]

/-! ### Writes of RGOV (05 R122, R133) -/

theorem leads_ringStart_accepted {s : State} {m : Manifest} (hstopped : s.joist.stopped = true)
    (hv : s.joist.rmanV = true) (hload : s.loadManifest s.joist.rmanBase.toNat = some m) (val : W64) :
    Leads s (.ringStart val) (fun t => t.joist.run = true ∧ t.joist.stopped = false ∧ t.joist.manifest = some m ∧
      t.joist.seg = 0 ∧ t.joist.lap = s.joist.lap) := by
  have hset : bit (setBit val 0 true) 0 = true := bit_setBit_zero val true
  have ht := State.joist_ringStart_accepted (s := s.setGovernor (setBit val 0 true)) hv hload
  refine ⟨_, congrArg Host.Outcome.next (State.rgovWrite_of_run hset hstopped), ?_⟩
  exact ⟨(Joist.run_of_course ht).trans hset, (Joist.stopped_of_course ht :), (Joist.manifest_of_course ht :),
    (Joist.seg_of_course ht :), (Joist.lap_of_course ht :)⟩

theorem leads_ringStart_refused {s : State} (hstopped : s.joist.stopped = true)
    (h : s.joist.rmanV = false ∨ s.loadManifest s.joist.rmanBase.toNat = none) (val : W64) :
    Leads s (.ringStart val) (fun t => t.joist.run = false ∧ t.joist.stopped = true ∧ t.joist.merr = true) := by
  have ht := State.joist_ringStart_refused (s := s.setGovernor (setBit val 0 true)) h
  refine ⟨_, congrArg Host.Outcome.next (State.rgovWrite_of_run (bit_setBit_zero val true) hstopped), ?_⟩
  dsimp only
  rw [ht]
  exact ⟨rfl, hstopped, rfl⟩

theorem toNat_field_setBit_zero (x : W64) (b : Bool) {lo n : Nat} (hlo : 0 < lo) (hw : lo + n ≤ 64) :
    (field (setBit x 0 b) lo n).toNat = part x.toNat lo n :=
  (BitVec.toNat_ofNat ..).trans (bitsOf_setBit_zero x b hlo hw)

theorem leads_ringStop (s : State) (val : W64) :
    Leads s (.ringStop val) (fun t => t.joist.run = false ∧ t.joist.stopped = s.joist.stopped ∧
      t.joist.seg = s.joist.seg ∧ t.joist.manifest = s.joist.manifest ∧ t.dies = s.dies ∧ t.mem = s.mem ∧
      (t.joist.auto = true ↔ part val.toNat 1 1 = 1) ∧ t.joist.speed.toNat = part val.toNat 8 7 ∧
      t.joist.minspd.toNat = part val.toNat 16 7 ∧ t.joist.maxspd.toNat = part val.toNat 24 7) := by
  have hclear : bit (setBit val 0 false) 0 = false := bit_setBit_zero val false
  have hauto : bit (setBit val 0 false) 1 = true ↔ part val.toNat 1 1 = 1 := by
    rw [bit_eq_decide_part, decide_eq_true_iff]
    exact Eq.congr_left (bitsOf_setBit_zero val false (by decide) (by decide))
  exact ⟨_, congrArg Host.Outcome.next (State.rgovWrite_of_not_run hclear), hclear, rfl, rfl, rfl, rfl, rfl, hauto,
    toNat_field_setBit_zero val false (by decide) (by decide), toNat_field_setBit_zero val false (by decide) (by decide),
    toNat_field_setBit_zero val false (by decide) (by decide)⟩

/-! ### Writes of BSCFG (05 R134) -/

/-- What a value written to BSCFG must meet: the ring stands still, and the slots fit the die and its table. -/
def BscfgOk (s : State) (v : W64) : Prop :=
  s.joist.stopped = true ∧ part v.toNat 8 5 + min 8 (max 1 (part v.toNat 4 4)) ≤ 32 ∧
    part v.toNat 16 12 + min 8 (max 1 (part v.toNat 4 4)) ≤ 4096

theorem bscfg_refused_iff (s : State) (v : W64) :
    ((!s.joist.stopped) = true ∨ 32 < bitsOf v 8 5 + bsNslot v ∨ 4096 < bitsOf v 16 12 + bsNslot v) ↔ ¬BscfgOk s v := by
  rw [BscfgOk, not_and_or, not_and_or, Nat.not_le, Nat.not_le, Bool.not_eq_true', Bool.not_eq_true]
  rfl

theorem leads_bscfgWrite_accepted {s : State} {val : W64} (h : BscfgOk s (val &&& bscfgMask)) (d : Fin 8) :
    Leads s (.bscfgWrite d val) (fun t => (t.die d).bscfg = val &&& bscfgMask ∧ t.joist = s.joist) := by
  refine ⟨_, if_neg (mt (bscfg_refused_iff ..).1 (not_not_intro h)), ?_⟩
  generalize val &&& bscfgMask = v
  have hoff (c : Prop) [Decidable c] :
      (if c then (s.updDie d fun x => { x with bscfg := setBit x.bscfg 0 false }).boardOff d else s).joist = s.joist := by
    split
    · exact outside_joist.boardOff ..
    · rfl
  split
  · refine ⟨?_, (outside_joist.boardOn ..).trans (hoff _)⟩
    rw [Die.bscfg_of_boardRegs ((outside_boardRegs d).boardOn ..), State.die_updDie]
  · exact ⟨by rw [State.die_updDie], hoff _⟩

theorem gives_bscfgWrite_refused {s : State} {val : W64} (h : ¬BscfgOk s (val &&& bscfgMask)) (d : Fin 8) :
    Gives s (.bscfgWrite d val) s :=
  if_pos ((bscfg_refused_iff ..).2 h)

/-- Settles O42: tiles captured, lost and repaired, the ring's boundaries and dwells, and the writes of RGOV and BSCFG. -/
theorem caravanEvents : Obligations.CaravanEvents := by
  intro s d k src i rest val m
  refine ⟨?captured, ?shared, fun wire g hnext hk hg hwire => leads_ringTileArrival_lost hnext hk hg hwire,
    gives_ringTileArrival_other, fun hk hrep => ?repairs, fun hstopped hinj => ⟨?segment, ?lap⟩, ?dwelling,
    leads_dwellLimit, fun hstopped hv hload => leads_ringStart_accepted hstopped hv hload val,
    fun hstopped h => leads_ringStart_refused hstopped h val, leads_ringStop s val,
    fun h => leads_bscfgWrite_accepted h d, fun h => gives_bscfgWrite_refused h d⟩
  case captured =>
    rintro hnext hk hgood rfl hok hwire hclean
    obtain ⟨w, hfeed⟩ := State.feedTile_of_good hwire hclean d (s.slot d k).next
    refine ⟨fun hshort => ?_, leads_ringTileArrival_boarded hnext hk hfeed hgood⟩
    obtain ⟨t, hgives, hslot, hbytes⟩ := leads_ringTileArrival_captured hnext hk hfeed hok hgood hshort
    refine ⟨t, hgives, fun n hn => ?_, hslot⟩
    rw [hbytes n (by rwa [length_devRead hok]), getD_devRead hok _ hn]
  case shared =>
    intro g bs hnext hk hgood hg hshared hwire hlen hok hshort
    obtain ⟨t, hgives, hslot, hbytes⟩ := leads_ringTileArrival_captured (w := s.joist.wire) hnext hk
      (State.feedTile_of_wire hg hshared hwire d _) hok hgood hshort
    exact ⟨t, hgives, by rw [hslot], fun n hn => hbytes n (by rwa [hlen])⟩
  case repairs =>
    refine ⟨fun hbad ok => leads_tileRepairDone_failed hk hrep (.inl hbad), fun hgood =>
      ⟨leads_tileRepairDone_repaired hk hrep hgood, execTileRepairDone_of_first hk hrep hgood,
        fun htries => leads_tileRepairDone_failed hk hrep (.inr ⟨rfl, htries⟩)⟩⟩
  case segment => exact fun hmore => ⟨_, rfl, State.joist_passSegment_next hstopped hinj hmore⟩
  case lap => exact fun hlast => ⟨_, rfl, State.joist_passSegment_lap hstopped hinj hlast⟩
  case dwelling =>
    intro hstopped hinj
    exact congrArg Host.Outcome.next (State.passSegment_of_dwelling hstopped hinj)

end Sys2Proof.Claims

/-! Waits (06 R157, 07 R175, R176, 16 R389): what the home of a barrier tells a wait, what a wait that ends leaves of its
context, and what the loss of a registration leaves; from these O36. -/

namespace Sys2Proof.Machine

/-! ### A part of what is read -/

theorem leNat_append (xs ys : List Byte) : leNat (xs ++ ys) = leNat xs + 2 ^ (8 * xs.length) * leNat ys := by
  induction xs with
  | nil => simp [leNat]
  | cons x xs ih =>
    simp only [List.cons_append, leNat, ih, List.length_cons, Nat.mul_add, Nat.pow_add]
    ring

theorem memRead_add {m : Memory} (h : memWf m = true) (a i n : Nat) :
    memRead m a (i + n) = memRead m a i ++ memRead m (a + i) n := by
  rw [memRead_eq h, memRead_eq h, memRead_eq h, List.range_add, List.map_append, List.map_map]
  simp only [Function.comp_def, Nat.add_assoc]

/-- Bytes i to i + k - 1 of the number that n bytes make. -/
theorem leNat_memRead_slice {m : Memory} (h : memWf m = true) (a i k n : Nat) :
    leNat (memRead m a (i + (k + n))) / 2 ^ (8 * i) % 2 ^ (8 * k) = leNat (memRead m (a + i) k) := by
  have hlen (b j : Nat) : (memRead m b j).length = j := by rw [memRead_eq h, List.length_map, List.length_range]
  rw [memRead_add h, memRead_add h, leNat_append, leNat_append, hlen, hlen,
    Nat.add_mul_div_left _ _ (Nat.two_pow_pos _), Nat.div_eq_of_lt (leNat_memRead_lt h a i), Nat.zero_add,
    Nat.add_mul_mod_self_left, Nat.mod_eq_of_lt (leNat_memRead_lt h _ k)]

/-! ### What a barrier object tells a wait (07 R173, R175) -/

/-- Bytes 8 and 12 to 15 of an object are all that a wait looks at. -/
theorem State.barrier_of_bytes {s : State} (h : s.MemOk) (pa : Nat) :
    (s.barrier pa).phase = (leNat (s.devRead (pa + 8) 1) % 2 == 1) ∧
      (s.barrier pa).init = (leNat (s.devRead (pa + 8) 1) / 2 % 2 == 1) ∧
      (s.barrier pa).gen = BitVec.ofNat 32 (leNat (s.devRead (pa + 12) 4)) := by
  obtain ⟨hwf, -⟩ := h
  have h8 := leNat_memRead_slice hwf pa 8 1 55
  have h12 := leNat_memRead_slice hwf pa 12 4 48
  simp only [State.barrier, readBarrier, State.devRead, ← h8, ← h12]
  generalize leNat (memRead s.mem pa 64) = v
  refine ⟨?_, ?_, ?_⟩
  · rw [show v / 2 ^ (8 * 8) % 2 ^ (8 * 1) % 2 = v / 2 ^ 64 % 2 by omega]
  · rw [show v / 2 ^ (8 * 8) % 2 ^ (8 * 1) / 2 % 2 = v / 2 ^ 65 % 2 by omega]
  · exact BitVec.eq_of_toNat_eq (by simp)

/-- What a wait of a context finds where it looks is in `t` as in `s`, and the object is good. -/
structure SameLook (s : State) (id : CtxId) (pa : Nat) (t : State) : Prop where
  ok : t.MemOk
  good : t.poisoned pa 64 = false
  ctx : t.ctxOf id = s.ctxOf id
  now : t.gtime = s.gtime
  flips : t.flips = s.flips
  flags : t.devRead (pa + 8) 1 = s.devRead (pa + 8) 1
  gen : t.devRead (pa + 12) 4 = s.devRead (pa + 12) 4

theorem Wait.over_iff (w : Wait) (now : Nat) : w.over now = true ↔ ∃ l, w.limit = some l ∧ l.toNat < now := by
  cases h : w.limit <;> simp [Wait.over, h]

/-- The status of a wait: 3 at an object that is not initialised, 0 or 1 by the time of the flip, 1 past the limit. -/
theorem waitStatus_eq (w : Wait) (b : Barrier) (now : Nat) (flip : Option Nat) :
    waitStatus b w.phase w.g0 w.limit now flip =
      if b.init = false then some 3
      else if b.phase ≠ w.phase ∨ b.gen ≠ w.g0 then some (if w.over (flip.getD now) = true then 1 else 0)
      else if w.over now = true then some 1 else none := by
  cases hl : w.limit <;> simp [waitStatus, Wait.over, hl]

section
variable {w : Wait} {b : Barrier} {now : Nat} {flip : Option Nat}

theorem waitStatus_uninitialised (hinit : b.init = false) : waitStatus b w.phase w.g0 w.limit now flip = some 3 := by
  rw [waitStatus_eq, if_pos hinit]

theorem waitStatus_flipped (hinit : b.init = true) (hflip : b.phase ≠ w.phase ∨ b.gen ≠ w.g0) :
    waitStatus b w.phase w.g0 w.limit now flip = some (if w.over (flip.getD now) = true then 1 else 0) := by
  rw [waitStatus_eq, if_neg (by simp [hinit]), if_pos hflip]

theorem waitStatus_unflipped (hinit : b.init = true) (hflip : ¬(b.phase ≠ w.phase ∨ b.gen ≠ w.g0)) :
    waitStatus b w.phase w.g0 w.limit now flip = if w.over now = true then some 1 else none := by
  rw [waitStatus_eq, if_neg (by simp [hinit]), if_neg hflip]

end

theorem State.lookAgain_of_good {s : State} {w : Wait} {pa : Nat} (h : s.poisoned pa 64 = false) :
    s.lookAgain w pa = (waitStatus (s.barrier pa) w.phase w.g0 w.limit s.gtime (s.flipOf pa w.g0)).map fun code =>
      { w with registered := false, result := some code } := by
  rw [State.lookAgain, h]
  rfl

theorem State.lookAgain_of_poisoned {s : State} {w : Wait} {pa : Nat} (h : s.poisoned pa 64 = true) :
    s.lookAgain w pa = some { w with registered := false, result := some 0, bad := true } :=
  if_pos h

namespace SameLook
variable {s t : State} {id : CtxId} {pa : Nat}

theorem refl (hok : s.MemOk) (hgood : s.poisoned pa 64 = false) : SameLook s id pa s :=
  ⟨hok, hgood, rfl, rfl, rfl, rfl, rfl⟩

theorem lookAgain (h : SameLook s id pa t) (hok : s.MemOk) (hgood : s.poisoned pa 64 = false) (w : Wait) :
    t.lookAgain w pa = s.lookAgain w pa := by
  obtain ⟨hphase, hinit, hgen⟩ := State.barrier_of_bytes h.ok pa
  obtain ⟨hphase', hinit', hgen'⟩ := State.barrier_of_bytes hok pa
  rw [h.flags] at hphase hinit
  rw [h.gen] at hgen
  rw [State.lookAgain_of_good h.good, State.lookAgain_of_good hgood, waitStatus_eq, waitStatus_eq, hphase, hphase', hinit,
    hinit', hgen, hgen', h.now, State.flipOf, h.flips, State.flipOf]

end SameLook

/-! ### What a write leaves of the contexts, the time and the flips -/

theorem State.ctxOf_updCore_of_ctxs (s : State) (d : Fin 8) (c : Fin 16) (id : CtxId) {f : Core → Core}
    (h : ∀ k, (f k).ctxs = k.ctxs) : (s.updCore d c f).ctxOf id = s.ctxOf id := by
  by_cases hd : (d, c) = (id.die, id.core)
  · obtain ⟨rfl, rfl⟩ := Prod.mk.inj hd
    rw [State.ctxOf, State.core_updCore, h, State.ctxOf]
  · rw [State.ctxOf, State.core_updCore_ne s hd, State.ctxOf]

theorem State.ctxOf_devWrite (s : State) (pa : Nat) (bs : List Byte) (id : CtxId) :
    (s.devWrite pa bs).ctxOf id = s.ctxOf id := by
  unfold State.devWrite State.markDirty
  split
  · exact read_foldl_of_frame (read := fun s : State => s.ctxOf id)
      (fun s r _ => s.ctxOf_updCore_of_ctxs _ _ id fun _ => by rfl) _
  · rfl

theorem apart_clock : Apart fun s => (s.gtime, s.flips) := ⟨fun _ _ _ _ => rfl, fun _ _ _ _ _ => rfl, fun _ _ _ => rfl⟩

theorem apart_poison : Apart State.poison := ⟨fun _ _ _ _ => rfl, fun _ _ _ _ _ => rfl, fun _ _ _ => rfl⟩

/-- A good write poisons nothing. -/
theorem State.poisoned_devWrite {s : State} {a n : Nat} (h : s.poisoned a n = false) (pa : Nat) (bs : List Byte) :
    (s.devWrite pa bs).poisoned a n = false := by
  have hpoison : (s.devWrite pa bs).poison = clearPoison s.poison s.keptPoison pa bs.length := apart_poison.markDirty ..
  rw [State.poisoned, hpoison, List.any_eq_false]
  exact fun p hp => List.any_eq_false.1 h p (List.mem_filter.1 hp).1

/-! ### The loss of a registration (07 R176) -/

namespace SameLook
variable {s t : State} {id : CtxId} {pa : Nat}

/-- A write of an object's LWAIT or DWAIT. -/
theorem devWrite (h : SameLook s id pa t) {o : Nat} {bs : List Byte}
    (hplace : o = 16 ∨ o = 9 ∧ bs.length = 1) : SameLook s id pa (t.devWrite (pa + o) bs) := by
  have hclock := Apart.devWrite apart_clock (fun _ _ _ => rfl) t (pa + o) bs
  have hread {b n : Nat} (hd : b + n ≤ pa + o ∨ pa + o + bs.length ≤ b) :
      (t.devWrite (pa + o) bs).devRead b n = t.devRead b n := by
    rw [State.devRead, State.mem_devWrite, State.devRead]
    exact memRead_memWrite_other h.ok.1 _ b n bs hd
  exact ⟨State.devWrite_memOk t _ bs h.ok, State.poisoned_devWrite h.good _ bs, (State.ctxOf_devWrite ..).trans h.ctx,
    (congrArg Prod.fst hclock).trans h.now, (congrArg Prod.snd hclock).trans h.flips,
    (hread (by omega)).trans h.flags, (hread (by omega)).trans h.gen⟩

theorem updWaitTab (h : SameLook s id pa t) (d : Fin 8) (f : List (Nat × CtxId) → List (Nat × CtxId)) :
    SameLook s id pa (t.updDie d fun x => { x with waitTab := f x.waitTab }) :=
  ⟨h.ok, h.good, (State.ctxOf_updDie_of_cores t d id fun _ => by rfl).trans h.ctx, h.now, h.flips, h.flags, h.gen⟩

theorem unregister (h : SameLook s id pa t) {w : Wait} (hbar : w.bar = some pa) (e : CtxId) :
    SameLook s id pa (t.unregister e (some w)) := by
  have htab := h.updWaitTab e.die fun l => l.filter fun x => !(x.1 == pa && x.2 == e)
  simp only [State.unregister, hbar]
  split
  · exact h
  · split
    · exact h.devWrite (.inl rfl)
    · split
      · exact htab
      · exact htab.devWrite (.inr ⟨rfl, rfl⟩)

end SameLook

/-! ### A blocked context that becomes ready -/

theorem Ctx.wait_wdStop (c : Ctx) (now : Nat) : (c.wdStop now).wait = c.wait := by
  unfold Ctx.wdStop
  split <;> rfl

theorem Ctx.arch_wdStop (c : Ctx) (now : Nat) : (c.wdStop now).arch = c.arch := by
  unfold Ctx.wdStop
  split <;> rfl

theorem State.ctxOf_wake_of_gone {s : State} {id : CtxId} {why : BlockCause} (hstatus : (s.ctxOf id).status = .blocked why)
    (hwhy : why ≠ .halt) (hgone : s.causeGone id why = true) :
    (s.wake id).ctxOf id = if (s.ctxOf id).pin then { s.ctxOf id with status := .running }
      else { (s.ctxOf id).wdStop s.cycle with status := .ready } := by
  have hwake : s.wake id = s.unblock id := by simp [State.wake, hstatus, hgone]
  rw [hwake, State.unblock, State.ctxOf_updCtx]
  simp only [hstatus]

theorem State.wait_wake (s : State) (id : CtxId) : ((s.wake id).ctxOf id).wait = (s.ctxOf id).wait := by
  unfold State.wake
  split
  · split
    · rw [State.unblock, State.ctxOf_updCtx]
      split
      · rfl
      · split
        · rfl
        · exact Ctx.wait_wdStop ..
      · rfl
    · rfl
  · rfl

/-! ### A wait that looks again -/

theorem State.ctxOf_recordError (s : State) (d : Fin 8) (kind src core rdie addr : Nat) (id : CtxId) :
    (s.recordError d kind src core rdie addr).ctxOf id = s.ctxOf id := by
  rw [State.recordError, State.ctxOf_postEvent]
  refine State.ctxOf_updDie_of_cores s d id fun x => ?_
  dsimp only
  split <;> rfl

theorem State.ctxOf_recordUnits (s : State) (pa n src : Nat) (die : Fin 8) (core : Nat) (id : CtxId) :
    (s.recordUnits pa n src die core).ctxOf id = s.ctxOf id := by
  refine read_foldl_of_frame (read := fun s : State => s.ctxOf id) (fun s u _ => ?_) s
  rw [State.recordAt]
  split <;> exact State.ctxOf_recordError ..

section
variable {s : State} {id : CtxId} {w : Wait} {pa : Nat} {which : Wait → Bool}
  (hwait : (s.ctxOf id).wait = some w) (hkeep : (s.ctxOf id).keepWait = none) (hbar : w.bar = some pa)
  (hopen : w.result = none)
include hwait hkeep hbar

theorem State.lookWaits_of_other (hwhich : which w = false) : s.lookWaits id which = s := by
  simp [State.lookWaits, hwait, hkeep, hbar, hwhich]

include hopen

theorem State.lookWaits_of_none (hlook : s.lookAgain w pa = none) : s.lookWaits id which = s := by
  simp [State.lookWaits, hwait, hkeep, hbar, hopen, hlook]

/-- The wait that a context has once its own is over, and the context ready. -/
theorem State.lookWaits_of_some {x : Wait} (hwhich : which w = true) (hlook : s.lookAgain w pa = some x)
    (hx : x.result.isSome = true) :
    ((s.lookWaits id which).ctxOf id).wait = some x ∧ (s.lookWaits id which).mem = s.mem ∧
      ((s.ctxOf id).status = .blocked .barrier → (s.ctxOf id).pin = false →
        ((s.lookWaits id which).ctxOf id).status = .ready) := by
  have hne : x ≠ w := by
    rintro rfl
    simp [hopen] at hx
  obtain ⟨u, hu, humem, huctx, hustatus, hupin⟩ : ∃ u : State, s.lookWaits id which = u.wake id ∧ u.mem = s.mem ∧
      (u.ctxOf id).wait = some x ∧ (u.ctxOf id).status = (s.ctxOf id).status ∧ (u.ctxOf id).pin = (s.ctxOf id).pin := by
    have hmem (l : List Nat) : (l.foldl (fun s pa => s.recordUnits pa 64 4 id.die id.core) s).mem = s.mem :=
      read_foldl_of_frame (fun s pa _ => apart_mem.recordUnits s pa 64 4 id.die id.core) s
    have hctx (l : List Nat) : (l.foldl (fun s pa => s.recordUnits pa 64 4 id.die id.core) s).ctxOf id = s.ctxOf id :=
      read_foldl_of_frame (read := fun s : State => s.ctxOf id)
        (fun s pa _ => s.ctxOf_recordUnits pa 64 4 id.die id.core id) s
    unfold State.lookWaits
    simp only [hwait, hkeep, hbar, hopen, hlook, hwhich, Option.map_some, Option.map_none, Option.isNone_none, Bool.and_self,
      if_true, Option.getD_some, Option.some.injEq, hne, false_and, if_false, List.append_nil]
    split <;> exact ⟨_, rfl, hmem _, by simp [hctx, hwait, hbar, hopen, hlook, hwhich, Ctx.progress]⟩
  have hgone : u.causeGone id .barrier = true := by simp [State.causeGone, huctx, hx]
  rw [hu, State.wait_wake, huctx, apart_mem.wake, humem]
  refine ⟨rfl, rfl, fun hstatus hpin => ?_⟩
  rw [State.ctxOf_wake_of_gone (hustatus.trans hstatus) nofun hgone, hupin, hpin]
  rfl

end

end Sys2Proof.Machine

namespace Sys2Proof.Claims
open Machine

/-! ### The guard, and what a limit and a flip mean for a wait -/

theorem guard_eq_guardOf (s : State) : s.guard = guardOf s := by
  unfold State.guard guardOf
  dsimp only
  generalize (if s.joist.gtGuardAt = s.cycle then s.joist.gtGuardOld else s.joist.gtGuard).toNat = g
  change min 256 (max 16 g) = max 16 (min 256 g)
  omega

/-! ### Waits at a good object (06 R157, 07 R175, R176) -/

/-- A wait of a context ends with a status, and the context is ready where it waited for that. -/
def Ends (s : State) (id : CtxId) (x : Wait) (t : State) : Prop :=
  (t.ctxOf id).wait = some x ∧
    ((s.ctxOf id).status = .blocked .barrier → (s.ctxOf id).pin = false → (t.ctxOf id).status = .ready)

section
variable {s : State} {id : CtxId} {w : Wait} {pa : Nat} (hwait : (s.ctxOf id).wait = some w)
  (hkeep : (s.ctxOf id).keepWait = none) (hbar : w.bar = some pa) (hopen : w.result = none)
include hwait hkeep hbar

theorem gives_btwaitTimeout_early (hlate : w.over s.gtime = false) : Gives s (.btwaitTimeout id) s := by
  have hlook := State.lookWaits_of_other (which := fun v => v.over s.gtime) hwait hkeep hbar hlate
  change execBtwaitTimeout id s = _
  simp [execBtwaitTimeout, hwait, hkeep, hlate, State.unregister, hlook]

include hopen

theorem leads_barrierPoll {x : Wait} (hreg : w.registered = false) (hlook : s.lookAgain w pa = some x)
    (hx : x.result.isSome = true) : Leads s (.barrierPoll id) fun t => Ends s id x t ∧ t.mem = s.mem := by
  obtain ⟨hw, hmem, hready⟩ := State.lookWaits_of_some (which := fun w => !w.registered) hwait hkeep hbar hopen
    (by rw [hreg]; rfl) hlook hx
  exact ⟨_, rfl, ⟨hw, hready⟩, hmem⟩

theorem gives_barrierPoll_none (hlook : s.lookAgain w pa = none) : Gives s (.barrierPoll id) s :=
  congrArg Host.Outcome.next (State.lookWaits_of_none hwait hkeep hbar hopen hlook)

/-- Past its limit a wait loses its registration and looks at the home, which that leaves as it was. -/
theorem leads_btwaitTimeout (hok : s.MemOk) (hgood : s.poisoned pa 64 = false) (hlate : w.over s.gtime = true) {x : Wait}
    (hlook : s.lookAgain w pa = some x) (hx : x.result.isSome = true) : Leads s (.btwaitTimeout id) (Ends s id x) := by
  have hlooks := (SameLook.refl (id := id) hok hgood).unregister hbar id
  obtain ⟨hw, -, hready⟩ := State.lookWaits_of_some (which := fun v => v.over s.gtime)
    ((congrArg Ctx.wait hlooks.ctx).trans hwait) ((congrArg Ctx.keepWait hlooks.ctx).trans hkeep) hbar hopen hlate
    ((hlooks.lookAgain hok hgood w).trans hlook) hx
  rw [hlooks.ctx] at hready
  refine ⟨_, ?_, hw, hready⟩
  change execBtwaitTimeout id s = _
  simp only [execBtwaitTimeout, hwait, hkeep, hbar, hopen, hlate, Option.isSome_some, Option.isNone_none, Bool.and_self,
    if_true]
  rfl

end

/-! ### Poisoned objects and receives (02 R56, 16 R389) -/

theorem leads_slotGuardExpiry {s : State} {id : CtxId} {v : SlotWait} (hwait : (s.ctxOf id).slotWait = some v)
    (hstatus : (s.ctxOf id).status = .blocked .receive) (hpast : v.slot + guardOf s < s.gtime) :
    Leads s (.slotGuardExpiry id) (fun t => (t.ctxOf id).arch = (s.ctxOf id).arch ∧
      (t.ctxOf id).status = if (s.ctxOf id).pin then .running else .ready) := by
  rw [← guard_eq_guardOf] at hpast
  have hgone : s.causeGone id .receive = true := by simp [State.causeGone, State.receiveDue, hwait, hpast]
  refine ⟨s.wake id, ?_, ?_⟩
  · change execSlotGuardExpiry id s = _
    simp [execSlotGuardExpiry, hwait, hstatus, hpast]
  · dsimp only
    rw [State.ctxOf_wake_of_gone hstatus nofun hgone]
    split
    · exact ⟨rfl, rfl⟩
    · exact ⟨Ctx.arch_wdStop .., rfl⟩

/-- Settles O36: waits that end at their barrier or past their limit, receives past their guard, and arrivals. -/
theorem waitEvents : Obligations.WaitEvents := by
  intro s id w pa a k o past late flipped flip ended
  have hover (n : Nat) : w.over n = true ↔ past n := w.over_iff n
  have hnot {n : Nat} (h : ¬past n) : w.over n = false := Bool.eq_false_iff.2 (mt (hover n).1 h)
  refine ⟨fun hok hwait hkeep hbar hopen hgood => ?good, fun hwait hkeep hbar hopen hreg hbad => ?poisoned,
    fun hspad halign => congrArg Host.Outcome.next (if_pos ⟨hspad, halign⟩),
    fun v hwait hstatus hpast => leads_slotGuardExpiry hwait hstatus hpast⟩
  case good =>
    have hlook := State.lookAgain_of_good (w := w) hgood
    let status := waitStatus o w.phase w.g0 w.limit s.gtime (s.flipOf pa w.g0)
    have hpoll (hreg : w.registered = false) (code : BitVec 2) (h : status = some code) : ended (.barrierPoll id) code := by
      obtain ⟨t, hgives, hends, -⟩ :=
        leads_barrierPoll hwait hkeep hbar hopen hreg (hlook.trans (congrArg (Option.map _) h)) rfl
      exact ⟨t, hgives, hends⟩
    have htime (hl : late) (code : BitVec 2) (h : status = some code) : ended (.btwaitTimeout id) code :=
      leads_btwaitTimeout hwait hkeep hbar hopen hok hgood ((hover _).2 hl) (hlook.trans (congrArg (Option.map _) h)) rfl
    have hmet (hinit : o.init = true) (hf : flipped) (hp : ¬past flip) : status = some 0 :=
      (waitStatus_flipped hinit hf).trans (congrArg some (if_neg (mt (hover flip).1 hp)))
    have hlost (hinit : o.init = true) (hf : flipped) (hp : past flip) : status = some 1 :=
      (waitStatus_flipped hinit hf).trans (congrArg some (if_pos ((hover flip).2 hp)))
    have hpassed (hinit : o.init = true) (hf : ¬flipped) (hl : late) : status = some 1 :=
      (waitStatus_unflipped hinit hf).trans (if_pos ((hover s.gtime).2 hl))
    have hgoes (hinit : o.init = true) (hf : ¬flipped) (hl : ¬late) : status = none :=
      (waitStatus_unflipped hinit hf).trans (if_neg (mt (hover s.gtime).1 hl))
    exact ⟨fun hreg => ⟨fun hinit => hpoll hreg 3 (waitStatus_uninitialised hinit),
        fun hinit hf hp => hpoll hreg 0 (hmet hinit hf hp), fun hinit hf hp => hpoll hreg 1 (hlost hinit hf hp),
        fun hinit hf hl => hpoll hreg 1 (hpassed hinit hf hl), fun hinit hf hl =>
          gives_barrierPoll_none hwait hkeep hbar hopen (hlook.trans (congrArg (Option.map _) (hgoes hinit hf hl)))⟩,
      fun hl hinit hf => htime hl 1 (hpassed hinit hf hl), fun hl hinit hf hp => htime hl 1 (hlost hinit hf hp),
      fun hl hinit hf hp => htime hl 0 (hmet hinit hf hp), fun hl _ => gives_btwaitTimeout_early hwait hkeep hbar (hnot hl)⟩
  case poisoned =>
    obtain ⟨t, hgives, ⟨hw, hready⟩, hmem⟩ :=
      leads_barrierPoll hwait hkeep hbar hopen hreg (State.lookAgain_of_poisoned hbad) rfl
    refine ⟨t, hgives, ?_, hmem, hready⟩
    rw [hw, ← hreg]

end Sys2Proof.Claims

/-! A migration that fails beside a publish of its context (04 R114, 07 R164): its end lets the publish go, which counts in
PUBCNT of the die; from this the refutation of O39. -/

namespace Sys2Proof.Claims
open Machine

/-- Context 0 of core 0 of die 0. -/
def migrator : CtxId := ⟨0, 0, 0⟩

/-- A `kvmig` of block 0 that is at its publish and has read poison. -/
def spoiltMig : EngineOp :=
  { State.reset.newOp .kvmig 0x20000 0 0 1 false with started := true, pos := 1, poison := true }

/-- A `pub` of the buffer of descriptor 1 of die 0 that waits for no piece and for no transfer any more. -/
def duePub : Pend :=
  { due := 0, waits := [pubAwait 0 1], raw := [], form := .given [], flags := 0, poison := false, dropped := [],
    mslot := true, pre := false }

/-- The migration and the publish in one context; two descriptors at address 0, of which the second is a program's. -/
def migBesidePub : State :=
  let s := (State.reset.updDie 0 fun x => { x with pbcfg := 0x21, engOps := [spoiltMig] }).updCtx migrator fun c =>
    { c with pend := [duePub] }
  { s with mem := memWrite s.mem 0x40 (leBytes 8 1) }

/-- A request of the block-table unit, of which the refuted clause does not speak. -/
def someReq : KvReq :=
  { num := 0, id := migrator, task := none, append := false, list := 0, asid := 0, pkr := 0, data := 0, home := (.dev, 0),
    order := 0, copying := none, placed := none, begun := false, slots := [], owed := none, freed := 0, bad := false,
    status := none, poison := false }

/-- PUBCNT of a die after an operation or event. -/
def pubcntAfter (s : State) (i : Instr) (d : Fin 8) : Option (BitVec 32) :=
  match exec i s with
  | .next t => some (t.die d).pubcnt
  | _ => none

theorem pubcntAfter_of_next {s t : State} {i : Instr} (h : exec i s = .next t) (d : Fin 8) :
    pubcntAfter s i d = some (t.die d).pubcnt := by
  rw [pubcntAfter, h]

theorem pubcntAfter_migBesidePub : pubcntAfter migBesidePub (.kvmigComplete migrator 0) 0 = some 1 := by decide +kernel

theorem pubcnt_migBesidePub : (migBesidePub.die 0).pubcnt = 0 := by decide +kernel

theorem find_spoiltMig : (migBesidePub.die 0).engOps.find?
    (fun y => y.id == migrator && y.handle == 0 && y.kind == .kvmig) = some spoiltMig := by decide +kernel

/-- Refutes O39: PUBCNT of the die does not stand when a migration with a poisoned source fails. The end of the operation
performs a publish of the same context that nothing holds back any more, and that publish is counted. -/
theorem not_engineEvents : ¬ Obligations.EngineEvents := by
  intro h
  obtain ⟨-, -, hmig, -⟩ := h migBesidePub migBesidePub migrator 0 spoiltMig someReq 0 0
  obtain ⟨-, -, -, -, -, -, hpoison, -⟩ := hmig find_spoiltMig
  obtain ⟨t, hnext, -, hpubcnt⟩ := hpoison ⟨rfl, rfl⟩ rfl
  have hafter := (pubcntAfter_of_next hnext 0).symm.trans pubcntAfter_migBesidePub
  have hone : (t.die 0).pubcnt = 1 := Option.some.inj hafter
  exact absurd (hone.symm.trans (hpubcnt.trans pubcnt_migBesidePub)) (by decide)

end Sys2Proof.Claims

/-! Deliveries (10 R243, R244, 08 R187): what a delivery of what is due leaves of a context, which registers a scalar or
predicate result reaches; and from these O58. -/

namespace Sys2Proof.Machine

/-! ### What the deliveries of a cycle leave (10 R244) -/

/-- What register writes and their flags leave of a context: all of it but the registers, their poison and conflict bits,
and the checkpoint's registers. -/
def Ctx.unwritten (c : Ctx) : Ctx :=
  { c with
    arch := Arch.reset, tiles := Ctx.reset.tiles, lines := Ctx.reset.lines, masks := Ctx.reset.masks, fstat := 0, sbctl := 0
    xctl := 0, sticky := 0, rovf := false, drops := 0, iuvec := 0, uiret := 0, lost := false, mrql := 0, mrqr := 0, mrqi := 0
    pinOvr := false, confT := 0, confV := 0, confK := 0, poison := [], ckpt := Ctx.reset.ckpt }

theorem Ctx.unwritten_csrWrite (c : Ctx) (n : Nat) (v : W64) : (c.csrWrite n v).unwritten = c.unwritten := by
  unfold Ctx.csrWrite
  split <;> rfl

theorem Ctx.unwritten_apply (c : Ctx) (w : Write) : (w.apply c).unwritten = c.unwritten := by
  have hguard {p : Prop} [Decidable p] {x : Ctx} (hx : x.unwritten = c.unwritten) :
      (if p then c else x).unwritten = c.unwritten := by
    split
    · rfl
    · exact hx
  cases w with
  | s | hs | p | hp | t => exact hguard rfl
  | csr n v => exact c.unwritten_csrWrite n.toNat v
  | _ => rfl

theorem Ctx.unwritten_land (c : Ctx) (w : Write) (flags : BitVec 5) (bad : Bool) :
    (c.land w flags bad).unwritten = c.unwritten :=
  c.unwritten_apply w

theorem Ctx.unwritten_landCkpt (c : Ctx) (p : Pend) : (c.landCkpt p).unwritten = c.unwritten := by
  unfold Ctx.landCkpt
  split <;> rfl

/-- What is due leaves the results under way and the pending operations; the registers apart, nothing else changes. -/
theorem Ctx.unwritten_settle (c : Ctx) (now : Nat) : (c.settle now).unwritten =
    { c with
      inflight := c.inflight.filter fun x => !decide (x.due ≤ now)
      pend := c.pend.filter fun p => !p.ready now }.unwritten :=
  (read_foldl_of_frame (fun c x _ => c.unwritten_land x.w x.flags x.poison) _).trans
    (read_foldl_of_frame (fun c p _ => c.unwritten_landCkpt p) _)

/-! ### One result under way (10 R243) -/

section
variable {c : Ctx} {x : Delivery} {now : Nat} (hone : c.inflight = [x]) (hpend : c.pend = [])
include hone hpend

theorem Ctx.arch_settle_before (h : now < x.due) : (c.settle now).arch = c.arch := by
  have hdue : ¬x.due ≤ now := Nat.not_le.2 h
  simp [Ctx.settle, hone, hpend, hdue, sortDues]

theorem Ctx.settle_after (h : x.due ≤ now) : c.settle now = { c with inflight := [] }.land x.w x.flags false := by
  simp [Ctx.settle, hone, hpend, h, sortDues, Due.insert, Delivery.toDue]

end

theorem Ctx.inflight_deliver_of_empty {c : Ctx} (hin : c.inflight = []) (now lat : Nat) (w : Write) (flags : BitVec 5) :
    (c.deliver now lat w flags).inflight = [⟨now + lat, w, flags⟩] := by
  simp [Ctx.deliver, Ctx.discardPending, Ctx.giveWay, hin]

theorem Ctx.pend_deliver_of_empty {c : Ctx} (hpend : c.pend = []) (now lat : Nat) (w : Write) (flags : BitVec 5) :
    (c.deliver now lat w flags).pend = [] := by
  simp [Ctx.deliver, Ctx.discardPending, Ctx.giveWay, hpend]

/-! ### Names of scalars and predicates (08 R187, R188, 07 R179) -/

theorem toNat_physS (a : Arch) (n : BitVec 6) :
    (physS a n).toNat = if n.toNat < 32 then n.toNat else 32 + (n.toNat - 32 + a.rbs.toNat) % 32 := by
  unfold physS
  split
  · rfl
  · exact (BitVec.toNat_ofNat ..).trans (Nat.mod_eq_of_lt (by omega))

theorem toNat_physP (a : Arch) (n : BitVec 4) :
    (physP a n).toNat = if n.toNat < 8 then n.toNat else 8 + (n.toNat - 8 + a.rbp.toNat) % 8 := by
  unfold physP
  split
  · rfl
  · exact (BitVec.toNat_ofNat ..).trans (Nat.mod_eq_of_lt (by omega))

theorem physS_inj {a : Arch} {m n : BitVec 6} : physS a m = physS a n ↔ m = n := by
  refine ⟨fun h => BitVec.eq_of_toNat_eq ?_, congrArg (physS a)⟩
  have hnat := congrArg BitVec.toNat h
  have hm := m.isLt
  have hn := n.isLt
  rw [toNat_physS, toNat_physS] at hnat
  split at hnat <;> split at hnat <;> omega

theorem physP_inj {a : Arch} {m n : BitVec 4} : physP a m = physP a n ↔ m = n := by
  refine ⟨fun h => BitVec.eq_of_toNat_eq ?_, congrArg (physP a)⟩
  have hnat := congrArg BitVec.toNat h
  have hm := m.isLt
  have hn := n.isLt
  rw [toNat_physP, toNat_physP] at hnat
  split at hnat <;> split at hnat <;> omega

theorem physS_eq_zero_iff {a : Arch} {m : BitVec 6} : physS a m = 0 ↔ m = 0 :=
  physS_inj (n := 0)

theorem physP_eq_zero_iff {a : Arch} {m : BitVec 4} : physP a m = 0 ↔ m = 0 :=
  physP_inj (n := 0)

/-- A scalar field names a register of the handler bank, never its register 0, or a physical scalar. -/
theorem Ctx.nameS_eq (c : Ctx) (n : BitVec 6) :
    (c.nameS n = .hs (n.setWidth 4) ∧ n ≠ 0 ∧ n.toNat < 16) ∨ c.nameS n = .s (physS c.arch n) := by
  unfold Ctx.nameS
  split
  next h => exact .inl ⟨rfl, h.2⟩
  · exact .inr rfl

theorem Ctx.nameP_eq (c : Ctx) (n : BitVec 4) :
    (c.nameP n = .hp (n.setWidth 3) ∧ n ≠ 0 ∧ n.toNat < 8) ∨ c.nameP n = .p (physP c.arch n) := by
  unfold Ctx.nameP
  split
  next h => exact .inl ⟨rfl, h.2⟩
  · exact .inr rfl

theorem Ctx.nameS_inj {c : Ctx} {m n : BitVec 6} : c.nameS m = c.nameS n ↔ m = n := by
  refine ⟨fun h => ?_, congrArg c.nameS⟩
  rcases c.nameS_eq m with ⟨hm, -, hlm⟩ | hm <;> rcases c.nameS_eq n with ⟨hn, -, hln⟩ | hn <;> rw [hm, hn] at h
  · have := RegName.hs.inj h
    bv_omega
  · cases h
  · cases h
  · exact physS_inj.1 (RegName.s.inj h)

theorem Ctx.nameP_inj {c : Ctx} {m n : BitVec 4} : c.nameP m = c.nameP n ↔ m = n := by
  refine ⟨fun h => ?_, congrArg c.nameP⟩
  rcases c.nameP_eq m with ⟨hm, -, hlm⟩ | hm <;> rcases c.nameP_eq n with ⟨hn, -, hln⟩ | hn <;> rw [hm, hn] at h
  · have := RegName.hp.inj h
    bv_omega
  · cases h
  · cases h
  · exact physP_inj.1 (RegName.p.inj h)

/-! ### What a name reads, before and after a write (08 R187) -/

/-- What a name of a scalar reads. -/
def Arch.scalar (a : Arch) : RegName → W64
  | .hs k => vget a.hs k.toFin
  | .s k => if k = 0 then 0 else vget a.s k.toFin
  | _ => 0

/-- What a name of a predicate reads. -/
def Arch.pred (a : Arch) : RegName → Bool
  | .hp k => a.hp.getLsbD k.toNat
  | .p k => if k = 0 then true else a.p.getLsbD k.toNat
  | _ => false

theorem Ctx.rS_eq (c : Ctx) (n : BitVec 6) : c.rS n = c.arch.scalar (c.nameS n) := rfl

theorem Ctx.rP_eq (c : Ctx) (n : BitVec 4) : c.rP n = c.arch.pred (c.nameP n) := rfl

theorem Arch.scalar_s_zero (a : Arch) : a.scalar (.s 0) = 0 := rfl

theorem Arch.scalar_s {a : Arch} {k : BitVec 6} (hk : k ≠ 0) : a.scalar (.s k) = vget a.s k.toFin := if_neg hk

theorem Arch.pred_p_zero (a : Arch) : a.pred (.p 0) = true := rfl

theorem Arch.pred_p {a : Arch} {k : BitVec 4} (hk : k ≠ 0) : a.pred (.p k) = a.p.getLsbD k.toNat := if_neg hk

theorem vget_vset_toFin {α : Type} {w : Nat} (v : Vector α (2 ^ w)) (k j : BitVec w) (x : α) :
    vget (vset v k.toFin x) j.toFin = if j = k then x else vget v j.toFin := by
  simp [vget_vset, BitVec.toFin_inj, eq_comm]

section
variable (c : Ctx) (q : RegName)

theorem Ctx.scalar_apply_hs {k : BitVec 4} (hk : k ≠ 0) (v : W64) :
    ((Write.hs k v).apply c).arch.scalar q = if q = .hs k then v else c.arch.scalar q := by
  rw [show (Write.hs k v).apply c = c.updArch fun a => { a with hs := vset a.hs k.toFin v } from if_neg hk]
  cases q with
  | hs j => simpa [Arch.scalar, Ctx.updArch] using vget_vset_toFin (w := 4) c.arch.hs k j v
  | _ => rfl

theorem Ctx.scalar_apply_s {k : BitVec 6} (hk : k ≠ 0) (v : W64) :
    ((Write.s k v).apply c).arch.scalar q = if q = .s k then v else c.arch.scalar q := by
  rw [show (Write.s k v).apply c = c.updArch fun a => { a with s := vset a.s k.toFin v } from if_neg hk]
  cases q with
  | s j =>
    by_cases hj : j = 0
    · rw [hj, Arch.scalar_s_zero, Arch.scalar_s_zero, if_neg fun h => hk (RegName.s.inj h).symm]
    · simp only [Arch.scalar_s hj, RegName.s.injEq]
      exact vget_vset_toFin (w := 6) c.arch.s k j v
  | _ => rfl

theorem Ctx.pred_apply_hp {k : BitVec 3} (hk : k ≠ 0) (b : Bool) :
    ((Write.hp k b).apply c).arch.pred q = if q = .hp k then b else c.arch.pred q := by
  rw [show (Write.hp k b).apply c = c.updArch fun a => { a with hp := setBit a.hp k.toNat b } from if_neg hk]
  cases q with
  | hp j => simp [Arch.pred, Ctx.updArch, getLsbD_setBit _ _ _ j.isLt, BitVec.toNat_inj]
  | _ => rfl

theorem Ctx.pred_apply_p {k : BitVec 4} (hk : k ≠ 0) (b : Bool) :
    ((Write.p k b).apply c).arch.pred q = if q = .p k then b else c.arch.pred q := by
  rw [show (Write.p k b).apply c = c.updArch fun a => { a with p := setBit a.p k.toNat b } from if_neg hk]
  cases q with
  | p j =>
    by_cases hj : j = 0
    · rw [hj, Arch.pred_p_zero, Arch.pred_p_zero, if_neg fun h => hk (RegName.p.inj h).symm]
    · simp [Arch.pred_p hj, Ctx.updArch, getLsbD_setBit _ _ _ j.isLt, BitVec.toNat_inj]
  | _ => rfl

end

theorem Ctx.nameS_zero (c : Ctx) : c.nameS 0 = .s 0 :=
  (if_neg fun h => h.2.1 rfl).trans (congrArg RegName.s (physS_eq_zero_iff.2 rfl))

theorem Ctx.nameP_zero (c : Ctx) : c.nameP 0 = .p 0 :=
  (if_neg fun h => h.2.1 rfl).trans (congrArg RegName.p (physP_eq_zero_iff.2 rfl))

theorem Ctx.apply_wS_zero (c : Ctx) (v : W64) : (c.wS 0 v).apply c = c := by
  rw [Ctx.wS, c.nameS_zero]
  rfl

theorem Ctx.apply_wP_zero (c : Ctx) (b : Bool) : (c.wP 0 b).apply c = c := by
  rw [Ctx.wP, c.nameP_zero]
  rfl

/-- A write of the scalar that a field names is seen under that name alone; one of s0 is discarded. -/
theorem Ctx.scalar_apply_wS (c : Ctx) (n : BitVec 6) (v : W64) (q : RegName) :
    ((c.wS n v).apply c).arch.scalar q = if n ≠ 0 ∧ q = c.nameS n then v else c.arch.scalar q := by
  rcases c.nameS_eq n with ⟨hn, hzero, hlt⟩ | hn
  · have hk : n.setWidth 4 ≠ 0 := by bv_omega
    simp only [Ctx.wS, hn, c.scalar_apply_hs q hk, hzero, ne_eq, not_false_eq_true, true_and]
  · by_cases hzero : n = 0
    · rw [hzero, c.apply_wS_zero, if_neg fun h => h.1 rfl]
    · simp only [Ctx.wS, hn, c.scalar_apply_s q (mt physS_eq_zero_iff.1 hzero), hzero, ne_eq, not_false_eq_true, true_and]

theorem Ctx.pred_apply_wP (c : Ctx) (n : BitVec 4) (b : Bool) (q : RegName) :
    ((c.wP n b).apply c).arch.pred q = if n ≠ 0 ∧ q = c.nameP n then b else c.arch.pred q := by
  rcases c.nameP_eq n with ⟨hn, hzero, hlt⟩ | hn
  · have hk : n.setWidth 3 ≠ 0 := by bv_omega
    simp only [Ctx.wP, hn, c.pred_apply_hp q hk, hzero, ne_eq, not_false_eq_true, true_and]
  · by_cases hzero : n = 0
    · rw [hzero, c.apply_wP_zero, if_neg fun h => h.1 rfl]
    · simp only [Ctx.wP, hn, c.pred_apply_p q (mt physP_eq_zero_iff.1 hzero), hzero, ne_eq, not_false_eq_true, true_and]

/-- What no scalar is part of, a write of a scalar leaves. -/
theorem Ctx.read_apply_wS {α : Type} {read : Ctx → α} (c : Ctx) (n : BitVec 6) (v : W64)
    (h : ∀ s hs, read { c with arch := { c.arch with s := s, hs := hs } } = read c) : read ((c.wS n v).apply c) = read c := by
  rcases c.nameS_eq n with ⟨hn, -, -⟩ | hn
  all_goals
    simp only [Ctx.wS, hn, Write.apply]
    split
    · rfl
    · exact h _ _

theorem Ctx.read_apply_wP {α : Type} {read : Ctx → α} (c : Ctx) (n : BitVec 4) (b : Bool)
    (h : ∀ p hp, read { c with arch := { c.arch with p := p, hp := hp } } = read c) : read ((c.wP n b).apply c) = read c := by
  rcases c.nameP_eq n with ⟨hn, -, -⟩ | hn
  all_goals
    simp only [Ctx.wP, hn, Write.apply]
    split
    · rfl
    · exact h _ _

theorem Ctx.rS_apply_wS (c : Ctx) (n : BitVec 6) (v : W64) (m : BitVec 6) :
    ((c.wS n v).apply c).rS m = if m = 0 then 0 else if m = n then v else c.rS m := by
  have hname : ((c.wS n v).apply c).nameS m = c.nameS m := c.read_apply_wS (read := fun c => c.nameS m) n v fun _ _ => rfl
  rw [Ctx.rS_eq, hname, c.scalar_apply_wS]
  simp only [Ctx.nameS_inj]
  by_cases hm : m = 0
  · subst hm
    rw [if_pos rfl, if_neg fun h => h.1 h.2.symm, c.nameS_zero, Arch.scalar_s_zero]
  · have hiff : n ≠ 0 ∧ m = n ↔ m = n := and_iff_right_of_imp fun h => h ▸ hm
    simp only [hiff, hm, if_false, Ctx.rS_eq]

theorem Ctx.rP_apply_wP (c : Ctx) (n : BitVec 4) (b : Bool) (m : BitVec 4) :
    ((c.wP n b).apply c).rP m = if m = 0 then true else if m = n then b else c.rP m := by
  have hname : ((c.wP n b).apply c).nameP m = c.nameP m := c.read_apply_wP (read := fun c => c.nameP m) n b fun _ _ => rfl
  rw [Ctx.rP_eq, hname, c.pred_apply_wP]
  simp only [Ctx.nameP_inj]
  by_cases hm : m = 0
  · subst hm
    rw [if_pos rfl, if_neg fun h => h.1 h.2.symm, c.nameP_zero, Arch.pred_p_zero]
  · have hiff : n ≠ 0 ∧ m = n ↔ m = n := and_iff_right_of_imp fun h => h ▸ hm
    simp only [hiff, hm, if_false, Ctx.rP_eq]

/-- A context whose registers are another's, with nothing under way. -/
structure Ctx.Rests (e c : Ctx) : Prop where
  arch  : e.arch = c.arch
  inh   : e.inh = c.inh
  tiles : e.tiles = c.tiles
  idle  : e.inflight = []

namespace Ctx.Rests
variable {e c : Ctx} (h : e.Rests c)
include h

theorem nameS (n : BitVec 6) : e.nameS n = c.nameS n := by
  rw [Ctx.nameS, Ctx.nameS, h.arch, h.inh]

theorem nameP (n : BitVec 4) : e.nameP n = c.nameP n := by
  rw [Ctx.nameP, Ctx.nameP, h.arch, h.inh]

theorem rS (n : BitVec 6) : e.rS n = c.rS n := by
  rw [Ctx.rS_eq, Ctx.rS_eq, h.nameS, h.arch]

theorem rP (n : BitVec 4) : e.rP n = c.rP n := by
  rw [Ctx.rP_eq, Ctx.rP_eq, h.nameP, h.arch]

theorem rA (n : BitVec 4) : e.rA n = c.rA n := by
  rw [Ctx.rA, Ctx.rA, h.arch]

theorem wS (n : BitVec 6) (v : W64) : e.wS n v = c.wS n v := by
  rw [Ctx.wS, Ctx.wS, h.nameS]

theorem wP (n : BitVec 4) (b : Bool) : e.wP n b = c.wP n b := by
  rw [Ctx.wP, Ctx.wP, h.nameP]

end Ctx.Rests

section
variable {c : Ctx} (hin : c.inflight = []) (hpend : c.pend = []) (w : Write) {lat issue now : Nat}
include hin hpend

theorem Ctx.arch_settle_deliver_before (h : now < issue + lat) : ((c.deliver issue lat w 0).settle now).arch = c.arch :=
  (Ctx.arch_settle_before (inflight_deliver_of_empty hin issue lat w 0) (pend_deliver_of_empty hpend issue lat w 0) h).trans
    (c.deliver_arch issue lat w 0)

/-- A lone result that is due is its write, in the registers as they stood at issue. -/
theorem Ctx.settle_deliver_after (h : issue + lat ≤ now) :
    ∃ e : Ctx, e.Rests c ∧ (c.deliver issue lat w 0).settle now = e.land w 0 false :=
  ⟨{ c.deliver issue lat w 0 with inflight := [] }, ⟨rfl, rfl, rfl, rfl⟩,
    Ctx.settle_after (inflight_deliver_of_empty hin issue lat w 0) (pend_deliver_of_empty hpend issue lat w 0) h⟩

end

end Sys2Proof.Machine

namespace Sys2Proof.Claims
open Machine

/-- Settles O58: a result that is not due leaves the registers as they were; one that is due is its write alone. -/
theorem resultDelivered : Obligations.ResultDelivered := by
  intro s n p lat v b now hin hpend
  dsimp only
  rw [State.putS, State.putP, State.cx_deliver, State.cx_deliver]
  refine ⟨fun hearly => ⟨Ctx.arch_settle_deliver_before hin hpend _ hearly,
    Ctx.arch_settle_deliver_before hin hpend _ hearly⟩, fun hdue => ?_⟩
  obtain ⟨e, he, hs⟩ := Ctx.settle_deliver_after hin hpend (s.cx.wS n v) hdue
  obtain ⟨f, hf, hp⟩ := Ctx.settle_deliver_after hin hpend (s.cx.wP p b) hdue
  rw [hs, hp, ← he.wS, ← hf.wP]
  refine ⟨fun m => ?_, fun m => ?_, fun m => ?_, ?_, ?_, fun m => ?_, fun m => ?_, fun m => ?_, ?_, ?_⟩
  · rw [← he.rS]
    exact e.rS_apply_wS n v m
  · exact (e.read_apply_wS (read := fun c => c.rP m) n v fun _ _ => rfl).trans (he.rP m)
  · exact (e.read_apply_wS (read := fun c => c.rA m) n v fun _ _ => rfl).trans (he.rA m)
  · exact (e.read_apply_wS (read := Ctx.inflight) n v fun _ _ => rfl).trans he.idle
  · exact (e.read_apply_wS (read := Ctx.tiles) n v fun _ _ => rfl).trans he.tiles
  · rw [← hf.rP]
    exact f.rP_apply_wP p b m
  · exact (f.read_apply_wP (read := fun c => c.rS m) p b fun _ _ => rfl).trans (hf.rS m)
  · exact (f.read_apply_wP (read := fun c => c.rA m) p b fun _ _ => rfl).trans (hf.rA m)
  · exact (f.read_apply_wP (read := Ctx.inflight) p b fun _ _ => rfl).trans hf.idle
  · exact (f.read_apply_wP (read := Ctx.tiles) p b fun _ _ => rfl).trans hf.tiles

end Sys2Proof.Claims

/-! The reset state (19 R450): each of its parts is that part's reset value; from these O54. -/

namespace Sys2Proof.Machine

theorem State.die_reset (d : Fin 8) : State.reset.die d = Die.reset := vget_replicate d Die.reset

theorem State.core_reset (d : Fin 8) (c : Fin 16) : State.reset.core d c = Core.reset := by
  rw [State.core, State.die_reset]
  exact vget_replicate c Core.reset

theorem State.ctxOf_reset (id : CtxId) : State.reset.ctxOf id = Ctx.reset := by
  rw [State.ctxOf, State.core_reset]
  exact vget_replicate id.ctx Ctx.reset

theorem State.memOk_reset : State.reset.MemOk := ⟨rfl, rfl⟩

theorem Ctx.rTS_reset (n : BitVec 4) : Ctx.reset.rTS n = 0 := vget_replicate n.toFin 0

theorem Ctx.rFT_reset (n : BitVec 4) : Ctx.reset.rFT n = 0 := vget_replicate n.toFin 0

theorem Ctx.rLC_reset (n : BitVec 2) : Ctx.reset.rLC n = 0 := vget_replicate n.toFin 0

/-- MEMBER 0x1FF and LAT 40 (16 R386). -/
theorem Core.channel_reset (n : Fin 32) : (vget Core.reset.channels n).desc.toNat = 0x1FF * 16 + 40 * 2 ^ 32 :=
  congrArg (fun x : Channel => x.desc.toNat) (vget_replicate n Channel.reset)

end Sys2Proof.Machine

namespace Sys2Proof.Claims
open Machine

/-- Settles O54, part by part: a context, a core, a die, and what the package has once. -/
theorem resetState : Obligations.ResetState := by
  refine ⟨State.memOk_reset, fun id => ?contexts, fun d c => ?cores, fun d => ?dies, ?package⟩
  case contexts =>
    rw [State.ctxOf_reset]
    exact ⟨rfl, rfl, rfl, rfl, rfl, rfl, rfl, rfl, rfl, rfl, rfl, rfl, rfl, rfl, rfl, rfl, rfl, rfl, rfl, rfl, rfl, rfl, rfl, rfl,
      fun n => ⟨Ctx.rTS_reset n, Ctx.rFT_reset n⟩, Ctx.rLC_reset⟩
  case cores =>
    rw [State.core_reset]
    exact ⟨rfl, rfl, rfl, rfl, rfl, rfl, Core.channel_reset⟩
  case dies =>
    rw [State.die_reset]
    exact ⟨rfl, fun n => vget_replicate n 0, rfl, rfl, rfl, rfl, rfl, rfl, rfl, rfl, rfl, rfl, rfl,
      fun n => congrArg Queue.en (vget_replicate n Queue.reset), rfl, rfl⟩
  case package =>
    exact ⟨rfl, rfl, rfl, rfl, rfl, rfl, rfl, rfl, rfl, rfl, fun l => congrArg Lane.reg (vget_replicate l (⟨0, []⟩ : Lane)),
      fun q => congrArg Port.en (vget_replicate q Port.reset)⟩

end Sys2Proof.Claims

/-! Contexts at a boundary (08 R198, R199, R201, 18 R424, R428, 07 R179, 09 R223): what switches, marks and entries into
the notice handler leave of a context; and from these O35. -/

namespace Sys2Proof.Machine

/-! ### What deliveries leave of a context -/

section
variable (c : Ctx) (now : Nat)

theorem Ctx.status_settle : (c.settle now).status = c.status := (congrArg Ctx.status (c.unwritten_settle now) :)
theorem Ctx.pin_settle : (c.settle now).pin = c.pin := (congrArg Ctx.pin (c.unwritten_settle now) :)
theorem Ctx.inh_settle : (c.settle now).inh = c.inh := (congrArg Ctx.inh (c.unwritten_settle now) :)
theorem Ctx.streams_settle : (c.settle now).streams = c.streams := (congrArg Ctx.streams (c.unwritten_settle now) :)
theorem Ctx.notices_settle : (c.settle now).notices = c.notices := (congrArg Ctx.notices (c.unwritten_settle now) :)
theorem Ctx.waitRegs_settle : (c.settle now).waitRegs = c.waitRegs := (congrArg Ctx.waitRegs (c.unwritten_settle now) :)
theorem Ctx.pend_settle : (c.settle now).pend = c.pend.filter fun p => !p.ready now :=
  (congrArg Ctx.pend (c.unwritten_settle now) :)

theorem Ctx.pin_settleFixed : (c.settleFixed now).pin = c.pin := Ctx.pin_settle _ now

end

theorem Pend.ready_iff {p : Pend} {now : Nat} : p.ready now = true ↔ p.waits = [] ∧ p.due ≤ now := by
  simp [Pend.ready]

/-! ### A change of status (08 R198, R204) -/

/-- What a change of status leaves of a context: all of it but the status and the watchdog count. -/
def Ctx.unscheduled (c : Ctx) : Ctx := { c with status := .idle, wdStart := 0, wdRuns := false, wdHeld := 0 }

section
variable {b c : Ctx} (h : b.unscheduled = c.unscheduled)
include h

theorem Ctx.arch_of_unscheduled : b.arch = c.arch := (congrArg Ctx.arch h :)
theorem Ctx.tiles_of_unscheduled : b.tiles = c.tiles := (congrArg Ctx.tiles h :)
theorem Ctx.lines_of_unscheduled : b.lines = c.lines := (congrArg Ctx.lines h :)
theorem Ctx.pend_of_unscheduled : b.pend = c.pend := (congrArg Ctx.pend h :)

end

theorem Ctx.unscheduled_wdStop (c : Ctx) (now : Nat) : (c.wdStop now).unscheduled = c.unscheduled := by
  unfold Ctx.wdStop
  split <;> rfl

theorem Ctx.unscheduled_wdGo (c : Ctx) (now : Nat) : (c.wdGo now).unscheduled = c.unscheduled := by
  unfold Ctx.wdGo
  split <;> rfl

theorem State.unscheduled_unblock (s : State) (id : CtxId) :
    ((s.unblock id).ctxOf id).unscheduled = (s.ctxOf id).unscheduled := by
  rw [State.unblock, State.ctxOf_updCtx]
  split
  · rfl
  · split
    · rfl
    · exact Ctx.unscheduled_wdStop ..
  · rfl

theorem State.unscheduled_wake (s : State) (id : CtxId) :
    ((s.wake id).ctxOf id).unscheduled = (s.ctxOf id).unscheduled := by
  unfold State.wake
  split
  · split
    · exact s.unscheduled_unblock id
    · rfl
  · rfl

theorem State.wake_of_stays {s : State} {id : CtxId} {why : BlockCause} (hstatus : (s.ctxOf id).status = .blocked why)
    (hcause : s.causeGone id why = false) (hentry : (s.ctxOf id).entryDue = false) : s.wake id = s := by
  simp [State.wake, hstatus, hcause, hentry]

/-- A context that is ready, or blocked and not halted or pinned, is ready once it is let go. -/
theorem State.status_unblock {s : State} {id : CtxId}
    (h : (s.ctxOf id).status = .ready ∨ ∃ w, (s.ctxOf id).status = .blocked w ∧ w ≠ .halt) (hpin : (s.ctxOf id).pin = false) :
    ((s.unblock id).ctxOf id).status = .ready := by
  rw [State.unblock, State.ctxOf_updCtx]
  rcases h with h | ⟨w, h, hne⟩
  · simp only [h]
  · simp only [h, hpin]
    rfl

section
variable (s : State) (id : CtxId) (st : CtxStatus)

theorem State.ctxOf_giveUp : (s.giveUp id st).ctxOf id =
    { (if st = .ready then (s.ctxOf id).wdStop s.cycle else s.ctxOf id) with status := st } := by
  rw [State.giveUp, State.ctxOf_updCore_of_ctxs _ _ _ _ fun k => by split <;> rfl, State.ctxOf_updCtx]

theorem State.unscheduled_giveUp : ((s.giveUp id st).ctxOf id).unscheduled = (s.ctxOf id).unscheduled := by
  rw [State.ctxOf_giveUp]
  split
  · exact (s.ctxOf id).unscheduled_wdStop s.cycle
  · rfl

theorem State.core_giveUp (h : (s.core id.die id.core).running = some id.ctx) :
    ((s.giveUp id st).core id.die id.core).running = none ∧
      ((s.giveUp id st).core id.die id.core).lastRan = id.ctx := by
  rw [State.giveUp, State.core_updCore, State.updCtx, State.core_updCore, if_pos h]
  exact ⟨rfl, rfl⟩

end

/-! ### Switches and pins (08 R199, R201) -/

theorem State.frozen_eq_false {s : State} {id : CtxId} (h : (s.core id.die id.core).frozenUntil ≤ s.cycle) :
    s.frozen id = false :=
  decide_eq_false (Nat.not_lt.2 h)

/-- The state in which a context has taken its core. -/
def State.switched (s : State) (id : CtxId) : State :=
  (s.updCtx id fun c => { c.wdGo (s.wdTime id) with status := .running, quantum := 4096 }).updCore id.die id.core fun k =>
    { k with running := some id.ctx, nextIssue := max s.cycle k.nextIssue + 2 }

theorem State.switchIn_of_first {s : State} {id : CtxId} (hidle : (s.core id.die id.core).running = none)
    (hfirst : (nextCtxs (s.core id.die id.core).lastRan).find?
      (fun x => (s.ctxOf ⟨id.die, id.core, x⟩).status == .ready) = some id.ctx) :
    s.switchIn id.die id.core = s.switched id := by
  simp only [State.switchIn, hidle, hfirst]
  rfl

theorem State.ctxOf_switched (s : State) (id : CtxId) : (s.switched id).ctxOf id =
    { (s.ctxOf id).wdGo (s.wdTime id) with status := .running, quantum := 4096 } := by
  rw [State.switched, State.ctxOf_updCore_of_ctxs _ _ _ _ fun _ => by rfl, State.ctxOf_updCtx]

theorem State.core_switched (s : State) (id : CtxId) : ((s.switched id).core id.die id.core).running = some id.ctx ∧
    ((s.switched id).core id.die id.core).nextIssue = max s.cycle (s.core id.die id.core).nextIssue + 2 := by
  rw [State.switched, State.core_updCore, State.updCtx, State.core_updCore]
  exact ⟨rfl, rfl⟩

theorem Ctx.arch_wdGo (c : Ctx) (now : Nat) : (c.wdGo now).arch = c.arch :=
  Ctx.arch_of_unscheduled (c.unscheduled_wdGo now)

theorem State.otherReady_iff {s : State} {id : CtxId} : s.otherReady id = true ↔
    ∃ y, y ≠ id.ctx ∧ (s.ctxOf ⟨id.die, id.core, y⟩).status = .ready := by
  simp [State.otherReady, mem_fins]

theorem Core.ctx_freeze (k : Core) (now g n : Nat) (x : Fin 4) :
    ∃ by_ till, vget (k.freeze now g n).ctxs x = (vget k.ctxs x).freeze now g by_ till :=
  ⟨_, _, vget_vmapAll k.ctxs _ x⟩

/-- What neither a freeze nor a change of status changes, the end of a pin leaves. -/
theorem State.read_unpinNow {α : Type} {read : Ctx → α}
    (hfreeze : ∀ c now g by_ till, read (Ctx.freeze c now g by_ till) = read c)
    (hstatus : ∀ c st, read { c with status := st } = read c) {s : State} {id : CtxId} (hpin : (s.ctxOf id).pin = true) :
    read ((s.unpinNow id).ctxOf id) = read { s.ctxOf id with pin := false } := by
  have hctx (u : State) {f : Core → Core} (hf : ∀ k, ∃ now g n, (f k).ctxs = (k.freeze now g n).ctxs) :
      read ((u.updCore id.die id.core f).ctxOf id) = read (u.ctxOf id) := by
    obtain ⟨now, g, n, h⟩ := hf (u.core id.die id.core)
    obtain ⟨by_, till, hk⟩ := (u.core id.die id.core).ctx_freeze now g n id.ctx
    rw [State.ctxOf, State.core_updCore, h, hk, hfreeze, State.ctxOf]
  rw [State.unpinNow, if_pos hpin]
  dsimp only
  split
  · rw [State.ctxOf_giveUp, if_neg nofun, hstatus, hctx _ fun k => ⟨_, _, _, by rfl⟩, State.ctxOf_updCtx]
  · rw [hctx _ fun k => ⟨_, _, _, by rfl⟩, State.ctxOf_updCtx]

/-! ### What held stores that go home leave of the contexts (18 R429, 16 R394-R398) -/

section
variable (id : CtxId)

theorem State.ctxOf_foldl {ι : Type} {step : State → ι → State} (h : ∀ s i, (step s i).ctxOf id = s.ctxOf id)
    (l : List ι) (s : State) : (l.foldl step s).ctxOf id = s.ctxOf id :=
  read_foldl_of_frame (read := fun s : State => s.ctxOf id) (fun s i _ => h s i) s

theorem State.ctxOf_recordBad (s : State) (units : List Nat) (src : Nat) (die : Fin 8) (core : Nat) :
    (s.recordBad units src die core).ctxOf id = s.ctxOf id := by
  refine State.ctxOf_foldl id (fun s u => ?_) units s
  rw [State.recordAt]
  split <;> exact State.ctxOf_recordError ..

theorem State.ctxOf_updJoist (s : State) (f : Joist → Joist) : (s.updJoist f).ctxOf id = s.ctxOf id := rfl

theorem State.ctxOf_putFlit (s : State) (q : Fin 16) (x : Sent) : (s.putFlit q x).ctxOf id = s.ctxOf id := rfl

theorem State.ctxOf_movePeer (s : State) (m : BitVec 9) (f : Flit) (p : PeerPlace) :
    (s.movePeer m f p).ctxOf id = s.ctxOf id := rfl

theorem State.ctxOf_hostWrite (s : State) (a : Nat) (bs : List Byte) : (s.hostWrite a bs).ctxOf id = s.ctxOf id := rfl

theorem State.ctxOf_drainVeq {s t : State} {m : BitVec 9} (h : s.drainVeq m = some t) : t.ctxOf id = s.ctxOf id := by
  unfold State.drainVeq at h
  dsimp only at h
  split at h
  · split at h
    · obtain rfl := Option.some.inj h
      rw [State.ctxOf_putFlit, State.ctxOf_movePeer, State.ctxOf_updJoist, State.ctxOf_recordBad]
    · cases h
  · cases h

theorem State.ctxOf_moveFlit {s t : State} {m : BitVec 9} {f : Flit} {sent : PeerPlace → State → State}
    (hsent : ∀ p (u : State), (sent p u).ctxOf id = u.ctxOf id) (h : s.moveFlit m f sent = some t) :
    t.ctxOf id = s.ctxOf id := by
  unfold State.moveFlit at h
  dsimp only at h
  split at h
  · split at h
    · obtain rfl := Option.some.inj h
      rw [State.ctxOf_putFlit, hsent]
    · cases h
  · split at h
    · obtain rfl := Option.some.inj h
      rw [hsent, State.ctxOf_updJoist, State.ctxOf_devWrite]
    · cases h

theorem State.ctxOf_pumpOne {s t : State} {m : BitVec 9} (h : s.pumpOne m = some t) : t.ctxOf id = s.ctxOf id := by
  unfold State.pumpOne at h
  dsimp only at h
  split at h
  next u hdrain =>
    cases h
    split at hdrain
    · cases hdrain
    · exact State.ctxOf_drainVeq id hdrain
  · split at h
    · exact State.ctxOf_moveFlit id (fun _ u => State.ctxOf_updJoist id u _) h
    · split at h
      · exact State.ctxOf_moveFlit id (fun _ u => State.ctxOf_movePeer id u _ _ _) h
      · cases h

theorem State.ctxOf_pump (m : BitVec 9) (fuel : Nat) (s : State) : (State.pump m fuel s).ctxOf id = s.ctxOf id := by
  induction fuel generalizing s with
  | zero => rfl
  | succ fuel ih =>
    rw [State.pump]
    split
    next t h => rw [ih, State.ctxOf_pumpOne id h]
    · rfl

theorem State.ctxOf_sendPeer (s : State) (e : CtxId) (from_ : Origin) (m : BitVec 9) (type off arg : Nat) (data : List Byte)
    (poison : Bool) (va : W64) (acc : AccKind) (read : Bool) (engine : Option (BitVec 16)) :
    (s.sendPeer e from_ m type off arg data poison va acc read engine).1.ctxOf id = s.ctxOf id :=
  State.ctxOf_pump ..

theorem State.ctxOf_writePieces (s : State) (atom a : Nat) (bs : List Byte) :
    (s.writePieces atom a bs).ctxOf id = s.ctxOf id := by
  refine State.ctxOf_foldl id (fun u x => ?_) _ s
  exact State.ctxOf_devWrite ..

end

/-- What goes home of a context leaves all of it but the causes that come due. -/
def Ctx.uncaused (c : Ctx) : Ctx := { c with pendingA := PendingA.none }

theorem State.uncaused_writePeer (s : State) (id : CtxId) (from_ : Origin) (m : BitVec 9) (off : Nat) (bs : List Byte)
    (va : W64) (acc : AccKind) (engine : Option (BitVec 16)) :
    ((s.writePeer id from_ m off bs false va acc engine).ctxOf id).uncaused = (s.ctxOf id).uncaused := by
  unfold State.writePeer
  split
  · rw [State.ctxOf_updCtx]
    rfl
  · split
    · split
      · rw [State.ctxOf_updCtx]
        rfl
      · exact congrArg Ctx.uncaused (State.ctxOf_writePieces ..)
    · refine congrArg Ctx.uncaused (State.ctxOf_foldl id (fun u r => ?_) _ s)
      exact State.ctxOf_sendPeer ..

theorem State.uncaused_performRun (s : State) (id : CtxId) (r : Run) :
    ((s.performRun id r).ctxOf id).uncaused = (s.ctxOf id).uncaused := by
  unfold State.performRun
  split
  · refine congrArg Ctx.uncaused (State.ctxOf_foldl id (fun u x => ?_) _ s)
    exact State.ctxOf_devWrite ..
  · refine congrArg Ctx.uncaused (State.ctxOf_foldl id (fun u x => ?_) _ s)
    exact State.ctxOf_hostWrite ..
  · exact State.uncaused_writePeer ..
  · rfl

/-- A context without held stores. -/
def Ctx.emptied (c : Ctx) : Ctx := { c with held := [] }

theorem State.uncaused_flushHeld (s : State) (id : CtxId) :
    ((s.flushHeld id).ctxOf id).uncaused = (s.ctxOf id).emptied.uncaused := by
  refine (read_foldl_of_frame (read := fun s : State => (s.ctxOf id).uncaused) (fun s r _ => ?_) _).trans ?_
  · exact State.uncaused_performRun s id r
  · rw [State.ctxOf_updCtx, Ctx.emptied]

/-! ### Marks (18 R428, R430) -/

/-- What a mark leaves of a context: all of it but the checkpoint and what counts from the mark on. -/
def Ctx.unmarked (c : Ctx) : Ctx :=
  { c with
    ckpt := Ctx.reset.ckpt, pend := [], held := [], pendingA := PendingA.none, markDue := false
    readT := 0, readV := 0, readK := 0, confT := 0, confV := 0, confK := 0 }

theorem Ctx.unmarked_of_uncaused {b c : Ctx} (h : b.uncaused = c.emptied.uncaused) : b.unmarked = c.unmarked :=
  (congrArg Ctx.unmarked h :)

theorem Ctx.held_of_uncaused {b c : Ctx} (h : b.uncaused = c.emptied.uncaused) : b.held = [] :=
  (congrArg Ctx.held h :)

/-- A context whose region has committed and whose held stores have gone home. -/
def Ctx.marked (c : Ctx) (now : Nat) : Ctx :=
  { c with
    ckpt := ⟨c.arch, (c.inflight.map fun x => { x with due := x.due - now }) ++ c.latches⟩
    pend := c.pend.map fun p => { p with pre := true }
    readT := 0, readV := 0, readK := 0, confT := 0, confV := 0, confK := 0
    markDue := false }

theorem Ctx.unmarked_marked (c : Ctx) (now : Nat) : (c.marked now).unmarked = c.unmarked := rfl

theorem Ctx.held_marked (c : Ctx) (now : Nat) : (c.marked now).held = c.held := rfl

section
variable (s : State) (id : CtxId)

theorem State.ctxOf_mark : (s.mark id).ctxOf id = ((s.flushHeld id).ctxOf id).marked s.cycle :=
  State.ctxOf_updCtx ..

theorem State.unmarked_mark : ((s.mark id).ctxOf id).unmarked = (s.ctxOf id).unmarked := by
  rw [State.ctxOf_mark, Ctx.unmarked_marked, Ctx.unmarked_of_uncaused (s.uncaused_flushHeld id)]

theorem State.markDue_mark : ((s.mark id).ctxOf id).markDue = false := by
  rw [State.ctxOf_mark, Ctx.marked]

theorem State.held_mark : ((s.mark id).ctxOf id).held = [] := by
  rw [State.ctxOf_mark, Ctx.held_marked, Ctx.held_of_uncaused (s.uncaused_flushHeld id)]

theorem State.ckptArch_mark : ((s.mark id).ctxOf id).ckpt.arch = ((s.mark id).ctxOf id).arch := by
  rw [State.ctxOf_mark, Ctx.marked]

end

/-! ### The entry into the notice handler (07 R178, R179, R180) -/

/-- A word with its low bits cleared. -/
theorem and_not_low (x : W64) (k : Nat) :
    x &&& ~~~BitVec.ofNat 64 (2 ^ k - 1) = BitVec.ofNat 64 (x.toNat / 2 ^ k * 2 ^ k) := by
  refine BitVec.eq_of_getLsbD_eq fun i hi => ?_
  simp only [BitVec.getLsbD_and, BitVec.getLsbD_not, BitVec.getLsbD_ofNat, Nat.testBit_two_pow_sub_one, Nat.testBit_mul_two_pow,
    Nat.testBit_div_two_pow, hi, decide_true, Bool.true_and]
  by_cases h : i < k
  · simp [h, Nat.not_le.2 h]
  · have hk : k ≤ i := Nat.not_lt.1 h
    simp [h, hk, BitVec.getLsbD]

/-- The context with which a handler begins, before the mark of its entry. -/
def Ctx.inHandler (c : Ctx) (point : W64) (n : Notice) : Ctx :=
  let st := match n.fired with | some x => x.setWidth 64 | none => 0
  { c with
    uiret := point, keepM := c.arch.stickyM, keepC := c.arch.stickyC, inh := true
    slotWait := if c.slotWait.any SlotWait.flit then c.slotWait else none
    wasBlocked := false, keepWait := c.wait, keepKv := c.kvReq, keepBoard := c.boarding, wait := none, kvReq := none
    boarding := none, notices := c.notices.erase n
    arch := { c.arch with
      stickyM := none, stickyC := none, due := none, hs := vset (vset c.arch.hs 1 (n.tag.setWidth 64)) 2 st
      pc := c.iuvec &&& ~~~3#64 } }

theorem State.enterHandler_eq (s : State) (id : CtxId) (n : Notice) :
    s.enterHandler id n = (s.updCtx id fun c => c.inHandler (s.resumePoint id) n).mark id := by
  unfold State.enterHandler Ctx.inHandler
  rfl

theorem State.unmarked_enterHandler (s : State) (id : CtxId) (n : Notice) :
    ((s.enterHandler id n).ctxOf id).unmarked = ((s.ctxOf id).inHandler (s.resumePoint id) n).unmarked := by
  rw [State.enterHandler_eq, State.unmarked_mark, State.ctxOf_updCtx]

theorem bitsOf_resumePoint_pc (s : State) (id : CtxId) :
    bitsOf (s.resumePoint id) 0 56 = (s.ctxOf id).arch.pc.toNat % 2 ^ 56 / 4 * 4 := by
  rw [State.resumePoint, bitsOf_setField_other _ _ (by decide) (.inr (by decide)), bitsOf_setField_same _ (by decide) (by omega)]

theorem State.repAt_lt (s : State) (id : CtxId) : s.repAt id < 2 ^ 6 := by
  unfold State.repAt
  dsimp only
  split
  · decide
  · split
    next h _ => exact h.rep.isLt
    · decide

theorem bitsOf_resumePoint_due (s : State) (id : CtxId) : bitsOf (s.resumePoint id) 56 6 =
    match (s.ctxOf id).arch.due with | some n => n.toNat | none => s.repAt id := by
  refine bitsOf_setField_same _ (by decide) ?_
  split
  next n _ => exact n.isLt
  · exact s.repAt_lt id

theorem State.updCtx_congr {s : State} {id : CtxId} {f g : Ctx → Ctx} (h : f (s.ctxOf id) = g (s.ctxOf id)) :
    s.updCtx id f = s.updCtx id g :=
  State.updCore_congr (congrArg (fun v => { s.core id.die id.core with ctxs := v }) (vupd_congr h))

/-! ### Causes that come due (18 R423, 09 R223) -/

/-- A context for which an XREPORT alone is pending takes nothing before it next issues (09 R223). -/
theorem Ctx.nextStanding_of_xreport {c : Ctx} (h : c.pendingA = { PendingA.none with xreport := true }) (hpin : c.pin = false) :
    c.nextStanding = none := by
  simp [Ctx.nextStanding, Ctx.nextA, h, hpin, PendingA.none]

/-- An XREPORT that other causes precede stays pending. -/
theorem xreport_stays (x pin : Bool) : (x && (!x || pin) || x && !pin) = x := by
  cases x <;> cases pin <;> rfl

theorem Ctx.nextStanding_of_linkLost {c : Ctx} (h : c.pendingA.linkLost = true) : c.nextStanding =
    some (⟨0x0B, 0, c.fva, c.finfo⟩, { c with pendingA := { c.pendingA with linkLost := false } }) := by
  simp [Ctx.nextStanding, Ctx.nextA, h, Ctx.plainRec, cLINKLOST, xreport_stays]

theorem Ctx.nextStanding_of_fault {c : Ctx} {f : PendFault} {rest : List PendFault} (hlink : c.pendingA.linkLost = false)
    (h : c.pendingA.faults = f :: rest) : c.nextStanding =
    some (f.trap, { c with pendingA := { c.pendingA with faults := rest, taken := some f } }) := by
  simp [Ctx.nextStanding, Ctx.nextA, h, hlink, xreport_stays]

section
variable {s : State} {id : CtxId}

theorem State.standingTrap_of_stream {r : TrapRec} (h : (s.ctxOf id).streamFault = some r) :
    s.standingTrap id = (s.updCtx id fun y => { y with streamFault := none }).takeTrap id r true := by
  simp only [State.standingTrap, h]

theorem State.standingTrap_of_cause {r : TrapRec} {c : Ctx} (hstream : (s.ctxOf id).streamFault = none)
    (h : (s.ctxOf id).nextStanding = some (r, c)) : s.standingTrap id = (s.updCtx id fun _ => c).takeTrap id r false := by
  simp only [State.standingTrap, hstream, h]

theorem State.standingTrap_of_none (hstream : (s.ctxOf id).streamFault = none) (h : (s.ctxOf id).nextStanding = none) :
    s.standingTrap id = s := by
  simp only [State.standingTrap, hstream, h]

end

/-! ### The entry into the notice handler (07 R178, R179, R180) -/

/-- What a context keeps of the handler's beginning once the entry has marked it and it is let go. -/
theorem State.entered_enterHandler (s : State) (id : CtxId) (n : Notice) :
    (((s.enterHandler id n).unblock id).ctxOf id).unscheduled.unmarked =
      ((s.ctxOf id).inHandler (s.resumePoint id) n).unmarked.unscheduled := by
  have hswap (c : Ctx) : c.unscheduled.unmarked = c.unmarked.unscheduled := rfl
  rw [State.unscheduled_unblock, hswap, State.unmarked_enterHandler]

/-- The context that a handler begins with, in the terms of the context that its notice reached. -/
structure Ctx.Entered (z y : Ctx) (point : W64) (n : Notice) : Prop where
  inh : z.inh = true
  uiret : z.uiret = point
  notices : z.notices = y.notices.erase n
  arch : z.arch = (y.inHandler point n).arch
  keepM : z.keepM = y.arch.stickyM
  keepC : z.keepC = y.arch.stickyC
  keepWait : z.keepWait = y.wait
  keepKv : z.keepKv = y.kvReq
  keepBoard : z.keepBoard = y.boarding
  wait : z.wait = none
  kvReq : z.kvReq = none
  boarding : z.boarding = none

theorem Ctx.entered_of_unmarked {z y : Ctx} {point : W64} {n : Notice}
    (h : z.unscheduled.unmarked = (y.inHandler point n).unmarked.unscheduled) : Ctx.Entered z y point n :=
  ⟨(congrArg Ctx.inh h :), (congrArg Ctx.uiret h :), (congrArg Ctx.notices h :), (congrArg Ctx.arch h :),
    (congrArg Ctx.keepM h :), (congrArg Ctx.keepC h :), (congrArg Ctx.keepWait h :), (congrArg Ctx.keepKv h :),
    (congrArg Ctx.keepBoard h :), (congrArg Ctx.wait h :), (congrArg Ctx.kvReq h :), (congrArg Ctx.boarding h :)⟩

section
variable {b c : Ctx} (h : b.unmarked = c.unmarked)
include h

theorem Ctx.status_of_unmarked : b.status = c.status := (congrArg Ctx.status h :)
theorem Ctx.pin_of_unmarked : b.pin = c.pin := (congrArg Ctx.pin h :)

end

section
variable {b c : Ctx} (h : b.unscheduled = c.unscheduled)
include h

theorem Ctx.markDue_of_unscheduled : b.markDue = c.markDue := (congrArg Ctx.markDue h :)
theorem Ctx.held_of_unscheduled : b.held = c.held := (congrArg Ctx.held h :)
theorem Ctx.ckpt_of_unscheduled : b.ckpt = c.ckpt := (congrArg Ctx.ckpt h :)

end

/-- A context that its notice reached at a boundary is ready in its handler, with a new region open. -/
theorem State.marked_enterHandler {s : State} {id : CtxId} (n : Notice)
    (hstatus : (s.ctxOf id).status = .ready ∨ ∃ w, (s.ctxOf id).status = .blocked w ∧ w ≠ .halt)
    (hpin : (s.ctxOf id).pin = false) :
    let z := ((s.enterHandler id n).unblock id).ctxOf id
    z.status = .ready ∧ z.markDue = false ∧ z.held = [] ∧ z.ckpt.arch = z.arch := by
  have hkeep := (s.enterHandler id n).unscheduled_unblock id
  have hpre := s.unmarked_enterHandler id n
  refine ⟨State.status_unblock ?_ ?_, ?_, ?_, ?_⟩
  · rwa [Ctx.status_of_unmarked hpre]
  · rwa [Ctx.pin_of_unmarked hpre]
  · rw [Ctx.markDue_of_unscheduled hkeep, State.enterHandler_eq, State.markDue_mark]
  · rw [Ctx.held_of_unscheduled hkeep, State.enterHandler_eq, State.held_mark]
  · rw [Ctx.ckpt_of_unscheduled hkeep, Ctx.arch_of_unscheduled hkeep, State.enterHandler_eq, State.ckptArch_mark]

/-- The bank of the handler, as the entry writes it: the notice's tag and its status. -/
theorem Ctx.hs_inHandler (c : Ctx) (point : W64) (n : Notice) : (c.inHandler point n).arch.hs =
    vset (vset c.arch.hs 1 (BitVec.ofNat 64 n.tag.toNat)) 2
      (BitVec.ofNat 64 (match n.fired with | some v => v.toNat | none => 0)) := by
  cases h : n.fired <;> simp [Ctx.inHandler, h]

theorem Ctx.pc_inHandler (c : Ctx) (point : W64) (n : Notice) :
    (c.inHandler point n).arch.pc = BitVec.ofNat 64 (c.iuvec.toNat / 4 * 4) :=
  and_not_low c.iuvec 2

end Sys2Proof.Machine

namespace Sys2Proof.Claims
open Machine

/-! ### Deliveries and marks (12 R298, 18 R428) -/

section
variable {s : State} {id : CtxId}

theorem leads_loadDelivery {p : Pend} (hp : p ∈ (s.ctxOf id).pend) (hwaits : p.waits = []) (hdue : p.due ≤ s.cycle) :
    let k := s.ctxOf id
    Leads s (.loadDelivery id) fun t =>
      (t.ctxOf id).arch = (k.settle s.cycle).arch ∧ (t.ctxOf id).tiles = (k.settle s.cycle).tiles ∧
      (t.ctxOf id).lines = (k.settle s.cycle).lines ∧ t.mem = s.mem ∧
      (∀ q, q ∈ (t.ctxOf id).pend ↔ q ∈ k.pend ∧ ¬(q.waits = [] ∧ q.due ≤ s.cycle)) ∧
      (k.status = .blocked .pending → k.pin = false → (∀ r, r ∈ k.waitRegs → (k.settle s.cycle).isPending r = false) →
        (t.ctxOf id).status = .ready) ∧
      (k.status = .blocked .pending → (∃ r, r ∈ k.waitRegs ∧ (k.settle s.cycle).isPending r = true) →
        (k.settle s.cycle).entryDue = false → (t.ctxOf id).status = .blocked .pending) := by
  intro k
  let u := s.updCtx id fun c => c.settle s.cycle
  have hu : u.ctxOf id = k.settle s.cycle := State.ctxOf_updCtx ..
  have hany : k.pend.any (Pend.ready s.cycle) = true := List.any_eq_true.2 ⟨p, hp, Pend.ready_iff.2 ⟨hwaits, hdue⟩⟩
  have hkeep : ((u.wake id).ctxOf id).unscheduled = (k.settle s.cycle).unscheduled := by
    rw [State.unscheduled_wake, hu]
  have hcause : u.causeGone id .pending = !k.waitRegs.any (k.settle s.cycle).isPending := by
    rw [State.causeGone, hu, Ctx.waitRegs_settle]
  have hblocked (h : k.status = .blocked .pending) : (u.ctxOf id).status = .blocked .pending := by
    rw [hu, Ctx.status_settle, h]
  refine ⟨u.wake id, congrArg Host.Outcome.next (if_pos hany), Ctx.arch_of_unscheduled hkeep,
    Ctx.tiles_of_unscheduled hkeep, Ctx.lines_of_unscheduled hkeep, apart_mem.wake u id, fun q => ?_, fun hstatus hpin hnone => ?_, fun hstatus hsome hentry => ?_⟩
  · rw [Ctx.pend_of_unscheduled hkeep, Ctx.pend_settle, List.mem_filter, Bool.not_eq_true', ← Bool.not_eq_true, Pend.ready_iff]
  · have hgone : u.causeGone id .pending = true := by
      rw [hcause, Bool.not_eq_true', List.any_eq_false]
      exact fun r hr => Bool.eq_false_iff.1 (hnone r hr)
    rw [State.ctxOf_wake_of_gone (hblocked hstatus) nofun hgone, hu, Ctx.pin_settle, hpin]
    rfl
  · have hstays : u.causeGone id .pending = false := by
      rw [hcause, Bool.not_eq_false', List.any_eq_true]
      exact hsome
    rw [State.wake_of_stays (hblocked hstatus) hstays (by rw [hu, hentry]), hblocked hstatus]

theorem dotting_eq_false {c : Ctx} (h : ∀ o, o ∈ c.streams → 2 ≤ o.kind.toNat) : c.dotting = false :=
  List.any_eq_false.2 fun o ho => by simpa using Nat.lt_of_succ_le (h o ho)

theorem markWaits_eq_false {c : Ctx} (hdots : ∀ o, o ∈ c.streams → 2 ≤ o.kind.toNat)
    (hpub : c.publishing = false ∨ c.held = []) : c.markWaits = false := by
  rw [Ctx.markWaits, dotting_eq_false hdots]
  rcases hpub with h | h <;> simp [h]

theorem gives_regionCommit (hdue : (s.ctxOf id).markDue = true) (hdots : ∀ o, o ∈ (s.ctxOf id).streams → 2 ≤ o.kind.toNat)
    (hpub : (s.ctxOf id).publishing = false ∨ (s.ctxOf id).held = []) :
    Gives s (.regionCommit id) ((s.updCtx id fun y => y.settle s.cycle).mark id) :=
  congrArg Host.Outcome.next (if_pos ⟨hdue, by simp [markWaits_eq_false hdots hpub]⟩)

/-! ### Switches, quanta and pins (08 R199, R201) -/

/-- The order of R199 from a context on: those before a context are fewer turns away. -/
theorem nextCtxs_split : ∀ last x : Fin 4,
    nextCtxs last = (nextCtxs last).take (turnOf last x) ++ x :: (nextCtxs last).drop (turnOf last x + 1) ∧
      ∀ y ∈ (nextCtxs last).take (turnOf last x), turnOf last y < turnOf last x := by
  decide

theorem find?_nextCtxs {ready : Fin 4 → Bool} {last x : Fin 4} (hx : ready x = true)
    (hfirst : ∀ y, ready y = true → turnOf last x ≤ turnOf last y) : (nextCtxs last).find? ready = some x := by
  obtain ⟨hsplit, hbefore⟩ := nextCtxs_split last x
  refine List.find?_eq_some_iff_append.2 ⟨hx, _, _, hsplit, fun y hy => ?_⟩
  simpa using mt (hfirst y) (Nat.not_le.2 (hbefore y hy))

theorem leads_contextSwitch (hfree : (s.core id.die id.core).frozenUntil ≤ s.cycle)
    (hidle : (s.core id.die id.core).running = none) (hready : (s.ctxOf id).status = .ready)
    (hfirst : ∀ y, (s.ctxOf ⟨id.die, id.core, y⟩).status = .ready →
      turnOf (s.core id.die id.core).lastRan id.ctx ≤ turnOf (s.core id.die id.core).lastRan y) :
    Leads s (.contextSwitch id.die id.core) fun t => (t.core id.die id.core).running = some id.ctx ∧
      (t.ctxOf id).status = .running ∧ (t.ctxOf id).quantum = 4096 ∧ (t.ctxOf id).arch = (s.ctxOf id).arch ∧
      (t.core id.die id.core).nextIssue = max s.cycle (s.core id.die id.core).nextIssue + 2 := by
  have hfind := find?_nextCtxs (ready := fun x => (s.ctxOf ⟨id.die, id.core, x⟩).status == .ready) (x := id.ctx)
    (beq_iff_eq.2 hready) fun y hy => hfirst y (beq_iff_eq.1 hy)
  have hstep : exec (.contextSwitch id.die id.core) s = .next (s.switched id) := by
    rw [← State.switchIn_of_first hidle hfind]
    exact congrArg Host.Outcome.next (if_neg (Bool.not_eq_true _ ▸ State.frozen_eq_false hfree))
  obtain ⟨hrunning, hnext⟩ := s.core_switched id
  rw [Leads]
  refine ⟨_, hstep, hrunning, ?_, ?_, ?_, hnext⟩
  all_goals rw [State.ctxOf_switched]
  exact Ctx.arch_wdGo ..

theorem leads_quantumExpiry (hfree : (s.core id.die id.core).frozenUntil ≤ s.cycle)
    (hruns : (s.core id.die id.core).running = some id.ctx) (hstatus : (s.ctxOf id).status = .running)
    (hquantum : (s.ctxOf id).quantum = 0) (hpin : (s.ctxOf id).pin = false)
    (hother : ∃ y, y ≠ id.ctx ∧ (s.ctxOf ⟨id.die, id.core, y⟩).status = .ready) :
    Leads s (.quantumExpiry id.die id.core) fun t => (t.core id.die id.core).running = none ∧
      (t.core id.die id.core).lastRan = id.ctx ∧ (t.ctxOf id).status = .ready ∧
      (t.ctxOf id).arch = (s.ctxOf id).arch := by
  have hstep : exec (.quantumExpiry id.die id.core) s = .next (s.giveUp id .ready) := by
    change execQuantumExpiry id.die id.core s = _
    simp [execQuantumExpiry, hruns, hstatus, hquantum, hpin, State.otherReady_iff.2 hother, State.frozen_eq_false hfree]
  obtain ⟨hrunning, hlast⟩ := s.core_giveUp id .ready hruns
  refine ⟨_, hstep, hrunning, hlast, ?_, Ctx.arch_of_unscheduled (s.unscheduled_giveUp id .ready)⟩
  rw [State.ctxOf_giveUp]

theorem leads_pinmaxExpiry (hpin : (s.ctxOf id).pin = true)
    (hover : max 1 (s.die id.die).pinmax.toNat ≤ s.cycle - (s.ctxOf id).pinStart) :
    Leads s (.pinmaxExpiry id) fun t => (t.ctxOf id).pin = false ∧ (t.ctxOf id).pinOvr = true ∧
      (t.ctxOf id).arch = ((s.ctxOf id).settleFixed s.cycle).arch := by
  let u := s.updCtx id fun c => c.settleFixed s.cycle
  have hu : u.ctxOf id = (s.ctxOf id).settleFixed s.cycle := State.ctxOf_updCtx ..
  have hupin : (u.ctxOf id).pin = true := by rw [hu, Ctx.pin_settleFixed, hpin]
  have hstep : exec (.pinmaxExpiry id) s = .next ((u.unpinNow id).updCtx id fun c => { c with pinOvr := true }) :=
    if_pos (Bool.and_eq_true_iff.2 ⟨hpin, decide_eq_true hover⟩)
  refine ⟨_, hstep, ?_⟩
  dsimp only
  rw [State.ctxOf_updCtx, ← hu]
  dsimp only
  refine ⟨?_, rfl, ?_⟩
  · exact State.read_unpinNow (read := Ctx.pin) (fun _ _ _ _ _ => rfl) (fun _ _ => rfl) hupin
  · exact State.read_unpinNow (read := Ctx.arch) (fun _ _ _ _ _ => rfl) (fun _ _ => rfl) hupin

end

/-! ### The watchdog and traps (08 R204, 18 R423, R424) -/

theorem captureWaits_eq_false {s : State} {id : CtxId} (h : NothingOut s id) : s.captureWaits id = false := by
  obtain ⟨hpend, hstreams, hreqs⟩ := h
  have hanswers : ((s.ctxOf id).pend.any fun p => !p.waits.isEmpty) = false :=
    List.any_eq_false.2 fun p hp => by simp [hpend p hp]
  have hpeers : (s.joist.peerReqs.any fun r => r.of id) = false :=
    List.any_eq_false.2 fun r hr => by simp [hreqs r hr]
  simp [State.captureWaits, hanswers, hstreams, hpeers]

section
variable {s : State} {id : CtxId}

theorem gives_watchdog (hon : ((s.die id.die).wdNow s.cycle).1 = true) (hruns : (s.ctxOf id).wdRuns = true)
    (htask : (s.ctxOf id).task ≠ none) (hstatus : (s.ctxOf id).status = .running) (hstream : (s.ctxOf id).streamFault = none)
    (hcauses : (s.ctxOf id).pendingA = PendingA.none) (hfree : (s.core id.die id.core).frozenUntil ≤ s.cycle)
    (hlimit : s.wdLimitOf id ≤ (s.ctxOf id).wdCount s.cycle) : Gives s (.watchdog id) (s.fireWatchdog id) := by
  have hnone : (s.ctxOf id).trapPending = false := by
    simp [Ctx.trapPending, hstream, hstatus, Ctx.nextA, hcauses, PendingA.none]
  have hfires : s.wdFires id = true := by
    simp [State.wdFires, hon, hruns, Option.isSome_iff_ne_none.2 htask, hstatus, CtxStatus.stands, hnone,
      State.frozen_eq_false hfree, hlimit]
  exact congrArg Host.Outcome.next (if_pos hfires)

variable (hfree : (s.core id.die id.core).frozenUntil ≤ s.cycle)
include hfree

theorem gives_trapDelivery_capture (hstatus : (s.ctxOf id).status = .saving) (hout : NothingOut s id) {r : TrapRec}
    (hdue : (s.ctxOf id).trapDue = some r) : Gives s (.trapDelivery ⟨id, none⟩) (s.finishTrap id r) := by
  change execTrapDelivery ⟨id, none⟩ s = _
  simp [execTrapDelivery, State.frozen_eq_false hfree, hstatus, captureWaits_eq_false hout, hdue]

theorem gives_trapDelivery_save (hstatus : (s.ctxOf id).status = .saving) (hout : NothingOut s id)
    (hdue : (s.ctxOf id).trapDue = none) : Gives s (.trapDelivery ⟨id, none⟩) (s.finishSave id) := by
  change execTrapDelivery ⟨id, none⟩ s = _
  simp [execTrapDelivery, State.frozen_eq_false hfree, hstatus, captureWaits_eq_false hout, hdue]

variable (hstatus : (s.ctxOf id).status = .running ∨ (s.ctxOf id).status = .ready)
include hstatus

theorem gives_trapDelivery_register (n : BitVec 8) : Gives s (.trapDelivery ⟨id, some n⟩)
    ((s.recordError id.die 5 0 id.core.val 0 (32 * n.toNat)).takeTrap id
      ⟨0x10, 0, (s.ctxOf id).fva, (s.ctxOf id).finfo⟩ false) := by
  have hbad : s.badRegister id n = (s.recordError id.die 5 0 id.core.val 0 (32 * n.toNat)).takeTrap id
      ⟨0x10, 0, (s.ctxOf id).fva, (s.ctxOf id).finfo⟩ false := by
    rw [State.badRegister, State.ctxOf_recordError]
    rfl
  rw [← hbad]
  change execTrapDelivery ⟨id, some n⟩ s = _
  rcases hstatus with h | h <;> simp [execTrapDelivery, State.frozen_eq_false hfree, h, CtxStatus.stands]

theorem gives_trapDelivery_standing : Gives s (.trapDelivery ⟨id, none⟩) (s.standingTrap id) := by
  change execTrapDelivery ⟨id, none⟩ s = _
  rcases hstatus with h | h <;> simp [execTrapDelivery, State.frozen_eq_false hfree, h, CtxStatus.stands]

end

/-! ### The entry into the notice handler (07 R178, R179, R180) -/

theorem leads_noticeEntry {s : State} {id : CtxId} {n : Notice}
    (hstatus : (s.ctxOf id).status = .ready ∨ ∃ w, (s.ctxOf id).status = .blocked w ∧ w ≠ .halt)
    (hinh : (s.ctxOf id).inh = false) (hpin : (s.ctxOf id).pin = false)
    (hdots : ∀ o, o ∈ (s.ctxOf id).streams → 2 ≤ o.kind.toNat) :
    let k := s.ctxOf id
    let y := k.settle s.cycle
    y.inflight = [] → y.latches = [] → y.iuvec.toNat % 2 = 1 → y.publishing = false ∨ y.held = [] → y.firstFired = some n →
    Leads s (.noticeEntry id) fun t =>
      let z := t.ctxOf id
      z.status = .ready ∧ z.inh = true ∧ z.markDue = false ∧ z.held = [] ∧ z.ckpt.arch = z.arch ∧
      part z.uiret.toNat 0 56 = y.arch.pc.toNat % 2 ^ 56 / 4 * 4 ∧
      part z.uiret.toNat 56 6 = (match y.arch.due with | some n => n.toNat | none => (s.updCtx id fun _ => y).repAt id) ∧
      z.notices = k.notices.erase n ∧ z.arch.pc = BitVec.ofNat 64 (y.iuvec.toNat / 4 * 4) ∧
      z.arch.hs = vset (vset y.arch.hs 1 (BitVec.ofNat 64 n.tag.toNat)) 2
        (BitVec.ofNat 64 (match n.fired with | some v => v.toNat | none => 0)) ∧
      z.arch.s = y.arch.s ∧ z.keepM = y.arch.stickyM ∧ z.keepC = y.arch.stickyC ∧ z.arch.stickyM = none ∧
      z.arch.stickyC = none ∧ z.keepWait = y.wait ∧ z.keepKv = y.kvReq ∧ z.keepBoard = y.boarding ∧ z.wait = none ∧
      z.kvReq = none ∧ z.boarding = none := by
  intro k y hidle hnolatch hen hpub hfirst
  let u := s.updCtx id fun _ => y
  have hu : u.ctxOf id = y := State.ctxOf_updCtx ..
  have hdotsy : ∀ o, o ∈ y.streams → 2 ≤ o.kind.toNat := fun o ho => hdots o (Ctx.streams_settle k s.cycle ▸ ho)
  have hdue : y.entryDue = true := by
    simp [Ctx.entryDue, hfirst, bit_zero_iff, hen, markWaits_eq_false hdotsy hpub, y, Ctx.inh_settle, Ctx.pin_settle, k, hinh, hpin]
  have hstep : exec (.noticeEntry id) s = .next ((u.enterHandler id n).unblock id) := by
    have hsettled : s.updCtx id (fun c => c.settle s.cycle) = u := State.updCtx_congr rfl
    change execNoticeEntry id s = _
    rcases hstatus with h | ⟨w, h, hw⟩
    · simp [execNoticeEntry, h, hsettled, hu, hdue, hidle, hnolatch, hfirst]
    · simp [execNoticeEntry, h, hw, hsettled, hu, hdue, hidle, hnolatch, hfirst]
  have hentered := Ctx.entered_of_unmarked ((u.entered_enterHandler id n).trans (by rw [hu]))
  have hupin : (u.ctxOf id).pin = false := by rw [hu, Ctx.pin_settle, hpin]
  have hustatus : (u.ctxOf id).status = (s.ctxOf id).status := by rw [hu, Ctx.status_settle]
  obtain ⟨hready, hmark, hheld, hckpt⟩ := State.marked_enterHandler n (by rwa [hustatus]) hupin
  obtain ⟨hin, huiret, hnotices, harch, hkeepM, hkeepC, hkeepWait, hkeepKv, hkeepBoard, hwait, hkvReq, hboarding⟩ := hentered
  have hpoint := bitsOf_resumePoint_pc u id
  have hdues := bitsOf_resumePoint_due u id
  rw [← huiret, hu] at hpoint hdues
  refine ⟨_, hstep, hready, hin, hmark, hheld, hckpt, hpoint, hdues, ?_, ?_, ?_, ?_, hkeepM, hkeepC, ?_, ?_, hkeepWait, hkeepKv,
    hkeepBoard, hwait, hkvReq, hboarding⟩
  · rw [hnotices, Ctx.notices_settle]
  all_goals rw [harch]
  · exact y.pc_inHandler ..
  · exact y.hs_inHandler ..
  all_goals rfl

/-- Settles O35: each event of a context at a boundary. -/
theorem contextEvents : Obligations.ContextEvents := by
  intro s d c x id k
  refine ⟨fun p hp hwaits hdue => leads_loadDelivery hp hwaits hdue, gives_regionCommit,
    fun hfree hidle hready hfirst => leads_contextSwitch (id := ⟨d, c, x⟩) hfree hidle hready hfirst,
    fun hfree hruns hstatus hquantum hpin hother =>
      leads_quantumExpiry (id := ⟨d, c, x⟩) hfree hruns hstatus hquantum hpin hother,
    leads_pinmaxExpiry, gives_watchdog,
    fun hfree hstatus hout => ⟨fun r hdue => gives_trapDelivery_capture hfree hstatus hout hdue,
      gives_trapDelivery_save hfree hstatus hout⟩,
    fun hfree hstatus => ⟨gives_trapDelivery_register hfree hstatus, ?stream, ?linkLost, ?fault, ?xreport⟩,
    fun n hstatus hinh hpin hdots => leads_noticeEntry hstatus hinh hpin hdots⟩
  all_goals have hstanding := gives_trapDelivery_standing hfree hstatus
  case stream =>
    intro r hstream
    rwa [State.standingTrap_of_stream hstream] at hstanding
  case linkLost =>
    intro hstream hlink
    rwa [State.standingTrap_of_cause hstream (Ctx.nextStanding_of_linkLost hlink)] at hstanding
  case fault =>
    intro hstream hlink f rest hfaults
    rwa [State.standingTrap_of_cause hstream (Ctx.nextStanding_of_fault hlink hfaults)] at hstanding
  case xreport =>
    intro hstream hcauses _ hpin
    rwa [State.standingTrap_of_none hstream (Ctx.nextStanding_of_xreport hcauses hpin)] at hstanding

end Sys2Proof.Claims

/-! Tasks (08 R185, R186, 17 R415-R420): what leaves the task table as it is, the context of a task that starts or ends, and
what a command answers; and from these O41. -/

namespace Sys2Proof.Machine

/-! ### The task table (17 R419) -/

theorem alookup_map {β : Type} (f : β → β) (k : Nat) (l : List (Nat × β)) :
    alookup k (l.map fun p => if p.1 = k then (p.1, f p.2) else p) = (alookup k l).map f := by
  induction l with
  | nil => rfl
  | cons p l ih =>
    by_cases h : p.1 = k
    · simp [alookup, h]
    · simpa [alookup, h] using ih

theorem alookup_aerase {β : Type} (k : Nat) (l : List (Nat × β)) : alookup k (aerase k l) = none := by
  simp [alookup, aerase]

section
variable (s : State) (d e : Fin 8) (n : Nat)

theorem State.task_updTask (f : Task → Task) : (s.updTask d n f).task d n = (s.task d n).map f := by
  rw [State.task, State.updTask, State.die_updDie]
  exact alookup_map f n (s.die d).tasks

/-- An update of a die that leaves its task table. -/
theorem State.task_updDie_of_tasks {f : Die → Die} (h : ∀ x, (f x).tasks = x.tasks) :
    (s.updDie d f).task e n = s.task e n := by
  by_cases hd : d = e
  · subst hd
    rw [State.task, State.die_updDie, h, State.task]
  · rw [State.task, State.die_updDie_ne s hd, State.task]

theorem State.task_updQueue (q : Fin 64) (f : Queue → Queue) : (s.updQueue d q f).task e n = s.task e n :=
  s.task_updDie_of_tasks d e n fun _ => rfl

theorem State.task_dropHold (id : CtxId) (k : Fin 8) : (s.dropHold id k).task e n = s.task e n :=
  s.task_updDie_of_tasks id.die e n fun _ => rfl

theorem State.task_postEvent (code : Nat) (src : EvSrc) (w1 w2 : Nat) :
    (s.postEvent d code src w1 w2).task e n = s.task e n := by
  unfold State.postEvent
  dsimp only
  split
  · exact s.task_updDie_of_tasks d e n fun _ => rfl
  · rw [State.task, State.sendMsix_die]
    exact (s.hostWrite _ _).task_updDie_of_tasks d e n fun _ => rfl

theorem State.task_freeTask : (s.freeTask d n).task d n = none := by
  unfold State.freeTask
  split
  next h => exact h
  · rw [State.task_updQueue, State.task, State.die_updDie]
    exact alookup_aerase n (s.die d).tasks

theorem State.ctxOf_freeTask (id : CtxId) : (s.freeTask d n).ctxOf id = s.ctxOf id := by
  unfold State.freeTask
  split
  · rfl
  · rw [State.updQueue, State.ctxOf_updDie_of_cores _ _ _ fun _ => by rfl, State.ctxOf_updDie_of_cores _ _ _ fun _ => by rfl]

end

/-! ### The end of a task (08 R185, 12 R290) -/

theorem State.idle_freeContext (s : State) (id : CtxId) :
    ((s.freeContext id).ctxOf id).status = .idle ∧ ((s.freeContext id).ctxOf id).task = none := by
  rw [State.freeContext]
  dsimp only
  rw [State.ctxOf_updCore_of_ctxs _ _ _ _ fun k => by split <;> split <;> rfl, State.ctxOf_updCtx]
  exact ⟨rfl, rfl⟩

theorem State.ctxOf_dropHolds (s : State) (id e : CtxId) : (s.dropHolds id).ctxOf e = s.ctxOf e := by
  refine State.ctxOf_foldl e (fun u k => ?_) (fins 8) s
  exact State.ctxOf_updDie_of_cores u id.die e fun _ => rfl

theorem State.joist_dropHolds (s : State) (id : CtxId) : (s.dropHolds id).joist = s.joist := by
  refine read_foldl_of_frame (read := State.joist) (fun u k _ => ?_) s
  rfl

theorem State.captureWaits_dropHolds (s : State) (id e : CtxId) : (s.dropHolds id).captureWaits e = s.captureWaits e := by
  rw [State.captureWaits, State.captureWaits, State.ctxOf_dropHolds, State.joist_dropHolds]

/-- A task without a completion action (08 R185). -/
theorem State.completionAction_of_none {s : State} {id : CtxId} {n : Nat} {t : Task} (h : descDone t.desc = 0) :
    s.completionAction id n t = (s, false) :=
  if_pos h

/-! ### A task that starts (08 R186, 17 R416, 01 R33) -/

/-- A dispatch in an identifier without a root fails by a cause, with no poison and no page rejected. -/
theorem State.noRoot_of_invalid {s : State} {d : Fin 8} {t : Task} (h : bit (vget (s.die d).asroot t.asid) 0 = false) :
    ∃ va range cause kind level, s.noRoot d t = some ⟨va, range, .trap cause kind level⟩ := by
  rw [State.noRoot, h, if_neg Bool.false_ne_true]
  split
  · exact ⟨_, _, _, _, _, rfl⟩
  · exact ⟨_, _, _, _, _, rfl⟩

theorem State.task_startTask_of_noRoot {s : State} {id : CtxId} {n : Nat} {t : Task}
    (h : bit (vget (s.die id.die).asroot t.asid) 0 = false) :
    (s.startTask id n t).task id.die n = (s.task id.die n).map fun y => { y with state := .dfault } := by
  obtain ⟨va, range, cause, kind, level, hroot⟩ := State.noRoot_of_invalid h
  have hholds (u : State) : ((fins 8).foldl (fun s k => s.dropHold id k) u).task id.die n = u.task id.die n :=
    read_foldl_of_frame (read := fun s : State => s.task id.die n) (fun s k _ => s.task_dropHold id.die n id k) u
  simp only [State.startTask, State.taskExtents, hroot, State.noteUnit]
  rw [State.task_updTask, State.task_postEvent, hholds]

theorem State.ctxOf_freshDirty (s : State) (id : CtxId) : (s.freshDirty id).ctxOf id = s.ctxOf id :=
  State.ctxOf_updCore_of_ctxs s _ _ id fun _ => by rfl

/-- The context of a task that starts for the first time. -/
theorem State.ctxOf_startTask_of_fresh {s u : State} {id : CtxId} {n : Nat} {t : Task} {xs : List Extent}
    (h : s.taskExtents id.die n t = (u, .ok xs)) (himage : t.hasImage = false) :
    (s.startTask id n t).ctxOf id = { t.freshCtx with task := some (Fin.ofNat 1024 n), extents := xs } := by
  simp only [State.startTask, h, himage, Bool.false_eq_true, if_false]
  rw [State.ctxOf_freshDirty, State.ctxOf_updCtx]

/-- The scalars of a first dispatch: s1 is the work identifier, s2 the descriptor's address (08 R186). -/
theorem Task.scalar_freshCtx (t : Task) (k : Fin 64) :
    vget t.freshCtx.arch.s k = if k = 1 then t.wid else if k = 2 then t.descVa else 0 := by
  have hreset : vget Arch.reset.s k = 0 := vget_replicate k 0
  have hs : t.freshCtx.arch.s = vset (vset Arch.reset.s 1 t.wid) 2 t.descVa := rfl
  rw [hs, vget_vset, vget_vset, hreset]
  by_cases h1 : k = 1
  · simp [h1]
  · simp [h1, eq_comm (b := k)]

theorem Task.format_freshCtx (t : Task) (k : Fin 16) : vget t.freshCtx.arch.ft k = t.ft.getD k.val 0 := by
  have hft : t.freshCtx.arch.ft = vmapAll Arch.reset.ft fun n _ => t.ft.getD n.val 0 := rfl
  rw [hft, vget_vmapAll]

theorem Task.pc_freshCtx (t : Task) : t.freshCtx.arch.pc =
    BitVec.ofNat 64 ((wordAt t.desc 1).toNat + bitsOf (wordAt t.desc 2) 0 32) := by
  have hpc : t.freshCtx.arch.pc = wordAt t.desc 1 + BitVec.ofNat 64 (bitsOf (wordAt t.desc 2) 0 32) := rfl
  rw [hpc, BitVec.ofNat_add, BitVec.ofNat_toNat, BitVec.setWidth_eq]

/-! ### Commands (17 R419, R420) -/

section
variable {s : State} {d : Fin 8} {n : Nat} {t : Task} {body : Task → State}

theorem State.command_of_task (hidle : (s.die d).schedBusy = false) (h : s.task d n = some t) : s.command d n body = body t := by
  simp [State.command, hidle, h]

theorem State.command_refused (h : (s.die d).schedBusy = true ∨ s.task d n = none) :
    s.command d n body = s.updDie d fun y => { y with schedErr := true } := by
  rcases h with h | h
  · rw [State.command, if_pos h, State.schedFail]
  · rw [State.command]
    split
    · rfl
    · simp only [h]
      rfl

end

end Sys2Proof.Machine

namespace Sys2Proof.Claims
open Machine

/-! ### Dispatch and pre-emption (17 R415, R417, R418) -/

section
variable {s : State} {d : Fin 8} (hboot : s.boot = .ready) (hen : (s.die d).schedEn = true)
include hboot hen

theorem mayDispatch_of_ready : s.mayDispatch d = true := by
  simp [State.mayDispatch, hboot, hen]

theorem gives_taskDispatch {u : State} (hdue : (s.die d).dispatchAt ≤ s.cycle)
    (h : State.dispatchOne d ((s.die d).cands.take 64) s = (u, true)) :
    Gives s (.taskDispatch d) (u.updDie d fun y => { y with dispatchAt := u.cycle + 8 }) := by
  change execTaskDispatch d s = _
  simp [execTaskDispatch, mayDispatch_of_ready hboot hen, hdue, h]

end

theorem gives_taskDispatch_none {s : State} {d : Fin 8} (h : (s.die d).cands = []) : Gives s (.taskDispatch d) s := by
  change execTaskDispatch d s = _
  simp [execTaskDispatch, h, State.dispatchOne]

theorem gives_preemptionSave {s v : State} {d : Fin 8} {c : Cand} {rest : List Cand} {m : Nat} {k : Task}
    (hv : (dieCtxs d).foldl (fun s id => s.pushSave id) s = v) (hboot : v.boot = .ready) (hen : (v.die d).schedEn = true)
    (hdue : (v.die d).saveAt ≤ v.cycle) (hcands : (v.die d).cands = c :: rest)
    (hspot : v.spot d (descCores (v.candDesc d c)) = none) (hfree : ∀ p, p ∈ (v.die d).tasks → p.2.saveFor ≠ some c)
    (hvictim : v.victim d (v.candDesc d c) = some (m, k)) (hstate : k.state = .resident) :
    Gives s (.preemptionSave d)
      ((v.updTask d m fun y => { y with state := .saving, saveFor := some c }).pushSave ⟨d, k.core, k.ctx⟩) := by
  have hnone : ((v.die d).tasks.any fun p => p.2.saveFor == some c) = false :=
    List.any_eq_false.2 fun p hp => by simpa using hfree p hp
  change execPreemptionSave d s = _
  simp [execPreemptionSave, hv, mayDispatch_of_ready hboot hen, Nat.not_lt.2 hdue, hcands, hspot, hnone, hvictim, hstate,
    Task.where_]

/-! ### The end of a task (08 R185, 12 R290, 17 R419) -/

theorem descDone_eq_zero {w : List W64} (h : part (wordAt w 11).toNat 3 61 = 0) : descDone w = 0 := by
  have hlt := (wordAt w 11).isLt
  have hzero : (wordAt w 11).toNat / 2 ^ 3 = 0 := by
    rw [part] at h
    omega
  exact (and_not_low (wordAt w 11) 3).trans (by rw [hzero, Nat.zero_mul]; rfl)

/-- A task whose context is freed, and then its number. -/
theorem idle_freeTask (s : State) (id : CtxId) (d : Fin 8) (n : Nat) :
    let w := (s.freeContext id).freeTask d n
    w.task d n = none ∧ (w.ctxOf id).status = .idle ∧ (w.ctxOf id).task = none := by
  obtain ⟨hstatus, htask⟩ := s.idle_freeContext id
  refine ⟨State.task_freeTask _ d n, ?_, ?_⟩ <;> rwa [State.ctxOf_freeTask]

section
variable {s : State} {d : Fin 8} {n : Fin 1024} {t : Task} (htask : s.task d n.val = some t)
include htask

theorem leads_completionAction (hstate : t.state = .ending) (hacted : t.acted = false)
    (hdone : part (wordAt t.desc 11).toNat 3 61 = 0) (hout : NothingOut s ⟨d, t.core, t.ctx⟩)
    (hheld : ∀ o, o ∈ s.opsOf ⟨d, t.core, t.ctx⟩ → o.held = true) :
    Leads s (.completionAction d n) fun w => w.task d n.val = none ∧
      (w.ctxOf ⟨d, t.core, t.ctx⟩).status = .idle ∧ (w.ctxOf ⟨d, t.core, t.ctx⟩).task = none := by
  have hwaits := captureWaits_eq_false hout
  have hhalt : s.haltDone ⟨d, t.core, t.ctx⟩ = true := by
    rw [State.haltDone, hwaits, List.all_eq_true.2 hheld]
    rfl
  refine ⟨(((s.dropHolds ⟨d, t.core, t.ctx⟩).leaveEngines d n.val).freeContext ⟨d, t.core, t.ctx⟩).freeTask d n.val, ?_,
    idle_freeTask _ _ d n.val⟩
  change execCompletionAction d n s = _
  simp [execCompletionAction, htask, hstate, hhalt, hacted, Task.where_,
    State.completionAction_of_none (descDone_eq_zero hdone), State.captureWaits_dropHolds, hwaits]

variable (hidle : (s.die d).schedBusy = false)
include hidle

theorem gives_suspend_saved (h : t.state = .saved) :
    Gives s (.suspend d n) (s.updTask d n.val fun y => { y with state := .suspended }) := by
  refine congrArg Host.Outcome.next ((State.command_of_task hidle htask).trans ?_)
  simp only [h]

theorem gives_suspend_saving (h : t.state = .saving) :
    Gives s (.suspend d n) (s.updTask d n.val fun y => { y with suspendTo := true }) := by
  refine congrArg Host.Outcome.next ((State.command_of_task hidle htask).trans ?_)
  simp only [h]

theorem gives_suspend_resident (h : t.state = .resident) : Gives s (.suspend d n)
    ((s.updTask d n.val fun y => { y with state := .saving, suspendTo := true }).pushSave ⟨d, t.core, t.ctx⟩) := by
  refine congrArg Host.Outcome.next ((State.command_of_task hidle htask).trans ?_)
  simp only [h]
  rfl

theorem gives_resume (h : t.state = .suspended ∨ t.state = .dfault) (hresume : t.noResume = false) : Gives s (.resume d n)
    ((s.updTask d n.val fun y => { y with state := .saved, seq := (s.die d).taskSeq }).updDie d fun y =>
      { y with taskSeq := y.taskSeq + 1 }) := by
  refine congrArg Host.Outcome.next ((State.command_of_task hidle htask).trans ?_)
  rw [if_pos ⟨h, by rw [hresume]; rfl⟩]
  refine State.updDie_congr ?_
  rw [State.updTask, State.die_updDie]

theorem gives_resume_refused (hresume : t.noResume = true) :
    Gives s (.resume d n) (s.updDie d fun y => { y with schedErr := true }) := by
  refine congrArg Host.Outcome.next ((State.command_of_task hidle htask).trans ?_)
  exact if_neg fun h => by simp [hresume] at h

theorem leads_endTask : Leads s (.endTask d n) fun w => w.task d n.val = none ∧
    (t.state = .resident → (w.ctxOf ⟨d, t.core, t.ctx⟩).status = .idle) := by
  refine ⟨_, congrArg Host.Outcome.next (State.command_of_task hidle htask), State.task_freeTask .., fun h => ?_⟩
  rw [State.ctxOf_freeTask]
  simp only [h, if_true, Task.where_]
  exact (State.idle_freeContext _ _).1

end

/-- Settles O41: each step of a task from its dispatch to its end. -/
theorem taskEvents : Obligations.TaskEvents := by
  intro s u d n t id xs busy failed
  refine ⟨fun hboot hen hdue => ⟨gives_taskDispatch hboot hen hdue, gives_taskDispatch_none⟩,
    fun hroot htask => ?noRoot, fun hok himage => ?fresh,
    fun c rest m k hboot hen hdue hcands hspot hfree => gives_preemptionSave rfl hboot hen hdue hcands hspot hfree,
    fun htask hstate hacted _ => leads_completionAction htask hstate hacted, fun hidle htask => ?commands, fun h => ?refused⟩
  case noRoot =>
    obtain ⟨y, hy⟩ := Option.ne_none_iff_exists'.1 htask
    have hbit : bit (vget (s.die id.die).asroot t.asid) 0 = false := by
      rw [bit_eq_decide_part, hroot]
      rfl
    rw [State.task_startTask_of_noRoot hbit, hy]
    exact ⟨_, rfl, rfl⟩
  case fresh =>
    rw [State.ctxOf_startTask_of_fresh hok himage]
    exact ⟨rfl, congrArg some (Fin.ofNat_val_eq_self n), rfl, rfl, rfl, rfl, rfl, rfl, rfl, rfl, t.pc_freshCtx,
      t.scalar_freshCtx, t.format_freshCtx⟩
  case commands =>
    have hfree : (s.die d).schedBusy = false := Bool.eq_false_iff.2 hidle
    exact ⟨gives_suspend_saved htask hfree, gives_suspend_saving htask hfree, gives_suspend_resident htask hfree,
      gives_resume htask hfree, fun _ => gives_resume_refused htask hfree, leads_endTask htask hfree⟩
  case refused =>
    exact ⟨congrArg Host.Outcome.next (State.command_refused h), congrArg Host.Outcome.next (State.command_refused h),
      congrArg Host.Outcome.next (State.command_refused h)⟩

end Sys2Proof.Claims

/-! Converter codes (09 R216 to R218): how near a sum the code of a receiver is, and from this O38. -/

namespace Sys2Proof.Machine

/-! ### The code of a calibrated receiver (R217, R218) -/

theorem saturated_iff (sum : Int) (g : Nat) :
    saturated sum g = true ↔ 16383 * 2 ^ g < 2 * sum ∨ 2 * sum < -16383 * 2 ^ g := by
  have hcast : ((2 ^ g : Nat) : Int) = 2 ^ g := by norm_cast
  rw [saturated, decide_eq_true_eq, ← hcast]
  omega

/-- Rounding to nearest is off by at most half of the denominator. -/
theorem roundMag_rne_near (neg : Bool) (num : Nat) {den : Nat} (hden : 0 < den) :
    2 * (roundMag .rne neg num den * den) ≤ 2 * num + den ∧ 2 * num ≤ 2 * (roundMag .rne neg num den * den) + den := by
  have hdiv := Nat.div_add_mod num den
  have hlt := Nat.mod_lt num hden
  rw [Nat.mul_comm] at hdiv
  rw [roundMag]
  split
  next hup =>
    rw [Bool.or_eq_true, Bool.and_eq_true, decide_eq_true_eq, decide_eq_true_eq] at hup
    rw [Nat.add_mul]
    omega
  next hdown =>
    rw [Bool.or_eq_true, decide_eq_true_eq] at hdown
    omega

/-- A code is within half of `b` of a sum over `d`, both ways. -/
def Near (code d sum b : Int) : Prop := 2 * (code * d - sum) ≤ b ∧ 2 * (sum - code * d) ≤ b

theorem near_roundInt_rne (sum : Int) {d : Nat} (hd : 0 < d) :
    Near (roundInt .rne (decide (sum < 0)) sum.natAbs d) d sum d := by
  obtain ⟨hup, hdown⟩ := roundMag_rne_near (decide (sum < 0)) sum.natAbs hd
  rw [Near, roundInt]
  zify at hup hdown
  split
  next hneg =>
    rw [abs_of_neg (of_decide_eq_true hneg)] at hup hdown
    rw [Int.neg_mul]
    omega
  next hpos =>
    rw [abs_of_nonneg (by simpa using hpos)] at hup hdown
    omega

theorem near_ediv (sum : Int) {d : Int} (hd : 0 < d) : Near (sum / d) d sum (2 * d) ∧ Near (sum / d + 1) d sum (2 * d) := by
  have hdiv := Int.ediv_mul_add_emod sum d
  have hlt := Int.emod_lt_of_pos sum hd
  have hge := Int.emod_nonneg sum (ne_of_gt hd)
  rw [Near, Near, Int.add_mul]
  omega

/-- The limits of a code bring it no further from a sum that does not saturate. -/
theorem Near.clamp {code d sum b : Int} (h : Near code d sum b) (hd : 0 ≤ d) (hb : d ≤ b) (hlow : -16383 * d ≤ 2 * sum)
    (hhigh : 2 * sum ≤ 16383 * d) : Near (max (-8192) (min 8191 code)) d sum b := by
  obtain ⟨hup, hdown⟩ := h
  rcases lt_or_ge 8191 code with hover | hle
  · have := mul_le_mul_of_nonneg_right hover.le hd
    rw [min_eq_left hover.le, max_eq_right (by decide)]
    exact ⟨by omega, by omega⟩
  · rw [min_eq_right hle]
    rcases lt_or_ge code (-8192) with hunder | hge
    · have := mul_le_mul_of_nonneg_right hunder.le hd
      rw [max_eq_left hunder.le]
      exact ⟨by omega, by omega⟩
    · rw [max_eq_right hge]
      exact ⟨hup, hdown⟩

/-- A sum over 2^g is 0.45 or more from a boundary between two codes. -/
def farFromBoundary (sum : Int) (g : Nat) : Bool :=
  let d : Nat := 2 ^ g
  let r := (sum % d).toNat
  decide (9 * d ≤ 10 * (if 2 * r ≤ d then d - 2 * r else 2 * r - d))

/-- The code before its limits: the nearest integer away from a boundary, and either neighbour near one (log 8). -/
def neighbour (sum : Int) (g : Nat) (pick : Bool) : Int :=
  let d : Nat := 2 ^ g
  if farFromBoundary sum g then roundInt .rne (decide (sum < 0)) sum.natAbs d
  else if pick then sum / d + 1 else sum / d

theorem calibratedCode_eq (sum : Int) (g : Nat) (pick : Bool) :
    calibratedCode sum g pick = max (-8192) (min 8191 (neighbour sum g pick)) := rfl

theorem near_neighbour (sum : Int) (g : Nat) (pick : Bool) : Near (neighbour sum g pick) (2 ^ g) sum (2 * 2 ^ g) := by
  have hcast : ((2 ^ g : Nat) : Int) = 2 ^ g := by norm_cast
  have hpos : (0 : Nat) < 2 ^ g := Nat.two_pow_pos g
  rw [neighbour, ← hcast]
  split
  next =>
    obtain ⟨hup, hdown⟩ := near_roundInt_rne sum hpos
    exact ⟨by omega, by omega⟩
  next =>
    obtain ⟨hfloor, hceil⟩ := near_ediv sum (Int.natCast_pos.2 hpos)
    split
    · exact hceil
    · exact hfloor

/-- The nearest integer, where that is 0.45 or more from a boundary. -/
theorem near_neighbour_of_far {sum : Int} {g : Nat} (h : 20 * (sum % 2 ^ g) ≤ 2 ^ g ∨ 19 * 2 ^ g ≤ 20 * (sum % 2 ^ g))
    (pick : Bool) : Near (neighbour sum g pick) (2 ^ g) sum (2 ^ g) := by
  have hcast : ((2 ^ g : Nat) : Int) = 2 ^ g := by norm_cast
  have hpos : (0 : Nat) < 2 ^ g := Nat.two_pow_pos g
  rw [← hcast] at h ⊢
  have hlt := Int.emod_lt_of_pos sum (Int.natCast_pos.2 hpos)
  have hge := Int.emod_nonneg sum (Int.natCast_pos.2 hpos).ne'
  have hfar : farFromBoundary sum g = true := by
    rw [farFromBoundary, decide_eq_true_eq]
    split <;> omega
  rw [neighbour, if_pos hfar]
  exact near_roundInt_rne sum hpos

/-! ### The code of any receiver (R216) -/

theorem converterCode_of_over {sum : Int} {g : Nat} (h : 16383 * 2 ^ g < 2 * sum) (cal : Bool) (free : Nat) :
    converterCode sum g cal free = 8191 := by
  have hpos : (0 : Int) < 2 ^ g := by positivity
  rw [converterCode, if_pos ((saturated_iff sum g).2 (.inl h)), if_pos (by omega)]

theorem converterCode_of_under {sum : Int} {g : Nat} (h : 2 * sum < -16383 * 2 ^ g) (cal : Bool) (free : Nat) :
    converterCode sum g cal free = -8192 := by
  have hpos : (0 : Int) < 2 ^ g := by positivity
  rw [converterCode, if_pos ((saturated_iff sum g).2 (.inr h)), if_neg (by omega)]

theorem converterCode_of_calibrated {sum : Int} {g : Nat} (hlow : -16383 * 2 ^ g ≤ 2 * sum) (hhigh : 2 * sum ≤ 16383 * 2 ^ g)
    (free : Nat) : converterCode sum g true free =
      max (-8192) (min 8191 (neighbour sum g (Config.converterUp free))) := by
  rw [converterCode, if_neg (by rw [saturated_iff]; omega), if_pos rfl, calibratedCode_eq]

/-- A code has 14 bits (R216). -/
theorem converterCode_in_range (sum : Int) (g : Nat) (cal : Bool) (free : Nat) :
    -8192 ≤ converterCode sum g cal free ∧ converterCode sum g cal free ≤ 8191 := by
  rw [converterCode]
  split
  · split <;> decide
  · split
    · rw [calibratedCode_eq]
      omega
    · have hlow := BitVec.le_toInt (Config.uncalibratedCode free)
      have hhigh := BitVec.toInt_lt (x := Config.uncalibratedCode free)
      omega

end Sys2Proof.Machine

namespace Sys2Proof.Claims
open Machine

/-- Settles O38: at its limit where it saturates; else near the sum, by the rounding and by both neighbours. -/
theorem converterCodes : Obligations.ConverterCodes := by
  intro sum g free d code
  refine ⟨fun h cal => converterCode_of_over h cal free, fun h cal => converterCode_of_under h cal free,
    fun hlow hhigh => ?calibrated, fun cal => converterCode_in_range sum g cal free⟩
  case calibrated =>
    have hpos : (0 : Int) < d := by positivity
    have hcode : code true free = max (-8192) (min 8191 (neighbour sum g (Config.converterUp free))) :=
      converterCode_of_calibrated hlow hhigh free
    rw [hcode]
    have hnear : Near (neighbour sum g (Config.converterUp free)) d sum (2 * d) := near_neighbour sum g _
    obtain ⟨hup, hdown⟩ := hnear.clamp hpos.le (by omega) hlow hhigh
    exact ⟨by omega, by omega, fun hfar => (near_neighbour_of_far hfar _).clamp hpos.le le_rfl hlow hhigh⟩

end Sys2Proof.Claims

/-! Lanes and combs (09 R211, R212, R228, 19 R457): what a lane's write, a comb's failure and swap, and a step of the power
loop leave, and from these O43. -/

namespace Sys2Proof.Machine

/-! ### Bit 0 of a lane register -/

theorem setBit_zero_eq (x : W64) (b : Bool) : setBit x 0 b = BitVec.ofNat 64 (x.toNat / 2 * 2 + b2n b) := by
  apply BitVec.eq_of_getLsbD_eq
  intro i hi
  have hb : b2n b < 2 ^ 1 := by cases b <;> decide
  have hshift : x.toNat / 2 * 2 = 2 ^ 1 * (x.toNat >>> 1) := by
    rw [Nat.shiftRight_eq_div_pow, Nat.mul_comm, Nat.pow_one]
  rw [getLsbD_setBit x 0 b hi, BitVec.getLsbD_ofNat, decide_eq_true hi, Bool.true_and, hshift,
    Nat.testBit_two_pow_mul_add _ hb, Nat.testBit_shiftRight]
  by_cases h : i = 0
  · subst h
    cases b <;> rfl
  · rw [if_neg h, if_neg (by omega), Nat.add_sub_cancel' (by omega), BitVec.getLsbD]

theorem laneLit_setBit (x : W64) (b : Bool) : laneLit (setBit x 0 b &&& laneMask) = b :=
  (bit_and_of_keeps _ laneMask (by decide)).trans (bit_setBit_zero x b)

/-! ### Writes of a lane (R211) -/

/-- An accepted write of a lane, with the register as it stood before (R212). -/
def Joist.acceptLane (j : Joist) (l : Fin 8) (v : W64) (now : Nat) : Joist :=
  let old := vget j.lanes l
  { j with lanes := vset j.lanes l ⟨v, (now, old.reg) :: old.past.filter fun p => decide (now < p.1 + 8192)⟩ }

theorem Joist.reg_acceptLane (j : Joist) (l : Fin 8) (v : W64) (now : Nat) :
    (vget (j.acceptLane l v now).lanes l).reg = v := by
  rw [Joist.acceptLane, vget_vset_same]

theorem Joist.lanes_acceptLane_ne (j : Joist) {l n : Fin 8} (h : n ≠ l) (v : W64) (now : Nat) :
    vget (j.acceptLane l v now).lanes n = vget j.lanes n := by
  rw [Joist.acceptLane, vget_vset, if_neg h.symm]

section
variable {s : State} {l : Fin 8} {v : W64}

theorem State.laneWrite_dark (h : laneLit (v &&& laneMask) = false) :
    s.laneWrite l v = s.updJoist fun j => j.acceptLane l (v &&& laneMask) s.gtime := by
  rw [State.laneWrite]
  exact State.updJoist_congr (if_pos (by rw [h]; rfl))

theorem State.laneWrite_unlightable (hlit : laneLit (v &&& laneMask) = true)
    (h : laneLit (vget s.joist.lanes l).reg = true ∨ lanePoints (v &&& laneMask) = 0) :
    s.laneWrite l v = s.updJoist fun j => j.refuseLane l 8 := by
  rw [State.laneWrite]
  exact State.updJoist_congr ((if_neg (by rw [hlit]; decide)).trans (if_pos h))

theorem State.laneWrite_lightable (hlit : laneLit (v &&& laneMask) = true)
    (hdark : laneLit (vget s.joist.lanes l).reg = false) (hpoints : lanePoints (v &&& laneMask) ≠ 0) :
    s.laneWrite l v = s.updJoist fun j =>
      match (s.joist.points (v &&& laneMask)).find? fun p => decide (p.2.1 < p.2.2) with
      | some p => j.refuseLane l p.1
      | none => j.acceptLane l (v &&& laneMask) s.gtime := by
  rw [State.laneWrite]
  exact State.updJoist_congr ((if_neg (by rw [hlit]; decide)).trans (if_neg (by simp [hdark, hpoints])))

theorem State.laneWrite_weak (hlit : laneLit (v &&& laneMask) = true)
    (hdark : laneLit (vget s.joist.lanes l).reg = false) (hpoints : lanePoints (v &&& laneMask) ≠ 0) {p : Nat × Int × Int}
    (h : (s.joist.points (v &&& laneMask)).find? (fun p => decide (p.2.1 < p.2.2)) = some p) :
    s.laneWrite l v = s.updJoist fun j => j.refuseLane l p.1 := by
  rw [State.laneWrite_lightable hlit hdark hpoints, h]

theorem State.laneWrite_lit (hlit : laneLit (v &&& laneMask) = true)
    (hdark : laneLit (vget s.joist.lanes l).reg = false) (hpoints : lanePoints (v &&& laneMask) ≠ 0)
    (h : ∀ p, p ∈ s.joist.points (v &&& laneMask) → p.2.2 ≤ p.2.1) :
    s.laneWrite l v = s.updJoist fun j => j.acceptLane l (v &&& laneMask) s.gtime := by
  have hnone : (s.joist.points (v &&& laneMask)).find? (fun p => decide (p.2.1 < p.2.2)) = none :=
    List.find?_eq_none.2 fun p hp => by simpa using h p hp
  rw [State.laneWrite_lightable hlit hdark hpoints, hnone]

end

/-! ### Combs that fail (R228) -/

theorem Joist.updComb_same (j : Joist) (c : Fin 5) (f : Comb → Comb) :
    vget (j.updComb c f).combs c = f (vget j.combs c) :=
  vget_vupd_same ..

theorem Joist.updComb_ne (j : Joist) {c n : Fin 5} (h : n ≠ c) (f : Comb → Comb) :
    vget (j.updComb c f).combs n = vget j.combs n :=
  vget_vupd_ne _ h.symm f

theorem Joist.combWeak_iff (j : Joist) (p : BitVec 16) : j.combWeak p = true ↔ p.toInt + j.combLoss.toNat ≤ 60 :=
  decide_eq_true_iff

/-- Whether a comb of this state can fail. -/
def Comb.canFail (c : Comb) : Prop := c.state ≠ 0 ∧ c.state ≠ 3

/-- A comb that has failed. -/
def Comb.fail (c : Comb) : Comb := { c with state := 3 }

/-- A comb that has warmed up stands at its set point, the spare standing by. -/
def Comb.lock (k : Fin 5) (c : Comb) : Comb := { c with state := if k = 4 then 4 else 2, power := setPoint }

/-- A comb whose mean power has been measured. -/
def State.measured (s : State) (c : Fin 5) (p : BitVec 16) : State :=
  s.updJoist fun j => j.updComb c fun x => { x with power := p }

/-- Whether the spare takes the place of a comb that fails. -/
def Joist.spareTakes (j : Joist) (n : Fin 4) : Prop :=
  j.combAuto = true ∧ j.spare.state = 4 ∧ j.combSwap.isNone = true ∧ j.combFor ≠ some n

/-- The combs with one of them failed, and a swap under way or none. -/
def Joist.failed (j : Joist) (c : Fin 5) (swap : Option CombSwap) : Joist := { j.updComb c Comb.fail with combSwap := swap }

section
variable {s : State} {c : Fin 5}

theorem State.failComb_of_stays (h : ¬(s.joist.combEn = true ∧ (vget s.joist.combs c).canFail)) : s.failComb c = s := by
  refine if_pos ?_
  by_contra hgo
  obtain ⟨hlit, hcan⟩ := not_or.1 hgo
  exact h ⟨by simpa using hlit, not_or.1 hcan⟩

/-- A comb that fails, with at most the start of a swap. -/
theorem State.failComb_of_fails (hen : s.joist.combEn = true) (hcan : (vget s.joist.combs c).canFail) :
    ∃ swap, s.failComb c = s.updJoist (fun j => j.failed c swap) ∧
      ∀ n : Fin 4, n.val = c.val → (s.joist.updComb c Comb.fail).spareTakes n →
        swap = some ⟨n, true, false, s.cycle + swapCycles⟩ := by
  obtain ⟨hdark, hfailed⟩ := hcan
  rw [State.failComb, if_neg (by simpa [hen] using ⟨hdark, hfailed⟩)]
  dsimp only
  split
  next hlt =>
    have hn {n : Fin 4} (h : n.val = c.val) : (⟨c.val, hlt⟩ : Fin 4) = n := (Fin.ext h).symm
    split
    next => exact ⟨_, rfl, fun n h _ => by rw [hn h]; rfl⟩
    next hno => exact ⟨_, rfl, fun n h htakes => absurd (hn h ▸ htakes) hno⟩
  next hspare => exact ⟨_, rfl, fun n h _ => absurd (h ▸ n.isLt) hspare⟩

end

theorem Joist.failed_same (j : Joist) (c : Fin 5) (swap : Option CombSwap) :
    vget (j.failed c swap).combs c = (vget j.combs c).fail :=
  j.updComb_same c Comb.fail

theorem Joist.failed_ne (j : Joist) {c n : Fin 5} (h : n ≠ c) (swap : Option CombSwap) :
    vget (j.failed c swap).combs n = vget j.combs n :=
  j.updComb_ne h Comb.fail

/-! ### Swaps (R228) -/

theorem Joist.endSwap_toSpare {x : CombSwap} (h : x.toSpare = true) (j : Joist) : (vget (j.endSwap x).combs 4).state = 5 ∧
    ∀ n : Fin 5, n.val = x.comb.val → (vget (j.endSwap x).combs n).state = if x.commanded = true then 2 else 3 := by
  have hne : (4 : Fin 5) ≠ ⟨x.comb.val, by omega⟩ := fun he => absurd (congrArg Fin.val he :) (by simp; omega)
  rw [Joist.endSwap, if_pos h]
  refine ⟨?_, fun n hn => ?_⟩
  · rw [Joist.updComb_ne _ hne, Joist.updComb_same]
  · rw [show n = ⟨x.comb.val, by omega⟩ from Fin.ext hn, Joist.updComb_same]

theorem Joist.endSwap_back {x : CombSwap} (h : x.toSpare = false) {j : Joist} (hspare : (vget j.combs 4).state = 5) :
    (vget (j.endSwap x).combs 4).state = 4 := by
  rw [Joist.endSwap, if_neg (by rw [h]; decide), Joist.updComb_same]
  exact if_pos hspare

theorem Joist.combSwap_endSwap (j : Joist) (x : CombSwap) : (j.endSwap x).combSwap = none := by
  rw [Joist.endSwap]
  split <;> rfl

theorem Joist.combFor_endSwap (j : Joist) (x : CombSwap) :
    (j.endSwap x).combFor = if x.toSpare then some x.comb else none := by
  rw [Joist.endSwap]
  split <;> rfl

/-- Every calibration of a die is void. -/
def Die.voidCals (x : Die) : Die := { x with cores := vmapAll x.cores fun _ k => { k with calValid := false } }

theorem State.core_postEvent (s : State) (d : Fin 8) (code : Nat) (src : EvSrc) (w1 w2 : Nat) (e : Fin 8) (c : Fin 16) :
    (s.postEvent d code src w1 w2).core e c = s.core e c := by
  unfold State.postEvent
  dsimp only
  split
  · exact State.core_updDie_of_cores s d e c fun _ => rfl
  · rw [State.core, State.sendMsix_die]
    exact State.core_updDie_of_cores (s.hostWrite _ _) d e c fun _ => rfl

theorem State.core_postAll (s : State) (code w1 w2 : Nat) (e : Fin 8) (c : Fin 16) :
    (s.postAll code w1 w2).core e c = s.core e c :=
  read_foldl_of_frame (read := fun s => State.core s e c) (fun s d _ => s.core_postEvent d code noSrc w1 w2 e c) s

/-- A swap's lanes changed over, and every calibration void. -/
def State.changeOver (s : State) (x : CombSwap) : State :=
  (fins 8).foldl (fun s d => s.updDie d Die.voidCals) (s.updJoist fun j => j.endSwap x)

theorem State.joist_changeOver (s : State) (x : CombSwap) : (s.changeOver x).joist = s.joist.endSwap x :=
  read_foldl_of_frame (read := State.joist) (fun s d _ => s.updDie_joist d Die.voidCals) (s.updJoist fun j => j.endSwap x)

theorem State.calValid_changeOver (s : State) (x : CombSwap) (d : Fin 8) (e : Fin 16) :
    ((s.changeOver x).core d e).calValid = false := by
  refine read_foldl_of_own (read := fun s => s.core d e) (R := fun _ k => k.calValid = false) (nodup_fins 8) (mem_fins d)
    (fun s => ?_) (fun s b hne => ?_) (s.updJoist fun j => j.endSwap x)
  · rw [State.core, State.die_updDie, Die.voidCals, vget_vmapAll]
  · rw [State.core, State.die_updDie_ne s hne, State.core]

/-! ### The combs lit and dark (R228) -/

theorem Joist.combEn_lightCombs (j : Joist) (on : Bool) : (j.lightCombs on).combEn = on := by
  rw [Joist.lightCombs]
  split
  next h => exact (beq_iff_eq.1 h).symm
  next => rfl

theorem Joist.settings_lightCombs (j : Joist) (on : Bool) :
    (j.lightCombs on).combAuto = j.combAuto ∧ (j.lightCombs on).combLoss = j.combLoss := by
  rw [Joist.lightCombs]
  split <;> exact ⟨rfl, rfl⟩

/-- A comb as the light goes on or off. -/
def Comb.relit (on : Bool) (c : Comb) : Comb := { c with state := if on then 1 else 0, forC := 0, power := 0 }

theorem Joist.combs_lightCombs (j : Joist) (on : Bool) (n : Fin 5) : vget (j.lightCombs on).combs n =
    if on = j.combEn then vget j.combs n else (vget j.combs n).relit on := by
  rw [Joist.lightCombs]
  by_cases h : on = j.combEn
  · rw [if_pos (beq_iff_eq.2 h), if_pos h]
  · rw [if_neg (mt beq_iff_eq.1 h), if_neg h]
    exact vget_vmapAll j.combs (fun _ => Comb.relit on) n

/-! ### The power loop (19 R457) -/

/-- Whether a comb gives light. -/
def Comb.shines (c : Comb) : Bool := c.state == 2 || c.state == 5

theorem Comb.shines_iff (c : Comb) : c.shines = true ↔ c.state = 2 ∨ c.state = 5 := by simp [Comb.shines]

theorem Comb.canFail_of_shines {c : Comb} (h : c.shines = true) : c.canFail := by
  rcases c.shines_iff.1 h with h | h <;> simp [Comb.canFail, h]

/-- A comb's power one step nearer to what the loop asks for. -/
def Comb.move (power : List (BitVec 16)) (k : Fin 5) (c : Comb) : Comb :=
  if c.shines then { c with power := stepTo c.power (power.getD k.val c.power) } else c

/-- A comb that has become weak fails. -/
def State.checkPower (s : State) (k : Fin 5) : State :=
  if (vget s.joist.combs k).shines && s.joist.combWeak (vget s.joist.combs k).power then s.failComb k else s

/-- Whether a check of a comb's power finds it weak, given the light and LOSSLIM. -/
def Comb.foundWeak (c : Comb) (en : Bool) (loss : BitVec 8) : Bool :=
  en && (c.shines && decide (c.power.toInt + loss.toNat ≤ 60))

theorem Comb.foundWeak_iff (c : Comb) (en : Bool) (loss : BitVec 8) :
    c.foundWeak en loss = true ↔ en = true ∧ c.shines = true ∧ c.power.toInt + loss.toNat ≤ 60 := by
  rw [Comb.foundWeak, Bool.and_eq_true, Bool.and_eq_true, decide_eq_true_iff]

section
variable {s : State} {k n : Fin 5}

theorem State.checkPower_of_weak (h : (vget s.joist.combs k).foundWeak s.joist.combEn s.joist.combLoss = true) :
    ∃ swap, s.checkPower k = s.updJoist fun j => j.failed k swap := by
  obtain ⟨hen, hshines, hweak⟩ := (Comb.foundWeak_iff ..).1 h
  obtain ⟨swap, heq, -⟩ := State.failComb_of_fails hen (Comb.canFail_of_shines hshines)
  exact ⟨swap, (if_pos (Bool.and_eq_true_iff.2 ⟨hshines, (Joist.combWeak_iff _ _).2 hweak⟩)).trans heq⟩

theorem State.checkPower_of_strong (h : ¬(vget s.joist.combs k).foundWeak s.joist.combEn s.joist.combLoss = true) :
    s.checkPower k = s := by
  rw [State.checkPower]
  split
  next hfound =>
    obtain ⟨hshines, hweak⟩ := Bool.and_eq_true_iff.1 hfound
    exact State.failComb_of_stays fun hgo =>
      h ((Comb.foundWeak_iff ..).2 ⟨hgo.1, hshines, (Joist.combWeak_iff _ _).1 hweak⟩)
  next => rfl

theorem State.checkPower_cases (s : State) (k : Fin 5) :
    s.checkPower k = s ∨ ∃ swap, s.checkPower k = s.updJoist fun j => j.failed k swap := by
  by_cases h : (vget s.joist.combs k).foundWeak s.joist.combEn s.joist.combLoss = true
  · exact .inr (State.checkPower_of_weak h)
  · exact .inl (State.checkPower_of_strong h)

/-- What a check reads of a comb: the light, LOSSLIM and the comb itself. -/
def State.combView (s : State) (n : Fin 5) : Bool × BitVec 8 × Comb :=
  (s.joist.combEn, s.joist.combLoss, vget s.joist.combs n)

theorem State.combView_failed (s : State) (k n : Fin 5) (swap : Option CombSwap) :
    (s.updJoist fun j => j.failed k swap).combView n =
      (s.joist.combEn, s.joist.combLoss, vget (s.joist.failed k swap).combs n) := rfl

theorem State.combView_checkPower_ne (s : State) (h : k ≠ n) : (s.checkPower k).combView n = s.combView n := by
  obtain heq | ⟨swap, heq⟩ := s.checkPower_cases k
  · rw [heq]
  · rw [heq, State.combView_failed, Joist.failed_ne _ h.symm, State.combView]

theorem State.combView_checkPower (s : State) (n : Fin 5) : (s.checkPower n).combView n =
    (s.joist.combEn, s.joist.combLoss,
      if (vget s.joist.combs n).foundWeak s.joist.combEn s.joist.combLoss then (vget s.joist.combs n).fail
      else vget s.joist.combs n) := by
  split
  next h =>
    obtain ⟨swap, heq⟩ := State.checkPower_of_weak h
    rw [heq, State.combView_failed, Joist.failed_same]
  next h => rw [State.checkPower_of_strong h, State.combView]

end

/-- Every comb moved and none checked yet. -/
def State.movePower (s : State) (power : List (BitVec 16)) : State :=
  s.updJoist fun j => { j with combs := vmapAll j.combs (Comb.move power), laserAt := s.cycle + 4096 }

/-- A step of the power loop. -/
def State.powerStep (s : State) (power : List (BitVec 16)) : State :=
  (fins 5).foldl State.checkPower (s.movePower power)

theorem State.combs_powerStep (s : State) (power : List (BitVec 16)) (n : Fin 5) :
    vget (s.powerStep power).joist.combs n =
      (let c := Comb.move power n (vget s.joist.combs n)
       if c.foundWeak s.joist.combEn s.joist.combLoss then c.fail else c) := by
  have hmoved : vget (s.movePower power).joist.combs n = Comb.move power n (vget s.joist.combs n) :=
    vget_vmapAll s.joist.combs (Comb.move power) n
  have hview := read_foldl_of_own (step := State.checkPower) (read := fun s => s.combView n)
    (R := fun x y => y = (x.1, x.2.1, if x.2.2.foundWeak x.1 x.2.1 then x.2.2.fail else x.2.2)) (nodup_fins 5) (mem_fins n)
    (fun s => s.combView_checkPower n) (fun s k hne => s.combView_checkPower_ne hne) (s.movePower power)
  rw [← hmoved, State.powerStep]
  exact congrArg (·.2.2) hview

/-- What no failure of a comb changes, the checks leave as it is. -/
theorem State.read_powerStep {α : Type} {read : State → α}
    (h : ∀ s k swap, read (State.updJoist s fun j => j.failed k swap) = read s) (s : State) (power : List (BitVec 16)) :
    read (s.powerStep power) = read (s.movePower power) := by
  rw [State.powerStep]
  refine read_foldl_of_frame (fun s k _ => ?_) (s.movePower power)
  obtain heq | ⟨swap, heq⟩ := s.checkPower_cases k
  · rw [heq]
  · rw [heq, h]

end Sys2Proof.Machine

namespace Sys2Proof.Claims
open Machine

/-! ### Lanes (09 R211) -/

/-- The register that a lane's write asks for, lit. -/
def litReg (val : W64) : W64 := BitVec.ofNat 64 (val.toNat / 2 * 2 + 1) &&& 0x1FFF0F

/-- The register that a lane's write asks for, dark. -/
def darkReg (val : W64) : W64 := BitVec.ofNat 64 (val.toNat / 2 * 2) &&& 0x1FFF0F

theorem litReg_eq (val : W64) : setBit val 0 true &&& laneMask = litReg val := by
  rw [setBit_zero_eq]
  rfl

theorem darkReg_eq (val : W64) : setBit val 0 false &&& laneMask = darkReg val := by
  rw [setBit_zero_eq]
  rfl

theorem laneLit_iff (r : W64) : laneLit r = true ↔ r.toNat % 2 = 1 := bit_zero_iff r

theorem laneLit_of_even {r : W64} (h : r.toNat % 2 = 0) : laneLit r = false := by
  rw [Bool.eq_false_iff, ne_eq, laneLit_iff]
  omega

section
variable {s : State} {l : Fin 8} {val : W64}

/-- What an accepted write of a lane leaves. -/
theorem leads_of_acceptLane {i : Instr} {w : W64}
    (h : exec i s = .next (s.updJoist fun j => j.acceptLane l w s.gtime)) :
    Leads s i fun t => t.dies = s.dies ∧ t.mem = s.mem ∧ t.joist.ctRefused = s.joist.ctRefused ∧
      (vget t.joist.lanes l).reg = w ∧ ∀ n, n ≠ l → vget t.joist.lanes n = vget s.joist.lanes n :=
  ⟨_, h, rfl, rfl, rfl, s.joist.reg_acceptLane l w s.gtime, fun _ hn => s.joist.lanes_acceptLane_ne hn w s.gtime⟩

theorem laneLight_accepted (hdark : (vget s.joist.lanes l).reg.toNat % 2 = 0) (hpoints : lanePoints (litReg val) ≠ 0)
    (h : ∀ p, p ∈ s.joist.points (litReg val) → p.2.2 ≤ p.2.1) :
    exec (.laneLight l val) s = .next (s.updJoist fun j => j.acceptLane l (litReg val) s.gtime) := by
  rw [← litReg_eq] at hpoints h ⊢
  exact congrArg Host.Outcome.next (State.laneWrite_lit (laneLit_setBit val true) (laneLit_of_even hdark) hpoints h)

theorem gives_laneLight_weak (hdark : (vget s.joist.lanes l).reg.toNat % 2 = 0) (hpoints : lanePoints (litReg val) ≠ 0)
    {p : Nat × Int × Int} (h : (s.joist.points (litReg val)).find? (fun p => decide (p.2.1 < p.2.2)) = some p) :
    Gives s (.laneLight l val) (s.updJoist fun j => j.refuseLane l p.1) := by
  rw [← litReg_eq] at hpoints h
  exact congrArg Host.Outcome.next (State.laneWrite_weak (laneLit_setBit val true) (laneLit_of_even hdark) hpoints h)

theorem gives_laneLight_refused (h : (vget s.joist.lanes l).reg.toNat % 2 = 1 ∨ lanePoints (litReg val) = 0) :
    Gives s (.laneLight l val) (s.updJoist fun j => j.refuseLane l 8) := by
  rw [← laneLit_iff, ← litReg_eq] at h
  exact congrArg Host.Outcome.next (State.laneWrite_unlightable (laneLit_setBit val true) h)

theorem laneUnlight_accepted (s : State) (l : Fin 8) (val : W64) :
    exec (.laneUnlight l val) s = .next (s.updJoist fun j => j.acceptLane l (darkReg val) s.gtime) := by
  rw [← darkReg_eq]
  exact congrArg Host.Outcome.next (State.laneWrite_dark (laneLit_setBit val false))

end

/-! ### Combs (09 R228) -/

section
variable {s : State} {c : Fin 5}

theorem leads_combFailure_unlocked (hen : s.joist.combEn = true) (hcan : (vget s.joist.combs c).canFail) :
    Leads s (.combFailure ⟨c, none⟩) (fun t =>
      (vget t.joist.combs c).state = 3 ∧ (∀ n, n ≠ c → vget t.joist.combs n = vget s.joist.combs n) ∧
      ∀ n : Fin 4, n.val = c.val → s.joist.combAuto = true → (vget s.joist.combs 4).state = 4 →
        s.joist.combSwap = none → s.joist.combFor ≠ some n →
        t.joist.combSwap = some ⟨n, true, false, s.cycle + 16384⟩) := by
  obtain ⟨swap, heq, hswap⟩ := State.failComb_of_fails hen hcan
  refine ⟨_, congrArg Host.Outcome.next heq, ?_, fun n hn => s.joist.failed_ne hn swap,
    fun n hn hauto hspare hidle hfor => hswap n hn ⟨hauto, ?_, Option.isNone_iff_eq_none.2 hidle, hfor⟩⟩
  · exact congrArg Comb.state (s.joist.failed_same c swap)
  · have hne : (4 : Fin 5) ≠ c := fun he => absurd n.isLt (by rw [hn, ← he]; decide)
    exact (congrArg Comb.state (s.joist.updComb_ne hne Comb.fail)).trans hspare

theorem leads_combFailure_measured (hen : s.joist.combEn = true) (hcan : (vget s.joist.combs c).canFail) (p : BitVec 16) :
    Leads s (.combFailure ⟨c, some p⟩) (fun t => (vget t.joist.combs c).power = p ∧
      (vget t.joist.combs c).state =
        if p.toInt + s.joist.combLoss.toNat ≤ 60 then 3 else (vget s.joist.combs c).state) := by
  have hcomb : vget (s.measured c p).joist.combs c = { (vget s.joist.combs c) with power := p } :=
    s.joist.updComb_same c _
  have hexec : exec (.combFailure ⟨c, some p⟩) s = .next
      (if s.joist.combWeak p then (s.measured c p).failComb c else s.measured c p) := by
    refine congrArg Host.Outcome.next ?_
    dsimp only
    rw [if_neg hcan.1]
    rfl
  by_cases hweak : p.toInt + s.joist.combLoss.toNat ≤ 60
  · obtain ⟨swap, heq, -⟩ := State.failComb_of_fails (s := s.measured c p) (c := c) hen (by rw [hcomb]; exact hcan)
    rw [if_pos ((Joist.combWeak_iff _ _).2 hweak), heq] at hexec
    have hfailed := (s.measured c p).joist.failed_same c swap
    rw [hcomb] at hfailed
    exact ⟨_, hexec, congrArg Comb.power hfailed, (congrArg Comb.state hfailed).trans (if_pos hweak).symm⟩
  · rw [if_neg (mt (Joist.combWeak_iff _ _).1 hweak)] at hexec
    exact ⟨_, hexec, congrArg Comb.power hcomb, (congrArg Comb.state hcomb).trans (if_neg hweak).symm⟩

theorem gives_combLocked (hen : s.joist.combEn = true) (hwarm : (vget s.joist.combs c).state = 1) :
    Gives s (.combLocked c) (s.updJoist fun j => { j with combs := vset j.combs c ((vget j.combs c).lock c) }) :=
  gives_updJoist rfl (congrArg (fun x => { s.joist with combs := vset s.joist.combs c x }) (if_pos ⟨hen, hwarm⟩))

end

section
variable {s : State} {k : Fin 4}

theorem gives_combSwap_started (h : s.joist.combFor = none ∨ s.joist.combFor = some k) :
    Gives s (.combSwap k) (s.startSwap k true true) := by
  refine congrArg Host.Outcome.next (if_neg ?_)
  rcases h with h | h <;> simp [h]

theorem gives_combSwap_refused {n : Fin 4} (h : s.joist.combFor = some n) (hn : n ≠ k) : Gives s (.combSwap k) s :=
  congrArg Host.Outcome.next (if_pos (by simpa [h] using hn))

theorem gives_combReturn_started (h : s.joist.combFor = some k) : Gives s (.combReturn k) (s.startSwap k false true) :=
  congrArg Host.Outcome.next (if_pos h)

theorem gives_combReturn_refused (h : s.joist.combFor ≠ some k) : Gives s (.combReturn k) s :=
  congrArg Host.Outcome.next (if_neg h)

end

theorem gives_combSwapComplete {s : State} {x : CombSwap} (h : s.joist.combSwap = some x) (hdue : x.ends ≤ s.cycle) :
    Gives s .combSwapComplete ((s.changeOver x).postAll 0x16 (x.comb.val + 0x100 * b2n x.toSpare)
      ((s.changeOver x).combStat 4).toNat) := by
  change execCombSwapComplete s = _
  rw [execCombSwapComplete, h]
  exact if_neg (Nat.not_lt.2 hdue)

theorem leads_combSwapComplete {s : State} {x : CombSwap} (h : s.joist.combSwap = some x) (hdue : x.ends ≤ s.cycle) :
    Leads s .combSwapComplete (fun t =>
      t.joist.combSwap = none ∧ t.joist.combFor = (if x.toSpare then some x.comb else none) ∧
      (∀ d e, (t.core d e).calValid = false) ∧
      (x.toSpare = true → (vget t.joist.combs 4).state = 5 ∧
        ∀ n : Fin 5, n.val = x.comb.val → (vget t.joist.combs n).state = if x.commanded = true then 2 else 3) ∧
      (x.toSpare = false → (vget s.joist.combs 4).state = 5 → (vget t.joist.combs 4).state = 4)) := by
  refine ⟨_, gives_combSwapComplete h hdue, ?_⟩
  simp only [State.joist_postAll, State.joist_changeOver, State.core_postAll]
  exact ⟨s.joist.combSwap_endSwap x, s.joist.combFor_endSwap x, s.calValid_changeOver x,
    fun hto => Joist.endSwap_toSpare hto s.joist, fun hback hspare => Joist.endSwap_back hback hspare⟩

theorem leads_combcfgWrite {s : State} (hboot : s.boot ≠ .safe) (val : W64) : Leads s (.combcfgWrite val) (fun t =>
    (t.joist.combEn = true ↔ val.toNat % 2 = 1) ∧ (t.joist.combAuto = true ↔ part val.toNat 1 1 = 1) ∧
    t.joist.combLoss.toNat = part val.toNat 8 8 ∧
    ∀ n, vget t.joist.combs n = if t.joist.combEn = s.joist.combEn then vget s.joist.combs n
      else { (vget s.joist.combs n) with state := if val.toNat % 2 = 1 then 1 else 0, forC := 0, power := 0 }) := by
  refine ⟨_, if_neg hboot, ?_⟩
  simp only [State.updJoist_joist, Joist.combEn_lightCombs, Joist.settings_lightCombs, Joist.combs_lightCombs, Comb.relit,
    bit_zero_iff]
  refine ⟨trivial, ?_, ?_, fun n => trivial⟩
  · rw [bit_eq_decide_part, decide_eq_true_iff]
  · exact BitVec.toNat_ofNat ..

/-! ### The power loop (19 R457) -/

theorem gives_laserPowerLoop_early {s : State} (h : s.cycle < s.joist.laserAt) (power : List (BitVec 16)) :
    Gives s (.laserPowerLoop power) s :=
  if_pos h

theorem leads_laserPowerLoop {s : State} (h : s.joist.laserAt ≤ s.cycle) (power : List (BitVec 16)) :
    Leads s (.laserPowerLoop power) (fun t => t.dies = s.dies ∧ t.joist.combEn = s.joist.combEn ∧
      t.joist.laserAt = s.cycle + 4096 ∧ ∀ n,
      let x := vget s.joist.combs n
      let p := stepped x.power (power.getD n.val x.power)
      vget t.joist.combs n = if x.state = 2 ∨ x.state = 5
        then { x with power := p, state := if s.joist.combEn = true ∧ p.toInt + s.joist.combLoss.toNat ≤ 60 then 3 else x.state }
        else x) := by
  refine ⟨s.powerStep power, if_neg (Nat.not_lt.2 h), State.read_powerStep (read := State.dies) (fun _ _ _ => rfl) s power,
    State.read_powerStep (read := fun s => s.joist.combEn) (fun _ _ _ => rfl) s power,
    State.read_powerStep (read := fun s => s.joist.laserAt) (fun _ _ _ => rfl) s power, fun n => ?_⟩
  rw [State.combs_powerStep]
  dsimp only
  generalize vget s.joist.combs n = x
  by_cases hshines : x.state = 2 ∨ x.state = 5
  · have hs : x.shines = true := x.shines_iff.2 hshines
    have hmoved : Comb.move power n x = { x with power := stepped x.power (power.getD n.val x.power) } := if_pos hs
    rw [if_pos hshines, hmoved]
    simp only [Comb.foundWeak_iff, Comb.shines_iff, hshines, true_and]
    split <;> rfl
  · have hs : x.shines = false := Bool.eq_false_iff.2 (mt x.shines_iff.1 hshines)
    have hmoved : Comb.move power n x = x := if_neg (by rw [hs]; decide)
    rw [if_neg hshines, hmoved, if_neg (by simp [Comb.foundWeak, hs])]

/-- Settles O43: writes of lanes, failures, swaps and settings of combs, and a step of the power loop. -/
theorem lightEvents : Obligations.LightEvents := by
  intro s l k c val power x j lit dark taken refused locked weak start
  refine ⟨fun hdark hpoints => ⟨fun h => leads_of_acceptLane (laneLight_accepted hdark hpoints h),
      fun p h => gives_laneLight_weak hdark hpoints h⟩, gives_laneLight_refused,
    leads_of_acceptLane (laneUnlight_accepted s l val),
    fun hen hdark hfailed => leads_combFailure_unlocked hen ⟨hdark, hfailed⟩,
    fun p hen hdark hfailed => leads_combFailure_measured hen ⟨hdark, hfailed⟩ p,
    gives_combSwap_started, fun n => gives_combSwap_refused, gives_combReturn_started, gives_combReturn_refused,
    leads_combSwapComplete, gives_combLocked, fun hboot => leads_combcfgWrite hboot val,
    fun h => gives_laserPowerLoop_early h power, fun h => leads_laserPowerLoop h power⟩

end Sys2Proof.Claims

/-! Windows, broadcasts and calibrations (09 R207 to R209, R219, R222 to R224, R232, 15 R354, R360 to R367): what an operation
that stops leaves of its context, what the end of one leaves beside the contexts, and from these O37. -/

namespace Sys2Proof.Machine

/-! ### What the end of a stream operation leaves beside the contexts and the slots -/

/-- A read of what no update of a context and none of a boarding slot changes. -/
structure BesideStreams {α : Type} (read : State → α) : Prop where
  ctx (s : State) (id : CtxId) (f : Ctx → Ctx) : read (s.updCtx id f) = read s
  slot (s : State) (d k : Fin 8) (f : BSlot → BSlot) : read (s.updSlot d k f) = read s

namespace BesideStreams
variable {α : Type} {read : State → α} (h : BesideStreams read)
include h

theorem wake (s : State) (id : CtxId) : read (s.wake id) = read s := by
  unfold State.wake
  split
  · split
    · exact h.ctx s id _
    · rfl
  · rfl

theorem release (s : State) (id : CtxId) (u : Unboard) : read (s.release id u) = read s := by
  unfold State.release
  split
  · exact h.slot s id.die _ _
  · rfl

theorem lateUnboards (s : State) (id : CtxId) : read (s.lateUnboards id) = read s := by
  rw [State.lateUnboards, read_foldl_of_frame (fun s u _ => h.release s id u), h.ctx]

theorem endStream (s : State) (id : CtxId) (o : StreamOp) (status : BitVec 3) : read (s.endStream id o status) = read s := by
  rw [State.endStream, h.wake, h.lateUnboards, h.ctx]

end BesideStreams

theorem State.bank_updDie_of_bank (s : State) (d e : Fin 8) {f : Die → Die} (h : ∀ x, (f x).bank = x.bank) :
    ((s.updDie d f).die e).bank = (s.die e).bank := by
  by_cases hd : d = e
  · subst hd
    rw [State.die_updDie, h]
  · rw [State.die_updDie_ne s hd]

theorem beside_bank (d : Fin 8) : BesideStreams fun s => (s.die d).bank where
  ctx s id _ := s.bank_updDie_of_bank id.die d fun _ => rfl
  slot s e _ _ := s.bank_updDie_of_bank e d fun _ => rfl

/-- A core apart from its contexts. -/
def Core.bare (k : Core) : Core := { k with ctxs := Core.reset.ctxs }

section
variable {b k : Core} (h : b.bare = k.bare)
include h

theorem Core.calEnd_of_bare : b.calEnd = k.calEnd := (congrArg Core.calEnd h :)
theorem Core.calValid_of_bare : b.calValid = k.calValid := (congrArg Core.calValid h :)
theorem Core.calFail_of_bare : b.calFail = k.calFail := (congrArg Core.calFail h :)
theorem Core.calTstep_of_bare : b.calTstep = k.calTstep := (congrArg Core.calTstep h :)
theorem Core.calTemp_of_bare : b.calTemp = k.calTemp := (congrArg Core.calTemp h :)
theorem Core.calAt_of_bare : b.calAt = k.calAt := (congrArg Core.calAt h :)

end

theorem beside_bare (d : Fin 8) (c : Fin 16) : BesideStreams fun s => (s.core d c).bare where
  ctx s id f := by
    by_cases h : (id.die, id.core) = (d, c)
    · obtain ⟨rfl, rfl⟩ := Prod.mk.inj h
      rw [State.updCtx, State.core_updCore]
      rfl
    · rw [State.updCtx, State.core_updCore_ne s h]
  slot s e k f := congrArg Core.bare (s.core_updDie_of_cores e d c fun _ => rfl)

/-! ### What the end or a stop of a stream operation leaves of its context (R232) -/

theorem State.ctxOf_release (s : State) (id : CtxId) (u : Unboard) : (s.release id u).ctxOf id = s.ctxOf id := by
  unfold State.release
  split
  · exact s.ctxOf_updDie_of_cores id.die id fun _ => rfl
  · rfl

theorem State.ctxOf_lateUnboards (s : State) (id : CtxId) : (s.lateUnboards id).ctxOf id =
    { s.ctxOf id with unboards := (s.ctxOf id).unboards.filter (s.unboardWaits id) } := by
  rw [State.lateUnboards]
  refine (read_foldl_of_frame (read := fun s => State.ctxOf s id) (fun s u _ => State.ctxOf_release s id u) _).trans ?_
  exact State.ctxOf_updCtx ..

/-- A context apart from its status and its posted releases. -/
def Ctx.unposted (c : Ctx) : Ctx := { c.unscheduled with unboards := [] }

section
variable {α : Type} (read : Ctx → α) (hread : ∀ c, read (Ctx.unposted c) = read c) (s : State) (id : CtxId)
include hread

theorem State.read_wake : read ((s.wake id).ctxOf id) = read (s.ctxOf id) := by
  rw [← hread, ← hread (s.ctxOf id)]
  exact congrArg (fun c : Ctx => read { c with unboards := [] }) (s.unscheduled_wake id)

theorem State.read_lateUnboards : read ((s.lateUnboards id).ctxOf id) = read (s.ctxOf id) := by
  rw [State.ctxOf_lateUnboards, ← hread, ← hread (s.ctxOf id)]
  rfl

/-- What neither a status nor a posted release changes is as before once both are settled. -/
theorem State.read_settled : read (((s.lateUnboards id).wake id).ctxOf id) = read (s.ctxOf id) := by
  rw [State.read_wake read hread, State.read_lateUnboards read hread]

end

/-- What a stop leaves of a context for its restart: XPR, the registers and the reports. -/
def Ctx.stopView (c : Ctx) : BitVec 18 × Arch × List (BitVec 32) := (c.xpr, c.arch, c.reports)

theorem Ctx.stopView_stopStream {o : StreamOp} (hlive : o.void = false) (c : Ctx) : (c.stopStream o).stopView =
    (BitVec.ofNat 18 (o.next % 65536 + 65536 + 131072 * b2n (decide (0 < o.next))), c.arch, c.reports) := by
  rw [Ctx.stopStream, if_neg (by rw [hlive]; decide)]
  rfl

theorem State.stopView_updCtx (s : State) (id : CtxId) {f : Ctx → Ctx} (h : ∀ c, (f c).stopView = c.stopView) :
    ((s.updCtx id f).ctxOf id).stopView = (s.ctxOf id).stopView := by
  rw [State.ctxOf_updCtx, h]

theorem State.stopView_endStream (s : State) (id : CtxId) (o : StreamOp) (status : BitVec 3) :
    ((s.endStream id o status).ctxOf id).stopView = (s.ctxOf id).stopView := by
  rw [State.endStream, State.read_settled Ctx.stopView fun _ => rfl]
  exact s.stopView_updCtx id fun _ => rfl

theorem State.stopView_faultStream (s : State) (id : CtxId) (o : StreamOp) (t : TrapRec) :
    ((s.faultStream id o t).ctxOf id).stopView = ((s.ctxOf id).stopStream o).stopView := by
  rw [State.faultStream, State.read_settled Ctx.stopView fun _ => rfl, State.ctxOf_updCtx]
  rfl

theorem State.streamFault_faultStream {s : State} {id : CtxId} {o : StreamOp} (hlive : o.void = false)
    (h : (s.ctxOf id).streamFault = none) (t : TrapRec) : ((s.faultStream id o t).ctxOf id).streamFault = some t := by
  rw [State.faultStream, State.read_settled Ctx.streamFault fun _ => rfl, State.ctxOf_updCtx]
  dsimp only
  rw [if_neg (by rw [hlive]; decide), h]

theorem State.bscfg_updCtx (s : State) (id : CtxId) (d : Fin 8) (f : Ctx → Ctx) :
    ((s.updCtx id f).die d).bscfg = (s.die d).bscfg :=
  Die.bscfg_of_boardRegs ((apart_boardRegs d).updCtx s id f)

theorem State.ctxOf_missed (s : State) (d : Fin 8) (id : CtxId) : (s.missed d).ctxOf id = s.ctxOf id :=
  s.ctxOf_updDie_of_cores d id fun _ => rfl

/-- Whether the die boards or not, the operation has stopped (R362, 05 R134). -/
theorem State.stopView_loseHold (s : State) (id : CtxId) (o : StreamOp) :
    ((s.loseHold id o).ctxOf id).stopView = ((s.ctxOf id).stopStream o).stopView := by
  rw [State.loseHold]
  dsimp only
  split
  · rw [State.read_wake Ctx.stopView fun _ => rfl, State.ctxOf_missed, State.read_lateUnboards Ctx.stopView fun _ => rfl,
      State.ctxOf_updCtx]
    rfl
  · rw [State.stopView_updCtx, State.stopView_endStream, State.ctxOf_updCtx]
    · rfl
    · exact fun _ => rfl

theorem State.boardFault_loseHold {s : State} {id : CtxId} (h : bit (s.die id.die).bscfg 0 = false) (o : StreamOp) :
    ((s.loseHold id o).ctxOf id).pendingA.boardFault = true := by
  rw [State.loseHold]
  dsimp only
  rw [if_neg (by rw [State.bscfg_updCtx, h]; decide), State.ctxOf_updCtx]

/-! ### A result with windows left (R207, R219, R360) -/

/-- The head of an operation's begun windows is due once its result would be. -/
theorem StreamOp.nextResult_le {o : StreamOp} (h : o.begun ≠ []) :
    o.nextResult.getD 0 ≤ o.start + (o.next - o.first + 1) * geomStep o.geom + 15 := by
  have hstep : 1 ≤ geomStep o.geom := Nat.le_add_left ..
  rw [StreamOp.nextResult, Nat.add_mul]
  split
  next hnone => exact absurd hnone h
  next => simp only [Option.getD_some, StreamOp.cycleOf]; omega
  next => simp only [Option.getD_some, StreamOp.cycleOf]; omega

theorem addF32_eq : addF32 = fun a b =>
    BitVec.ofNat 32 (fp32.round .rne false (vadd .rne (fp32.value a.toNat) (fp32.value b.toNat)).1).1 := rfl

/-- The running sums before a result, with the state that has read them. -/
def State.oldSums (s : State) (id : CtxId) (o : StreamOp) (ps : List Part) : State × List (BitVec 32) × BitVec 64 :=
  if o.sums = [] then s.firstSums id o ps else (s, o.sums, o.spoilt)

/-- An operation after a result. -/
def StreamOp.advance (o : StreamOp) (rest : List WindowOut) (sums : List (BitVec 32)) (spoilt : BitVec 64) : StreamOp :=
  { o with next := o.next + 1, begun := rest, sums := sums, spoilt := spoilt }

theorem State.windowResult_of_more {s : State} {id : CtxId} {o : StreamOp} {ps : List Part} {vals : List (BitVec 32)}
    {rep : BitVec 32} {rest : List WindowOut} (hmore : o.next + 1 < geomWin o.geom) (hgo : o.halting = false) :
    s.windowResult id o ps vals rep rest =
      (let old := s.oldSums id o ps
       let o' := o.advance rest (old.2.1.zipWith addF32 vals) old.2.2
       ((old.1.writeSums id o' ps).reportWindow id (rep + BitVec.ofNat 32 (65536 * (o.next % 65536)))).updCtx id fun k =>
         { k with streams := updFirst (· == o) (fun _ => o') k.streams }) := by
  have hold : (if o.sums.isEmpty then s.firstSums id o ps else (s, o.sums, o.spoilt)) = s.oldSums id o ps := by
    simp only [State.oldSums, List.isEmpty_iff]
  rw [State.windowResult, hold]
  dsimp only
  rw [if_neg (Nat.not_le.2 hmore), if_neg (by simp [hgo])]
  rfl

/-! ### The bank of a die's modulators (R363, R364) -/

/-- A broadcast with the windows that have started by now. -/
def Broadcast.startedBy (b : Broadcast) (now : Nat) : Broadcast := { b with begun := Nat.max b.begun (b.started now) }

/-- What the start of a broadcast's windows is to the operation that it belongs to. -/
def State.noteStarted (now : Nat) (s : State) (b : Broadcast) : State :=
  let left := b.nwin - b.started now
  match (s.ctxOf b.id).streams.find? fun o => o.kind == 2 && o.issue == b.issue && o.lanes != 0 with
  | none => s
  | some o =>
    if left = 0 then s.endStream b.id o (if o.partialSent then 3 else 0)
    else s.updCtx b.id fun c => { c with streams := updFirst (· == o) (fun o => { o with lanes := left }) c.streams }

theorem BesideStreams.noteStarted {α : Type} {read : State → α} (h : BesideStreams read) (now : Nat) (s : State)
    (b : Broadcast) : read (s.noteStarted now b) = read s := by
  unfold State.noteStarted
  dsimp only
  split
  · rfl
  · split
    · exact h.endStream ..
    · exact h.ctx ..

/-- The lane windows of a die that are due have started. -/
def State.startBank (s : State) (d : Fin 8) : State :=
  (s.die d).bank.foldl (State.noteStarted s.gtime)
    (s.updDie d fun x => { x with bank := x.bank.map fun b => b.startedBy s.gtime })

theorem State.bank_startBank (s : State) (d : Fin 8) :
    ((s.startBank d).die d).bank = (s.die d).bank.map fun b => b.startedBy s.gtime := by
  rw [State.startBank, read_foldl_of_frame (read := fun s => (State.die s d).bank)
    (fun s b _ => (beside_bank d).noteStarted _ s b), State.die_updDie]

/-! ### The end of a calibration (R224, R367) -/

/-- A core whose calibration has ended. -/
def Core.calibrated (k : Core) (ok : Bool) (temp : BitVec 10) (now : Nat) : Core :=
  { k with
    calEnd := none, calValid := ok, calFail := !ok, calTstep := false
    calTemp := if ok then temp else k.calTemp, calAt := if ok then now else k.calAt
    calSeen := k.calSeen || ok }

/-- A core with the end of a calibration, or with none under way. -/
def Core.calUntil (k : Core) (e : Option Nat) : Core := { k with calEnd := e }

theorem Core.calUntil_self (k : Core) : k.calUntil k.calEnd = k := rfl

theorem Core.bare_calUntil (k : Core) (e : Option Nat) : (k.calUntil e).bare = k.bare.calUntil e := rfl

/-- The operation whose calibration has ended ends. -/
def State.endCal (s : State) (d : Fin 8) (c : Fin 16) (ok : Bool) : State :=
  match s.findCal d c false with
  | some (id, o) => s.endStream id o (if ok then 0 else 4)
  | none => s

/-- The calibration that waits begins. -/
def State.nextCal (s : State) (d : Fin 8) (c : Fin 16) : State :=
  match s.findCal d c true with
  | none => s
  | some (id, o) =>
    (s.updCore d c fun k => { k with calEnd := some (s.cycle + 8192) }).updCtx id fun c =>
      { c with streams := updFirst (· == o) (fun o => { o with waiting := false }) c.streams }

theorem State.nextCal_of_none {s : State} {d : Fin 8} {c : Fin 16} (h : s.findCal d c true = none) : s.nextCal d c = s := by
  rw [State.nextCal, h]

theorem State.nextCal_of_some {s : State} {d : Fin 8} {c : Fin 16} {id : CtxId} {o : StreamOp}
    (h : s.findCal d c true = some (id, o)) : s.nextCal d c =
      (s.updCore d c fun k => { k with calEnd := some (s.cycle + 8192) }).updCtx id fun c =>
        { c with streams := updFirst (· == o) (fun o => { o with waiting := false }) c.streams } := by
  rw [State.nextCal, h]

theorem BesideStreams.endCal {α : Type} {read : State → α} (h : BesideStreams read) (s : State) (d : Fin 8) (c : Fin 16)
    (ok : Bool) : read (s.endCal d c ok) = read s := by
  unfold State.endCal
  split
  · exact h.endStream ..
  · rfl

theorem beside_cycle : BesideStreams State.cycle := ⟨fun _ _ _ => rfl, fun _ _ _ _ => rfl⟩

/-- Beside the contexts, a next calibration gives the core its end and nothing else. -/
theorem State.bare_nextCal (s : State) (d : Fin 8) (c : Fin 16) : ∃ e, (e = (s.core d c).calEnd ∨ e = some (s.cycle + 8192)) ∧
    ((s.nextCal d c).core d c).bare = (s.core d c).bare.calUntil e := by
  cases h : s.findCal d c true with
  | none => exact ⟨_, .inl rfl, by rw [State.nextCal_of_none h, ← Core.bare_calUntil, Core.calUntil_self]⟩
  | some next =>
    refine ⟨_, .inr rfl, ?_⟩
    rw [State.nextCal_of_some h, (beside_bare d c).ctx, State.core_updCore, ← Core.bare_calUntil, Core.calUntil]

/-- A calibration of a core that has ended, and the next one begun. -/
def State.completeCal (s : State) (d : Fin 8) (c : Fin 16) (ok : Bool) (temp : BitVec 10) : State :=
  ((s.updCore d c fun k => k.calibrated ok temp s.cycle).endCal d c ok).nextCal d c

theorem State.bare_completeCal (s : State) (d : Fin 8) (c : Fin 16) (ok : Bool) (temp : BitVec 10) :
    ∃ e, (e = none ∨ e = some (s.cycle + 8192)) ∧
      ((s.completeCal d c ok temp).core d c).bare = (((s.core d c).calibrated ok temp s.cycle).calUntil e).bare := by
  have hended : (((s.updCore d c fun k => k.calibrated ok temp s.cycle).endCal d c ok).core d c).bare =
      ((s.core d c).calibrated ok temp s.cycle).bare := by
    rw [(beside_bare d c).endCal, State.core_updCore]
  obtain ⟨e, he, hbare⟩ :=
    State.bare_nextCal ((s.updCore d c fun k => k.calibrated ok temp s.cycle).endCal d c ok) d c
  rw [Core.calEnd_of_bare hended, beside_cycle.endCal] at he
  rw [hended, ← Core.bare_calUntil] at hbare
  exact ⟨e, he, hbare⟩

theorem execXcalComplete_due {s : State} {d : Fin 8} {c : Fin 16} {e : Nat} (h : (s.core d c).calEnd = some e)
    (hdue : e ≤ s.cycle) (ok : Bool) (temp : BitVec 10) :
    execXcalComplete d c ok temp s = .next (s.completeCal d c ok temp) := by
  rw [execXcalComplete, h]
  dsimp only
  rw [if_neg (Nat.not_lt.2 hdue)]
  split
  next hnone => exact congrArg Host.Outcome.next (State.nextCal_of_none hnone).symm
  next hsome => exact congrArg Host.Outcome.next (State.nextCal_of_some hsome).symm

end Sys2Proof.Machine

namespace Sys2Proof.Claims
open Machine

/-! ### Windows (09 R207 to R209, R219) -/

section
variable {s u : State} {id : CtxId} {o : StreamOp}

theorem gives_windowFirstSymbol {n : Nat} {out : WindowOut} (hfirst : (s.ctxOf id).firstBegin = some (o, n))
    (hdue : o.cycleOf n ≤ s.gtime) (h : s.openWindow id o n = (u, out)) :
    Gives s (.windowFirstSymbol id) (u.updCtx id fun k => { k with
      streams := updFirst (· == o) (fun p => { p with begun := p.begun ++ [out] }) k.streams }) := by
  change execWindowFirstSymbol id s = _
  rw [execWindowFirstSymbol, hfirst]
  simp only [if_pos hdue, h]

section
variable (hfirst : (s.ctxOf id).firstResult = some o) (hdue : ¬(s.gtime < o.nextResult.getD 0 ∨ s.resultHeld id o = true))
include hfirst hdue

theorem gives_windowResult_stops {vals : List (BitVec 32)} {rep : BitVec 32} {rest : List WindowOut} {t : TrapRec}
    (hrun : o.begun = .ran vals rep :: rest) (h : s.resultParts id o = (u, .error t)) :
    Gives s (.windowResult id) (u.faultStream id o t) := by
  change execWindowResult id s = _
  rw [execWindowResult, hfirst]
  simp only [if_neg hdue, hrun, h]

theorem gives_windowResult {vals : List (BitVec 32)} {rep : BitVec 32} {rest : List WindowOut} {ps : List Part}
    (hrun : o.begun = .ran vals rep :: rest) (h : s.resultParts id o = (u, .ok ps)) :
    Gives s (.windowResult id) (u.windowResult id o ps vals rep rest) := by
  change execWindowResult id s = _
  rw [execWindowResult, hfirst]
  simp only [if_neg hdue, hrun, h]

theorem gives_windowResult_fault {t : TrapRec} {rest : List WindowOut} (hfault : o.begun = .fault t :: rest) :
    Gives s (.windowResult id) (s.faultStream id o t) := by
  change execWindowResult id s = _
  rw [execWindowResult, hfirst]
  simp only [if_neg hdue, hfault]

theorem gives_windowResult_revoked {rest : List WindowOut} (hrevoked : o.begun = .revoked :: rest) :
    Gives s (.windowResult id) (s.loseHold id o) := by
  change execWindowResult id s = _
  rw [execWindowResult, hfirst]
  simp only [if_neg hdue, hrevoked]

end

end

/-! ### Stops (09 R232) -/

/-- The fields of XPR as a stop records them. -/
theorem part_xpr (n : Nat) (b : Bool) :
    let x := (BitVec.ofNat 18 (n % 65536 + 65536 + 131072 * b2n b)).toNat
    part x 0 16 = n % 65536 ∧ part x 16 1 = 1 ∧ (part x 17 1 = 1 ↔ b = true) := by
  cases b <;> simp [part, b2n] <;> omega

theorem stopped_of_stopView {k t : Ctx} {o : StreamOp} (hlive : o.void = false)
    (h : t.stopView = (k.stopStream o).stopView) : Stopped k t o := by
  rw [Ctx.stopView_stopStream hlive] at h
  obtain ⟨hxpr, harch, hreports⟩ : _ ∧ _ ∧ _ := ⟨congrArg (·.1) h, congrArg (·.2.1) h, congrArg (·.2.2) h⟩
  obtain ⟨hnext, hvalid, hsome⟩ := part_xpr o.next (decide (0 < o.next))
  simp only [Ctx.stopView] at hxpr harch hreports
  rw [Stopped, hxpr]
  exact ⟨hnext, hvalid, hsome.trans decide_eq_true_iff, harch, hreports⟩

/-! ### Broadcasts and calibrations (09 R224, 15 R363, R364, R367) -/

theorem leads_modulatorWindowStart (s : State) (d : Fin 8) : Leads s (.modulatorWindowStart d) (fun t =>
    ∀ b, b ∈ (s.die d).bank → ∃ b', b' ∈ (t.die d).bank ∧ b'.id = b.id ∧ b'.start = b.start ∧
      b'.begun = max b.begun (b.started s.gtime)) := by
  refine ⟨s.startBank d, rfl, fun b hb => ⟨b.startedBy s.gtime, ?_, rfl, rfl, rfl⟩⟩
  rw [State.bank_startBank]
  exact List.mem_map_of_mem hb

theorem leads_xcalComplete {s : State} {d : Fin 8} {c : Fin 16} {e : Nat} (h : (s.core d c).calEnd = some e)
    (hdue : e ≤ s.cycle) (ok : Bool) (temp : BitVec 10) : Leads s (.xcalComplete d c ok temp) (fun t =>
      let k := t.core d c
      k.calValid = ok ∧ k.calFail = !ok ∧ k.calTstep = false ∧
      k.calTemp = (if ok then temp else (s.core d c).calTemp) ∧
      k.calAt = (if ok then s.cycle else (s.core d c).calAt) ∧ (k.calEnd = none ∨ k.calEnd = some (s.cycle + 8192))) := by
  obtain ⟨e, he, hbare⟩ := s.bare_completeCal d c ok temp
  have hend : ((s.completeCal d c ok temp).core d c).calEnd = e := Core.calEnd_of_bare hbare
  exact ⟨_, execXcalComplete_due h hdue ok temp, Core.calValid_of_bare hbare, Core.calFail_of_bare hbare,
    Core.calTstep_of_bare hbare, Core.calTemp_of_bare hbare, Core.calAt_of_bare hbare, he.imp hend.trans hend.trans⟩

/-- Settles O37: windows that begin, end and stop, broadcasts that start and calibrations that end. -/
theorem streamEvents : Obligations.StreamEvents := by
  intro s u id o n d c ok temp out vals rep rest e first
  refine ⟨fun hfirst hdue _ h => gives_windowFirstSymbol hfirst hdue h, fun hfirst _ hdue hheld => ?results,
    fun t _ hlive => ⟨stopped_of_stopView hlive (s.stopView_faultStream id o t),
      fun hnone => State.streamFault_faultStream hlive hnone t, stopped_of_stopView hlive (s.stopView_loseHold id o),
      fun hoff => State.boardFault_loseHold ?off o⟩,
    leads_modulatorWindowStart s d, fun h hdue => leads_xcalComplete h hdue ok temp⟩
  case off =>
    rw [bit_eq_decide_part, hoff]
    rfl
  case results =>
    have hready (hbegun : o.begun ≠ []) : ¬(s.gtime < o.nextResult.getD 0 ∨ s.resultHeld id o = true) := by
      rw [not_or, Nat.not_lt, hheld]
      exact ⟨(StreamOp.nextResult_le hbegun).trans hdue, by decide⟩
    refine ⟨fun _ hrun => ?ran, fun t hfault => gives_windowResult_fault hfirst (hready (by simp [hfault])) hfault,
      fun hrevoked => gives_windowResult_revoked hfirst (hready (by simp [hrevoked])) hrevoked⟩
    case ran =>
      have hready := hready (by simp [hrun])
      refine ⟨fun t h => gives_windowResult_stops hfirst hready hrun h, fun ps h hmore hgo => ?_⟩
      have hresult := gives_windowResult hfirst hready hrun h
      rw [State.windowResult_of_more hmore hgo, addF32_eq] at hresult
      exact hresult

end Sys2Proof.Claims

/-! Words and operations (10 R234 to R236, R248 to R251). A code word is a constant for GROUP and INDEX with the operands
laid out below it, each above the one before. What a decoder reads of such a word, the unit of the operation that a word
names, and the fates of reserved values; from these O51 and O52. -/

namespace Sys2Proof

/-! ### Numbers laid out in fields (10 R234) -/

/-- A number that is a constant from bit t on and, below bit t, less than a bound. -/
def Laid (t K n b : Nat) : Prop := n / 2 ^ t = K / 2 ^ t ∧ n % 2 ^ t < b

theorem Laid.base {t K b : Nat} (h : K % 2 ^ t = 0 ∧ 0 < b) : Laid t K K b := ⟨rfl, h.1 ▸ h.2⟩

/-- A field is put above those that are there. -/
theorem Laid.put {t K n c k b : Nat} {x : BitVec k} (h : c * 2 ^ k ≤ b ∧ b ≤ 2 ^ t) (hn : Laid t K n c) :
    Laid t K (n + x.toNat * c) b := by
  obtain ⟨hb, ht⟩ := h
  obtain ⟨hK, hlow⟩ := hn
  have hsum : n % 2 ^ t + x.toNat * c < b := calc
    _ < c + x.toNat * c := Nat.add_lt_add_right hlow _
    _ = c * (x.toNat + 1) := by ring
    _ ≤ c * 2 ^ k := Nat.mul_le_mul_left _ x.isLt
    _ ≤ b := hb
  have hlt := hsum.trans_le ht
  rw [Laid, ← Nat.div_add_mod n (2 ^ t), Nat.add_assoc, Nat.mul_add_div (Nat.two_pow_pos t), Nat.div_eq_of_lt hlt,
    Nat.mul_add_mod, Nat.mod_eq_of_lt hlt]
  exact ⟨hK, hsum⟩

/-- The guard is the lowest field. -/
theorem Laid.guard {t K b : Nat} {g : BitVec 4} (h : K % 2 ^ t = 0 ∧ 16 ≤ b ∧ b ≤ 2 ^ t) : Laid t K (K + g.toNat) b := by
  rw [← Nat.mul_one g.toNat]
  exact .put h.2 (.base ⟨h.1, Nat.one_pos⟩)

theorem toNat_fld (w : BitVec 32) (lo k : Nat) : (fld w lo k).toNat = w.toNat % 2 ^ (lo + k) / 2 ^ lo := by
  rw [fld, BitVec.toNat_ofNat, pow_add, Nat.mod_mul_right_div_self]

/-- The fields above bit t are the constant's, and a statement may be shown from them. -/
theorem Laid.consts {t K n b : Nat} {w : BitVec 32} {P : Prop} (hw : BitVec.ofNat 32 n = w) (h : Laid t K n b)
    (hP : (∀ lo k, t ≤ lo → lo + k ≤ 32 → fld w lo k = BitVec.ofNat k (K / 2 ^ lo)) → P) : P := by
  refine hP fun lo k hlo hk => BitVec.eq_of_toNat_eq ?_
  have hdiv : n / 2 ^ lo = K / 2 ^ lo := by
    rw [← Nat.sub_add_cancel hlo, Nat.add_comm, pow_add, ← Nat.div_div_eq_div_mul, ← Nat.div_div_eq_div_mul, h.1]
  rw [toNat_fld, ← hw, BitVec.toNat_ofNat, Nat.mod_mod_of_dvd _ (pow_dvd_pow 2 hk), pow_add, Nat.mod_mul_right_div_self, hdiv,
    BitVec.toNat_ofNat]

/-! ### What is read of a word that is laid out -/

/-- A reading y of a word has the value v, if below bit b the word agrees with a number that leaves all above it free. -/
def Reads {α : Type} (t n b : Nat) (w : BitVec 32) (y v : α) : Prop :=
  n % 2 ^ t < 2 ^ b ∧ (w.toNat % 2 ^ b = n % 2 ^ b → y = v)

theorem Reads.base {α : Type} {t K b : Nat} {w : BitVec 32} {y : α} (h : K % 2 ^ t = 0) : Reads t K b w y y :=
  ⟨h ▸ Nat.two_pow_pos b, fun _ => rfl⟩

theorem Reads.put {α : Type} {t n c lo k b : Nat} {w : BitVec 32} {y v : BitVec k → α} {x : BitVec k}
    (h : c = 2 ^ lo ∧ lo + k ≤ b ∧ b ≤ t) (hr : Reads t n lo w y v) :
    Reads t (n + x.toNat * c) b w (y (fld w lo k)) (v x) := by
  obtain ⟨rfl, hb, ht⟩ := h
  obtain ⟨hn, hy⟩ := hr
  have hfits : 2 ^ lo * 2 ^ k ≤ 2 ^ b := pow_add 2 lo k ▸ Nat.pow_le_pow_right Nat.two_pos hb
  refine ⟨(Laid.put ⟨hfits, Nat.pow_le_pow_right Nat.two_pos ht⟩ ⟨rfl, hn⟩).2, fun hw => ?_⟩
  have hmod {j : Nat} (hj : j ≤ b) : w.toNat % 2 ^ j = (n + x.toNat * 2 ^ lo) % 2 ^ j :=
    Nat.ModEq.of_dvd (pow_dvd_pow 2 hj) hw
  have hbelow : w.toNat % 2 ^ lo = n % 2 ^ lo := by
    rw [hmod ((Nat.le_add_right lo k).trans hb), Nat.add_mul_mod_self_right]
  have hroom : n % 2 ^ (lo + k) < 2 ^ lo := by
    rw [← Nat.mod_mod_of_dvd n (pow_dvd_pow 2 (hb.trans ht))]
    exact (Nat.mod_le _ _).trans_lt hn
  have hfield : fld w lo k = x := by
    refine BitVec.eq_of_toNat_eq ?_
    rw [toNat_fld, hmod hb, pow_add, Nat.mod_mul_right_div_self, Nat.add_mul_div_right _ _ (Nat.two_pow_pos lo), Nat.add_mod,
      ← Nat.mod_mul_right_div_self, ← pow_add, Nat.div_eq_of_lt hroom, Nat.zero_add, Nat.mod_mod, Nat.mod_eq_of_lt x.isLt]
  rw [hy hbelow, hfield]

theorem Reads.guard {α : Type} {t K b : Nat} {w : BitVec 32} {f : BitVec 4 → α} {g : BitVec 4}
    (h : K % 2 ^ t = 0 ∧ 4 ≤ b ∧ b ≤ t) : Reads t (K + g.toNat) b w (f (fld w 0 4)) (f g) := by
  rw [← Nat.mul_one g.toNat]
  exact .put ⟨rfl, h.2⟩ (.base h.1)

theorem Reads.eq {α : Type} {t n b : Nat} {w : BitVec 32} {y v : α} (hw : BitVec.ofNat 32 n = w) (hb : b ≤ 32)
    (h : Reads t n b w y v) : y = v :=
  h.2 (by rw [← hw, BitVec.toNat_ofNat, Nat.mod_mod_of_dvd _ (pow_dvd_pow 2 hb)])

/-! ### GROUP, INDEX and the other readings as fields -/

theorem slotGroup_eq_fld (w : BitVec 32) : slotGroup w = (fld w 29 3).toNat := by
  rw [toNat_fld, slotGroup, Nat.mod_eq_of_lt w.isLt]
  rfl

theorem slotIndex_eq_fld (w : BitVec 32) : slotIndex w = (fld w 25 4).toNat := by
  rw [toNat_fld, slotIndex]
  omega

theorem bitAt_eq_fld (w : BitVec 32) (n : Nat) : bitAt w n = (fld w n 1 == 1) := by
  rw [bitAt, beq_eq_beq, ← BitVec.toNat_inj, toNat_fld, pow_succ, Nat.mod_mul_right_div_self]
  rfl

/-- FL of a group 3 word is `rel` by its upper bit, where the lower one is 0. -/
theorem redFl_eq_fld {w : BitVec 32} (h : fld w 8 1 = 0) : redFl w = fld w 9 1 := by
  have hlow : w.toNat % 2 ^ 9 / 2 ^ 8 = 0 := toNat_fld w 8 1 ▸ congrArg BitVec.toNat h
  have hiff : fld w 8 2 = 2 ↔ fld w 9 1 = 1 := by
    rw [← BitVec.toNat_inj, ← BitVec.toNat_inj, toNat_fld, toNat_fld]
    change w.toNat % 2 ^ 10 / 2 ^ 8 = 2 ↔ w.toNat % 2 ^ 10 / 2 ^ 9 = 1
    omega
  rw [redFl, if_congr hiff rfl rfl]
  exact (by decide : ∀ x : BitVec 1, (if x = 1 then 1 else 0) = x) _

/-! ### The operation that a code word names -/

theorem fld_eq_zero {n lo k : Nat} {w : BitVec 32} (hw : BitVec.ofNat 32 n = w) (hk : lo + k ≤ 32)
    (h : n % 2 ^ (lo + k) < 2 ^ lo) : fld w lo k = 0 := by
  rw [← BitVec.toNat_inj, toNat_fld, ← hw, BitVec.toNat_ofNat, Nat.mod_mod_of_dvd _ (pow_dvd_pow 2 hk), Nat.div_eq_of_lt h]
  rfl

theorem rawHeader_encode {w : BitVec 32} {c : BitVec 6} {m : BitVec 1} {t : BitVec 5} {r : BitVec 6}
    (he : encode (.nop c m t r) = some w) : rawHeader w = some (.nop c m t r) := by
  have hw := Option.some.inj he
  refine Laid.consts (t := 22) (b := 2 ^ 22) (K := 0xF0000000) hw ?laid fun hc => ?read
  case laid =>
    repeat refine Laid.put (by decide) ?_
    exact .base (by decide)
  case read =>
    rw [rawHeader, hc 28 4 (by decide) (by decide), hc 22 6 (by decide) (by decide), if_pos (by decide)]
    refine congrArg some (Reads.eq (t := 22) (b := 22) hw (by decide) ?_)
    repeat refine Reads.put (by decide) ?_
    exact .base (by decide)

/-- The value of `pset` is the low bit of its F, and the upper bits are 0. -/
theorem rawS_encode_psetConst {w : BitVec 32} {g d : BitVec 4} {v : BitVec 1}
    (he : encode (.psetConst g d v) = some w) : rawS w = some (.psetConst g d v) := by
  have hw := Option.some.inj he
  refine Laid.consts (t := 23) (b := 2 ^ 23) (K := 0x54000000) hw ?laid fun hc => ?read
  case laid => exact .put (by decide) (.put (by decide) (.guard (by decide)))
  case read =>
    have hread : Instr.psetConst (fld w 0 4) (fld w 4 4) (fld w 22 1) = .psetConst g d v := by
      refine Reads.eq (t := 23) (b := 23) hw (by decide) ?_
      exact .put (by decide) (.put (by decide) (.guard (by decide)))
    obtain ⟨hg, hd, hv⟩ := Instr.psetConst.inj hread
    have hf : fld w 22 3 = v.setWidth 3 := by
      have hhigh : w.toNat % 2 ^ 25 / 2 ^ 23 = 0 := toNat_fld w 23 2 ▸ congrArg BitVec.toNat (hc 23 2 (by decide) (by decide))
      have hlow : w.toNat % 2 ^ 23 / 2 ^ 22 = v.toNat := toNat_fld w 22 1 ▸ congrArg BitVec.toNat hv
      have hv := v.isLt
      rw [← BitVec.toNat_inj, toNat_fld, BitVec.toNat_setWidth]
      change w.toNat % 2 ^ 25 / 2 ^ 22 = v.toNat % 2 ^ 3
      omega
    simp only [rawS, rawS2, slotGroup_eq_fld, slotIndex_eq_fld, hc, hf, hg, hd, Nat.reduceLeDiff, Nat.reduceAdd,
      BitVec.toNat_ofNat, Nat.reduceDiv, Nat.reduceMod, Nat.reducePow]
    exact (by decide : ∀ x : BitVec 1, x = 0 ∨ x = 1) v |>.elim (fun h => by rw [h]; rfl) fun h => by rw [h]; rfl

/-- F of `tshape` with an immediate shape is not 0, which would name the other form. -/
theorem rawS_encode_tshapeImm {w : BitVec 32} {g t : BitVec 4} {r c : BitVec 6} {f : BitVec 3} (hf : f ≠ 0)
    (he : encode (.tshapeImm g t r c f) = some w) : rawS w = some (.tshapeImm g t r c f) := by
  have hw := Option.some.inj he
  refine Laid.consts (t := 25) (b := 2 ^ 25) (K := 0x8A000000) hw ?laid fun hc => ?read
  case laid => exact .put (by decide) (.put (by decide) (.put (by decide) (.put (by decide) (.guard (by decide)))))
  case read =>
    have hread : Instr.tshapeImm (fld w 0 4) (fld w 4 4) (fld w 10 6) (fld w 16 6) (fld w 22 3) = .tshapeImm g t r c f := by
      refine Reads.eq (t := 25) (b := 25) hw (by decide) ?_
      exact .put (by decide) (.put (by decide) (.put (by decide) (.put (by decide) (.guard (by decide)))))
    have hF : fld w 22 3 = f := (Instr.tshapeImm.inj hread).2.2.2.2
    simp only [rawS, rawS4, slotGroup_eq_fld, slotIndex_eq_fld, hc, hread, Nat.reduceLeDiff, Nat.reduceAdd,
      BitVec.toNat_ofNat, Nat.reduceDiv, Nat.reduceMod, Nat.reducePow]
    exact if_neg (hF ▸ hf)

/-- A word names the operation i, if its constant part leads to a form whose operands, as they are read, are those of
i. Bit t parts the constant from the operands. -/
theorem rawWord_of_laid {t n : Nat} {u : CodeUnit} {w : BitVec 32} {i : Instr} (hw : BitVec.ofNat 32 n = w) (ht : t ≤ 32)
    (h : ∃ K y, Laid t K n (2 ^ t) ∧
      ((∀ lo k, t ≤ lo → lo + k ≤ 32 → fld w lo k = BitVec.ofNat k (K / 2 ^ lo)) → rawWord u w = some y) ∧
      Reads t n t w y i) : rawWord u w = some i := by
  obtain ⟨K, y, hl, hraw, hr⟩ := h
  exact hl.consts hw fun hc => (hraw hc).trans (congrArg some (hr.eq hw ht))

/-- Of a `red` word, FL is read apart from its bits (R316). -/
theorem rawWord_encode_red {i : Instr} {w : BitVec 32}
    (hi : match i with | .red .. | .fred .. | .redb .. | .fredb .. => True | _ => False) (he : encode i = some w) :
    rawWord .m w = some i := by
  cases i <;> cases hi
  all_goals
    have hfl := redFl_eq_fld (fld_eq_zero (Option.some.inj he) (by decide) (by omega))
    refine rawWord_of_laid (t := 25) (Option.some.inj he) (by decide) ⟨?_, ?_, ?laid, fun hc => ?raw, ?reads⟩
    case laid =>
      repeat refine .put (by decide) ?_
      refine .guard ?_
      decide
    case raw =>
      simp only [rawWord, rawM, rawM3, slotGroup_eq_fld, slotIndex_eq_fld, hc, hfl, Nat.reduceLeDiff, Nat.reduceAdd,
        BitVec.toNat_ofNat, Nat.reduceDiv, Nat.reduceMod, Nat.reducePow]
      rfl
    case reads =>
      repeat refine .put (by decide) ?_
      refine .guard ?_
      decide

theorem rawWord_encode {i : Instr} {u : CodeUnit} {w : BitVec 32} (hu : i.codeUnit = some u) (hwf : i.wf = true)
    (he : encode i = some w) : rawWord u w = some i := by
  cases i <;> cases hu
  case nop => exact rawHeader_encode he
  case psetConst => exact rawS_encode_psetConst he
  case tshapeImm => exact rawS_encode_tshapeImm (of_decide_eq_true hwf) he
  case red | fred | redb | fredb => exact rawWord_encode_red trivial he
  case' xprog | xprogClear | rpos | rposStat | rposId => refine rawWord_of_laid (t := 16) (Option.some.inj he) (by decide) ?_
  case' agetA | agetD | psetScalar | psetBit | tshapeReg | ftsetAbs | ftsetCur | fbaseImm | fbaseReg | pkset | pksetKey
      | cwait | cwaitAll => refine rawWord_of_laid (t := 22) (Option.some.inj he) (by decide) ?_
  any_goals refine rawWord_of_laid (t := 25) (Option.some.inj he) (by decide) ?_
  all_goals
    refine ⟨?_, ?_, ?laid, fun hc => ?raw, ?reads⟩
    case laid =>
      repeat refine .put (by decide) ?_
      refine .guard ?_
      decide
    case raw =>
      simp only [rawWord, rawS, rawS0, rawS1, rawS2, rawS3, rawS4, rawM, rawM0, rawM1, rawM2, rawM4, rawV, rawV0,
        rawV1, rawV2, rawV3, rawV4, rawV5, rawV6, rawX, rawX0, rawX1, rawX2, rawX3, rawC, rawC0, slotGroup_eq_fld,
        slotIndex_eq_fld, bitAt_eq_fld, hc, Nat.reduceLeDiff, Nat.reduceAdd, BitVec.toNat_ofNat, Nat.reduceDiv, Nat.reduceMod,
        Nat.reducePow]
      rfl
    case reads =>
      repeat refine .put (by decide) ?_
      refine .guard ?_
      decide

/-! ### Reserved values and unused fields (10 R249) -/

theorem cap_of_le {n k : Nat} {x : BitVec n} (h : x.toNat ≤ k) : cap k x = x := if_pos h

theorem cap_of_lt {n k : Nat} {x : BitVec n} (h : x.toNat < k + 1) : cap k x = x := cap_of_le (Nat.le_of_lt_succ h)

/-- A field that only one value of another field uses. -/
theorem used_of_or {n : Nat} {p : Prop} [Decidable p] {x : BitVec n} (h : p ∨ x = 0) : (if p then x else 0) = x := by
  rcases h with h | h
  · exact if_pos h
  · rw [h, ite_self]

/-- A field that one value of another field fixes. -/
theorem unless_of_or {n : Nat} {p : Prop} [Decidable p] {x y : BitVec n} (h : ¬p ∨ x = y) : (if p then y else x) = x := by
  rcases h with h | h
  · exact if_neg h
  · rw [h, ite_self]

theorem cap_two_of_ne {m : BitVec 2} (h : m ≠ 3) : cap 2 m = m := by
  revert m
  decide

theorem maskField_eq_self {m : BitVec 1} {c : BitVec 4} (h : maskOk m c = true) : maskField m c = c := by
  revert m c
  decide

theorem and_seven_of_lt {c : BitVec 4} (h : c < 8) : c &&& 7 = c := by
  revert c
  decide

/-- With D = 1 an `xdot` names a pair of scalars and no tile. -/
theorem pair_of_or {d : BitVec 1} {s : BitVec 6} {t : BitVec 4} (h : d = 0 ∨ t = 0 ∧ s ≤ 62) :
    (if d = 1 ∧ s = 63 then 62 else s) = s := by
  refine if_neg ?_
  rintro ⟨rfl, rfl⟩
  exact absurd h (by simp)

theorem idle_of_or {d : BitVec 1} {s : BitVec 6} {t : BitVec 4} (h : d = 0 ∨ t = 0 ∧ s ≤ 62) :
    (if d = 1 then 0 else t) = t := by
  refine unless_of_or (h.imp ?_ And.left)
  rintro rfl
  decide

/-- With V = 2 an `lstat` names a port. -/
theorem port_of_or {v c : BitVec 5} (h : v ≠ 2 ∨ c ≤ 15) : (if v = 2 then c &&& 15 else c) = c := by
  have hport : ∀ c : BitVec 5, c ≤ 15 → c &&& 15 = c := by decide
  exact unless_of_or (h.imp_right fun hc => (hport c hc).symm)

/-- The fates of R249 leave a well-formed operation as it is: field by field, what they set is what is there. -/
theorem Instr.fate_eq_self {i : Instr} (h : i.wf = true) : i.fate = i := by
  cases i
  case mulh | div | rem | min | max | widf | famo | fred | fredb | tfma | tfms | tclamp | tdot | tdots | tsprs | kvld =>
    simp only [Instr.fate]
    congr 1
    exact cap_of_le (of_decide_eq_true h)
  case shli | shri | srai | sext | zext | cmp | cmpi =>
    simp only [Instr.fate]
    congr 1
    exact cap_of_lt (of_decide_eq_true h)
  case csrr | csrw =>
    simp only [Instr.fate]
    congr 1
    exact if_pos h
  case red | redb =>
    simp only [Instr.fate]
    congr 1
    exact if_neg (of_decide_eq_true h)
  case tcpy =>
    simp only [Instr.fate]
    congr 1
    exact maskField_eq_self h
  case tsel =>
    simp only [Instr.fate]
    congr 1
    exact and_seven_of_lt (of_decide_eq_true h)
  case tiadd | tisub | timul | tand | tor | txor | tshl | tshr =>
    simp only [Instr.fate]
    congr 1
    exact used_of_or (of_decide_eq_true h)
  case tadd | tsub | tmul | tmin | tmax | tabs | tneg | tscale | tcvt | tbcast | trcpa | trsqa | trcpr | trsqr | texp2 | tlog2
      | ttanh | tsigm | twelf | twmrg =>
    obtain ⟨hr, hm⟩ := Bool.and_eq_true_iff.1 h
    simp only [Instr.fate]
    congr 1
    · exact maskField_eq_self hm
    · exact cap_of_le (of_decide_eq_true hr)
  case tcmp =>
    obtain ⟨hm, hk⟩ := Bool.and_eq_true_iff.1 h
    simp only [Instr.fate]
    congr 1
    · exact maskField_eq_self hm
    · exact cap_of_le (of_decide_eq_true hk)
  case tredr | tredc | tred | tscan =>
    obtain ⟨hrk, ho⟩ := Bool.and_eq_true_iff.1 h
    obtain ⟨hr, hk⟩ := Bool.and_eq_true_iff.1 hrk
    simp only [Instr.fate]
    congr 1
    · exact used_of_or (of_decide_eq_true hk)
    · exact cap_of_le (of_decide_eq_true ho)
    · exact cap_of_le (of_decide_eq_true hr)
  case tld | tst =>
    obtain ⟨hqm, hf⟩ := Bool.and_eq_true_iff.1 h
    obtain ⟨hq, hm⟩ := Bool.and_eq_true_iff.1 hqm
    simp only [Instr.fate]
    congr 1
    · exact cap_of_le (of_decide_eq_true hq)
    · exact cap_of_le (of_decide_eq_true hm)
    · exact cap_of_le (of_decide_eq_true hf)
  case tldg | tsts =>
    obtain ⟨hm, hf⟩ := Bool.and_eq_true_iff.1 h
    simp only [Instr.fate]
    congr 1
    · exact cap_of_le (of_decide_eq_true hm)
    · exact cap_of_le (of_decide_eq_true hf)
  case st | lld | lst =>
    obtain ⟨hm, hx⟩ := Bool.and_eq_true_iff.1 h
    simp only [Instr.fate]
    congr 1
    · exact cap_two_of_ne (of_decide_eq_true hm)
    · exact used_of_or (of_decide_eq_true hx)
  case pref =>
    obtain ⟨hmx, hz⟩ := Bool.and_eq_true_iff.1 h
    obtain ⟨hm, hx⟩ := Bool.and_eq_true_iff.1 hmx
    simp only [Instr.fate]
    congr 1
    · exact cap_two_of_ne (of_decide_eq_true hm)
    · exact used_of_or (of_decide_eq_true hz)
    · exact used_of_or (of_decide_eq_true hx)
  case ld =>
    obtain ⟨hmx, hz⟩ := Bool.and_eq_true_iff.1 h
    obtain ⟨hm, hx⟩ := Bool.and_eq_true_iff.1 hmx
    simp only [Instr.fate]
    congr 1
    · exact cap_two_of_ne (of_decide_eq_true hm)
    · exact unless_of_or (of_decide_eq_true hz)
    · exact used_of_or (of_decide_eq_true hx)
  case fence =>
    obtain ⟨hk, hs⟩ := Bool.and_eq_true_iff.1 h
    simp only [Instr.fate]
    congr 1
    · exact cap_of_le (of_decide_eq_true hk)
    · exact unless_of_or (of_decide_eq_true hs)
  case xdot =>
    simp only [Instr.fate]
    congr 1
    · exact pair_of_or (of_decide_eq_true h)
    · exact idle_of_or (of_decide_eq_true h)
  case xdots =>
    obtain ⟨hn, hd⟩ := Bool.and_eq_true_iff.1 h
    simp only [Instr.fate]
    congr 1
    · exact pair_of_or (of_decide_eq_true hd)
    · exact idle_of_or (of_decide_eq_true hd)
    · exact cap_of_le (of_decide_eq_true hn)
  case lstat =>
    obtain ⟨hv, hc⟩ := Bool.and_eq_true_iff.1 h
    simp only [Instr.fate]
    congr 1
    · exact cap_of_le (of_decide_eq_true hv)
    · exact port_of_or (of_decide_eq_true hc)
  all_goals rfl

/-! ### The unit of the operation that a word names (10 R251) -/

theorem codeUnit_of_rawHeader {w : BitVec 32} {i : Instr} (h : rawHeader w = some i) : i.codeUnit = some .header := by
  unfold rawHeader at h
  split at h
  next =>
    cases h
    rfl
  next => cases h

theorem codeUnit_of_rawS {w : BitVec 32} {i : Instr} (h : rawS w = some i) : i.codeUnit = some .s := by
  unfold rawS rawS0 rawS1 rawS2 rawS3 rawS4 at h
  repeat' split at h
  all_goals cases h <;> rfl

theorem codeUnit_of_rawM {w : BitVec 32} {i : Instr} (h : rawM w = some i) : i.codeUnit = some .m := by
  unfold rawM rawM0 rawM1 rawM2 rawM3 rawM4 at h
  repeat' split at h
  all_goals cases h <;> rfl

theorem codeUnit_of_rawV {w : BitVec 32} {i : Instr} (h : rawV w = some i) : i.codeUnit = some .v := by
  unfold rawV rawV0 rawV1 rawV2 rawV3 rawV4 rawV5 rawV6 at h
  repeat' split at h
  all_goals cases h <;> rfl

theorem codeUnit_of_rawX {w : BitVec 32} {i : Instr} (h : rawX w = some i) : i.codeUnit = some .x := by
  unfold rawX rawX0 rawX1 rawX2 rawX3 at h
  repeat' split at h
  all_goals cases h <;> rfl

theorem codeUnit_of_rawC {w : BitVec 32} {i : Instr} (h : rawC w = some i) : i.codeUnit = some .c := by
  unfold rawC rawC0 at h
  repeat' split at h
  all_goals cases h <;> rfl

theorem codeUnit_of_rawWord {u : CodeUnit} {w : BitVec 32} {i : Instr} (h : rawWord u w = some i) : i.codeUnit = some u := by
  cases u
  case s => exact codeUnit_of_rawS h
  case m => exact codeUnit_of_rawM h
  case v => exact codeUnit_of_rawV h
  case x => exact codeUnit_of_rawX h
  case c => exact codeUnit_of_rawC h
  case header => exact codeUnit_of_rawHeader h

/-! ### The two decoders -/

theorem decodeSlot_eq_some {u : CodeUnit} {w : BitVec 32} {i : Instr} :
    decodeSlot u w = some i ↔ rawWord u w = some i ∧ i.wf = true ∧ encode i = some w := by
  unfold decodeSlot
  cases rawWord u w with
  | none => simp
  | some k =>
    simp only [Option.ite_none_right_eq_some, Option.some.injEq]
    constructor
    · rintro ⟨h, rfl⟩
      exact ⟨rfl, h⟩
    · rintro ⟨rfl, h⟩
      exact ⟨h, rfl⟩

theorem decodeRun_of_rawWord {u : CodeUnit} {w : BitVec 32} {i : Instr} (h : rawWord u w = some i) (hwf : i.wf = true) :
    decodeRun u w = some i := by
  rw [decodeRun, h, Option.map_some, Instr.fate_eq_self hwf]

theorem exists_encode {i : Instr} {u : CodeUnit} (hu : i.codeUnit = some u) : ∃ w, encode i = some w := by
  cases i <;> cases hu <;> exact ⟨_, rfl⟩

end Sys2Proof

namespace Sys2Proof.Claims
open Machine

/-- Settles O51: the word of an operation is read field by field, and the fates of R249 leave a well-formed one as
it is. -/
theorem encodingRoundTrip : Obligations.EncodingRoundTrip := by
  intro i u hu
  refine ⟨exists_encode hu, fun hwf w he => ?_⟩
  have hraw := rawWord_encode hu hwf he
  exact ⟨decodeSlot_eq_some.2 ⟨hraw, hwf, he⟩, decodeRun_of_rawWord hraw hwf⟩

/-- Settles O52: the scanner accepts a word only as the encoding of the operation that it names. -/
theorem wordHasOneMeaning : Obligations.WordHasOneMeaning := by
  intro u w i h
  obtain ⟨hraw, hwf, he⟩ := decodeSlot_eq_some.1 h
  exact ⟨hwf, codeUnit_of_rawWord hraw, he⟩

end Sys2Proof.Claims

/-! Operations that only deliver results (10 R237, R243, R249, 13 R299): such an operation leaves the machine as it was but
for the deliveries under way of the issuing context, and where it goes on; from this O59. -/

namespace Sys2Proof.Machine

/-! ### Two updates of one part, and an update that changes nothing -/

theorem vupd_vupd {α : Type} {n : Nat} (v : Vector α n) (i : Fin n) (f g : α → α) :
    vupd (vupd v i f) i g = vupd v i fun x => g (f x) := by
  rw [vupd, vget_vupd_same, vupd, vupd]
  exact Vector.set_set ..

theorem vupd_id {α : Type} {n : Nat} (v : Vector α n) (i : Fin n) : (vupd v i fun x => x) = v :=
  Vector.set_getElem_self ..

theorem State.updDie_updDie (s : State) (d : Fin 8) (f g : Die → Die) :
    (s.updDie d f).updDie d g = s.updDie d fun x => g (f x) :=
  congrArg (fun v => { s with dies := v }) (vupd_vupd s.dies d f g)

theorem State.updCore_updCore (s : State) (d : Fin 8) (c : Fin 16) (f g : Core → Core) :
    (s.updCore d c f).updCore d c g = s.updCore d c fun x => g (f x) := by
  simp only [State.updCore, State.updDie_updDie, vupd_vupd]

theorem State.updCtx_updCtx (s : State) (id : CtxId) (f g : Ctx → Ctx) :
    (s.updCtx id f).updCtx id g = s.updCtx id fun x => g (f x) := by
  simp only [State.updCtx, State.updCore_updCore, vupd_vupd]

theorem State.updCx_updCx (s : State) (f g : Ctx → Ctx) : (s.updCx f).updCx g = s.updCx fun x => g (f x) :=
  s.updCtx_updCtx s.cur f g

theorem State.updCx_id (s : State) : (s.updCx fun x => x) = s := by
  simp only [State.updCx, State.updCtx, State.updCore, State.updDie, vupd_id]

/-! ### Deliveries that give way (10 R249) -/

/-- What is left of a delivery when writes of registers of a class come after it. -/
def Delivery.Yields (own : RegName → Prop) (x y : Delivery) : Prop :=
  y = x ∨ (own x.w.reg ∧ y.due = x.due ∧ y.flags = x.flags ∧ (y.w.reg = x.w.reg ∨ y.w = .s 0 0))

/-- What is left of a write is of the same register. -/
theorem Write.reg_of_under {x w v : Write} (h : x.under w = some v) : v.reg = x.reg := by
  unfold Write.under at h
  split at h
  next =>
    cases h
    rfl
  next => split at h <;> cases h <;> rfl

theorem Write.under_of_ne {x w : Write} (h : x.reg ≠ w.reg) : x.under w = some x := if_pos h

/-- A delivery is left alone, or of its register by a write of that register, or discarded. -/
theorem Delivery.under_cases (x : Delivery) (w : Write) :
    x.under [w] = x ∨ (x.w.reg = w.reg ∧ (x.under [w]).due = x.due ∧ (x.under [w]).flags = x.flags ∧
      ((x.under [w]).w.reg = x.w.reg ∨ (x.under [w]).w = .s 0 0)) := by
  by_cases hreg : x.w.reg = w.reg
  · refine .inr ⟨hreg, ?_⟩
    simp only [Delivery.under, List.foldl]
    cases hunder : x.w.under w with
    | some v => exact ⟨rfl, rfl, .inl (Write.reg_of_under hunder)⟩
    | none => exact ⟨rfl, rfl, .inr rfl⟩
  · simp only [Delivery.under, List.foldl, Write.under_of_ne hreg, true_or]

/-- A discarded delivery stays discarded. -/
theorem Delivery.under_of_discarded {x : Delivery} (h : x.w = .s 0 0) (w : Write) : (x.under [w]).w = .s 0 0 := by
  simp only [Delivery.under, List.foldl, h, Write.under]
  split
  next v hv =>
    split at hv
    · exact (Option.some.inj hv).symm
    · cases w <;> cases hv
  next => rfl

theorem Delivery.Yields.under {own : RegName → Prop} {x y : Delivery} {w : Write} (h : Delivery.Yields own x y)
    (hw : own w.reg) : Delivery.Yields own x (y.under [w]) := by
  rcases y.under_cases w with hsame | ⟨hreg, hdue, hflags, hleft⟩
  · rwa [hsame]
  · rcases h with rfl | ⟨hown, hd, hf, hy⟩
    · exact .inr ⟨hreg ▸ hw, hdue, hflags, hleft⟩
    · refine .inr ⟨hown, hdue.trans hd, hflags.trans hf, ?_⟩
      rcases hy with hy | hy
      · exact hleft.imp_left fun h => h.trans hy
      · exact .inr (under_of_discarded hy w)

/-- Deliveries under way, those from place n on giving way to a write. -/
def yielded (n : Nat) (w : Write) (l : List Delivery) : List Delivery := l.take n ++ (l.drop n).map fun x => x.under [w]

theorem yielded_append (n : Nat) (w : Write) (l r : List Delivery) :
    yielded n w (l ++ r) = yielded n w l ++ yielded (n - l.length) w r := by
  rcases Nat.le_total n l.length with h | h
  · simp [yielded, List.take_append, List.drop_append, Nat.sub_eq_zero_of_le h]
  · simp [yielded, List.take_append, List.drop_append, List.take_of_length_le h, List.drop_eq_nil_of_le h]

theorem length_yielded (n : Nat) (w : Write) (l : List Delivery) : (yielded n w l).length = l.length := by
  rw [yielded, List.length_append, List.length_map, ← List.length_append, List.take_append_drop]

theorem getElem?_yielded (n : Nat) (w : Write) (l : List Delivery) (k : Nat) :
    (yielded n w l)[k]? = if k < n then l[k]? else l[k]?.map fun x => x.under [w] := by
  rcases Nat.le_total l.length n with hn | hn
  · rw [yielded, List.take_of_length_le hn, List.drop_eq_nil_of_le hn, List.map_nil, List.append_nil]
    split
    next => rfl
    next hk => rw [List.getElem?_eq_none (hn.trans (Nat.not_lt.1 hk)), Option.map_none]
  · rw [yielded, List.getElem?_append, List.length_take, Nat.min_eq_left hn, List.getElem?_take, List.getElem?_map,
      List.getElem?_drop]
    split
    next => rfl
    next hk => rw [Nat.add_sub_cancel' (Nat.not_lt.1 hk)]

theorem mem_yielded {n : Nat} {w : Write} {l : List Delivery} {x : Delivery} (h : x ∈ yielded n w l) :
    ∃ y ∈ l, x = y ∨ x = y.under [w] := by
  rcases List.mem_append.1 h with h | h
  · exact ⟨x, List.mem_of_mem_take h, .inl rfl⟩
  · obtain ⟨y, hy, rfl⟩ := List.mem_map.1 h
    exact ⟨y, List.mem_of_mem_drop hy, .inr rfl⟩

/-! ### A context with new deliveries -/

/-- The context c with new deliveries to registers of a class: results of earlier slots of the bundle give way to them, and the
next bundle may be another one. -/
def Ctx.Delivered (own : RegName → Prop) (c k : Ctx) : Prop :=
  ∃ (fl ws : List Delivery) (pd : List Pend) (st : List StreamOp) (np : W64) (ju : Bool),
    k = { c with inflight := fl ++ ws, pend := pd, streams := st, npc := np, jumped := ju } ∧
    (∀ x ∈ ws, own x.w.reg ∨ x.w = .s 0 0) ∧ fl.length = c.inflight.length ∧
    ∀ k x y, c.inflight[k]? = some x → fl[k]? = some y → (k < c.opened → y = x) ∧ Delivery.Yields own x y

section
variable {own : RegName → Prop} {c k : Ctx}

theorem Ctx.Delivered.refl : c.Delivered own c := by
  refine ⟨c.inflight, [], c.pend, c.streams, c.npc, c.jumped, by rw [List.append_nil], by simp, rfl, fun k x y hx hy => ?_⟩
  obtain rfl : y = x := Option.some.inj (hy.symm.trans hx)
  exact ⟨fun _ => rfl, .inl rfl⟩

theorem Ctx.Delivered.transfer (h : c.Delivered own k) (np : W64) (ju : Bool) :
    c.Delivered own { k with npc := np, jumped := ju } := by
  obtain ⟨fl, ws, pd, st, _, _, rfl, hws, hlen, hfl⟩ := h
  exact ⟨fl, ws, pd, st, np, ju, rfl, hws, hlen, hfl⟩

theorem Ctx.Delivered.deliver (h : c.Delivered own k) {w : Write} (hw : own w.reg) (now lat : Nat) (flags : BitVec 5) :
    c.Delivered own (k.deliver now lat w flags) := by
  obtain ⟨fl, ws, pd, st, np, ju, hk, hws, hlen, hfl⟩ := h
  refine ⟨yielded c.opened w fl, yielded (c.opened - fl.length) w ws ++ [⟨now + lat, w, flags⟩],
    (k.discardPending [w.reg]).pend, (k.discardPending [w.reg]).streams, np, ju, ?_, ?_,
    (length_yielded ..).trans hlen, fun n x y hx hy => ?_⟩
  · rw [← List.append_assoc, ← yielded_append, hk]
    rfl
  · intro x hx
    rcases List.mem_append.1 hx with hx | hx
    · obtain ⟨y, hy, rfl | rfl⟩ := mem_yielded hx
      · exact hws _ hy
      · rcases hws y hy with hown | hzero
        · rcases y.under_cases w with hsame | ⟨-, -, -, hreg | hzero⟩
          · exact .inl (hsame.symm ▸ hown)
          · exact .inl (hreg.symm ▸ hown)
          · exact .inr hzero
        · exact .inr (Delivery.under_of_discarded hzero w)
    · exact .inl (List.mem_singleton.1 hx ▸ hw)
  · obtain ⟨z, hz⟩ : ∃ z, fl[n]? = some z := by
      have := (List.getElem?_eq_some_iff.1 hx).1
      exact ⟨_, List.getElem?_eq_getElem (hlen ▸ this)⟩
    obtain ⟨hsame, hyields⟩ := hfl n x z hx hz
    rw [getElem?_yielded, hz] at hy
    split at hy
    next hlt =>
      cases hy
      exact ⟨hsame, hyields⟩
    next hge =>
      cases hy
      exact ⟨fun hlt => absurd hlt hge, hyields.under hw⟩

end

/-! ### A state with new deliveries of the issuing context -/

/-- The state s with new deliveries of its issuing context to registers of a class. -/
def State.Delivered (own : RegName → Prop) (s t : State) : Prop :=
  ∃ f : Ctx → Ctx, t = s.updCx f ∧ s.cx.Delivered own (f s.cx)

section
variable {own : RegName → Prop} {s t : State}

theorem State.Delivered.refl : s.Delivered own s := ⟨fun c => c, s.updCx_id.symm, .refl⟩

theorem State.Delivered.ite {p : Prop} [Decidable p] {u : State} (ht : s.Delivered own t) (hu : s.Delivered own u) :
    s.Delivered own (if p then t else u) := by
  split <;> assumption

theorem State.Delivered.deliver (h : s.Delivered own t) {w : Write} (hw : own w.reg) (lat : Nat) (flags : BitVec 5) :
    s.Delivered own (t.deliver lat w flags) := by
  obtain ⟨f, rfl, hf⟩ := h
  exact ⟨_, s.updCx_updCx f _, hf.deliver hw ..⟩

theorem State.Delivered.transfer (h : s.Delivered own t) (np : W64) : s.Delivered own (t.transfer np) := by
  obtain ⟨f, rfl, hf⟩ := h
  exact ⟨_, s.updCx_updCx f _, hf.transfer ..⟩

/-- A write of the scalar that a field names is one of that register. -/
theorem Ctx.reg_wS (c : Ctx) (n : BitVec 6) (v : W64) : (c.wS n v).reg = c.nameS n := by
  rcases c.nameS_eq n with ⟨h, -, -⟩ | h
  all_goals
    rw [Ctx.wS, h]
    rfl

theorem Ctx.reg_wP (c : Ctx) (n : BitVec 4) (b : Bool) : (c.wP n b).reg = c.nameP n := by
  rcases c.nameP_eq n with ⟨h, -, -⟩ | h
  all_goals
    rw [Ctx.wP, h]
    rfl

theorem State.Delivered.putS {n : BitVec 6} (hn : own (s.cx.nameS n)) (lat : Nat) (v : W64) : s.Delivered own (s.putS n lat v) :=
  State.Delivered.refl.deliver ((s.cx.reg_wS n v).symm ▸ hn) lat 0

theorem State.Delivered.putP {n : BitVec 4} (hn : own (s.cx.nameP n)) (lat : Nat) (b : Bool) : s.Delivered own (s.putP n lat b) :=
  State.Delivered.refl.deliver ((s.cx.reg_wP n b).symm ▸ hn) lat 0

theorem State.Delivered.putT {d : BitVec 4} (hd : own (.t d)) (i : Instr) (x : Cells) : s.Delivered own (s.putT i d x) :=
  State.Delivered.refl.deliver hd _ _

theorem State.Delivered.putLC {n : BitVec 2} (hn : own (.lc n)) (v : W64) : s.Delivered own (s.putLC n v) :=
  State.Delivered.refl.deliver hn 1 0

theorem State.Delivered.arch (h : s.Delivered own t) : t.cx.arch = s.cx.arch := by
  obtain ⟨f, rfl, fl, ws, pd, st, np, ju, hf, -⟩ := h
  rw [State.cx_updCx, hf]

/-- A rotation delivers the new bases, and p8 by the name that it has under them. -/
theorem State.Delivered.rotate (h : s.Delivered own t) (hrot : own .rot)
    (hp : own (.p (BitVec.ofNat 4 (8 + (s.cx.arch.rbp.toNat + 7) % 8)))) (b : Bool) : s.Delivered own (t.rotate b) := by
  rw [← h.arch] at hp
  refine (h.deliver (w := .rot _ _) hrot 1 0).deliver ?_ 1 0
  rwa [Write.reg, BitVec.toNat_add]

/-- A slot operation without a trap left the state as it was, or did what it does. -/
theorem State.eq_or_eq_of_slotOp {g : BitVec 4} {i : Instr} {body : State → State} (h : s.slotOp g i body = .next t)
    (ht : t.taken = none) : t = s ∨ t = body s := by
  rcases State.slotOp_cases h with ⟨-, rfl⟩ | ⟨-, -, rfl⟩ | ⟨-, -, rfl⟩
  · exact .inl rfl
  · cases ht
  · exact .inr rfl

theorem State.Delivered.of_slotOp {g : BitVec 4} {i : Instr} {body : State → State} (h : s.slotOp g i body = .next t)
    (ht : t.taken = none) (hbody : s.Delivered own (body s)) : s.Delivered own t := by
  rcases State.eq_or_eq_of_slotOp h ht with rfl | rfl
  · exact .refl
  · exact hbody

/-- So does a vector operation, whose tiles must be configured. -/
theorem State.Delivered.of_vecOp {g : BitVec 4} {i : Instr} {body : State → State} (h : s.vecOp g i body = .next t)
    (ht : t.taken = none) (hbody : s.Delivered own (body s)) : s.Delivered own t := by
  rcases State.eq_or_eq_of_slotOp h ht with rfl | hconf
  · exact .refl
  · rw [State.configured] at hconf
    split at hconf <;> subst hconf
    · exact hbody
    · cases ht

/-- A shape that is no trap was written. -/
theorem State.Delivered.of_putShape {n : BitVec 4} {ts : BitVec 32} (h : t = s.putShape n ts) (ht : t.taken = none)
    (hn : own (.ts n)) : s.Delivered own t := by
  rw [State.putShape] at h
  split at h <;> subst h
  · exact .deliver .refl hn ..
  · cases ht

end

end Sys2Proof.Machine

namespace Sys2Proof.Claims
open Machine

/-- The registers that an operation delivers to: those of its operand form, and the special ones of its rule. -/
def Owns (s : State) (i : Instr) (r : RegName) : Prop := r ∈ i.writes s.cx.names ∨ Special s i r

theorem delivered_execMloop {s t : State} {g : BitVec 4} {o : BitVec 16} (h : execMloop g o s = .next t) (ht : t.taken = none) :
    s.Delivered (Owns s (.mloop g o)) t := by
  have hrot : Owns s (.mloop g o) .rot := .inr (.inr (.inr (.inl rfl)))
  have hp : Owns s (.mloop g o) (.p (BitVec.ofNat 4 (8 + (s.cx.arch.rbp.toNat + 7) % 8))) := .inr (.inr (.inr (.inr rfl)))
  exact .of_slotOp h ht (.ite (.transfer (.rotate (.putLC (.inr (.inl rfl)) _) hrot hp true) _)
    (.ite (.transfer (.rotate (.putLC (.inr (.inr (.inl rfl))) _) hrot hp false) _) .refl))

theorem delivered_of_exec_s {s t : State} {i : Instr} (hi : RegisterOnly i = true) (hu : i.codeUnit = some .s)
    (h : exec i s = .next t) (ht : t.taken = none) : s.Delivered (Owns s i) t := by
  cases i <;> cases hu <;> dsimp only [exec] at h
  case add | sub | mul | mulh | div | rem | and | or | xor | andn | shl | shr | sra | min | max | sel | addi | andi | ori | xori
      | shli | shri | srai | movi | movh | clz | ctz | popc | sext | zext | agetA | agetD | csrr | widf | gtime =>
    exact .of_slotOp h ht (.putS (.inl (.head _)) ..)
  case cmp | cmpi | pand | por | pxor | pnot | pmov | psetConst | psetScalar | psetBit =>
    exact .of_slotOp h ht (.putP (.inl (.head _)) ..)
  case lea | amov | aadd | dset =>
    exact .of_slotOp h ht (.deliver .refl (.inl (.head _)) ..)
  case ftsetAbs | ftsetCur =>
    exact .of_slotOp h ht (.deliver .refl (.inr ⟨_, rfl⟩) ..)
  case fbaseImm | fbaseReg | pkset | pksetKey | xpset =>
    exact .of_slotOp h ht (.deliver .refl (.inr rfl) ..)
  case jmp | ret =>
    exact .of_slotOp h ht (.transfer .refl _)
  case call =>
    exact .of_slotOp h ht (.transfer (.putS (.inl (.head _)) ..) _)
  case lexit =>
    exact .of_slotOp h ht (.transfer (.putLC (.inr rfl) _) _)
  case pin | unpin | yield | halt | trap | realign | beat | uiret => cases hi
  case br => exact .of_slotOp h ht (.ite (.transfer .refl _) .refl)
  case loop => exact .of_slotOp h ht (.ite (.putLC (.inr rfl) _) (.transfer (.putLC (.inr rfl) _) _))
  case mloop => exact delivered_execMloop h ht
  case csrw =>
    refine .of_slotOp h ht ?_
    split
    next hk => exact .deliver .refl (.inr (.inr ⟨hk.1, hk.2, rfl⟩)) ..
    next => exact .deliver .refl (.inr (.inl rfl)) ..
  case tshapeImm =>
    rcases State.eq_or_eq_of_slotOp h ht with rfl | hshape
    · exact .refl
    · exact .of_putShape hshape ht (.inr rfl)
  case tshapeReg =>
    rcases State.eq_or_eq_of_slotOp h ht with rfl | hshape
    · exact .refl
    · dsimp only at hshape
      split at hshape
      next =>
        subst hshape
        exact .deliver .refl (.inr rfl) ..
      next => exact .of_putShape hshape ht (.inr rfl)
  case tvalid =>
    rcases State.eq_or_eq_of_slotOp h ht with rfl | hvalid
    · exact .refl
    · dsimp only at hvalid
      split at hvalid <;> subst hvalid
      · exact .deliver .refl (.inr rfl) ..
      · cases ht

theorem delivered_of_exec_v {s t : State} {i : Instr} (hu : i.codeUnit = some .v) (h : exec i s = .next t) (ht : t.taken = none) :
    s.Delivered (Owns s i) t := by
  cases i <;> cases hu <;> dsimp only [exec] at h
  case tcmp | kand | kor | kxor | knot | trget | tcget =>
    exact .of_vecOp h ht (.deliver .refl (.inl (.head _)) ..)
  case kcnt => exact .of_vecOp h ht (.putS (.inl (.head _)) ..)
  case tred => exact .of_vecOp h ht (.ite (.putT (.inl (.head _)) ..) (.putT (.inl (.head _)) ..))
  all_goals exact .of_vecOp h ht (.putT (.inl (.head _)) ..)

theorem delivered_of_registerOnly {s t : State} {i : Instr} (hi : RegisterOnly i = true) (h : exec i s = .next t)
    (ht : t.taken = none) : s.Delivered (Owns s i) t := by
  have hu : i.codeUnit = some .s ∨ i.codeUnit = some .v := by
    unfold RegisterOnly at hi
    split at hi
    next hu => exact .inl hu
    next hu => exact .inr hu
    next => cases hi
  exact hu.elim (fun hu => delivered_of_exec_s hi hu h ht) fun hu => delivered_of_exec_v hu h ht

/-- Settles O59: each operation's deliveries are to its own registers, and a delivery touches no more than the deliveries under
way, the pending ones and where the context goes on. -/
theorem registerOnlyFrame : Obligations.RegisterOnlyFrame := by
  intro s t i hi h ht own
  obtain ⟨f, rfl, fl, ws, pd, st, np, ju, hf, hws, hlen, hfl⟩ := delivered_of_registerOnly hi h ht
  refine ⟨fl, ws, pd, st, np, ju, State.updCtx_congr hf, hws, hlen, fun k x y hx hy => ?_⟩
  obtain ⟨hbefore, hyields⟩ := hfl k x y hx hy
  by_cases hk : k < s.cx.opened
  · exact .inl (hbefore hk)
  · exact hyields.imp_right fun hy => ⟨Nat.not_lt.1 hk, hy⟩

end Sys2Proof.Claims

/-! The issue of a bundle (10 R235 to R250, 18 R427, R428): what a mark leaves, the opening and the boundary of a bundle, and
what is left of an issue that neither waits nor is held up; from these O30. -/

namespace Sys2Proof.Machine

/-! ### The cycle and the context that issues, across a mark (18 R428, R429) -/

/-- The cycle and the context that issues. -/
def State.moment (s : State) : Nat × CtxId := (s.cycle, s.cur)

theorem apart_moment : Apart State.moment := ⟨fun _ _ _ _ => rfl, fun _ _ _ _ _ => rfl, fun _ _ _ => rfl⟩

theorem State.moment_devWrite (s : State) (pa : Nat) (bs : List Byte) : (s.devWrite pa bs).moment = s.moment :=
  apart_moment.devWrite (fun _ _ _ => rfl) s pa bs

theorem State.moment_updJoist (s : State) (f : Joist → Joist) : (s.updJoist f).moment = s.moment := rfl

theorem State.moment_putFlit (s : State) (q : Fin 16) (x : Sent) : (s.putFlit q x).moment = s.moment := rfl

theorem State.moment_movePeer (s : State) (m : BitVec 9) (f : Flit) (p : PeerPlace) : (s.movePeer m f p).moment = s.moment :=
  rfl

theorem State.moment_hostWrite (s : State) (a : Nat) (bs : List Byte) : (s.hostWrite a bs).moment = s.moment := rfl

theorem State.moment_recordBad (s : State) (units : List Nat) (src : Nat) (die : Fin 8) (core : Nat) :
    (s.recordBad units src die core).moment = s.moment := by
  refine read_foldl_of_frame (fun s u _ => ?_) s
  rw [State.recordAt]
  split <;> exact apart_moment.recordError ..

theorem State.moment_drainVeq {s t : State} {m : BitVec 9} (h : s.drainVeq m = some t) : t.moment = s.moment := by
  unfold State.drainVeq at h
  dsimp only at h
  split at h
  · split at h
    · obtain rfl := Option.some.inj h
      rw [State.moment_putFlit, State.moment_movePeer, State.moment_updJoist, State.moment_recordBad]
    · cases h
  · cases h

theorem State.moment_moveFlit {s t : State} {m : BitVec 9} {f : Flit} {sent : PeerPlace → State → State}
    (hsent : ∀ p (u : State), (sent p u).moment = u.moment) (h : s.moveFlit m f sent = some t) : t.moment = s.moment := by
  unfold State.moveFlit at h
  dsimp only at h
  split at h
  · split at h
    · obtain rfl := Option.some.inj h
      rw [State.moment_putFlit, hsent]
    · cases h
  · split at h
    · obtain rfl := Option.some.inj h
      rw [hsent, State.moment_updJoist, State.moment_devWrite]
    · cases h

theorem State.moment_pumpOne {s t : State} {m : BitVec 9} (h : s.pumpOne m = some t) : t.moment = s.moment := by
  unfold State.pumpOne at h
  dsimp only at h
  split at h
  next u hdrain =>
    cases h
    split at hdrain
    · cases hdrain
    · exact State.moment_drainVeq hdrain
  · split at h
    · exact State.moment_moveFlit (fun _ u => State.moment_updJoist u _) h
    · split at h
      · exact State.moment_moveFlit (fun _ u => State.moment_movePeer u _ _ _) h
      · cases h

theorem State.moment_pump (m : BitVec 9) (fuel : Nat) (s : State) : (State.pump m fuel s).moment = s.moment := by
  induction fuel generalizing s with
  | zero => rfl
  | succ fuel ih =>
    rw [State.pump]
    split
    next t h => rw [ih, State.moment_pumpOne h]
    · rfl

theorem State.moment_sendPeer (s : State) (id : CtxId) (from_ : Origin) (m : BitVec 9) (type off arg : Nat) (data : List Byte)
    (poison : Bool) (va : W64) (acc : AccKind) (read : Bool) (engine : Option (BitVec 16)) :
    (s.sendPeer id from_ m type off arg data poison va acc read engine).1.moment = s.moment :=
  State.moment_pump ..

theorem State.moment_writePieces (s : State) (atom a : Nat) (bs : List Byte) : (s.writePieces atom a bs).moment = s.moment := by
  refine read_foldl_of_frame (fun u x _ => ?_) s
  exact State.moment_devWrite ..

theorem State.moment_writePeer (s : State) (id : CtxId) (from_ : Origin) (m : BitVec 9) (off : Nat) (bs : List Byte)
    (va : W64) (acc : AccKind) (engine : Option (BitVec 16)) :
    (s.writePeer id from_ m off bs false va acc engine).moment = s.moment := by
  unfold State.writePeer
  split
  · rfl
  · split
    · split
      · rfl
      · exact State.moment_writePieces ..
    · refine read_foldl_of_frame (fun u r _ => ?_) s
      exact State.moment_sendPeer ..

theorem State.moment_performRun (s : State) (id : CtxId) (r : Run) : (s.performRun id r).moment = s.moment := by
  unfold State.performRun
  split
  · refine read_foldl_of_frame (fun u x _ => ?_) s
    exact State.moment_devWrite ..
  · refine read_foldl_of_frame (fun u x _ => ?_) s
    exact State.moment_hostWrite ..
  · exact State.moment_writePeer ..
  · rfl

theorem State.moment_mark (s : State) (id : CtxId) : (s.mark id).moment = s.moment :=
  read_foldl_of_frame (read := State.moment) (fun s r _ => State.moment_performRun s id r) _

theorem State.cycle_mark (s : State) (id : CtxId) : (s.mark id).cycle = s.cycle := congrArg Prod.fst (s.moment_mark id)

theorem State.cur_mark (s : State) (id : CtxId) : (s.mark id).cur = s.cur := congrArg Prod.snd (s.moment_mark id)

/-! ### The opening and the boundary of a bundle (10 R239; 08 R199, R203, R204) -/

/-- The issues of a bundle that are still due after the one at hand. -/
def Ctx.left (c : Ctx) (h : Header) : Nat :=
  match c.arch.due with | some n => Nat.min n.toNat h.rep.toNat | none => h.rep.toNat

theorem Ctx.left_congr {b c : Ctx} (harch : b.arch = c.arch) (h : Header) : b.left h = c.left h := by
  rw [Ctx.left, Ctx.left, harch]

theorem Ctx.left_lt (c : Ctx) (h : Header) : c.left h < 64 := by
  unfold Ctx.left
  split
  · exact (Nat.min_le_right ..).trans_lt h.rep.isLt
  · exact h.rep.isLt

/-- A context after the boundary of a bundle. -/
def Ctx.closed (c : Ctx) (h : Header) (from_ : Nat) : Ctx :=
  { c with
    jumped := false
    nextDue := none
    quantum := c.quantum - 1
    wdStart := if c.wasBlocked then c.wdStart else from_
    wdHeld := if c.wasBlocked then c.wdHeld else 0
    wasBlocked := false
    arch :=
      if c.jumped ∨ c.left h = 0 then { c.arch with pc := c.npc, due := if c.jumped then c.nextDue else none }
      else { c.arch with due := some (BitVec.ofNat 6 (c.left h - 1)) } }

theorem Ctx.closed_arch_of_jumped {c : Ctx} (hj : c.jumped = true) (h : Header) (from_ : Nat) :
    (c.closed h from_).arch = { c.arch with pc := c.npc, due := c.nextDue } := by
  simp [Ctx.closed, hj]

theorem Ctx.closed_arch_of_last {c : Ctx} {h : Header} (hj : c.jumped = false) (hleft : c.left h = 0) (from_ : Nat) :
    (c.closed h from_).arch = { c.arch with pc := c.npc, due := none } := by
  simp [Ctx.closed, hj, hleft]

theorem Ctx.closed_arch_of_left {c : Ctx} {h : Header} (hj : c.jumped = false) (hleft : c.left h ≠ 0) (from_ : Nat) :
    (c.closed h from_).arch = { c.arch with due := some (BitVec.ofNat 6 (c.left h - 1)) } := by
  simp [Ctx.closed, hj, hleft]

section
variable (s : State) (id : CtxId) (h : Header) (a b t : Nat)

theorem State.ctxOf_closeBundle : (s.closeBundle id h a b t).ctxOf id =
    (s.ctxOf id).closed h (Nat.max t (s.core id.die id.core).frozenUntil) := by
  rw [State.closeBundle, State.occupy, State.ctxOf_updCore_of_ctxs _ _ _ _ fun _ => by rfl,
    State.ctxOf_updCore_of_ctxs _ _ _ _ fun _ => by rfl, State.ctxOf_updCtx]
  rfl

theorem State.nextIssue_closeBundle : ((s.closeBundle id h a b t).core id.die id.core).nextIssue =
    (s.core id.die id.core).nextIssue + if (s.ctxOf id).jumped then 2 else 0 := by
  rw [State.closeBundle, State.occupy, State.core_updCore, State.core_updCore, State.updCtx, State.core_updCore]

end

section
variable (s : State) (h : Header) (ws : List (Slot × BitVec 32)) (ops : List Op)

theorem State.deferFreeze_eq : ∃ f : Core → Core, s.deferFreeze ops = s.updMyCore f ∧ ∀ k, (f k).ctxs = k.ctxs := by
  unfold State.deferFreeze
  dsimp only
  split
  · refine ⟨fun k => k, ?_, fun _ => rfl⟩
    simp only [State.updMyCore, State.updCore, State.updDie, vupd_id]
  · exact ⟨_, rfl, fun _ => rfl⟩

/-- A context at the opening of a bundle. -/
def Ctx.openedFor (c : Ctx) : Ctx :=
  let c := c.noteReads ((liveOps c ops).flatMap fun o => Instr.reads c.names o.instr)
  { c with
    npc := c.arch.pc + BitVec.ofNat 64 h.size
    opened := c.inflight.length
    arch := { c.arch with
      stickyM := stickyAfter .m .m ws (clearM h c.arch.stickyM)
      stickyC := stickyAfter .c .c ws (clearC h c.arch.stickyC) } }

theorem State.openBundle_cur : (s.openBundle h ws ops).cur = s.cur := by
  obtain ⟨f, hf, -⟩ := s.deferFreeze_eq ops
  rw [State.openBundle, hf]
  rfl

theorem State.openBundle_mem : (s.openBundle h ws ops).mem = s.mem := by
  obtain ⟨f, hf, -⟩ := s.deferFreeze_eq ops
  rw [State.openBundle, hf]
  rfl

theorem State.openBundle_taken : (s.openBundle h ws ops).taken = s.taken := by
  obtain ⟨f, hf, -⟩ := s.deferFreeze_eq ops
  rw [State.openBundle, hf]
  rfl

theorem State.openBundle_cx : (s.openBundle h ws ops).cx = s.cx.openedFor h ws ops := by
  obtain ⟨f, hf, hctxs⟩ := s.deferFreeze_eq ops
  rw [State.cx, State.openBundle_cur, State.openBundle, hf]
  dsimp only
  rw [State.updMyCore, State.ctxOf_updCore_of_ctxs _ _ _ _ fun _ => by rfl]
  exact (State.ctxOf_updCtx ..).trans (congrArg (Ctx.openedFor h ws ops) (s.ctxOf_updCore_of_ctxs _ _ _ hctxs))

theorem State.openBundle_nextIssue : (s.openBundle h ws ops).myCore.nextIssue = s.cycle + 1 + h.stall.toNat := by
  obtain ⟨f, hf, -⟩ := s.deferFreeze_eq ops
  rw [State.myCore, State.openBundle_cur, State.openBundle, hf]
  exact congrArg Core.nextIssue (State.core_updCore ..)

end

/-! ### What is left of an issue -/

theorem State.peerPieces_eq_zero_iff {s : State} {id : CtxId} :
    s.peerPieces id = 0 ↔ ∀ r, r ∈ s.joist.peerReqs → r.of id = false := by
  simp [State.peerPieces, List.filter_eq_nil_iff]

theorem Ctx.markWaits_iff {c : Ctx} : c.markWaits = true ↔
    (∃ o, o ∈ c.streams ∧ o.kind.toNat ≤ 1) ∨ (c.publishing = true ∧ c.held ≠ []) := by
  simp [Ctx.markWaits, Ctx.dotting]

theorem State.updCx_armLatches {s : State} (h : s.cx.latches = []) : (s.updCx fun c => c.armLatches s.cycle) = s := by
  refine (State.updCtx_congr (g := fun c => c) ?_).trans s.updCx_id
  exact if_pos (List.isEmpty_iff.2 h)

/-- The rest of an issue, once the mark before it is made: what may hold it up, its operations, and its boundary. -/
def State.issueOn (run : Meaning) (h : Header) (ws : List (Slot × BitVec 32)) (ops live : List Op) (id : CtxId) (s : State) :
    Out :=
  match s.holdUp ops with
  | some t => .next t
  | none =>
    match runOps run (s.runOrder live) ((s.updCx fun c => c.armLatches s.cycle).openBundle h ws ops) with
    | (_, some o) => stopBundle run live o s
    | (.next t, none) =>
      if t.taken.isSome then .next (t.occupy id (occOf s.cx .va live) (occOf s.cx .vb live) s.cycle)
      else .next (t.closeBundle id h (occOf s.cx .va live) (occOf s.cx .vb live) s.cycle)
    | (x, none) => x

theorem issueBundle_eq (run : Meaning) (h : Header) (ws : List (Slot × BitVec 32)) (s : State) :
    issueBundle run h ws s =
      let e := s.endFence s.cur
      let ops := issueOps e.cx h ws
      let live := liveOps e.cx ops
      let marking := needsMark e.cx h ops || wantsCommit run live e
      if (marking && e.cx.markWaits) || (e.cx.publishing && live.any Op.afterPub) then .next (e.block s.cur .mark)
      else (if marking || (e.cx.markDue && !e.cx.markWaits) then e.mark s.cur else e).issueOn run h ws ops live s.cur := rfl

theorem State.status_block (s : State) (id : CtxId) (why : BlockCause) : ((s.block id why).ctxOf id).status = .blocked why := by
  unfold State.block
  split
  · rw [State.ctxOf_updCtx]
  · rw [State.ctxOf_giveUp]

/-- A bundle that is a mark blocks while something keeps its region from committing. -/
theorem issueBundle_of_markWaits {run : Meaning} {h : Header} {ws : List (Slot × BitVec 32)} {s : State}
    (hmark : needsMark (s.endFence s.cur).cx h (issueOps (s.endFence s.cur).cx h ws) = true)
    (hwaits : (s.endFence s.cur).cx.markWaits = true) :
    issueBundle run h ws s = .next ((s.endFence s.cur).block s.cur .mark) := by
  rw [issueBundle_eq]
  dsimp only
  rw [hmark, hwaits, Bool.true_or, Bool.and_true, Bool.true_or, if_pos rfl]

/-! ### A header alone (10 R235, R239) -/

theorem State.endFence_eq_ite (s : State) : s.endFence s.cur =
    if s.cx.fencing = true ∧ (∀ r, r ∈ s.joist.peerReqs → r.of s.cur = false)
    then s.updCx fun c => { c with fencing := false } else s :=
  if_congr (and_congr_right' State.peerPieces_eq_zero_iff) rfl rfl

theorem State.cx_endFence (s : State) : ∃ b, (s.endFence s.cur).cx = { s.cx with fencing := b } := by
  unfold State.endFence
  split
  · exact ⟨false, s.cx_updCx _⟩
  · exact ⟨s.cx.fencing, rfl⟩

theorem State.moment_endFence (s : State) : (s.endFence s.cur).moment = s.moment := by
  unfold State.endFence
  split <;> rfl

theorem issueOps_nil {c : Ctx} {h : Header} (hM : c.arch.stickyM = none) (hC : c.arch.stickyC = none) :
    issueOps c h [] = [] := by
  simp [issueOps, reissueOf, clearM, clearC, hM, hC]

theorem needsMark_nil (c : Ctx) (h : Header) : needsMark c h [] = (h.mark && c.arch.due.isNone) := by
  simp [needsMark, liveOps]

theorem wantsCommit_nil (run : Meaning) (s : State) : wantsCommit run [] s = false := by
  simp [wantsCommit]

theorem Core.governor_eq_zero {k : Core} {now w : Nat} (h : weightAt k.weights now + w ≤ k.limit now) :
    k.governor now w = 0 := by
  have hrange : List.range 65 = 0 :: (List.range 64).map Nat.succ := List.range_succ_eq_map
  rw [Core.governor, hrange, List.find?_cons_of_pos (by simpa using h)]
  rfl

theorem State.holdUp_nil {s : State} (h : s.myCore.governor s.cycle 0 = 0) : s.holdUp [] = none := by
  simp [State.holdUp, liveOps, Ctx.firstShort, usesMXC, h]

section
variable (s : State) (h : Header) (ws : List (Slot × BitVec 32)) (ops : List Op) (a b t : Nat)

theorem State.cur_closeBundle (id : CtxId) : (s.closeBundle id h a b t).cur = s.cur := rfl

theorem State.mem_closeBundle (id : CtxId) : (s.closeBundle id h a b t).mem = s.mem := rfl

theorem State.cx_closeBundle :
    ∃ from_, (s.closeBundle s.cur h a b t).cx = s.cx.closed h from_ := by
  rw [State.cx, State.cur_closeBundle, State.ctxOf_closeBundle]
  exact ⟨_, rfl⟩

theorem State.myCore_closeBundle (hj : s.cx.jumped = false) :
    (s.closeBundle s.cur h a b t).myCore.nextIssue = s.myCore.nextIssue := by
  rw [State.myCore, State.cur_closeBundle, State.nextIssue_closeBundle]
  exact congrArg (s.myCore.nextIssue + ·) (if_neg (Bool.eq_false_iff.1 hj))

end

theorem Arch.sticky_none {a : Arch} (hM : a.stickyM = none) (hC : a.stickyC = none) :
    { a with stickyM := none, stickyC := none } = a := by
  cases a
  cases hM
  cases hC
  rfl

/-- A header alone leaves a context without sticky states without them. -/
theorem Ctx.arch_openedFor_nil {c : Ctx} (h : Header) (hM : c.arch.stickyM = none) (hC : c.arch.stickyC = none) :
    (c.openedFor h [] []).arch = c.arch := by
  have hM' : stickyAfter .m .m [] (clearM h c.arch.stickyM) = none := by
    rw [hM]
    exact ite_self none
  have hC' : stickyAfter .c .c [] (clearC h c.arch.stickyC) = none := by
    rw [hC]
    exact ite_self none
  calc (c.openedFor h [] []).arch
      = { c.arch with
          stickyM := stickyAfter .m .m [] (clearM h c.arch.stickyM)
          stickyC := stickyAfter .c .c [] (clearC h c.arch.stickyC) } := rfl
    _ = c.arch := by rw [hM', hC', Arch.sticky_none hM hC]

theorem Header.size_alone (clr : BitVec 6) (m : Bool) (stall : BitVec 5) (rep : BitVec 6) :
    (⟨clr, m, stall, rep, 0⟩ : Header).size = 4 := by
  have hpresent : (⟨clr, m, stall, rep, 0⟩ : Header).present = [] :=
    List.filter_eq_nil_iff.2 fun sl _ => by simp [Header.has]
  rw [Header.size, hpresent]
  rfl

theorem Ctx.npc_openedFor (c : Ctx) (h : Header) (ws : List (Slot × BitVec 32)) (ops : List Op) :
    (c.openedFor h ws ops).npc = (c.noteReads ((liveOps c ops).flatMap fun o => Instr.reads c.names o.instr)).arch.pc +
      BitVec.ofNat 64 h.size := rfl

/-- An issue of a header alone that nothing holds up opens and closes its bundle. -/
theorem State.issueOn_nil {run : Meaning} {h : Header} {s : State} {id : CtxId} (hgov : s.myCore.governor s.cycle 0 = 0)
    (hlatches : s.cx.latches = []) (htaken : s.taken = none) :
    s.issueOn run h [] [] [] id = .next ((s.openBundle h [] []).closeBundle id h 0 0 s.cycle) := by
  rw [State.issueOn, State.holdUp_nil hgov, State.updCx_armLatches hlatches]
  dsimp only
  rw [show s.runOrder [] = [] from rfl, runOps]
  dsimp only
  rw [State.openBundle_taken, htaken]
  rfl

/-- What the issue of a header alone comes to, once it is known whether it is a mark. -/
theorem issueBundle_nil {run : Meaning} {h : Header} {s u : State} (hM : s.cx.arch.stickyM = none) (hC : s.cx.arch.stickyC = none)
    (hu : let marks := h.mark && s.cx.arch.due.isNone
      (u = (s.endFence s.cur).mark s.cur ∧ (marks = true ∨ s.cx.markDue = true) ∧ s.cx.markWaits = false) ∨
        (u = s.endFence s.cur ∧ marks = false ∧ (s.cx.markDue = false ∨ s.cx.markWaits = true))) :
    issueBundle run h [] s = u.issueOn run h [] [] [] s.cur := by
  obtain ⟨b, hb⟩ := s.cx_endFence
  have hops : issueOps (s.endFence s.cur).cx h [] = [] := by rw [hb]; exact issueOps_nil hM hC
  have hwaits : (s.endFence s.cur).cx.markWaits = s.cx.markWaits := by rw [hb]; rfl
  have hdue : (s.endFence s.cur).cx.markDue = s.cx.markDue := by rw [hb]
  have hmark : needsMark (s.endFence s.cur).cx h [] = (h.mark && s.cx.arch.due.isNone) := by rw [needsMark_nil, hb]
  have hlive (c : Ctx) : liveOps c [] = [] := rfl
  rw [issueBundle_eq]
  dsimp only
  rw [hops, hlive, hmark, wantsCommit_nil, Bool.or_false, List.any_nil, Bool.and_false, Bool.or_false, hwaits, hdue]
  rcases hu with ⟨rfl, hmarks, hno⟩ | ⟨rfl, hmarks, hno⟩
  · rw [hno, Bool.and_false, Bool.not_false, Bool.and_true, if_neg Bool.false_ne_true, if_pos (Bool.or_eq_true_iff.2 hmarks)]
  · rw [hmarks, Bool.false_and, if_neg Bool.false_ne_true, Bool.false_or, if_neg]
    rcases hno with hno | hno <;> simp [hno]

section
variable {b c : Ctx} (h : b.unmarked = c.unmarked)
include h

theorem Ctx.arch_of_unmarked : b.arch = c.arch := (congrArg Ctx.arch h :)
theorem Ctx.jumped_of_unmarked : b.jumped = c.jumped := (congrArg Ctx.jumped h :)
theorem Ctx.latches_of_unmarked : b.latches = c.latches := (congrArg Ctx.latches h :)
theorem Ctx.quantum_of_unmarked : b.quantum = c.quantum := (congrArg Ctx.quantum h :)

end

/-- The mark before a bundle, or none, leaves the cycle, the context that issues, and of that context all that no mark changes. -/
theorem State.unmarked_of_endFence {s u : State} (hu : u = (s.endFence s.cur).mark s.cur ∨ u = s.endFence s.cur) :
    u.moment = s.moment ∧ ∃ b, u.cx.unmarked = { s.cx with fencing := b }.unmarked := by
  obtain ⟨b, hb⟩ := s.cx_endFence
  have hmoment : u.moment = s.moment := by
    rcases hu with rfl | rfl
    · rw [State.moment_mark, s.moment_endFence]
    · rw [s.moment_endFence]
  have hcur : u.cur = s.cur := congrArg Prod.snd hmoment
  have hecur : (s.endFence s.cur).cur = s.cur := congrArg Prod.snd s.moment_endFence
  refine ⟨hmoment, b, ?_⟩
  rw [← hb, State.cx, hcur, State.cx, hecur]
  rcases hu with rfl | rfl
  · exact State.unmarked_mark ..
  · rfl

end Sys2Proof.Machine

namespace Sys2Proof.Claims
open Machine

/-- Settles O30: a header alone has no operations, so that its issue is its mark, its opening and its boundary. -/
theorem emptyBundleResult : Obligations.EmptyBundleResult := by
  intro s clr m stall rep waits marks e
  have he : s.endFence s.cur = e := s.endFence_eq_ite
  have hwaits : waits ↔ s.cx.markWaits = true := Ctx.markWaits_iff.symm
  obtain ⟨b, hb⟩ := s.cx_endFence
  have hmarks : marks ↔ ((m == 1) && s.cx.arch.due.isNone) = true := by simp [marks]
  refine ⟨fun hm hw => ⟨_, issueBundle_of_markWaits ?_ ?_, State.status_block ..⟩, ?_⟩
  · have hdue := hmarks.1 hm
    rw [hb]
    simp only [needsMark, hdue, Bool.true_or]
  · rw [hb]
    exact hwaits.1 hw
  · intro u hu left hM hC hjumped hlatches htaken hweight
    have hissue : execNop clr m stall rep s = u.issueOn stickyMeaning ⟨clr, m == 1, stall, rep, 0⟩ [] [] [] s.cur := by
      refine issueBundle_nil hM hC ?_
      rw [he]
      refine hu.imp (fun hu => ?_) fun hu => ?_
      · exact ⟨hu.1, hu.2.1.imp_left hmarks.1, Bool.eq_false_iff.2 (mt hwaits.2 hu.2.2)⟩
      · exact ⟨hu.1, Bool.eq_false_iff.2 (mt hmarks.2 hu.2.1), hu.2.2.imp_right hwaits.1⟩
    obtain ⟨hmoment, b, hcx⟩ := State.unmarked_of_endFence (s := s) (u := u) (he ▸ hu.imp And.left And.left)
    have hcycle : u.cycle = s.cycle := congrArg Prod.fst hmoment
    have hcur : u.cur = s.cur := congrArg Prod.snd hmoment
    have harch : u.cx.arch = s.cx.arch := (Ctx.arch_of_unmarked hcx).trans rfl
    have hquantum : u.cx.quantum = s.cx.quantum := (Ctx.quantum_of_unmarked hcx).trans rfl
    have hgov : u.myCore.governor u.cycle 0 = 0 := Core.governor_eq_zero (hcycle ▸ hweight)
    rw [← hcur, State.issueOn_nil hgov ((Ctx.latches_of_unmarked hcx).trans hlatches) htaken] at hissue
    let h : Header := ⟨clr, m == 1, stall, rep, 0⟩
    have hopened := u.openBundle_cx h [] []
    have harch' : (u.openBundle h [] []).cx.arch = s.cx.arch := by
      rw [hopened, Ctx.arch_openedFor_nil h (harch ▸ hM) (harch ▸ hC), harch]
    have hjumped' : (u.openBundle h [] []).cx.jumped = false := by
      rw [hopened]
      exact (Ctx.jumped_of_unmarked hcx).trans hjumped
    have hleft : (u.openBundle h [] []).cx.left h = left := Ctx.left_congr (c := s.cx) harch' h
    rw [← State.openBundle_cur u h [] []] at hissue
    obtain ⟨from_, hclosed⟩ := (u.openBundle h [] []).cx_closeBundle h 0 0 u.cycle
    refine ⟨_, hissue, ?_, ?_, ?_, ?_, ?_, fun hlast => ?_, fun hmore => ?_⟩
    · rw [State.myCore_closeBundle _ _ _ _ _ hjumped', State.openBundle_nextIssue, hcycle]
    · rw [State.mem_closeBundle, State.openBundle_mem]
    · rw [hclosed, hopened, ← hquantum]
      rfl
    · rw [hclosed, hopened]
      rfl
    · rw [hclosed, hopened]
      rfl
    · rw [hclosed, Ctx.closed_arch_of_last hjumped' (hleft.trans hlast), harch', hopened, Ctx.npc_openedFor, Header.size_alone,
        ← harch]
      rfl
    · rw [hclosed, Ctx.closed_arch_of_left hjumped' (hleft ▸ hmore), harch', hleft]

end Sys2Proof.Claims

/-! The issue of one operation (10 R237 to R239), the turn of a core (10 R235 to R239, log 3), and the spec's example words;
from these O49, O48 and O50. -/

namespace Sys2Proof.Machine

/-! ### A bundle of one operation (10 R237) -/

section
variable {c : Ctx} {s : State} {h : Header} {sl : Slot} {w : BitVec 32} {i : Instr}

theorem issueOps_single (hM : c.arch.stickyM = none) (hC : c.arch.stickyC = none) (hd : decodeRun sl.unit w = some i) :
    issueOps c h [(sl, w)] = [⟨sl, i, false⟩] := by
  have hpresent : [(sl, w)].filterMap (fun x => (decodeRun x.1.unit x.2).map fun i => (⟨x.1, i, false⟩ : Op)) =
      [⟨sl, i, false⟩] := by simp [hd]
  rw [issueOps, hpresent]
  by_cases hs : sl = .s <;> simp [reissueOf, clearM, clearC, hM, hC, hs]

theorem liveOps_of_guard (c : Ctx) (o : Op) (hg : c.rP o.instr.guard = true) : liveOps c [o] = [o] := by
  simp [liveOps, hg]

theorem liveOps_of_not_guard (c : Ctx) (o : Op) (hg : c.rP o.instr.guard = false) : liveOps c [o] = [] := by
  simp [liveOps, hg]

/-- A request to the block-table unit does not act at the boundary. -/
theorem State.atBoundary_of_handsNow (hi : s.handsNow i = true) : i.atBoundary = false := by
  cases i
  case kvapp | kvfree => rfl
  all_goals cases hi

theorem State.runOrder_single (s : State) (o : Op) : s.runOrder [o] = [o] := by
  cases hhands : s.handsNow o.instr with
  | true => simp [State.runOrder, hhands, State.atBoundary_of_handsNow hhands]
  | false => cases hbound : o.instr.atBoundary <;> simp [State.runOrder, hhands, hbound]

theorem runOps_single {run : Meaning} {o : Op} {s t : State} (h : run o.instr s = .next t) :
    runOps run [o] s = if t.stopped then (.next t, some o) else (.next t, none) := by
  rw [runOps, h]
  rfl

theorem stopBundle_single (run : Meaning) (o : Op) (s : State) : stopBundle run [o] o s = run o.instr s := by
  simp [stopBundle]

theorem occOf_single (c : Ctx) (u : Slot) (o : Op) : occOf c u [o] = if o.slot = u then o.instr.occ c else 0 := by
  by_cases hu : o.slot = u <;> simp [occOf, hu]

end

end Sys2Proof.Machine

namespace Sys2Proof.Claims
open Machine

section
variable {s : State} {h : Header} {sl : Slot} {w : BitVec 32} {i : Instr} (hone : OneOperation s h sl w i)
include hone

theorem issueBundle_of_oneOperation : issueBundle exec h [(sl, w)] s =
    s.issueOn exec h [(sl, w)] [⟨sl, i, false⟩] (liveOps s.cx [⟨sl, i, false⟩]) s.cur := by
  obtain ⟨hd, hM, hC, hdue, -, hmark, hcommit, hfence, -, hpub, -⟩ := hone
  have hafter : (s.cx.publishing && (liveOps s.cx [⟨sl, i, false⟩]).any Op.afterPub) = false := by
    rcases hpub with hpub | hpub
    · rw [hpub, Bool.false_and]
    · have hnone : (liveOps s.cx [⟨sl, i, false⟩]).any Op.afterPub = false := by
        rw [List.any_eq_false]
        intro o ho
        rw [List.mem_singleton.1 (List.mem_filter.1 ho).1, hpub]
        decide
      rw [hnone, Bool.and_false]
  rw [issueBundle_eq, hfence]
  dsimp only
  rw [issueOps_single hM hC hd, hmark, hcommit, hafter, hdue]
  rfl

theorem issueBundle_of_guard (hg : s.rP i.guard = true) {t : State}
    (ht : exec i (s.openBundle h [(sl, w)] [⟨sl, i, false⟩]) = .next t) : issueBundle exec h [(sl, w)] s =
      if t.stopped then exec i s
      else if t.taken.isSome then .next (t.occupy s.cur
        (if sl = .va then i.occ s.cx else 0) (if sl = .vb then i.occ s.cx else 0) s.cycle)
      else .next (t.closeBundle s.cur h
        (if sl = .va then i.occ s.cx else 0) (if sl = .vb then i.occ s.cx else 0) s.cycle) := by
  rw [issueBundle_of_oneOperation hone, liveOps_of_guard s.cx ⟨sl, i, false⟩ hg]
  obtain ⟨-, -, -, -, -, -, -, -, hlatches, -, hfree⟩ := hone
  rw [State.issueOn, hfree, State.updCx_armLatches hlatches, State.runOrder_single, runOps_single ht, occOf_single, occOf_single]
  cases hstop : t.stopped with
  | true => exact stopBundle_single ..
  | false => rfl

theorem issueBundle_of_not_guard (hg : s.rP i.guard = false) : issueBundle exec h [(sl, w)] s =
    .next ((s.openBundle h [(sl, w)] [⟨sl, i, false⟩]).closeBundle s.cur h 0 0 s.cycle) := by
  rw [issueBundle_of_oneOperation hone, liveOps_of_not_guard s.cx ⟨sl, i, false⟩ hg]
  obtain ⟨-, -, -, -, htaken, -, -, -, hlatches, -, hfree⟩ := hone
  have horder : s.runOrder [] = [] := rfl
  rw [State.issueOn, hfree, State.updCx_armLatches hlatches, horder, runOps]
  dsimp only
  rw [State.openBundle_taken, htaken]
  rfl

end

/-- Settles O49: of a bundle of one operation the issue runs that operation alone, and what its boundary does is read off the
context after it. -/
theorem bundleRunsOperation : Obligations.BundleRunsOperation := by
  refine ⟨fun s h sl w i hone => ⟨fun hg t ht hstop htaken => ?_, fun hg t ht hstop htaken => ?_, fun hg t ht hstop => ?_,
    issueBundle_of_not_guard hone⟩, fun s id h a b t => ?_⟩
  · rw [issueBundle_of_guard hone hg ht, hstop, htaken]
    rfl
  · rw [issueBundle_of_guard hone hg ht, hstop, if_neg Bool.false_ne_true, if_pos (Option.isSome_iff_ne_none.2 htaken)]
  · rw [issueBundle_of_guard hone hg ht, if_pos hstop]
  · intro c u k left
    have hk : k = c.closed h (Nat.max t (s.core id.die id.core).frozenUntil) := State.ctxOf_closeBundle ..
    have hnext := s.nextIssue_closeBundle id h a b t
    refine ⟨congrArg Ctx.quantum hk, fun hblocked => ?_, congrArg Ctx.jumped hk, rfl, rfl, fun hj => ⟨?_, ?_⟩,
      fun hj => ⟨?_, fun hleft => ?_, fun hleft => ⟨BitVec.ofNat 6 (left - 1), ?_, ?_⟩⟩⟩
    · rw [hk]
      exact ⟨if_neg (Bool.eq_false_iff.1 hblocked), if_neg (Bool.eq_false_iff.1 hblocked)⟩
    · rw [hk, Ctx.closed_arch_of_jumped hj]
    · exact hnext.trans (congrArg _ (if_pos hj))
    · exact hnext.trans (congrArg _ (if_neg (Bool.eq_false_iff.1 hj)))
    · rw [hk, Ctx.closed_arch_of_last hj hleft]
    · exact (BitVec.toNat_ofNat ..).trans (Nat.mod_eq_of_lt ((Nat.sub_le ..).trans_lt (c.left_lt h)))
    · rw [hk, Ctx.closed_arch_of_left hj (Nat.pos_iff_ne_zero.1 hleft)]
      rfl

/-! ### The turn of a core (10 R235, R250) -/

theorem fetch_of_fetchesBundle {s u : State} {h : Header} {ws : List (Slot × BitVec 32)} (hf : FetchesBundle s u s.cur h ws) :
    s.fetch s.cur = (u, .bundle h ws) := by
  obtain ⟨hd, w, h0, v, bs, hhead, hword, halign, hheader, hpresent, hbytes, hbundle⟩ := hf
  rw [State.cx] at hhead halign hbytes
  simp only [State.fetch, hhead, hword, halign, hheader, hpresent, hbytes, hbundle, ne_eq, not_true_eq_false, if_false]

/-- A core whose running context fetches a bundle, with nothing due at the boundary, issues that bundle. -/
theorem turn_of_fetchesBundle {run : Meaning} {s v : State} {d : Fin 8} {c : Fin 16} {x : Fin 4} {h : Header}
    {ws : List (Slot × BitVec 32)} (hrun : (s.core d c).running = some x)
    (hf : FetchesBundle (atIssue s ⟨d, c, x⟩) v ⟨d, c, x⟩ h ws) (hsave : v.saveDue ⟨d, c, x⟩ = false) (hboundary : v.boundary ⟨d, c, x⟩ false = none) :
    s.turn run d c = issueBundle run h ws (v.updCx fun k => { k with yields := false }) := by
  have hfetch : (atIssue s ⟨d, c, x⟩).fetch ⟨d, c, x⟩ = (v, .bundle h ws) := fetch_of_fetchesBundle hf
  rw [atIssue] at hfetch
  rw [State.turn, hrun]
  dsimp only at hfetch ⊢
  rw [hfetch]
  dsimp only
  rw [hsave, Bool.false_and, hboundary]

/-- Settles O48: the step takes the turn that stands first, and that turn fetches and issues. -/
theorem stepRunsDecoded : Obligations.StepRunsDecoded := by
  intro s
  refine ⟨fun i rest hagenda => ?_, fun d c u x hturn hrun v h ws hf hsave hboundary => ?_⟩
  · rw [step, hagenda]
    rfl
  · have hstep : step s = u.turn exec d c := by
      rcases hturn with ⟨rest, hagenda, rfl⟩ | ⟨hagenda, hcore, hevent, rfl⟩
      · rw [step, hagenda]
      · rw [step, hagenda]
        dsimp only
        rw [hcore]
        dsimp only
        rw [hevent]
    have hrun : (u.core d c).running = some x := by
      rcases hturn with ⟨rest, -, rfl⟩ | ⟨-, -, -, rfl⟩ <;> exact hrun
    rw [hstep, turn_of_fetchesBundle hrun hf hsave hboundary]

/-! ### The spec's example words (10 R235, R242) -/

/-- Settles O50: the decoders and the encoder are run on each of the words. -/
theorem decodeExamples : Obligations.DecodeExamples := by
  unfold Obligations.DecodeExamples
  exact ⟨by decide, by decide, by decide⟩

end Sys2Proof.Claims

/-! The loads and stores of the M slot (13 R301 to R307): what each delivers or holds, and the trap of a refused one; from
these O10 and O11. -/

namespace Sys2Proof.Claims
open Machine

/-! ### A slot operation that acts (10 R237) -/

section
variable {s : State} {g : BitVec 4} {i : Instr} {body : State → State}

theorem runs_of_slotOp {t : State} (hexec : exec i s = s.slotOp g i body) (hbody : body s = t) : Runs s g i t :=
  fun ⟨hg, hgood⟩ => hexec.trans ((State.slotOp_acts hg hgood).trans (congrArg _ hbody))

theorem reaches_of_slotOp {P : State → Prop} (hexec : exec i s = s.slotOp g i body) (hbody : P (body s)) : Reaches s g i P :=
  fun ⟨hg, hgood⟩ => ⟨body s, hexec.trans (State.slotOp_acts hg hgood), hbody⟩

end

/-! ### Addresses, operands and bytes of the statements are the model's -/

theorem effAddr_eq_ea (s : State) (r : BitVec 4) (m : BitVec 2) (x : BitVec 5) (unit : Nat) :
    effAddr (s.rA r) m x unit = ea s r m x unit := by
  rw [effAddr, ea]
  split
  · rw [BitVec.ofInt_add, BitVec.ofInt_natCast, BitVec.ofNat_toNat, BitVec.setWidth_eq]
  · rw [Int.add_zero, BitVec.ofInt_natCast, BitVec.ofNat_toNat, BitVec.setWidth_eq]

theorem stepAddr_eq_stepTo (s : State) (m : BitVec 2) (r : BitVec 4) : s.stepAddr (m == 1) r = stepTo s m r := by
  have hstep : s.rA r + (s.cx.rD r).signExtend 64 = BitVec.ofInt 64 ((s.rA r).toNat + (s.cx.rD r).toInt) := by
    rw [BitVec.ofInt_add, BitVec.ofInt_natCast, BitVec.ofNat_toNat, BitVec.setWidth_eq]
    rfl
  simp [State.stepAddr, stepTo, hstep]

theorem shapeCfg_iff (ts : BitVec 32) : shapeCfg ts = true ↔ ts.toNat / 2 ^ 31 = 1 := by
  rw [shapeCfg, bit, BitVec.getLsbD, Nat.testBit_eq_decide_div_mod_eq, decide_eq_true_iff]
  have := ts.isLt
  omega

theorem configured_of_configured {s : State} {t : BitVec 4} (h : Configured s [t]) (body : State → State) :
    s.configured [t] body = body s := by
  have hcfg : shapeCfg (s.cx.rTS t) = true := (shapeCfg_iff _).2 (h t (List.mem_singleton_self t))
  simp [State.configured, hcfg]

/-! ### Loads (13 R301 to R305) -/

section
variable {s u : State} {vs : List VRun} {ps : List Part}

theorem load_of_loads {y : Gather} (h : Loads s vs ps u y) (form : LoadForm) (m : BitVec 2) (r : BitVec 4) :
    (s.load vs form fun t => t.stepAddr (m == 1) r) = stepTo (loaded s u ps y form) m r := by
  obtain ⟨v, haccess, hread⟩ := h
  simp only [State.load, haccess, hread]
  exact stepAddr_eq_stepTo ..

theorem store_of_stores {bytes : List Byte} (h : Stores s vs ps u) (m : BitVec 2) (r : BitVec 4) :
    (s.store vs bytes fun t => t.stepAddr (m == 1) r) = stepTo (heldBack s u ps bytes) m r := by
  obtain ⟨hroom, haccess⟩ := h
  simp only [State.store, storeLimit, Nat.not_le.2 hroom, if_false, haccess]
  exact stepAddr_eq_stepTo ..

/-- With 64 stores held the next is a RESTARTOVF (18 R429). -/
theorem store_of_full {bytes : List Byte} (h : 64 ≤ s.cx.held.length) (done : State → State) :
    s.store vs bytes done = s.trapI 0x11 :=
  if_pos h

end

theorem runs_pref {s u v : State} {g r : BitVec 4} {m z : BitVec 2} {x : BitVec 5} {p : W64 × Bool × Option Nat}
    (hfound : s.findLeaf (s.cx.req s.cur .load false false) (ea s r m x (2 ^ z.toNat)) = (u, .ok p))
    (hfill : u.fillL2 (s.cx.req s.cur .load false false) (ea s r m x (2 ^ z.toNat)) = (v, none)) :
    Runs s g (.pref g r m z x) (stepTo v m r) := by
  refine runs_of_slotOp (by rfl) ?_
  simp only [effAddr_eq_ea, hfound, hfill]
  exact stepAddr_eq_stepTo ..

theorem runs_pref_fault {s u : State} {g r : BitVec 4} {m z : BitVec 2} {x : BitVec 5} {cause kind level : Nat}
    (hfound : s.findLeaf (s.cx.req s.cur .load false false) (ea s r m x (2 ^ z.toNat)) = (u, .error (.trap cause kind level))) :
    Runs s g (.pref g r m z x) (stepTo s m r) := by
  refine runs_of_slotOp (by rfl) ?_
  simp only [effAddr_eq_ea, hfound]
  exact stepAddr_eq_stepTo ..

/-- Settles O10: a load that every check allows is read and left pending; `pref` fills both levels, or nothing. -/
theorem loadResults : Obligations.LoadResults := by
  refine ⟨fun s g d l t r m q z f e x n k v ps u y =>
      ⟨fun h => ?_, fun h => ?_, fun hconf => ⟨fun h => ?_, fun h => ?_⟩⟩,
    fun s g r m z x u p cause kind level => ⟨fun v => runs_pref, runs_pref_fault⟩⟩
  · refine runs_of_slotOp (by rfl) ?_
    dsimp only
    rw [effAddr_eq_ea, beq_eq_decide]
    exact load_of_loads h _ m r
  · refine runs_of_slotOp (by rfl) ?_
    rw [effAddr_eq_ea]
    exact load_of_loads h _ m r
  · refine runs_of_slotOp (by rfl) ?_
    rw [configured_of_configured hconf, beq_eq_decide]
    exact load_of_loads h _ m r
  · refine runs_of_slotOp (by rfl) ?_
    rw [configured_of_configured hconf]
    exact load_of_loads h _ m r

/-! ### A refused access (03 R92, 18 R421) -/

/-- The trap of a part that fails its checks is class R, and the access has performed nothing. -/
theorem refuse_of_trap {u : State} {a : PartFault} {cause kind level : Nat} (h : a.fault = .trap cause kind level)
    (acc : AccKind) :
    let t : TrapRec := ⟨BitVec.ofNat 8 cause, 0, a.va, finfoOf u.cx kind acc.code level a.va⟩
    u.refuse acc a = { u.takeTrap u.cur t true with taken := some ⟨t, 3⟩ } := by
  simp only [State.refuse, Ctx.faultRec, State.noteFault, h]
  rfl

theorem load_of_error {s u : State} {vs : List VRun} {a : PartFault}
    (h : s.access s.cur (s.cx.req s.cur .load true false) vs = (u, .error a)) (form : LoadForm) (done : State → State) :
    s.load vs form done = u.refuse .load a := by
  simp only [State.load, h]

theorem store_of_error {s u : State} {vs : List VRun} {a : PartFault} (hroom : s.cx.held.length < 64)
    (h : s.access s.cur (s.cx.req s.cur .store false true) vs = (u, .error a)) (bytes : List Byte) (done : State → State) :
    s.store vs bytes done = u.refuse .store a := by
  simp only [State.store, storeLimit, Nat.not_le.2 hroom, if_false, h]

/-- Settles O11: a store that every check allows is held; one too many, and a refused one, take their trap. -/
theorem storeResults : Obligations.StoreResults := by
  refine ⟨fun s g d l t r m q z f x n k v ps u => ⟨fun h => ?_, fun h => ?_, fun hconf => ⟨fun h => ?_, fun h => ?_⟩,
    fun h => ⟨?_, ?_⟩⟩, fun s g d r m z f e x u a cause kind level hfault => ⟨fun h => ?_, fun hroom h => ?_⟩⟩
  · refine runs_of_slotOp (by rfl) ?_
    dsimp only
    rw [effAddr_eq_ea, leBytes_eq_lowBytes]
    exact store_of_stores h m r
  · refine runs_of_slotOp (by rfl) ?_
    rw [effAddr_eq_ea, bytesOf, leBytes_eq_lowBytes]
    exact store_of_stores h m r
  · refine runs_of_slotOp (by rfl) ?_
    rw [configured_of_configured hconf, beq_eq_decide]
    exact store_of_stores h m r
  · refine runs_of_slotOp (by rfl) ?_
    rw [configured_of_configured hconf]
    exact store_of_stores h m r
  · refine runs_of_slotOp (by rfl) ?_
    exact store_of_full h _
  · refine runs_of_slotOp (by rfl) ?_
    exact store_of_full h _
  · refine runs_of_slotOp (by rfl) ?_
    dsimp only
    rw [effAddr_eq_ea]
    exact (load_of_error h _ _).trans (refuse_of_trap hfault .load)
  · refine runs_of_slotOp (by rfl) ?_
    dsimp only
    rw [effAddr_eq_ea]
    exact (store_of_error hroom h _ _).trans (refuse_of_trap hfault .store)

end Sys2Proof.Claims

/-! A load of another package's memory without a circuit waits in the member's egress queue, which lies in this package's
memory (16 R397); from this, that O60 fails. -/

namespace Sys2Proof.Claims
open Machine

/-- Page 0 lies with member 1, to which no port has a circuit, and the egress queues lie in HBM4. -/
def peerReader : State :=
  (State.reset.updCx fun c => { c with extents := [⟨0, 1, BitVec.ofNat 64 (peerBase + 2 ^ 42), 0⟩] }).updJoist
    fun j => { j with mvalid := true, member := 0, veqcfg := BitVec.ofNat 64 (hbmBase + 1) }

/-- The bundle's own load, of one byte at address 0. -/
def peerLoad : Instr := .ld 0 5 0 0 0 0 0 0

theorem held_peerReader : peerReader.cx.held = [] := by decide +kernel

theorem pagesCached_peerReader : PagesCached peerReader false (ea peerReader 0 0 0 1) 1 := fun k hk => by
  obtain rfl : k = 0 := by omega
  exact ⟨_, _, rfl, nofun⟩

/-- The request of the load is a flit in the queue of member 1. -/
theorem exec_peerLoad : ∃ t, exec peerLoad peerReader = .next t ∧ t.taken = none ∧ t.mem ≠ peerReader.mem :=
  ⟨_, rfl, by decide +kernel, by decide +kernel⟩

/-- Refutes O60: the load of `peerReader` through its cached translation writes its request into HBM4, so that bytes of memory
change. -/
theorem not_loadStoreFrame : ¬ Obligations.LoadStoreFrame := by
  intro h
  obtain ⟨t, hexec, htaken, hmem⟩ := exec_peerLoad
  obtain ⟨hquiet, -⟩ := h peerReader 0 0 5 0 0 0 0 0 0 held_peerReader
  obtain ⟨hsame, -⟩ := hquiet pagesCached_peerReader t hexec htaken
  exact hmem hsame

end Sys2Proof.Claims

/-! What a load reads and what its bytes become (13 R298, R304, R306, R307, 18 R429); from these O12. -/

namespace Sys2Proof.Claims
open Machine

/-! ### Bytes under held stores (18 R429) -/

/-- A byte of device storage at an address with a run of held bytes over it. -/
def underRun (a : Nat) (b : Byte) (r : Run) : Byte :=
  if r.space = .dev ∧ r.addr ≤ a ∧ a < r.addr + r.bytes.length then r.bytes.getD (a - r.addr) 0 else b

theorem seen_eq (s : State) (id : CtxId) (a : Nat) :
    seen s id a = ((s.ctxOf id).held.flatMap HeldStore.runs).foldl (underRun a) (memByte s.mem a) := rfl

theorem overlay_map_range {r : Run} (hdev : r.space = .dev) (a n : Nat) (f : Nat → Byte) :
    overlay a ((List.range n).map f) r = (List.range n).map fun k => underRun (a + k) (f k) r := by
  rw [overlay, List.length_map, List.length_range]
  refine List.map_congr_left fun k hk => ?_
  have hlt := List.mem_range.1 hk
  simp [underRun, hdev, hlt]

/-- A run that no byte of a range meets leaves each of them. -/
theorem underRun_of_apart {r : Run} {a n k : Nat} (hk : k < n)
    (h : (r.space == .dev && decide (r.addr < a + n ∧ a < r.addr + r.bytes.length)) = false) (b : Byte) :
    underRun (a + k) b r = b := by
  refine if_neg fun ⟨hdev, hle, hlt⟩ => ?_
  have hmeets : r.addr < a + n ∧ a < r.addr + r.bytes.length := by omega
  simp [hdev, hmeets] at h

theorem foldl_overlay (a n : Nat) (runs : List Run) (f : Nat → Byte) :
    (runs.filter fun r => r.space == .dev && decide (r.addr < a + n ∧ a < r.addr + r.bytes.length)).foldl (overlay a)
      ((List.range n).map f) = (List.range n).map fun k => runs.foldl (underRun (a + k)) (f k) := by
  induction runs generalizing f with
  | nil => rfl
  | cons r runs ih =>
    cases hmeets : r.space == .dev && decide (r.addr < a + n ∧ a < r.addr + r.bytes.length) with
    | true =>
      rw [List.filter_cons, hmeets, if_pos rfl, List.foldl_cons,
        overlay_map_range (eq_of_beq (Bool.and_eq_true_iff.1 hmeets).1), ih]
      rfl
    | false =>
      rw [List.filter_cons, hmeets, if_neg Bool.false_ne_true, ih]
      refine List.map_congr_left fun k hk => ?_
      rw [List.foldl_cons, underRun_of_apart (List.mem_range.1 hk) hmeets]

theorem readHeld_bytes {s : State} (hok : s.MemOk) (id : CtxId) (a n : Nat) :
    (s.readHeld id a n).1 = (List.range n).map fun k => seen s id (a + k) := by
  rw [State.readHeld, State.devRead, memRead_eq hok.1]
  exact foldl_overlay a n _ _

theorem readHeld_good {s : State} (id : CtxId) {a n : Nat} (hgood : s.poisoned a n = false) : (s.readHeld id a n).2 = [] := by
  rw [State.readHeld, State.badUnits_eq_nil hgood, List.filter_nil]

/-! ### The bytes that a part reads (13 R298) -/

/-- A byte of device storage as a context sees it, or of the host's memory through the window of its die. -/
def partByte (s : State) (id : CtxId) (p : Part) (k : Nat) : Byte :=
  if p.loc.space = .dev then seen s id (p.loc.addr + k) else memByte s.host (s.hostAddr id.die p.loc.addr + k)

theorem partByte_of_dev {p : Part} (h : p.loc.space = .dev) (s : State) (id : CtxId) :
    partByte s id p = fun k => seen s id (p.loc.addr + k) :=
  funext fun _ => if_pos h

theorem partByte_of_empty {s : State} {id : CtxId} (h : (s.ctxOf id).held = []) (p : Part) :
    partByte s id p = fun k => if p.loc.space = .dev then memByte s.mem (p.loc.addr + k)
      else memByte s.host (s.hostAddr id.die p.loc.addr + k) := by
  funext k
  rw [partByte, seen_eq, h]
  rfl

/-- A part in storage of the package or of the host, none of it poisoned. -/
def Sound (s : State) (id : CtxId) (p : Part) : Prop :=
  (p.loc.space = .dev ∧ s.poisoned p.loc.addr p.n = false) ∨
    (p.loc.space = .host ∧ s.hostPoisoned id.die p.loc.addr p.n = false)

section
variable {s : State} {id : CtxId} (hok : s.MemOk)
include hok

theorem readPart_of_sound {p : Part} (h : Sound s id p) (acc : AccKind) (g : Gather) :
    s.readPart id acc p g = (s, ⟨g.bytes ++ (List.range p.n).map (partByte s id p), g.poison, g.waits⟩) := by
  rcases h with ⟨hdev, hgood⟩ | ⟨hhost, hgood⟩
  · have hbytes : (List.range p.n).map (partByte s id p) = (s.readHeld id p.loc.addr p.n).1 := by
      rw [readHeld_bytes hok, partByte_of_dev hdev]
    simp [State.readPart, hdev, readHeld_good id hgood, hbytes]
  · have hbytes : (List.range p.n).map (partByte s id p) = s.hostRead (s.hostAddr id.die p.loc.addr) p.n := by
      rw [State.hostRead, memRead_eq hok.2]
      exact List.map_congr_left fun k _ => if_neg (by simp [hhost])
    simp [State.readPart, hhost, hgood, hbytes]

theorem foldl_readPart_of_sound {ps : List Part} (h : ∀ p ∈ ps, Sound s id p) (acc : AccKind) (g : Gather) :
    ps.foldl (fun x p => x.1.readPart id acc p x.2) (s, g) =
      (s, ⟨g.bytes ++ ps.flatMap fun p => (List.range p.n).map (partByte s id p), g.poison, g.waits⟩) := by
  induction ps generalizing g with
  | nil => simp
  | cons p ps ih =>
    rw [List.foldl_cons, readPart_of_sound hok (h p List.mem_cons_self),
      ih fun q hq => h q (List.mem_cons_of_mem p hq), List.flatMap_cons, List.append_assoc]

/-- Sound parts of a load that no held store has to precede. -/
theorem readParts_of_sound {ps : List Part} (h : ∀ p ∈ ps, Sound s id p)
    (hstay : (s.ctxOf id).held = [] ∨ ps.any Part.waitsHeld = false) (acc : AccKind) :
    s.readParts id acc ps = (s, ⟨ps.flatMap fun p => (List.range p.n).map (partByte s id p), false, []⟩) := by
  have hcommit : (if ps.any Part.waitsHeld then s.commitEarly id else s) = s := by
    rcases hstay with hheld | hnone
    · simp [State.commitEarly, hheld]
    · simp [hnone]
  rw [State.readParts, hcommit, foldl_readPart_of_sound hok h]
  rfl

end

/-! ### What the bytes of a load become (13 R304, R307) -/

theorem leNat_take (raw : List Byte) (n : Nat) :
    leNat (raw.take n) = (List.range n).foldl (fun acc k => acc + (raw.getD k 0).toNat * 256 ^ k) 0 := by
  rw [← leNat_map_range]
  induction n generalizing raw with
  | zero => simp
  | succ n ih =>
    cases raw with
    | nil => simpa [List.range_succ, leNat_append_singleton, leNat] using ih []
    | cons b raw => simp [List.range_succ_eq_map, leNat, ih, Function.comp_def]

/-- Byte k of the number that bytes spell. -/
theorem leNat_div_mod (raw : List Byte) (k : Nat) : leNat raw / 256 ^ k % 256 = (raw.getD k 0).toNat := by
  induction raw generalizing k with
  | nil => simp [leNat]
  | cons b raw ih =>
    have hb : b.toNat < 256 := b.isLt
    cases k with
    | zero => simp only [leNat, Nat.pow_zero, Nat.div_one, List.getD_cons_zero]; omega
    | succ k =>
      rw [leNat, Nat.pow_succ', ← Nat.div_div_eq_div_mul, Nat.add_mul_div_left _ _ (by decide), Nat.div_eq_of_lt hb,
        Nat.zero_add, ih, List.getD_cons_succ]

/-! ### The runs of a tile transfer (13 R306, R307) -/

section
variable {ts : BitVec 32} {i j : Nat}

/-- Element i * n + j of a list of rows of n elements. -/
theorem getElem?_flatMap_rows {α : Type} (f : Nat → Nat → α) {m n : Nat} (hi : i < m) (hj : j < n) :
    ((List.range m).flatMap fun a => (List.range n).map (f a))[i * n + j]? = some (f i j) := by
  induction m generalizing f i with
  | zero => omega
  | succ m ih =>
    rw [List.range_succ_eq_map, List.flatMap_cons, List.flatMap_map]
    cases i with
    | zero => rw [Nat.zero_mul, Nat.zero_add, List.getElem?_append_left (by simpa using hj)]; simp [hj]
    | succ i =>
      rw [List.getElem?_append_right (by rw [List.length_map, List.length_range, Nat.add_mul]; omega), List.length_map,
        List.length_range,
        show (i + 1) * n + j - n = i * n + j by rw [Nat.add_mul]; omega]
      exact ih (fun a => f a.succ) (by omega)

/-- Without valid columns a transfer has no run. -/
theorem tileRuns_of_empty (h : part ts.toNat 19 7 = 0) (a : W64) (col : Bool) (pitch : Option W64) :
    tileRuns ts a col pitch = [] :=
  if_pos h

theorem gatherRuns_of_empty (h : part ts.toNat 19 7 = 0) (a : W64) (q : BitVec 2)
    (offs : BitVec 2048) :
    gatherRuns ts a q offs = [] :=
  if_pos h

theorem add_ofNat_mul (a : W64) (i : Nat) (p : W64) :
    a + BitVec.ofNat 64 i * p = BitVec.ofNat 64 (a.toNat + i * p.toNat) := by
  rw [BitVec.ofNat_add, BitVec.ofNat_mul, BitVec.ofNat_toNat, BitVec.ofNat_toNat, BitVec.setWidth_eq, BitVec.setWidth_eq]

theorem tileRuns_row (hi : i < part ts.toNat 12 7) (hj : j < part ts.toNat 19 7) (a : W64) (pitch : Option W64) :
    (tileRuns ts a false pitch)[i]? = some ⟨BitVec.ofNat 64 (a.toNat +
      i * (pitch.getD (BitVec.ofNat 64 ((part ts.toNat 6 6 + 1) * elemSize (part ts.toNat 26 4)))).toNat),
      part ts.toNat 19 7 * elemSize (part ts.toNat 26 4)⟩ := by
  have hcols : shapeVCols ts ≠ 0 := Nat.ne_of_gt (Nat.zero_lt_of_lt hj)
  have hrow : i < shapeVRows ts := hi
  simp only [tileRuns, hcols, if_false, Bool.false_eq_true, ← List.map_eq_flatMap, List.getElem?_map, List.getElem?_range hrow,
    add_ofNat_mul]
  rfl

theorem tileRuns_element (hi : i < part ts.toNat 12 7) (hj : j < part ts.toNat 19 7) (a : W64) (pitch : Option W64) :
    (tileRuns ts a true pitch)[i * part ts.toNat 19 7 + j]? = some ⟨BitVec.ofNat 64 (a.toNat +
      j * (pitch.getD (BitVec.ofNat 64 ((part ts.toNat 0 6 + 1) * elemSize (part ts.toNat 26 4)))).toNat +
      i * elemSize (part ts.toNat 26 4)), elemSize (part ts.toNat 26 4)⟩ := by
  have hcols : shapeVCols ts ≠ 0 := Nat.ne_of_gt (Nat.zero_lt_of_lt hj)
  simp only [tileRuns, hcols, if_false, if_true, add_ofNat_mul, ← BitVec.ofNat_add]
  exact getElem?_flatMap_rows _ hi hj

theorem signedNat_bitsOf (x : BitVec 2048) (i : Nat) :
    signedNat (bitsOf x (32 * i) 32) 32 = BitVec.toInt (BitVec.ofNat 32 (x.toNat / 2 ^ (32 * i))) := by
  have hlt : bitsOf x (32 * i) 32 < 2 ^ 32 := Nat.mod_lt _ (Nat.two_pow_pos 32)
  rw [signedNat_eq_signedOf hlt, signedOf, BitVec.toInt, BitVec.toNat_ofNat]
  rfl

theorem gatherRuns_row (hi : i < part ts.toNat 12 7) (hj : j < part ts.toNat 19 7) (a : W64) (q : BitVec 2)
    (offs : BitVec 2048) :
    (gatherRuns ts a q offs)[i]? = some ⟨BitVec.ofInt 64 (a.toNat +
      BitVec.toInt (BitVec.ofNat 32 (offs.toNat / 2 ^ (32 * i))) * 2 ^ (4 * q.toNat)),
      part ts.toNat 19 7 * elemSize (part ts.toNat 26 4)⟩ := by
  have hcols : shapeVCols ts ≠ 0 := Nat.ne_of_gt (Nat.zero_lt_of_lt hj)
  have hrow : i < shapeVRows ts := hi
  simp only [gatherRuns, hcols, if_false, List.getElem?_map, List.getElem?_range hrow, signedNat_bitsOf, BitVec.ofInt_add,
    BitVec.ofInt_natCast, BitVec.ofNat_toNat, BitVec.setWidth_eq]
  rfl

end

/-! ### O12 -/

theorem writes_scalar_unsigned (n : BitVec 6) (z : Nat) (raw : List Byte) :
    (LoadForm.scalar (.s n) (2 ^ z) false).writes raw = [.s n (BitVec.ofNat 64
      ((List.range (2 ^ z)).foldl (fun acc k => acc + (raw.getD k 0).toNat * 256 ^ k) 0))] := by
  rw [← leNat_take]
  rfl

theorem writes_scalar_signed (n : BitVec 6) (z : Nat) (raw : List Byte) :
    let v := (List.range (2 ^ z)).foldl (fun acc k => acc + (raw.getD k 0).toNat * 256 ^ k) 0
    (LoadForm.scalar (.s n) (2 ^ z) true).writes raw =
      [.s n (BitVec.ofInt 64 (if 2 * v < 256 ^ 2 ^ z then v else v - 256 ^ 2 ^ z))] := by
  have hpow : (256 : Nat) ^ 2 ^ z = 2 ^ (8 * 2 ^ z) := by rw [Nat.pow_mul]
  have hpow' : (256 : Int) ^ 2 ^ z = 2 ^ (8 * 2 ^ z) := by rw [pow_mul]; rfl
  have hlt : leNat (raw.take (2 ^ z)) < 2 ^ (8 * 2 ^ z) :=
    hpow ▸ (leNat_lt _).trans_le (Nat.pow_le_pow_right (by decide) (List.length_take_le ..))
  dsimp only
  rw [← leNat_take, LoadForm.writes, if_pos rfl, signedNat_eq_signedOf hlt, signedOf, hpow, hpow']
  rfl

/-- A byte within a word's width is that of the number it was made of. -/
theorem toNat_ofNat_byte {w k : Nat} (h : 8 * (k + 1) ≤ w) (x : Nat) :
    (BitVec.ofNat w x).toNat / 256 ^ k % 256 = x / 256 ^ k % 256 := by
  have hsplit : 2 ^ w = 256 ^ k * (256 * 2 ^ (w - 8 * (k + 1))) := by
    rw [← Nat.mul_assoc, ← Nat.pow_succ, show 256 = 2 ^ 8 from rfl, ← Nat.pow_mul, ← Nat.pow_add, Nat.add_sub_cancel' h]
  rw [BitVec.toNat_ofNat, hsplit, Nat.mod_mul_right_div_self, Nat.mod_mul_right_mod]

theorem writes_line (l : BitVec 5) (raw : List Byte) :
    ∃ x : BitVec 2048, (LoadForm.line l).writes raw = [.v l x (BitVec.allOnes 2048)] ∧
      ∀ k, k < 256 → k < raw.length → x.toNat / 256 ^ k % 256 = (raw.getD k 0).toNat := by
  refine ⟨BitVec.ofNat 2048 (leNat raw), rfl, fun k hk _ => ?_⟩
  rw [toNat_ofNat_byte (by omega), leNat_div_mod]

/-- Settles O12: sound parts read as their bytes are seen, and the bytes and the runs are read off the forms. -/
theorem loadedValues : Obligations.LoadedValues := by
  refine ⟨fun s id p ps => ⟨fun hdev hord hok hgood => ?_, fun hsound hheld hok => ?_⟩, fun r n l z raw hr hz => ?_,
    fun ts a pitch q offs i j => ⟨fun hi hj => ⟨tileRuns_row hi hj a pitch, tileRuns_element hi hj a pitch,
      gatherRuns_row hi hj a q offs⟩,
      fun h => ⟨tileRuns_of_empty h a _ _, tileRuns_of_empty h a _ _, gatherRuns_of_empty h a _ _⟩⟩⟩
  · have hstay : [p].any Part.waitsHeld = false := by simp [Part.waitsHeld, hdev, hord]
    rw [readParts_of_sound hok (List.forall_mem_singleton.2 (.inl ⟨hdev, hgood⟩)) (.inr hstay), List.flatMap_singleton,
      partByte_of_dev hdev]
    rfl
  · rw [readParts_of_sound hok hsound (.inl hheld)]
    simp only [partByte_of_empty hheld]
  · subst hr
    exact ⟨writes_scalar_unsigned n z raw, writes_scalar_signed n z raw, writes_line l raw⟩

end Sys2Proof.Claims

/-! What the checks, the reads and the early commit of an access leave: the cycle, the context that issues, and of a context
all but its held stores, its counts and the causes that come due (13 R301, 18 R428). -/

namespace Sys2Proof.Machine

/-! ### Translation (03 R80, R88) -/

/-- A part of the state outside the caches of translations and what a write of memory touches. -/
structure BesideTables {α : Type} (read : State → α) : Prop where
  die (s : State) (d : Fin 8) {f : Die → Die} (h : ∀ x, (f x).cores = x.cores) : read (s.updDie d f) = read s
  core (s : State) (d : Fin 8) (c : Fin 16) {f : Core → Core} (h : ∀ k, (f k).ctxs = k.ctxs) :
    read (s.updCore d c f) = read s
  write (s : State) (pa : Nat) (bs : List Byte) : read (s.devWrite pa bs) = read s

theorem read_ite {α β : Type} {read : State → α} {b : Bool} {x y : State × β} {s : State} (hx : read x.1 = read s)
    (hy : read y.1 = read s) : read (if b then x else y).1 = read s := by
  cases b
  · exact hy
  · exact hx

theorem besideTables_moment : BesideTables State.moment :=
  ⟨fun _ _ _ _ => rfl, fun _ _ _ _ _ => rfl, State.moment_devWrite⟩

theorem besideTables_ctxOf (id : CtxId) : BesideTables fun s => s.ctxOf id :=
  ⟨fun s d _ h => s.ctxOf_updDie_of_cores d id h, fun s d c _ h => s.ctxOf_updCore_of_ctxs d c id h,
    fun s pa bs => s.ctxOf_devWrite pa bs id⟩

namespace BesideTables
variable {α : Type} {read : State → α} (h : BesideTables read)
include h

theorem fillL1 (s : State) (r : Req) (va : W64) : read (s.fillL1 r va) = read s := by
  unfold State.fillL1
  dsimp only
  split
  · rfl
  · split
    · rfl
    · split
      · rfl
      · split
        · exact h.core s _ _ fun _ => by rfl
        · rfl

theorem install (s : State) (r : Req) (va leaf : W64) (big : Bool) : read (s.install r va leaf big) = read s := by
  unfold State.install
  dsimp only
  split
  · exact (h.core _ _ _ fun _ => by rfl).trans (h.die s _ fun _ => by rfl)
  · exact h.die s _ fun _ => by rfl

theorem walkLeaf (s : State) (r : Req) (va : W64) : read (s.walkLeaf r va).1 = read s := by
  unfold State.walkLeaf
  split
  · rfl
  · split
    · rfl
    · refine (h.install ..).trans ((h.die _ _ fun _ => by rfl).trans ?_)
      split
      · rfl
      · exact h.write ..

theorem findLeaf (s : State) (r : Req) (va : W64) : read (s.findLeaf r va).1 = read s := by
  unfold State.findLeaf
  split
  · rfl
  · split
    · exact h.fillL1 ..
    · exact h.walkLeaf ..

theorem checkWalked (s : State) (r : Req) (va : W64) (n : Nat) (sel : Option Nat) :
    read (s.checkWalked r va n sel).1 = read s := by
  have hwalk := h.walkLeaf s r va
  unfold State.checkWalked
  split <;> (next heq => rw [heq] at hwalk; exact hwalk)

theorem checkPart (s : State) (r : Req) (va : W64) (n : Nat) (sel : Option Nat) :
    read (s.checkPart r va n sel).1 = read s := by
  unfold State.checkPart
  split
  · rfl
  · refine read_ite rfl ?_
    split
    · exact h.checkWalked ..
    · dsimp only
      split
      · exact h.fillL1 ..
      · split
        · exact h.checkWalked ..
        · exact h.fillL1 ..

theorem checkAll (r : Req) (sel : Option Nat) (vs : List VRun) (s : State) (acc : List Part) (bad : Option PartFault) :
    read (State.checkAll r sel vs s acc bad).1 = read s := by
  induction vs generalizing s acc bad with
  | nil => cases bad <;> rfl
  | cons v vs ih =>
    have hpart := h.checkPart s r v.va v.n sel
    rw [State.checkAll]
    split <;> (next heq => rw [heq] at hpart; exact (ih ..).trans hpart)

theorem checkAccess (s : State) (r : Req) (vs : List VRun) : read (s.checkAccess r vs).1 = read s := h.checkAll ..

theorem setDirtyLeaf (s : State) (r : Req) (p : Part) : read (s.setDirtyLeaf r p) = read s := by
  unfold State.setDirtyLeaf
  split
  · rfl
  · dsimp only
    split
    · exact (h.core _ _ _ fun _ => by rfl).trans ((h.die _ _ fun _ => by rfl).trans (h.write ..))
    · exact (h.die _ _ fun _ => by rfl).trans (h.write ..)

theorem setDirtyLeaves (s : State) (r : Req) (ps : List Part) : read (s.setDirtyLeaves r ps) = read s := by
  unfold State.setDirtyLeaves
  split
  · exact read_foldl_of_frame (fun s p _ => h.setDirtyLeaf s r p) s
  · rfl

end BesideTables

/-! ### Accesses (13 R301, 18 R428) -/

/-- What an access leaves of a context: all but its held stores, the mark that is due, its counts of requests and the causes
that come due. -/
def Ctx.uncounted (c : Ctx) : Ctx := { c.unmarked with mrql := 0, mrqr := 0, mrqi := 0 }

/-- What an access of a context leaves of the state. -/
def State.scene (id : CtxId) (s : State) : (Nat × CtxId) × Ctx := (s.moment, (s.ctxOf id).uncounted)

theorem State.scene_of_beside {id : CtxId} {s t : State}
    (h : ∀ {α : Type} {read : State → α}, BesideTables read → read t = read s) :
    t.scene id = s.scene id :=
  congrArg₂ (fun m c => (m, Ctx.uncounted c)) (h besideTables_moment) (h (besideTables_ctxOf id))

theorem State.scene_updCtx (s : State) (id : CtxId) {f : Ctx → Ctx} (h : ∀ c, (f c).uncounted = c.uncounted) :
    (s.updCtx id f).scene id = s.scene id := by
  rw [State.scene, State.ctxOf_updCtx, h]
  rfl

theorem State.moment_flushHeld (s : State) (id : CtxId) : (s.flushHeld id).moment = s.moment :=
  read_foldl_of_frame (read := State.moment) (fun s r _ => State.moment_performRun s id r) _

theorem Ctx.uncounted_of_unmarked {b c : Ctx} (h : b.unmarked = c.unmarked) : b.uncounted = c.uncounted :=
  (congrArg Ctx.uncounted h :)

theorem State.scene_flushHeld (s : State) (id : CtxId) : (s.flushHeld id).scene id = s.scene id :=
  congrArg₂ Prod.mk (s.moment_flushHeld id)
    (Ctx.uncounted_of_unmarked (Ctx.unmarked_of_uncaused (s.uncaused_flushHeld id)))

theorem State.scene_early (s : State) (b : Bool) (id : CtxId) : ({ s with early := b } : State).scene id = s.scene id := rfl

theorem State.scene_commitEarly (s : State) (id : CtxId) : (s.commitEarly id).scene id = s.scene id := by
  unfold State.commitEarly
  split
  · rfl
  · rw [State.scene_early, State.scene_updCtx _ id (fun _ => by rfl), State.scene_flushHeld]

theorem State.scene_checkAccess (s : State) (id : CtxId) (r : Req) (vs : List VRun) :
    (s.checkAccess r vs).1.scene id = s.scene id :=
  State.scene_of_beside fun h => h.checkAccess s r vs

theorem State.scene_checkFor (s : State) (id : CtxId) (r : Req) (vs : List VRun) :
    (s.checkFor id r vs).1.scene id = s.scene id := by
  have hchecked : ((if (s.buffersOf r vs).isEmpty then s else s.commitEarly id).checkAccess r vs).1.scene id = s.scene id := by
    refine (State.scene_checkAccess ..).trans ?_
    split
    · rfl
    · exact s.scene_commitEarly id
  unfold State.checkFor
  dsimp only
  split
  · rfl
  · split
    · split
      · rfl
      · exact hchecked
    · exact hchecked

theorem State.scene_access (s : State) (id : CtxId) (r : Req) (vs : List VRun) :
    (s.access id r vs).1.scene id = s.scene id := by
  have hcheck := s.scene_checkFor id r vs
  unfold State.access
  split
  next heq =>
    rw [heq] at hcheck
    exact hcheck
  next heq =>
    rw [heq] at hcheck
    refine (State.scene_updCtx _ id (fun _ => by rfl)).trans (Eq.trans ?_ hcheck)
    exact State.scene_of_beside fun h => h.setDirtyLeaves ..

theorem State.scene_recordBad (s : State) (units : List Nat) (src : Nat) (die : Fin 8) (core : Nat) (id : CtxId) :
    (s.recordBad units src die core).scene id = s.scene id :=
  congrArg₂ (fun m c => (m, Ctx.uncounted c)) (s.moment_recordBad units src die core)
    (State.ctxOf_recordBad id s units src die core)

theorem State.scene_recordError (s : State) (d : Fin 8) (kind src core rdie addr : Nat) (id : CtxId) :
    (s.recordError d kind src core rdie addr).scene id = s.scene id :=
  congrArg₂ (fun m c => (m, Ctx.uncounted c)) (apart_moment.recordError ..) (State.ctxOf_recordError ..)

theorem State.scene_sendPeer (s : State) (id : CtxId) (from_ : Origin) (m : BitVec 9) (type off arg : Nat)
    (data : List Byte) (poison : Bool) (va : W64) (acc : AccKind) (read : Bool) (engine : Option (BitVec 16)) :
    (s.sendPeer id from_ m type off arg data poison va acc read engine).1.scene id = s.scene id :=
  congrArg₂ (fun m c => (m, Ctx.uncounted c)) (State.moment_sendPeer ..) (State.ctxOf_sendPeer ..)

theorem State.scene_foldl {ι : Type} {step : State → ι → State} {id : CtxId}
    (h : ∀ s i, (step s i).scene id = s.scene id) (l : List ι) (s : State) : (l.foldl step s).scene id = s.scene id :=
  read_foldl_of_frame (read := State.scene id) (fun s i _ => h s i) s

theorem State.scene_foldl_fst {ι β : Type} {step : State × β → ι → State × β} {id : CtxId}
    (h : ∀ x i, (step x i).1.scene id = x.1.scene id) (l : List ι) (x : State × β) :
    (l.foldl step x).1.scene id = x.1.scene id := by
  induction l generalizing x with
  | nil => rfl
  | cons i l ih => exact (ih _).trans (h x i)

theorem State.scene_hostArrive (s : State) (d : Fin 8) (pa n src core : Nat) (id : CtxId) :
    (s.hostArrive d pa n src core).scene id = s.scene id :=
  State.scene_foldl (fun s _ => s.scene_recordError ..) _ _

theorem State.scene_recordAt (s : State) (u src : Nat) (d : Fin 8) (core : Nat) (id : CtxId) :
    (s.recordAt u src d core).scene id = s.scene id :=
  s.scene_recordBad [u] src d core id

theorem State.scene_recordLoop (s : State) (d : Fin 8) (m : BitVec 9) (a n src core : Nat) (id : CtxId) :
    (s.recordLoop d m a n src core).scene id = s.scene id :=
  State.scene_foldl (fun _ _ => (State.scene_recordError ..).trans (State.scene_recordAt ..)) _ _

theorem State.scene_readPart (s : State) (id : CtxId) (acc : AccKind) (p : Part) (g : Gather) :
    (s.readPart id acc p g).1.scene id = s.scene id := by
  unfold State.readPart
  dsimp only
  split
  · exact s.scene_recordBad _ 0 id.die id.core id
  · dsimp only
    split
    · exact State.scene_hostArrive ..
    · rfl
  · split
    · exact s.scene_updCtx id fun _ => rfl
    · split
      · split
        · exact s.scene_updCtx id fun _ => rfl
        · dsimp only
          split
          · exact State.scene_recordLoop ..
          · rfl
      · refine State.scene_foldl_fst (fun x r => ?_) _ _
        exact State.scene_sendPeer ..
  · rfl

theorem State.scene_readListPart (s : State) (id : CtxId) (p : Part) (g : Gather) :
    (s.readListPart id p g).1.scene id = s.scene id := by
  unfold State.readListPart
  split
  · split
    · split
      · rfl
      · exact s.scene_updCtx id fun _ => rfl
    · exact State.scene_readPart ..
  · exact State.scene_readPart ..

theorem State.scene_readList (s : State) (id : CtxId) (ps : List Part) : (s.readList id ps).1.scene id = s.scene id := by
  unfold State.readList
  refine (State.scene_foldl_fst (fun x p => State.scene_readListPart ..) _ _).trans ?_
  dsimp only
  split
  · exact s.scene_commitEarly id
  · rfl

section
variable {s t : State} {id : CtxId} (h : t.scene id = s.scene id)
include h

theorem State.cur_of_scene : t.cur = s.cur := (congrArg (fun x => x.1.2) h :)
theorem State.cycle_of_scene : t.cycle = s.cycle := (congrArg (fun x => x.1.1) h :)
theorem State.uncounted_of_scene : (t.ctxOf id).uncounted = (s.ctxOf id).uncounted := (congrArg Prod.snd h :)
theorem State.arch_of_scene : (t.ctxOf id).arch = (s.ctxOf id).arch := (congrArg Ctx.arch (State.uncounted_of_scene h) :)

end

/-- A scalar is as it was. -/
theorem State.rS_of_scene {s t : State} (h : t.scene s.cur = s.scene s.cur) (n : BitVec 6) : t.rS n = s.rS n := by
  have hrS : (t.ctxOf s.cur).rS n = (s.ctxOf s.cur).rS n := (congrArg (fun c : Ctx => c.rS n) (State.uncounted_of_scene h) :)
  rw [State.rS, State.cx, State.cur_of_scene h, hrS]
  rfl

/-- The shape of a tile is as it was. -/
theorem State.rTS_of_scene {s t : State} (h : t.scene s.cur = s.scene s.cur) (n : BitVec 4) : t.cx.rTS n = s.cx.rTS n := by
  have hrTS : (t.ctxOf s.cur).rTS n = (s.ctxOf s.cur).rTS n :=
    (congrArg (fun c : Ctx => c.rTS n) (State.uncounted_of_scene h) :)
  rw [State.cx, State.cur_of_scene h, hrTS, State.cx]

end Sys2Proof.Machine

/-! Barrier objects and waits (13 R320 to R322, 07 R174 to R176): the fields of an object that is written, the steps at its
home, and what a wait finds there; from these O17. -/

namespace Sys2Proof.Machine

/-! ### The bytes of an object (07 R173) -/

theorem leNat_leBytes {n v : Nat} (h : v < 2 ^ (8 * n)) : leNat (leBytes n v) = v := by
  induction n generalizing v with
  | zero =>
    rw [leBytes, leNat]
    omega
  | succ n ih =>
    rw [Nat.mul_succ, Nat.pow_add] at h
    rw [leBytes, leNat, ih (by omega), BitVec.toNat_ofNat]
    omega

theorem length_leBytes (n v : Nat) : (leBytes n v).length = n := by
  induction n generalizing v with
  | zero => rfl
  | succ n ih => rw [leBytes, List.length_cons, ih]

theorem State.devRead_devWrite {s : State} (h : s.MemOk) (a : Nat) (bs : List Byte) :
    (s.devWrite a bs).devRead a bs.length = bs := by
  rw [State.devRead, State.mem_devWrite]
  exact memRead_memWrite_same h.1 a bs

theorem readBarrier_word {b : Barrier} (hexpect : b.expect < 2 ^ 32) (harrived : b.arrived < 2 ^ 32) (v : Nat) :
    readBarrier (b.word v) = b := by
  obtain ⟨expect, arrived, phase, init, berr, dwait, gen, lwait⟩ := b
  have hd := dwait.isLt
  have hg := gen.isLt
  have hl := lwait.isLt
  have hp : b2n phase < 2 := by cases phase <;> decide
  have hi : b2n init < 2 := by cases init <;> decide
  have he : b2n berr < 2 := by cases berr <;> decide
  have hone (x : Bool) (n : Nat) (h : n = b2n x) : (n == 1) = x := by subst h; cases x <;> rfl
  have ht : v / 2 ^ 67 % 2 ^ 5 < 2 ^ 5 := Nat.mod_lt _ (by decide)
  have hu : v / 2 ^ 80 % 2 ^ 16 < 2 ^ 16 := Nat.mod_lt _ (by decide)
  simp only [readBarrier, Barrier.word] at *
  generalize v / 2 ^ 67 % 2 ^ 5 = t at *
  generalize v / 2 ^ 80 % 2 ^ 16 = u at *
  generalize v / 2 ^ 192 = w at *
  congr 1
  · omega
  · omega
  · exact hone _ _ (by omega)
  · exact hone _ _ (by omega)
  · exact hone _ _ (by omega)
  · exact BitVec.eq_of_toNat_eq (by rw [BitVec.toNat_ofNat]; omega)
  · exact BitVec.eq_of_toNat_eq (by rw [BitVec.toNat_ofNat]; omega)
  · exact BitVec.eq_of_toNat_eq (by rw [BitVec.toNat_ofNat]; omega)

theorem Barrier.word_lt {b : Barrier} (hexpect : b.expect < 2 ^ 32) (harrived : b.arrived < 2 ^ 32) {v : Nat}
    (hv : v < 2 ^ (8 * 64)) :
    b.word v < 2 ^ (8 * 64) := by
  obtain ⟨expect, arrived, phase, init, berr, dwait, gen, lwait⟩ := b
  have hd := dwait.isLt
  have hg := gen.isLt
  have hl := lwait.isLt
  have hp : b2n phase < 2 := by cases phase <;> decide
  have hi : b2n init < 2 := by cases init <;> decide
  have he : b2n berr < 2 := by cases berr <;> decide
  simp only [Barrier.word] at *
  omega

theorem State.barrier_setBarrier {s : State} (h : s.MemOk) (pa : Nat) {b : Barrier} (hexpect : b.expect < 2 ^ 32)
    (harrived : b.arrived < 2 ^ 32) : (s.setBarrier pa b).barrier pa = b := by
  have hv : leNat (s.devRead pa 64) < 2 ^ (8 * 64) := leNat_memRead_lt h.1 pa 64
  have hread := State.devRead_devWrite h pa (leBytes 64 (b.word (leNat (s.devRead pa 64))))
  rw [length_leBytes] at hread
  rw [State.barrier, State.setBarrier, hread, leNat_leBytes (Barrier.word_lt hexpect harrived hv),
    readBarrier_word hexpect harrived]

theorem State.barrier_bounds (s : State) (pa : Nat) : (s.barrier pa).expect < 2 ^ 32 ∧ (s.barrier pa).arrived < 2 ^ 32 :=
  ⟨Nat.mod_lt _ (by decide), Nat.mod_lt _ (by decide)⟩

theorem Apart.resolveWait {α : Type} {read : State → α} (h : Apart read) (s : State) (id : CtxId) (pa : Nat)
    (code : BitVec 2) : read (s.resolveWait id pa code) = read s := by
  unfold State.resolveWait
  dsimp only
  split
  · exact (h.wake ..).trans (h.updCtx ..)
  · rfl

theorem Apart.wakeAll {α : Type} {read : State → α} (h : Apart read) (s : State) (pa : Nat) (b : Barrier) (code : BitVec 2) :
    read (s.wakeAll pa b code) = read s := by
  have hids (l : List CtxId) (s : State) : read (l.foldl (fun s id => s.resolveWait id pa code) s) = read s :=
    read_foldl_of_frame (fun s id _ => h.resolveWait s id pa code) s
  unfold State.wakeAll
  refine (read_foldl_of_frame (fun s e _ => ?_) _).trans (hids _ s)
  dsimp only
  split
  · exact (hids _ _).trans (h.die s e fun _ => ⟨rfl, rfl⟩)
  · rfl

theorem apart_barrier (pa : Nat) : Apart fun s => s.barrier pa :=
  ⟨fun _ _ _ _ => rfl, fun _ _ _ _ _ => rfl, fun _ _ _ => rfl⟩

section
variable {s : State} {pa : Nat} (hok : s.MemOk) (hgood : s.poisoned pa 64 = false)
include hok hgood

theorem State.barrier_barrierInit {expect : Nat} (h : expect < 2 ^ 32) (die : Fin 8) (core : Nat) :
    (s.barrierInit pa expect die core).barrier pa =
      { s.barrier pa with expect := expect, arrived := 0, init := true, berr := false, lwait := 0, dwait := 0 } := by
  rw [State.barrierInit, if_neg (by simp [hgood])]
  exact ((apart_barrier pa).wakeAll ..).trans (State.barrier_setBarrier hok pa h (Nat.two_pow_pos 32))

theorem State.arrival_of_bad (h : (s.barrier pa).init = false ∨ (s.barrier pa).expect = 0) (die : Fin 8) (core : Nat) :
    (s.arrival pa die core).1.barrier pa = { s.barrier pa with berr := true } ∧
      (s.arrival pa die core).2.1 = if (s.barrier pa).phase then 5 else 4 := by
  obtain ⟨hexpect, harrived⟩ := s.barrier_bounds pa
  rw [State.arrival, if_neg (by simp [hgood])]
  dsimp only
  rw [if_pos (by simpa using h)]
  refine ⟨State.barrier_setBarrier hok pa hexpect harrived, ?_⟩
  cases (s.barrier pa).phase <;> rfl

variable (hinit : (s.barrier pa).init = true) (hsome : (s.barrier pa).expect ≠ 0)
include hinit hsome

theorem State.arrival_of_last (h : (s.barrier pa).expect = ((s.barrier pa).arrived + 1) % 2 ^ 32) (die : Fin 8) (core : Nat) :
    (s.arrival pa die core).1.barrier pa =
        { s.barrier pa with
          arrived := 0, phase := !(s.barrier pa).phase, gen := (s.barrier pa).gen + 1, lwait := 0, dwait := 0 } ∧
      (s.arrival pa die core).2.1 = if (s.barrier pa).phase then 3 else 2 := by
  obtain ⟨hexpect, -⟩ := s.barrier_bounds pa
  rw [State.arrival, if_neg (by simp [hgood])]
  dsimp only
  rw [if_neg (by simp [hinit, hsome]), if_pos h.symm]
  refine ⟨((apart_barrier pa).wakeAll ..).trans (State.barrier_setBarrier hok pa hexpect (Nat.two_pow_pos 32)), ?_⟩
  cases (s.barrier pa).phase <;> rfl

theorem State.arrival_of_more (h : (s.barrier pa).expect ≠ ((s.barrier pa).arrived + 1) % 2 ^ 32) (die : Fin 8) (core : Nat) :
    (s.arrival pa die core).1.barrier pa = { s.barrier pa with arrived := ((s.barrier pa).arrived + 1) % 2 ^ 32 } ∧
      (s.arrival pa die core).2.1 = if (s.barrier pa).phase then 1 else 0 := by
  obtain ⟨hexpect, -⟩ := s.barrier_bounds pa
  rw [State.arrival, if_neg (by simp [hgood])]
  dsimp only
  rw [if_neg (by simp [hinit, hsome]), if_neg h.symm]
  refine ⟨State.barrier_setBarrier hok pa hexpect (Nat.mod_lt _ (by decide)), ?_⟩
  cases (s.barrier pa).phase <;> rfl

end

end Sys2Proof.Machine

/-! ### What a wait finds (13 R322, 07 R175, R176) -/

namespace Sys2Proof.Machine

theorem State.ctxOf_block (s : State) (id : CtxId) (why : BlockCause) :
    (s.block id why).ctxOf id = { s.ctxOf id with status := .blocked why, wasBlocked := true } := by
  unfold State.block
  split
  · rw [State.ctxOf_updCtx]
  · rw [State.ctxOf_giveUp, State.ctxOf_updCtx, if_neg nofun]

theorem State.moment_block (s : State) (id : CtxId) (why : BlockCause) : (s.block id why).moment = s.moment := by
  unfold State.block
  split <;> rfl

theorem State.wait_block (s : State) (why : BlockCause) : (s.block s.cur why).cx.wait = s.cx.wait := by
  have hcur : (s.block s.cur why).cur = s.cur := congrArg Prod.snd (s.moment_block s.cur why)
  rw [State.cx, hcur, State.ctxOf_block, State.cx]

theorem State.ctxOf_register (s : State) (id : CtxId) (pa : Nat) : (s.register id pa).1.ctxOf id = s.ctxOf id := by
  unfold State.register
  dsimp only
  split
  · exact State.ctxOf_devWrite ..
  · split
    · exact (State.ctxOf_devWrite ..).trans (State.ctxOf_updDie_of_cores s id.die id fun _ => by rfl)
    · rfl

theorem State.cur_register (s : State) (id : CtxId) (pa : Nat) : (s.register id pa).1.cur = s.cur := by
  unfold State.register
  dsimp only
  split
  · exact congrArg Prod.snd (State.moment_devWrite ..)
  · split
    · exact congrArg Prod.snd (State.moment_devWrite ..)
    · rfl

theorem State.commitEarly_of_held {s : State} {id : CtxId} (h : (s.ctxOf id).held ≠ []) :
    s.commitEarly id = { (s.flushHeld id).updCtx id fun c => { c with markDue := true } with early := true } :=
  if_neg (by simpa using h)

theorem State.commitEarly_of_empty {s : State} {id : CtxId} (h : (s.ctxOf id).held = []) : s.commitEarly id = s :=
  if_pos (List.isEmpty_iff.2 h)

theorem Part.waitsHeld_iff (p : Part) : p.waitsHeld = true ↔ p.loc.space ≠ .dev ∨ lfOrd p.loc.leaf = 0 := by
  simp [Part.waitsHeld]

theorem Ctx.heldOver_eq_nil_iff (c : Ctx) (sp : Space) (a n : Nat) : c.heldOver sp a n = [] ↔
    ¬∃ x, x ∈ c.held.flatMap HeldStore.runs ∧ x.space = sp ∧ x.addr < a + n ∧ a < x.addr + x.bytes.length := by
  rw [Ctx.heldOver, List.filter_eq_nil_iff]
  simp only [not_exists, not_and, Bool.and_eq_true, beq_iff_eq, decide_eq_true_iff]

theorem Ctx.pend_addPend (c : Ctx) (p : Pend) : ∃ k, (c.addPend p).pend = k ++ [p] := ⟨_, rfl⟩

end Sys2Proof.Machine

namespace Sys2Proof.Claims
open Machine

theorem bit_zero_eq_decide {w : Nat} (x : BitVec w) : bit x 0 = decide (x.toNat % 2 = 1) := by
  rw [bit, BitVec.getLsbD, Nat.testBit_zero]

theorem statusReg_eq {s : State} {c : Ctx} (h : c = s.cx) (d : BitVec 6) : statusReg s d = match c.nameS d with
    | .hs k => (k.setWidth 6, true)
    | .s k => (k, false)
    | _ => (0, false) := by
  subst h
  unfold statusReg
  cases s.cx.nameS d with
  | hs k => exact congrArg (·, true) (BitVec.ofNat_toNat ..)
  | _ => rfl

/-- The part of an access of one part. -/
theorem barrierAt_of_atBarrier {s u : State} {acc : AccKind} {rd wr : Bool} {r : BitVec 4} {p : Part}
    (h : AtBarrier s acc rd wr r p u) : s.barrierAt acc rd wr r = (u, .ok (some p)) ∧ u.scene s.cur = s.scene s.cur := by
  have hscene := s.scene_access s.cur { s.cx.req s.cur acc rd wr with barrier := true } [⟨s.rA r, 64⟩]
  unfold AtBarrier at h
  rw [h] at hscene
  refine ⟨?_, hscene⟩
  simp only [State.barrierAt, Ctx.barrierReq, h]
  rfl

/-- The state in which a wait evaluates its object: the held stores that come before it have gone home. -/
def Evaluated (s u v : State) (p : Part) : Prop :=
  v = if (p.loc.space ≠ .dev ∨ lfOrd p.loc.leaf = 0 ∨ ∃ x, x ∈ (u.ctxOf s.cur).held.flatMap HeldStore.runs ∧
        x.space = .dev ∧ x.addr < p.loc.addr + 64 ∧ p.loc.addr < x.addr + x.bytes.length) ∧ (u.ctxOf s.cur).held ≠ [] then
      { (u.flushHeld s.cur).updCtx s.cur fun c => { c with markDue := true } with early := true }
    else u

theorem evaluated_iff {s u v : State} {p : Part} (hcur : u.cur = s.cur) : Evaluated s u v p ↔
    v = if p.waitsHeld || !(u.cx.heldOver .dev p.loc.addr 64).isEmpty then u.commitEarly s.cur else u := by
  have hcx : u.cx = u.ctxOf s.cur := by rw [State.cx, hcur]
  have hnear := Ctx.heldOver_eq_nil_iff (u.ctxOf s.cur) .dev p.loc.addr 64
  rw [Evaluated, hcx]
  refine Eq.congr_right ?_
  by_cases hheld : (u.ctxOf s.cur).held = []
  · rw [if_neg fun h => h.2 hheld, State.commitEarly_of_empty hheld, ite_self]
  · rw [State.commitEarly_of_held hheld]
    refine if_congr ?_ rfl rfl
    rw [Bool.or_eq_true, Part.waitsHeld_iff, or_assoc, Bool.not_eq_true', List.isEmpty_eq_false_iff, ne_eq (Ctx.heldOver ..),
      hnear, not_not]
    exact and_iff_left hheld

section
variable {s u v : State} {d : BitVec 6} {r : BitVec 4} {p : Part} {limit : Option W64}
  (haccess : AtBarrier s .load true false r p u) (hv : Evaluated s u v p)
include haccess hv

theorem firstWait_eq : v.scene s.cur = s.scene s.cur ∧ s.firstWait d r limit none =
    if v.poisoned p.loc.addr 64 then (v.recordUnits p.loc.addr 64 4 s.cur.die s.cur.core).spoilWait d
    else
      match waitStatus (v.barrier p.loc.addr) (bit (v.rS d) 0) (v.barrier p.loc.addr).gen limit v.gtime none with
      | some code => v.endWait d code
      | none =>
        let x := v.register s.cur p.loc.addr
        (x.1.updCx fun c => { c with
          wait := some ⟨some p.loc.addr, bit (v.rS d) 0, (v.barrier p.loc.addr).gen, limit, x.2, none, false,
            (match x.1.cx.nameS d with | .hs k => (k.setWidth 6, true) | .s k => (k, false) | _ => (0, false)).1,
            (match x.1.cx.nameS d with | .hs k => (k.setWidth 6, true) | .s k => (k, false) | _ => (0, false)).2⟩ }).block
          s.cur .barrier := by
  obtain ⟨hat, hscene⟩ := barrierAt_of_atBarrier haccess
  rw [evaluated_iff (State.cur_of_scene hscene)] at hv
  constructor
  · rw [hv]
    split
    · exact (u.scene_commitEarly s.cur).trans hscene
    · exact hscene
  · simp only [State.firstWait, hat]
    rw [← hv]
    rfl

end

section
variable {s u v : State} {g r : BitVec 4} {d b : BitVec 6} {i : Instr} {limit : Option W64}
  (hi : i = .bwait g d r ∧ limit = none ∨ i = .btwait g d r b ∧ limit = some (s.rS b))
include hi

theorem slotOp_of_wait : ∃ body, exec i s = s.slotOp g i body ∧ body s = s.barrierWait d r limit := by
  obtain ⟨rfl, rfl⟩ | ⟨rfl, rfl⟩ := hi
  · exact ⟨fun s => s.barrierWait d r none, rfl, rfl⟩
  · exact ⟨fun s => s.barrierWait d r (some (s.rS b)), rfl, rfl⟩

theorem runs_of_wait {t : State} (h : s.barrierWait d r limit = t) : Runs s g i t := by
  obtain ⟨body, hexec, hbody⟩ := slotOp_of_wait hi
  exact runs_of_slotOp hexec (hbody.trans h)

theorem reaches_of_wait {P : State → Prop} (h : P (s.barrierWait d r limit)) : Reaches s g i P := by
  obtain ⟨body, hexec, hbody⟩ := slotOp_of_wait hi
  exact reaches_of_slotOp hexec (hbody ▸ h)

end

theorem barrierWait_answered {s : State} {d : BitVec 6} {r : BitVec 4} {limit : Option W64} {w : Wait} {code : BitVec 2}
    (hw : s.cx.wait = some w) (hcode : w.result = some code) (hgood : w.bad = false) :
    s.barrierWait d r limit = s.endWait d code := by
  simp [State.barrierWait, hw, hcode, hgood]

theorem barrierWait_first {s : State} {d : BitVec 6} {r : BitVec 4} {limit : Option W64} (hw : s.cx.wait = none) :
    s.barrierWait d r limit = s.firstWait d r limit none := by
  simp only [State.barrierWait, hw]

theorem barrierWait_open {s : State} {d : BitVec 6} {r : BitVec 4} {limit : Option W64} {w : Wait}
    (hw : s.cx.wait = some w) (hopen : w.result = none) (hbar : w.bar ≠ none) :
    s.barrierWait d r limit = s.block s.cur .barrier := by
  obtain ⟨pa, hpa⟩ := Option.ne_none_iff_exists'.1 hbar
  simp only [State.barrierWait, hw, hopen, hpa]

theorem endWait_eq (s : State) (d : BitVec 6) (code : BitVec 2) :
    s.endWait d code = (s.updCx fun c => { c with wait := none }).putS d 1 (BitVec.ofNat 64 code.toNat) := by
  rw [State.endWait, BitVec.ofNat_toNat]

/-- What the first evaluation of a wait finds at its object. -/
theorem waitStatus_first (b : Barrier) (phase : Bool) (limit : Option W64) (now : Nat)
    [Decidable (∃ l, limit = some l ∧ l.toNat < now)] :
    waitStatus b phase b.gen limit now none =
      if b.init = false then some 3
      else if ∃ l, limit = some l ∧ l.toNat < now then some 1
      else if b.phase ≠ phase then some 0 else none := by
  have hstatus := waitStatus_eq ⟨none, phase, b.gen, limit, false, none, false, 0, false⟩ b now none
  have hover := Wait.over_iff ⟨none, phase, b.gen, limit, false, none, false, 0, false⟩ now
  dsimp only at hstatus hover
  by_cases hlate : ∃ l, limit = some l ∧ l.toNat < now
  · rw [hstatus, if_pos hlate, Option.getD_none, hover.2 hlate, if_pos rfl, if_pos rfl, ite_self]
  · rw [hstatus, if_neg hlate, Option.getD_none, if_neg (mt hover.1 hlate), if_neg (mt hover.1 hlate)]
    simp only [ne_eq, not_true_eq_false, or_false]

/-- A phase that a flip at a GTIME has ended (06 R157). -/
theorem waitStatus_ended {b : Barrier} {phase : Bool} {g0 : BitVec 32} {l : W64} {now c : Nat} (hinit : b.init = true)
    (hgen : b.gen ≠ g0) : waitStatus b phase g0 (some l) now (some c) = some (if l.toNat < c then 1 else 0) ∧
      waitStatus b phase g0 none now (some c) = some 0 := by
  constructor <;> simp [waitStatus, hinit, hgen]

section
variable {s u v : State} {d : BitVec 6} {r : BitVec 4} {p : Part} {limit : Option W64}
  (haccess : AtBarrier s .load true false r p u) (hv : Evaluated s u v p)
include haccess hv

theorem firstWait_of_status (hgood : v.poisoned p.loc.addr 64 = false) {code : BitVec 2}
    (hstatus : waitStatus (v.barrier p.loc.addr) (decide ((v.rS d).toNat % 2 = 1)) (v.barrier p.loc.addr).gen limit v.gtime
      none = some code) : s.firstWait d r limit none = v.endWait d code := by
  rw [(firstWait_eq haccess hv).2, if_neg (by simp [hgood]), bit_zero_eq_decide]
  simp only [hstatus]

theorem firstWait_of_none (hgood : v.poisoned p.loc.addr 64 = false)
    (hstatus : waitStatus (v.barrier p.loc.addr) (decide ((v.rS d).toNat % 2 = 1)) (v.barrier p.loc.addr).gen limit v.gtime
      none = none) :
    ((s.firstWait d r limit none).ctxOf s.cur).status = .blocked .barrier ∧
      ∃ reg, ((s.firstWait d r limit none).ctxOf s.cur).wait = some ⟨some p.loc.addr, decide ((v.rS d).toNat % 2 = 1),
        (v.barrier p.loc.addr).gen, limit, reg, none, false, (statusReg v d).1, (statusReg v d).2⟩ := by
  obtain ⟨hscene, hfirst⟩ := firstWait_eq (d := d) (limit := limit) haccess hv
  have hcur : (v.register s.cur p.loc.addr).1.cur = s.cur := (v.cur_register ..).trans (State.cur_of_scene hscene)
  have hcx : (v.register s.cur p.loc.addr).1.cx = v.cx := by
    rw [State.cx, hcur, State.ctxOf_register, State.cx, State.cur_of_scene hscene]
  rw [hfirst, if_neg (by simp [hgood]), bit_zero_eq_decide]
  simp only [hstatus, State.ctxOf_block, State.updCx, hcur, State.ctxOf_updCtx, statusReg_eq hcx]
  exact ⟨trivial, _, rfl⟩

theorem firstWait_of_poisoned (hbad : v.poisoned p.loc.addr 64 = true) :
    (s.firstWait d r limit none).cx.wait = none ∧ (s.firstWait d r limit none).mem = v.mem ∧
      ∃ k, (s.firstWait d r limit none).cx.pend = k ++
        [⟨v.cycle + 1, [], [], .given [v.cx.wS d 0], 0, true, [], true, false⟩] := by
  have hcx : (v.recordUnits p.loc.addr 64 4 s.cur.die s.cur.core).cx = v.cx := by
    have hcur : (v.recordUnits p.loc.addr 64 4 s.cur.die s.cur.core).cur = v.cur :=
      congrArg Prod.snd (apart_moment.recordUnits ..)
    rw [State.cx, hcur, State.ctxOf_recordUnits, State.cx]
  have hcycle : (v.recordUnits p.loc.addr 64 4 s.cur.die s.cur.core).cycle = v.cycle :=
    congrArg Prod.fst (apart_moment.recordUnits ..)
  rw [(firstWait_eq haccess hv).2, if_pos hbad, State.spoilWait, State.cx_updCx, hcx, hcycle]
  exact ⟨rfl, apart_mem.recordUnits .., Ctx.pend_addPend ..⟩

end

/-- Settles O17: the accesses leave the registers as they were, an object that is written reads back with its new fields,
and what a wait finds is the status of its object once the held stores before it have gone home. -/
theorem barrierWaits : Obligations.BarrierWaits := by
  refine ⟨fun s g r b d p u v bits bad => ⟨fun hat => ?_, fun hat harrival => ?_⟩,
    fun s pa expect core die hok hgood hexpect => ?_, fun s u g r d b p i limit hi => ⟨fun w code hw hcode hgood => ?_,
      fun hnone hat => ?_, fun w hw hopen hbar => ?_⟩, fun b phase g0 l now c hinit hgen => ?_⟩
  · obtain ⟨hat, hscene⟩ := barrierAt_of_atBarrier hat
    refine runs_of_slotOp (by rfl) ?_
    simp only [hat]
    rw [State.rS_of_scene hscene]
  · obtain ⟨hat, hscene⟩ := barrierAt_of_atBarrier hat
    refine ⟨fun hd => ?_, fun hd => ?_⟩
    · refine runs_of_slotOp (by rfl) ?_
      simp only [hat, harrival, hd, if_pos]
    · refine runs_of_slotOp (by rfl) ?_
      simp only [hat, harrival, hd, if_neg, not_false_eq_true]
  · exact ⟨State.barrier_barrierInit hok hgood hexpect die core, fun h => State.arrival_of_bad hok hgood h die core,
      fun hinit h hsome => State.arrival_of_last hok hgood hinit hsome h die core,
      fun hinit h hsome => State.arrival_of_more hok hgood hinit hsome h die core⟩
  · exact runs_of_wait hi ((barrierWait_answered hw hcode hgood).trans (endWait_eq ..))
  · intro near v hv o phase late ended
    replace hv : Evaluated s u v p := hv
    have hfirst : s.barrierWait d r limit = s.firstWait d r limit none := barrierWait_first hnone
    have hstatus := waitStatus_first o phase limit v.gtime
    refine ⟨fun hgood => ⟨fun hinit => ?_, fun hinit hlate => ?_, fun hinit hlate hphase => ?_,
      fun hinit hlate hphase => ?_⟩,
      fun hbad => ?_⟩
    · rw [if_pos hinit] at hstatus
      exact runs_of_wait hi (hfirst.trans ((firstWait_of_status hat hv hgood hstatus).trans (endWait_eq ..)))
    · rw [if_neg (by simp [hinit]), if_pos hlate] at hstatus
      exact runs_of_wait hi (hfirst.trans ((firstWait_of_status hat hv hgood hstatus).trans (endWait_eq ..)))
    · rw [if_neg (by simp [hinit]), if_neg hlate, if_pos hphase] at hstatus
      exact runs_of_wait hi (hfirst.trans ((firstWait_of_status hat hv hgood hstatus).trans (endWait_eq ..)))
    · rw [if_neg (by simp [hinit]), if_neg hlate, if_neg (not_not.2 hphase)] at hstatus
      refine reaches_of_wait hi ?_
      rw [hfirst]
      exact firstWait_of_none hat hv hgood hstatus
    · refine reaches_of_wait hi ?_
      rw [hfirst]
      exact firstWait_of_poisoned hat hv hbad
  · refine reaches_of_wait hi ?_
    rw [barrierWait_open hw hopen hbar]
    exact ⟨State.status_block .., (s.wait_block .barrier).trans hw⟩
  · exact waitStatus_ended hinit hgen

end Sys2Proof.Claims

/-! Fences and publishes (13 R318 to R320, R323, 07 R164): the descriptor that a publish at its home writes, and what holds a
`pub` back; from these O16. -/

namespace Sys2Proof.Machine

/-! ### The first word of a record that is written -/

theorem bitsOf_setBit_other {w : Nat} (x : BitVec w) (b : Bool) {k lo n : Nat} (hk : k < lo ∨ lo + n ≤ k)
    (hw : lo + n ≤ w) :
    bitsOf (setBit x k b) lo n = bitsOf x lo n := by
  apply Nat.eq_of_testBit_eq
  intro i
  simp only [bitsOf, Nat.testBit_mod_two_pow, Nat.testBit_div_two_pow]
  by_cases hi : i < n
  · have := getLsbD_setBit x k b (i := i + lo) (by omega)
    rw [if_neg (by omega)] at this
    exact congrArg _ this
  · simp [hi]

theorem bitsOf_setBit_same {w : Nat} (x : BitVec w) (b : Bool) {k : Nat} (hk : k < w) : bitsOf (setBit x k b) k 1 = b2n b := by
  have hbit := getLsbD_setBit x k b hk
  rw [if_pos rfl, BitVec.getLsbD, Nat.testBit_eq_decide_div_mod_eq] at hbit
  rw [bitsOf, pow_one]
  cases b
  · rw [decide_eq_false_iff_not] at hbit
    exact Nat.mod_two_ne_one.1 hbit
  · exact of_decide_eq_true hbit

/-- A record of 64 bytes after a write of its first 8. -/
theorem State.leNat_devRead_devWrite_first {s : State} (h : s.MemOk) (a : Nat) {v : Nat} (hv : v < 2 ^ 64) :
    leNat ((s.devWrite a (leBytes 8 v)).devRead a 64) = v + 2 ^ 64 * (leNat (s.devRead a 64) / 2 ^ 64) := by
  have hok : (s.devWrite a (leBytes 8 v)).MemOk := State.devWrite_memOk s a _ h
  have hfirst : (s.devWrite a (leBytes 8 v)).devRead a 8 = leBytes 8 v := by
    have hread := State.devRead_devWrite h a (leBytes 8 v)
    rwa [length_leBytes] at hread
  have hrest : (s.devWrite a (leBytes 8 v)).devRead (a + 8) 56 = s.devRead (a + 8) 56 := by
    rw [State.devRead, State.mem_devWrite]
    exact memRead_memWrite_other h.1 a (a + 8) 56 _ (.inr (by rw [length_leBytes]))
  have hlt : leNat (s.devRead a 8) < 2 ^ 64 := leNat_memRead_lt h.1 a 8
  have hlen : (s.devRead a 8).length = 8 := by rw [State.devRead, memRead_eq h.1, List.length_map, List.length_range]
  have hsplit {t : State} (ht : t.MemOk) : t.devRead a 64 = t.devRead a 8 ++ t.devRead (a + 8) 56 := memRead_add ht.1 a 8 56
  rw [hsplit hok, hsplit h, hfirst, hrest, leNat_append, leNat_append, length_leBytes, hlen, leNat_leBytes hv,
    Nat.add_mul_div_left _ _ (Nat.two_pow_pos 64), Nat.div_eq_of_lt hlt, Nat.zero_add]

/-! ### A publish at its home (07 R164) -/

/-- What a write of memory leaves of a die. -/
theorem State.read_die_devWrite {α : Type} {read : Die → α} (h : ∀ x cores, read { x with cores := cores } = read x)
    (s : State) (pa : Nat) (bs : List Byte) (d : Fin 8) : read ((s.devWrite pa bs).die d) = read (s.die d) := by
  unfold State.devWrite State.markDirty
  split
  · refine read_foldl_of_frame (read := fun s : State => read (s.die d)) (fun s r _ => ?_) _
    by_cases hd : Fin.ofNat 8 ((pa / 4096 + r) / 2 ^ 18) = d
    · subst hd
      exact (congrArg read (State.die_updDie ..)).trans (h ..)
    · dsimp only
      rw [State.updCore, State.die_updDie_ne s hd]
  · rfl

/-- The first word of a descriptor that has been published. -/
def published (d : Nat) : BitVec 64 :=
  setField (setBit (BitVec.ofNat 64 d) 1 (pbSel d == 0)) 32 32 ((pbGen d + 1) % 2 ^ 32)

theorem published_sel (d : Nat) : (published d).toNat / 2 % 2 = 1 - pbSel d := by
  have hfield : bitsOf (published d) 1 1 = b2n (pbSel d == 0) :=
    (bitsOf_setField_other _ _ (by decide) (.inr (by decide))).trans (bitsOf_setBit_same _ _ (by decide))
  have hsel : pbSel d = 0 ∨ pbSel d = 1 := Nat.mod_two_eq_zero_or_one _
  rw [bitsOf, pow_one] at hfield
  rw [hfield]
  obtain hsel | hsel := hsel <;> rw [hsel] <;> rfl

theorem published_gen (d : Nat) : (published d).toNat / 2 ^ 32 % 2 ^ 32 = (pbGen d + 1) % 2 ^ 32 :=
  bitsOf_setField_same _ (by decide) (Nat.mod_lt _ (by decide))

theorem published_rest (d : Nat) : (published d).toNat % 2 = d % 2 ∧
    (published d).toNat / 2 ^ 2 % 2 ^ 30 = d / 2 ^ 2 % 2 ^ 30 := by
  have hkept {lo n : Nat} (hlo : 1 < lo ∨ lo + n ≤ 1) (hn : lo + n ≤ 32) :
      bitsOf (published d) lo n = bitsOf (BitVec.ofNat 64 d) lo n :=
    (bitsOf_setField_other _ _ (by omega) (.inr hn)).trans (bitsOf_setBit_other _ _ hlo (by omega))
  have hvalid := hkept (lo := 0) (n := 1) (by decide) (by decide)
  have howner := hkept (lo := 2) (n := 30) (by decide) (by decide)
  simp only [bitsOf, BitVec.toNat_ofNat] at hvalid howner
  omega

section
variable {s : State} {hd : Fin 8} {idx kind : Nat} {latched : BitVec 32} {die : Fin 8} {core : Nat}

theorem State.pubStep_outside (h : ¬((s.die hd).pbEn = true ∧ idx < (s.die hd).npb)) :
    s.pubStep hd idx kind latched die core = (s, 1) := by
  rw [not_and_or, Bool.not_eq_true, Nat.not_lt] at h
  rw [State.pubStep]
  exact if_pos (h.imp_left fun h => by rw [h]; rfl)

variable (henabled : (s.die hd).pbEn = true) (hidx : idx < (s.die hd).npb)
include henabled hidx

theorem State.pubStep_of_poisoned (hbad : s.poisoned ((s.die hd).pbAddr idx) 64 = true) :
    s.pubStep hd idx kind latched die core = (s.recordUnits ((s.die hd).pbAddr idx) 64 4 die core, 4) := by
  rw [State.pubStep]
  dsimp only
  rw [if_neg (by simp [henabled, hidx]), if_pos hbad]

/-- A publish of a good descriptor inside the table. -/
theorem State.pubStep_of_good (hgood : s.poisoned ((s.die hd).pbAddr idx) 64 = false) :
    s.pubStep hd idx kind latched die core =
      if pbV (s.pbDesc hd idx) = false then (s, 1)
      else if (kind = 0 ∨ kind = 3) ∧ pbOwn (s.pbDesc hd idx) ≠ 0 ∨ kind = 1 ∧ pbOwn (s.pbDesc hd idx) ≠ 1 ∨
          kind = 2 ∧ pbOwn (s.pbDesc hd idx) ≠ 2 then (s, 2)
      else if kind = 3 ∧ pbGen (s.pbDesc hd idx) ≠ latched.toNat then (s, 3)
      else ((s.devWrite ((s.die hd).pbAddr idx) (leBytes 8 (published (s.pbDesc hd idx)).toNat)).updDie hd
        fun x => { x with pubcnt := x.pubcnt + 1 }, 0) := by
  rw [State.pubStep]
  dsimp only
  rw [if_neg (by simp [henabled, hidx]), if_neg (by simp [hgood])]
  simp only [Bool.not_eq_true']
  rfl

end

/-- Only a poisoned descriptor answers 4. -/
theorem State.pubStep_status {s : State} {hd : Fin 8} {idx : Nat} {latched : BitVec 32} {kind : Nat} {die : Fin 8} {core : Nat}
    (h : ¬((s.die hd).pbEn = true ∧ idx < (s.die hd).npb ∧ s.poisoned ((s.die hd).pbAddr idx) 64 = true)) :
    (s.pubStep hd idx kind latched die core).2 ≠ 4 := by
  by_cases hin : (s.die hd).pbEn = true ∧ idx < (s.die hd).npb
  · obtain ⟨henabled, hidx⟩ := hin
    rw [State.pubStep_of_good henabled hidx (Bool.eq_false_of_not_eq_true fun hbad => h ⟨henabled, hidx, hbad⟩)]
    split
    · exact Nat.ne_of_beq_eq_false rfl
    · split
      · exact Nat.ne_of_beq_eq_false rfl
      · split <;> exact Nat.ne_of_beq_eq_false rfl
  · rw [State.pubStep_outside hin]
    exact Nat.ne_of_beq_eq_false rfl

/-- The descriptor after a publish that is performed. -/
theorem State.pbDesc_published {s : State} (hok : s.MemOk) (hd : Fin 8) (idx : Nat) :
    ((s.devWrite ((s.die hd).pbAddr idx) (leBytes 8 (published (s.pbDesc hd idx)).toNat)).updDie hd
      fun x => { x with pubcnt := x.pubcnt + 1 }).pbDesc hd idx =
        (published (s.pbDesc hd idx)).toNat + 2 ^ 64 * (s.pbDesc hd idx / 2 ^ 64) := by
  have haddr (pa : Nat) (bs : List Byte) :
      (((s.devWrite pa bs).updDie hd fun x => { x with pubcnt := x.pubcnt + 1 }).die hd).pbAddr idx =
      (s.die hd).pbAddr idx := by
    rw [State.die_updDie]
    exact State.read_die_devWrite (read := fun x => x.pbAddr idx) (fun _ _ => rfl) s pa bs hd
  rw [State.pbDesc, haddr]
  exact State.leNat_devRead_devWrite_first hok _ (published (s.pbDesc hd idx)).isLt

theorem State.pubcnt_published (s : State) (hd : Fin 8) (pa : Nat) (bs : List Byte) :
    (((s.devWrite pa bs).updDie hd fun x => { x with pubcnt := x.pubcnt + 1 }).die hd).pubcnt = (s.die hd).pubcnt + 1 := by
  rw [State.die_updDie]
  exact congrArg (· + 1) (State.read_die_devWrite (read := Die.pubcnt) (fun _ _ => rfl) s pa bs hd)

/-! ### The guards of a `pub` (13 R323) -/

theorem State.mayPublish_iff (s : State) (id : CtxId) (hd : Fin 8) (idx : Nat) : s.mayPublish id hd idx = true ↔
    (∀ o, o ∈ s.opsOf id → ∀ l, l ∈ o.latches → ¬(l.die = hd ∧ l.idx.toNat = idx)) ∧
      ∀ q, q ∈ s.joist.peerReqs → q.of id = false := by
  rw [State.mayPublish, Bool.and_eq_true, decide_eq_true_iff, State.peerPieces_eq_zero_iff]
  simp [State.latchedBy]

/-- A bundle that a fence of the context holds (13 R319). -/
theorem State.holdUp_of_fencing {s : State} {ops : List Op} (hfencing : s.cx.fencing = true) (hpieces : 0 < s.peerPieces s.cur)
    (hops : usesMXC (liveOps s.cx ops) = true) : s.holdUp ops = some (s.setNext s.cur.die s.cur.core (s.cycle + 1)) := by
  rw [State.holdUp]
  dsimp only
  rw [hfencing, hops, decide_eq_true hpieces]
  exact ite_eq_left_iff.2 fun _ => if_pos rfl

end Sys2Proof.Machine

namespace Sys2Proof.Claims
open Machine

theorem pbEn_iff (x : Die) : x.pbEn = true ↔ x.pbcfg.toNat % 2 = 1 := by
  rw [Die.pbEn, bit_zero_eq_decide, decide_eq_true_iff]

theorem pbV_iff (d : Nat) : pbV d = true ↔ d % 2 = 1 := beq_iff_eq

theorem not_invalid {d : Nat} (h : d % 2 = 1) : ¬pbV d = false := by
  rw [Bool.not_eq_false]
  exact (pbV_iff d).2 h

/-- The kinds of publishers and the owners that they may publish for. -/
theorem owner_of_kind (kind : Fin 4) (owner : Nat) :
    ((kind.val = 0 ∨ kind.val = 3) ∧ owner ≠ 0 ∨ kind.val = 1 ∧ owner ≠ 1 ∨ kind.val = 2 ∧ owner ≠ 2) ↔
      ¬owner = if kind = 1 then 1 else if kind = 2 then 2 else 0 := by
  match kind with
  | 0 => simp
  | 1 => simp
  | 2 => simp
  | 3 => simp

theorem publish_poisoned {s : State} {hd : Fin 8} {idx kind : Nat} {latched : BitVec 32} {die : Fin 8} {core : Nat}
    (henabled : (s.die hd).pbEn = true) (hidx : idx < (s.die hd).npb) (hbad : s.poisoned ((s.die hd).pbAddr idx) 64 = true) :
    let t := s.publish hd idx die core
    let b := s.pubStep hd idx kind latched die core
    b.2 = 4 ∧ b.1.mem = s.mem ∧ b.1.poison = s.poison ∧ t.2 = (0, true) ∧ t.1.mem = s.mem ∧ t.1.poison = s.poison := by
  dsimp only
  rw [State.publish, State.pubStep_of_poisoned henabled hidx hbad, State.pubStep_of_poisoned henabled hidx hbad]
  exact ⟨rfl, apart_mem.recordUnits .., apart_poison.recordUnits .., rfl,
    apart_mem.recordUnits .., apart_poison.recordUnits ..⟩

theorem publish_of_status {s : State} {hd : Fin 8} {idx : Nat} {die : Fin 8} {core : Nat}
    (h : (s.pubStep hd idx 0 0 die core).2 ≠ 4) : s.publish hd idx die core =
      ((s.pubStep hd idx 0 0 die core).1, (s.pubStep hd idx 0 0 die core).2, false) := by
  rw [State.publish]
  exact if_neg h

/-- The state in which a `pub` on a publishable buffer is decided: the stores of the context are home, and its request counts. -/
def pubReady (s u : State) (hd : Fin 8) : State :=
  (u.flushHeld s.cur).updCx fun c => if s.cur.die = hd then { c with mrql := c.mrql + 1 } else { c with mrqr := c.mrqr + 1 }

theorem countPub_eq (id : CtxId) (hd : Fin 8) : (fun c : Ctx => c.countPub (id.die == hd)) =
    fun c => if id.die = hd then { c with mrql := c.mrql + 1 } else { c with mrqr := c.mrqr + 1 } := by
  funext c
  simp [Ctx.countPub]

section
variable {s u : State} {g r : BitVec 4} {d : BitVec 6} {leaf : W64} {big : Bool} {e : Option Nat}
  (hleaf : s.findLeaf (s.cx.req s.cur .store false false) (s.rA r) = (u, .ok (leaf, big, e)))
include hleaf

theorem runs_pub_of_plain (hpbuf : part leaf.toNat 58 1 = 0) : Runs s g (.pub g d r) (u.updCx fun c =>
    c.addPend ⟨u.cycle + 1, [], lowBytes 8 1, if d = 0 then .given [] else .scalar (c.nameS d) 8 false, 0, false, [], true,
      false⟩) := by
  have hplain : lfPbuf leaf = false := by rw [lfPbuf, bit_eq_decide_part, hpbuf]; rfl
  refine runs_of_slotOp (by rfl) ?_
  simp only [hleaf, hplain]
  rfl

/-- A `pub` with the rights to write the page of its buffer. -/
theorem runs_pub_of_allowed {t : State} (hpbuf : part leaf.toNat 58 1 = 1) (hK : part leaf.toNat 3 1 = 0)
    (hW : part leaf.toNat 1 1 = 1) (hkey : part s.cx.arch.pkr.toNat (2 * part leaf.toNat 52 5 + 1) 1 = 0)
    (ht : let hd : Fin 8 := Fin.ofNat 8 (part leaf.toNat 16 3)
      let idx := part leaf.toNat 19 12
      let v := pubReady s u hd
      let l := placeLatency s.cur ⟨.dev, (u.die hd).pbAddr idx, 0, none⟩
      let reply (s : State) (st : Nat) (bad : Bool) (ws : List Await) : State := s.updCx fun c =>
        c.addPend ⟨s.cycle + l, ws, lowBytes 8 st, if d = 0 then .given [] else .scalar (c.nameS d) 8 false, 0, bad, [], true,
          false⟩
      (if v.mayPublish s.cur hd idx then
        reply (v.publish hd idx s.cur.die s.cur.core).1 (v.publish hd idx s.cur.die s.cur.core).2.1
          (v.publish hd idx s.cur.die s.cur.core).2.2 []
      else reply v 0 false (pubAwait hd idx :: v.pubPieces s.cur)) = t) :
    Runs s g (.pub g d r) t := by
  have hpbuf' : lfPbuf leaf = true := by rw [lfPbuf, bit_eq_decide_part, hpbuf]; rfl
  have hK' : lfK leaf = false := by rw [lfK, bit_eq_decide_part, hK]; rfl
  have hW' : lfW leaf = true := by rw [lfW, bit_eq_decide_part, hW]; rfl
  have hkey' : denied (s.cx.req s.cur .store false false).pkr (lfKey leaf) true = false := by
    have hclear : part (s.cx.req s.cur .store false false).pkr.toNat (2 * lfKey leaf + b2n true) 1 = 0 := hkey
    rw [denied, bit_eq_decide_part, hclear]
    rfl
  refine runs_of_slotOp (by rfl) (Eq.trans ?_ ht)
  dsimp only
  rw [hleaf]
  dsimp only
  rw [hpbuf', hK', hW', if_neg (by simp), if_neg (by simp), if_neg (by simp), if_neg (by rw [hkey']; decide), countPub_eq]
  simp only [leBytes_eq_lowBytes]
  rfl

end

/-- A publish at the home of a good descriptor. -/
theorem pubStep_at_home {s : State} (hok : s.MemOk) (hd : Fin 8) (idx : BitVec 12) (kind : Fin 4) (latched : BitVec 32)
    (hgood : s.poisoned ((s.die hd).pbAddr idx.toNat) 64 = false) :
    let x := s.die hd
    let b := s.pbDesc hd idx.toNat
    let t := s.pubStep hd idx.toNat kind.val latched hd 0
    let b' := t.1.pbDesc hd idx.toNat
    let inside := x.pbcfg.toNat % 2 = 1 ∧ idx.toNat < min 4096 (part x.pbcfg.toNat 4 13) ∧ b % 2 = 1
    let owned := part b 2 2 = (if kind = 1 then 1 else if kind = 2 then 2 else 0)
    let raced := kind = 3 ∧ part b 32 32 ≠ latched.toNat
    (¬inside → t = (s, 1)) ∧ (inside → ¬owned → t = (s, 2)) ∧ (inside → owned → raced → t = (s, 3)) ∧
      (inside → owned → ¬raced → t.2 = 0 ∧ (t.1.die hd).pubcnt = x.pubcnt + 1 ∧ part b' 1 1 = 1 - part b 1 1 ∧
        part b' 32 32 = (part b 32 32 + 1) % 2 ^ 32 ∧ b' % 2 = 1 ∧
        part b' 2 30 = part b 2 30 ∧ b' / 2 ^ 64 = b / 2 ^ 64) := by
  intro x b t b' inside owned raced
  have hstep (hin : x.pbcfg.toNat % 2 = 1 ∧ idx.toNat < min 4096 (part x.pbcfg.toNat 4 13)) :=
    State.pubStep_of_good (kind := kind.val) (latched := latched) (die := hd) (core := 0) ((pbEn_iff x).2 hin.1) hin.2 hgood
  refine ⟨fun hout => ?_, fun ⟨hen, hidx, hV⟩ howned => ?_, fun ⟨hen, hidx, hV⟩ howned hraced => ?_,
    fun ⟨hen, hidx, hV⟩ howned hraced => ?_⟩
  · by_cases hin : x.pbcfg.toNat % 2 = 1 ∧ idx.toNat < min 4096 (part x.pbcfg.toNat 4 13)
    · refine (hstep hin).trans (if_pos (Bool.eq_false_of_not_eq_true fun hV => ?_))
      exact hout ⟨hin.1, hin.2, (pbV_iff b).1 hV⟩
    · exact State.pubStep_outside fun h => hin ⟨(pbEn_iff x).1 h.1, h.2⟩
  · refine (hstep ⟨hen, hidx⟩).trans ?_
    rw [if_neg (not_invalid hV)]
    exact if_pos ((owner_of_kind kind _).2 howned)
  · have howner := mt (owner_of_kind kind (pbOwn b)).1 (not_not.2 howned)
    obtain ⟨hkind, hgen⟩ := hraced
    refine (hstep ⟨hen, hidx⟩).trans ?_
    rw [if_neg (not_invalid hV), if_neg howner, if_pos ⟨congrArg Fin.val hkind, hgen⟩]
  · have howner := mt (owner_of_kind kind (pbOwn b)).1 (not_not.2 howned)
    have hrace : ¬(kind.val = 3 ∧ pbGen b ≠ latched.toNat) := fun ⟨hkind, hgen⟩ => hraced ⟨Fin.ext hkind, hgen⟩
    have ht : t = ((s.devWrite (x.pbAddr idx.toNat) (leBytes 8 (published b).toNat)).updDie hd
        fun x => { x with pubcnt := x.pubcnt + 1 }, 0) := by
      refine (hstep ⟨hen, hidx⟩).trans ?_
      rw [if_neg (not_invalid hV), if_neg howner, if_neg hrace]
    have hb' : b' = (published b).toNat + 2 ^ 64 * (b / 2 ^ 64) :=
      (congrArg (fun t : State × Nat => t.1.pbDesc hd idx.toNat) ht).trans (State.pbDesc_published hok hd idx.toNat)
    have hlt := (published b).isLt
    have hsel := published_sel b
    have hgen := published_gen b
    obtain ⟨hvalid, hrest⟩ := published_rest b
    refine ⟨congrArg Prod.snd ht, ?_, ?_, ?_, ?_, ?_, ?_⟩
    · exact (congrArg (fun t : State × Nat => (t.1.die hd).pubcnt) ht).trans (State.pubcnt_published ..)
    · rw [part, part, hb']
      rw [pbSel] at hsel
      omega
    · rw [part, part, hb']
      rw [pbGen] at hgen
      omega
    · omega
    · rw [part, part, hb']
      omega
    · omega

/-- Settles O16: a `pub` acts once its guards pass, and a publish writes the first word of its descriptor alone, whose fields read
back as they were set. -/
theorem fencePublish : Obligations.FencePublish := by
  refine ⟨fun s g k n => ⟨fun hk hheld => ?_, fun hk hheld => ?_, fun hk => ?_⟩, fun s ops hfencing hpieces hop => ?_,
    fun s u g r d leaf big e => ?_, fun s hd idx kind core latched die => ⟨fun hbad => ?_, fun hbad hkind hlatched => ?_⟩,
    fun s hd idx kind latched hok => ⟨rfl, fun hgood => pubStep_at_home hok hd idx kind latched hgood⟩⟩
  · refine runs_of_slotOp (by rfl) ?_
    rw [if_neg hk, State.commitEarly_of_empty hheld]
  · refine runs_of_slotOp (by rfl) ?_
    rw [if_neg hk, State.commitEarly_of_held hheld]
  · refine runs_of_slotOp (by rfl) ?_
    have hcur : (s.flushHeld s.cur).cur = s.cur := congrArg Prod.snd (s.moment_flushHeld s.cur)
    rw [if_pos hk]
    dsimp only
    rw [hcur]
    rfl
  · obtain ⟨q, hq, hof⟩ := hpieces
    obtain ⟨o, ho, hguard, hslot⟩ := hop
    refine State.holdUp_of_fencing hfencing ?_ ?_
    · exact List.length_pos_of_mem (List.mem_filter.2 ⟨hq, hof⟩)
    · refine List.any_eq_true.2 ⟨o, List.mem_filter.2 ⟨ho, hguard⟩, ?_⟩
      simpa [or_assoc] using hslot
  · intro reply hleaf
    refine ⟨fun hpbuf => runs_pub_of_plain hleaf hpbuf, fun hpbuf hK hW hkey => ⟨fun hready => ?_, fun hwait => ?_⟩⟩
    · exact runs_pub_of_allowed hleaf hpbuf hK hW hkey (if_pos ((State.mayPublish_iff ..).2 hready))
    · exact runs_pub_of_allowed hleaf hpbuf hK hW hkey (if_neg (mt (State.mayPublish_iff ..).1 hwait))
  · obtain ⟨hen, hidx, hpoison⟩ := hbad
    exact publish_poisoned ((pbEn_iff _).2 hen) hidx hpoison
  · subst hkind hlatched
    exact publish_of_status (State.pubStep_status fun ⟨hen, hidx, hpoison⟩ => hbad ⟨(pbEn_iff _).1 hen, hidx, hpoison⟩)

end Sys2Proof.Claims

/-! Read-modify-writes and reductions (13 R312 to R317, 07 R170): the update at its home, and the arrival that follows a
reduction; from these O15. -/

namespace Sys2Proof.Machine

/-! ### An update of a part in storage (07 R170) -/

section
variable {s : State} {p : Part} {f : Update} (hdev : p.loc.space = .dev)
include hdev

theorem State.updatePart_dev (id : CtxId) (acc : AccKind) (code : Nat) (data : List Byte) (ret : Bool) :
    s.updatePart id acc p f code data ret =
      ((s.updateAt p.loc.addr p.n f id.die id.core 4).1, ⟨(s.updateAt p.loc.addr p.n f id.die id.core 4).2.1,
        (s.updateAt p.loc.addr p.n f id.die id.core 4).2.2.1, (s.updateAt p.loc.addr p.n f id.die id.core 4).2.2.2, []⟩) := by
  rw [State.updatePart, hdev]

theorem State.updatePart_of_some (hgood : s.poisoned p.loc.addr p.n = false) {v : Nat} {fl : Flags}
    (hf : f (leNat (s.devRead p.loc.addr p.n)) = (some v, fl)) (id : CtxId) (acc : AccKind) (code : Nat) (data : List Byte)
    (ret : Bool) : s.updatePart id acc p f code data ret =
      (s.devWrite p.loc.addr (leBytes p.n v), ⟨leNat (s.devRead p.loc.addr p.n), fl, false, []⟩) := by
  rw [State.updatePart_dev hdev]
  simp [State.updateAt, hgood, hf]

theorem State.updatePart_of_none (hgood : s.poisoned p.loc.addr p.n = false) {fl : Flags}
    (hf : f (leNat (s.devRead p.loc.addr p.n)) = (none, fl)) (id : CtxId) (acc : AccKind) (code : Nat) (data : List Byte)
    (ret : Bool) : s.updatePart id acc p f code data ret = (s, ⟨leNat (s.devRead p.loc.addr p.n), fl, false, []⟩) := by
  rw [State.updatePart_dev hdev]
  simp [State.updateAt, hgood, hf]

theorem State.updatePart_of_poisoned (hbad : s.poisoned p.loc.addr p.n = true) (id : CtxId) (acc : AccKind) (code : Nat)
    (data : List Byte) (ret : Bool) : s.updatePart id acc p f code data ret =
      (s.recordAt p.loc.addr 4 id.die id.core, ⟨0, 0, true, []⟩) := by
  rw [State.updatePart_dev hdev]
  simp [State.updateAt, hbad]

end

theorem Apart.recordAt {α : Type} {read : State → α} (h : Apart read) (s : State) (a src : Nat) (die : Fin 8) (core : Nat) :
    read (s.recordAt a src die core) = read s := by
  rw [State.recordAt]
  split <;> exact h.recordError ..

/-! ### The arrival after a reduction (06 R156, 13 R317) -/

theorem State.isSelf_iff (s : State) (m : BitVec 9) : s.isSelf m = true ↔ s.joist.mvalid = true ∧ m = s.joist.member := by
  rw [State.isSelf, Bool.and_eq_true, beq_iff_eq]

theorem State.refusesPart_iff (s : State) (p : Part) : s.refusesPart p = true ↔
    ∃ m, p.loc.space = .peer m ∧ (s.joist.mvalid = false ∨ m = s.joist.member ∧ peerRefuses p.loc.addr = true) := by
  unfold State.refusesPart
  cases p.loc.space with
  | peer m =>
    cases h : s.joist.mvalid <;> simp [State.isSelf, h]
  | dev => simp
  | host => simp
  | ctrl => simp

/-- Whether a part's data lies in another package. -/
def State.sendsPart (s : State) (p : Part) : Bool :=
  match p.loc.space with | .peer m => s.joist.mvalid && !s.isSelf m | _ => false

theorem State.sendsPart_iff (s : State) (p : Part) : s.sendsPart p = true ↔
    ∃ m, p.loc.space = .peer m ∧ s.joist.mvalid = true ∧ m ≠ s.joist.member := by
  unfold State.sendsPart
  cases p.loc.space with
  | peer m =>
    cases h : s.joist.mvalid <;> simp [State.isSelf, h]
  | dev => simp
  | host => simp
  | ctrl => simp

section
variable {s : State} {p : Part} (id : CtxId) (pa : Nat)

theorem State.arriveAfter_eq : s.arriveAfter id [p] pa =
    if s.refusesPart p then s
    else match (if s.sendsPart p then s.joist.peerReqs.getLast? else none) with
      | some r => s.updJoist fun j => { j with peerReqs := j.peerReqs.dropLast ++ [{ r with arrive := some pa }] }
      | none => (s.arrival pa id.die id.core).1 := by
  simp only [State.arriveAfter, List.any_cons, List.any_nil, Bool.or_false]
  rfl

theorem State.arriveAfter_of_refused (h : s.refusesPart p = true) : s.arriveAfter id [p] pa = s := by
  rw [State.arriveAfter_eq, if_pos h]

theorem State.arriveAfter_here (h : ¬s.refusesPart p = true) (hhere : ¬s.sendsPart p = true) :
    s.arriveAfter id [p] pa = (s.arrival pa id.die id.core).1 := by
  rw [State.arriveAfter_eq, if_neg h, if_neg hhere]

theorem State.arriveAfter_away (h : s.sendsPart p = true) {rs : List PeerReq} {k : PeerReq}
    (hlast : s.joist.peerReqs = rs ++ [k]) :
    s.arriveAfter id [p] pa = { s with joist := { s.joist with peerReqs := rs ++ [{ k with arrive := some pa }] } } := by
  have hallowed : ¬s.refusesPart p = true := by
    intro hrefused
    obtain ⟨m, hm, hvalid, hother⟩ := (s.sendsPart_iff p).1 h
    obtain ⟨m', hm', hno⟩ := (s.refusesPart_iff p).1 hrefused
    cases hm.symm.trans hm'
    simp [hvalid, hother] at hno
  rw [State.arriveAfter_eq, if_neg hallowed, if_pos h, hlast, List.getLast?_concat]
  simp only [State.updJoist, hlast, List.dropLast_concat]

end

end Sys2Proof.Machine

namespace Sys2Proof.Claims
open Machine

/-! ### The operations (13 R312 to R317) -/

theorem opCode_eq_flitOp (group index op : Nat) (z : BitVec 1) : opCode group index op (z == 1) = flitOp group index op z := by
  have hz : ∀ z : BitVec 1, b2n (z == 1) = z.toNat := by decide
  rw [opCode, hz, flitOp]

/-- A returning atomic at one allowed part. -/
theorem atomic_of_modifies {s u v : State} {r : BitVec 4} {n : Nat} {host : Bool} {p : Part} {f : Update} {code : Nat}
    {data : List Byte} {y : Reply} (h : Modifies s .rmw true r n host false p u)
    (hupdate : u.updatePart s.cur .rmw p f code data true = (v, y)) (d : BitVec 6) :
    s.atomic d r n host f code data = answered s v p d n y := by
  obtain ⟨s', haccess, rfl⟩ := h
  replace haccess : s.access s.cur { s.cx.req s.cur .rmw true true with atom := some (n, host) } [⟨s.rA r, n⟩] =
    (s', .ok [p]) := haccess
  simp only [State.atomic, haccess, hupdate]
  rfl

/-- A reduction at one allowed part. -/
theorem reduce_of_modifies {s u : State} {r : BitVec 4} {n : Nat} {host add : Bool} {p : Part}
    (h : Modifies s .reduction false r n host add p u) (f : Update) (code : Nat) (data : List Byte) :
    s.reduce r n host add f code data = (u.updatePart s.cur .reduction p f code data false).1 := by
  obtain ⟨s', haccess, rfl⟩ := h
  simp only [State.reduce, haccess]
  rfl

/-- The checks of a reduction that names a barrier, both passed, and the state in which its update is performed. -/
structure BothAllowed (s : State) (r q : BitVec 4) (n : Nat) (add : Bool) (p e : Part) (v w u : State) : Prop where
  data : s.checkFor s.cur { s.cx.req s.cur .reduction false true with atom := some (n, false), add := add } [⟨s.rA r, n⟩] =
    (v, .ok [p])
  object : v.checkFor s.cur { s.cx.req s.cur .store false true with barrier := true } [⟨s.rA q, 64⟩] = (w, .ok [e])
  home : u = (((w.setDirtyLeaves { s.cx.req s.cur .reduction false true with atom := some (n, false), add := add }
      [p]).setDirtyLeaves { s.cx.req s.cur .store false true with barrier := true } [e]).updCx
        fun c => c.countRequests s.cur.die [p, e]).flushHeld s.cur

theorem BothAllowed.cur {s v w u : State} {r q : BitVec 4} {n : Nat} {add : Bool} {p e : Part}
    (h : BothAllowed s r q n add p e v w u) (a b : Req) : ((w.setDirtyLeaves a [p]).setDirtyLeaves b [e]).cur = s.cur := by
  have hv : v.cur = s.cur := by
    have hscene := s.scene_checkFor s.cur { s.cx.req s.cur .reduction false true with atom := some (n, false), add := add }
      [⟨s.rA r, n⟩]
    rw [h.data] at hscene
    exact State.cur_of_scene hscene
  have hw : w.cur = v.cur := by
    have hscene := v.scene_checkFor s.cur { s.cx.req s.cur .store false true with barrier := true } [⟨s.rA q, 64⟩]
    rw [h.object] at hscene
    exact State.cur_of_scene hscene
  have hdirty (t : State) (x : Req) (ps : List Part) : (t.setDirtyLeaves x ps).cur = t.cur :=
    congrArg Prod.snd (besideTables_moment.setDirtyLeaves t x ps)
  rw [hdirty, hdirty, hw, hv]

theorem reduceBar_of_allowed {s v w u : State} {r q : BitVec 4} {n : Nat} {add : Bool} {p e : Part}
    (h : BothAllowed s r q n add p e v w u) (f : Update) (code : Nat) (data : List Byte) :
    s.reduceBar r q n add f code data =
      (u.updatePart s.cur .reduction p f code data false).1.arriveAfter s.cur [p] e.loc.addr := by
  have hcur := h.cur
  obtain ⟨hdata, hobject, rfl⟩ := h
  simp only [State.reduceBar, hdata, Ctx.barrierReq, hobject, State.updCx, hcur]
  rfl

/-- What a reduction that names a barrier comes to, once its update is made. -/
theorem arrives_of_arriveAfter {s x : State} {g : BitVec 4} {i : Instr} {p e : Part}
    (h : ∀ t, x.arriveAfter s.cur [p] e.loc.addr = t → Runs s g i t) :
    ((∃ m, p.loc.space = .peer m ∧ (x.joist.mvalid = false ∨ m = x.joist.member ∧ peerRefuses p.loc.addr = true)) →
      Runs s g i x) ∧
    (¬(∃ m, p.loc.space = .peer m ∧ (x.joist.mvalid = false ∨ m = x.joist.member ∧ peerRefuses p.loc.addr = true)) →
      ¬(∃ m, p.loc.space = .peer m ∧ x.joist.mvalid = true ∧ m ≠ x.joist.member) →
      Runs s g i (x.arrival e.loc.addr s.cur.die s.cur.core).1) ∧
    ((∃ m, p.loc.space = .peer m ∧ x.joist.mvalid = true ∧ m ≠ x.joist.member) → ∀ rs k, x.joist.peerReqs = rs ++ [k] →
      Runs s g i { x with joist := { x.joist with peerReqs := rs ++ [{ k with arrive := some e.loc.addr }] } }) := by
  simp only [← State.refusesPart_iff, ← State.sendsPart_iff]
  exact ⟨fun hrefused => h _ (State.arriveAfter_of_refused _ _ hrefused),
    fun hallowed hhere => h _ (State.arriveAfter_here _ _ hallowed hhere),
    fun haway rs k hlast => h _ (State.arriveAfter_away _ _ haway hlast)⟩

/-- Settles O15: an operation with one allowed part performs the update of that part, and an update in storage reads the old
value and writes the new one whole. -/
theorem atomicResults : Obligations.AtomicResults := by
  refine ⟨fun s g d r f b z o p u v y => ⟨fun h hupdate => ?_, fun h hupdate => ?_, fun ho h hupdate => ?_⟩,
    fun s g r q f b z o p e u v w => ⟨fun ho h => ?_, fun ho h => ?_, fun ho ⟨hdata, hobject, hhome⟩ => ?_,
      fun ho ⟨hdata, hobject, hhome⟩ => ?_⟩,
    fun s id acc p op x cmp code data ret hdev hn hx hop hok =>
      ⟨fun hgood => ⟨⟨_, newValue_amoNew (storedAt_lt hok _ _) hx op, ?_⟩,
      ?_, fun hn hop => ?_⟩, fun hbad f => ?_⟩⟩
  · rw [BitVec.ofNat_toNat, ← leBytes_eq_lowBytes, ← opCode_eq_flitOp] at hupdate
    exact runs_of_slotOp (by rfl) (atomic_of_modifies h hupdate d)
  · rw [BitVec.ofNat_toNat, ← leBytes_eq_lowBytes, ← leBytes_eq_lowBytes, ← opCode_eq_flitOp] at hupdate
    exact runs_of_slotOp (by rfl) (atomic_of_modifies h hupdate d)
  · rw [BitVec.ofNat_toNat, ← leBytes_eq_lowBytes, ← opCode_eq_flitOp] at hupdate
    exact runs_of_slotOp (by rfl) (atomic_of_modifies h hupdate d)
  · rw [← leBytes_eq_lowBytes, ← opCode_eq_flitOp]
    refine runs_of_slotOp (by rfl) ?_
    rw [beq_eq_decide]
    exact reduce_of_modifies h _ _ _
  · rw [← leBytes_eq_lowBytes, ← opCode_eq_flitOp]
    exact runs_of_slotOp (by rfl) (reduce_of_modifies h _ _ _)
  · rw [← leBytes_eq_lowBytes, ← opCode_eq_flitOp]
    refine arrives_of_arriveAfter fun t ht => ?_
    refine runs_of_slotOp (by rfl) ?_
    rw [beq_eq_decide]
    exact (reduceBar_of_allowed ⟨hdata, hobject, hhome⟩ _ _ _).trans ht
  · rw [← leBytes_eq_lowBytes, ← opCode_eq_flitOp]
    refine arrives_of_arriveAfter fun t ht => ?_
    exact runs_of_slotOp (by rfl) ((reduceBar_of_allowed ⟨hdata, hobject, hhome⟩ _ _ _).trans ht)
  · rw [← leBytes_eq_lowBytes]
    refine (State.updatePart_of_some hdev hgood rfl ..).trans ?_
    rw [leNat_devRead hok]
    rfl
  · split
    next heq =>
      rw [← leBytes_eq_lowBytes]
      refine (State.updatePart_of_some hdev hgood (Prod.ext (if_pos ((leNat_devRead hok ..).trans heq)) rfl) ..).trans ?_
      rw [leNat_devRead hok]
      rfl
    next hne =>
      have hdiffers := mt (leNat_devRead hok ..).symm.trans hne
      refine (State.updatePart_of_none hdev hgood (Prod.ext (if_neg hdiffers) rfl) ..).trans ?_
      rw [leNat_devRead hok]
      rfl
  · rw [← leBytes_eq_lowBytes, ← hn]
    refine (State.updatePart_of_some hdev hgood rfl ..).trans ?_
    rw [leNat_devRead hok]
    rfl
  · dsimp only
    rw [State.updatePart_of_poisoned hdev hbad]
    exact ⟨apart_poison.recordAt .., apart_mem.recordAt .., rfl⟩

end Sys2Proof.Claims

/-! The steps of the block-table unit on a list (04 R108, R111, R112): an append from its header to its token, and the list that a
release does not take. -/

namespace Sys2Proof.Machine

/-! ### What an event leaves of its die -/

/-- Of its own die an event changes only the event queue, so not what the block-table unit has seen. -/
theorem State.kvEmpty_postEvent (s : State) (d : Fin 8) (code : Nat) (src : EvSrc) (w1 w2 : Nat) :
    ((s.postEvent d code src w1 w2).die d).kvEmpty = (s.die d).kvEmpty := by
  unfold State.postEvent
  dsimp only
  split
  · rw [State.die_updDie]
  · rw [State.sendMsix_die, State.die_updDie]
    rfl

theorem State.ringEmpty_found (s : State) (d : Fin 8) :
    ((s.ringEmpty d).die d).kvEmpty = true ∧ (s.ringEmpty d).mem = s.mem := by
  unfold State.ringEmpty
  dsimp only
  split
  · exact ⟨congrArg Die.kvEmpty (State.die_updDie ..), rfl⟩
  · refine ⟨(State.kvEmpty_postEvent ..).trans (congrArg Die.kvEmpty (State.die_updDie ..)), ?_⟩
    rw [State.postEvent_mem, State.updDie_mem]

/-! ### A token's bytes (04 R98) -/

theorem leBytes_mod {m n : Nat} (hm : m = 8 * n) (v : Nat) : leBytes n (v % 2 ^ m) = leBytes n v := by
  subst hm
  induction n generalizing v with
  | zero => rfl
  | succ n ih =>
    have hlow : BitVec.ofNat 8 (v % 2 ^ (8 * (n + 1))) = BitVec.ofNat 8 v := by
      apply BitVec.eq_of_toNat_eq
      rw [BitVec.toNat_ofNat, BitVec.toNat_ofNat, Nat.mod_mod_of_dvd _ (Nat.pow_dvd_pow 2 (by omega))]
    have hhigh : v % 2 ^ (8 * (n + 1)) / 256 = v / 256 % 2 ^ (8 * n) := by
      rw [Nat.mul_succ, Nat.add_comm, Nat.pow_add, Nat.mod_mul_right_div_self]
    rw [leBytes, leBytes, hlow, hhigh, ih]

theorem State.writeToken_eq (s : State) (pa pos : Nat) (data : BitVec 32768) : s.writeToken pa pos data =
    (s.devWrite (pa + 2048 * pos) (leBytes 2048 data.toNat)).devWrite (pa + 32768 + 2048 * pos)
      (leBytes 2048 (data.toNat / 2 ^ 16384)) := by
  have hkey : leBytes 2048 (bitsOf data 0 16384) = leBytes 2048 data.toNat := by
    rw [bitsOf, Nat.pow_zero, Nat.div_one, leBytes_mod rfl]
  have hvalue : leBytes 2048 (bitsOf data 16384 16384) = leBytes 2048 (data.toNat / 2 ^ 16384) := by
    rw [bitsOf, leBytes_mod rfl]
  rw [State.writeToken, hkey, hvalue]

theorem slotVa_eq (list : W64) (j : Nat) : slotVa list j = BitVec.ofNat 64 (list.toNat + 8 + 4 * j) := by
  apply BitVec.eq_of_toNat_eq
  rw [slotVa, BitVec.toNat_add, BitVec.toNat_ofNat, BitVec.toNat_ofNat, Nat.add_mod_mod, Nat.add_assoc]

/-! ### The steps of an append (04 R108) -/

theorem goOn_got {x : State × ListBytes} {t : State} {bs : List Byte} (h : x = (t, .got bs))
    (go : State → List Byte → KvEnd) :
    goOn x go = go t bs := by
  subst h
  rfl

theorem goOn_fault {x : State × ListBytes} {t : State} (h : x = (t, .fault)) (go : State → List Byte → KvEnd) :
    goOn x go = .done badSeq t := by
  subst h
  rfl

section
variable {s u : State} {q : KvReq} {hd : List Byte} (hread : s.unitRead q q.list 8 = (u, .got hd))
include hread

theorem State.kvStep_append (happend : q.append = true) (hcopying : q.copying = none) (hplaced : q.placed = none) :
    s.kvStep q = if leNat ((hd.drop 4).take 2) = 0 then .done badSeq u
      else if leNat ((hd.drop 4).take 2) ≤ leNat (hd.take 4) / 16 then .done seqFull u
      else u.appendAt q (leNat (hd.take 4)) := by
  rw [State.kvStep, if_pos happend, State.kvAppend, hplaced, hcopying]
  exact goOn_got hread _

variable (hrelease : q.append = false) (hbegun : q.begun = false)
include hrelease hbegun

/-- A release of a list whose slots its header does not hold (04 R112). -/
theorem State.kvStep_release_of_short
    (h : leNat ((hd.drop 4).take 2) = 0 ∨ leNat ((hd.drop 4).take 2) < (leNat (hd.take 4) + 15) / 16) :
    s.kvStep q = .done badSeq u := by
  rw [State.kvStep, if_neg (by simp [hrelease]), State.kvRelease, if_neg (by simp [hbegun])]
  exact (goOn_got hread _).trans (if_pos h)

theorem State.kvStep_release_of_fault
    (h : ¬(leNat ((hd.drop 4).take 2) = 0 ∨ leNat ((hd.drop 4).take 2) < (leNat (hd.take 4) + 15) / 16)) {v : State}
    (hmay : u.unitMay q q.list 8 = (v, .fault)) : s.kvStep q = .done badSeq v := by
  rw [State.kvStep, if_neg (by simp [hrelease]), State.kvRelease, if_neg (by simp [hbegun])]
  exact (goOn_got hread _).trans ((if_neg h).trans (goOn_fault hmay _))

end

section
variable {u v w : State} {q : KvReq} {ntok : Nat}

theorem State.appendAt_of_fault (h : u.unitMay q q.list 8 = (v, .fault)) : u.appendAt q ntok = .done badSeq v := by
  rw [State.appendAt]
  exact goOn_fault h _

theorem State.appendAt_of_slotFault (h : u.unitMay q q.list 8 = (v, .got []))
    (hslot : v.unitMay q (slotVa q.list (ntok / 16)) 4 = (w, .fault)) : u.appendAt q ntok = .done badSeq w := by
  rw [State.appendAt]
  exact (goOn_got h _).trans (goOn_fault hslot _)

variable (h : u.unitMay q q.list 8 = (v, .got [])) (hslot : v.unitMay q (slotVa q.list (ntok / 16)) 4 = (w, .got []))
include h hslot

/-- The token opens a block: the next free one is taken. -/
theorem State.appendAt_first (hfirst : ntok % 16 = 0) : u.appendAt q ntok =
    match w.nextFree q.id.die with
    | none => .wait (w.ringEmpty q.id.die)
    | some b =>
      w.unlessBad q.id (w.badUnits (w.die q.id.die).freeRecord 4 ++ w.kvBad q.id.die b)
        (match w.freeAddr q.id.die b with
          | none => .done badBlk w
          | some pa =>
            ((w.takeFree q.id.die b).unitWrite q (slotVa q.list (ntok / 16)) (leBytes 4 b)).endAppend q ntok pa) := by
  rw [State.appendAt]
  exact (goOn_got h _).trans ((goOn_got hslot _).trans (if_pos hfirst))

theorem State.appendAt_first_of_free (hfirst : ntok % 16 = 0) {b : Nat} (hfree : w.nextFree q.id.die = some b)
    (hrecord : w.badUnits (w.die q.id.die).freeRecord 4 = []) (hentry : w.kvBad q.id.die b = []) : u.appendAt q ntok =
      match w.freeAddr q.id.die b with
      | none => .done badBlk w
      | some pa =>
        ((w.takeFree q.id.die b).unitWrite q (slotVa q.list (ntok / 16)) (leBytes 4 b)).endAppend q ntok pa := by
  rw [State.appendAt_first h hslot hfirst, hfree]
  dsimp only
  rw [hrecord, hentry]
  rfl

/-- The token goes into the block that the slot names. -/
theorem State.appendAt_next (hnext : ntok % 16 ≠ 0) {x : State} {bs : List Byte}
    (hread : w.unitRead q (slotVa q.list (ntok / 16)) 4 = (x, .got bs))
    (hentry : x.kvBad q.id.die (leNat bs % 2 ^ 24) = []) : u.appendAt q ntok =
      if leNat bs % 2 ^ 24 = 0xFFFFFF ∨ (x.die q.id.die).nblk ≤ leNat bs % 2 ^ 24 then .done badBlk x
      else
        let e := x.kvEntry q.id.die (leNat bs % 2 ^ 24)
        if !e.v ∨ e.refs = 0 ∨ e.state = 3 then .done badBlk x
        else if e.state ≠ 0 then .wait x
        else if 1 < e.refs then
          (x.setKvLo q.id.die (leNat bs % 2 ^ 24) fun w => setField w 2 2 1).copyOut q ntok (leNat bs % 2 ^ 24)
        else match x.blockAddr q.id.die e with
          | none => .done badBlk x
          | some pa => x.endAppend q ntok pa := by
  rw [State.appendAt]
  refine (goOn_got h _).trans ((goOn_got hslot _).trans ((if_neg hnext).trans ((goOn_got hread _).trans ?_)))
  dsimp only
  rw [hentry]
  rfl

end

end Sys2Proof.Machine

namespace Sys2Proof.Claims
open Machine

/-! ### The ends of an append and of a release -/

/-- An append that has its block writes the token, then NTOK. -/
theorem endAppend_eq (s : State) (q : KvReq) (ntok pa : Nat) : s.endAppend q ntok pa = .done ntok
    (((s.devWrite (pa + 2048 * (ntok % 16)) (lowBytes 2048 q.data.toNat)).devWrite
      (pa + 32768 + 2048 * (ntok % 16)) (lowBytes 2048 (q.data.toNat / 2 ^ 16384))).unitWrite q q.list
        (lowBytes 4 (ntok + 1))) := by
  rw [State.endAppend, State.writeToken_eq]
  simp only [leBytes_eq_lowBytes]

theorem freeAddr_of_unfit {s : State} {d : Fin 8} {b : Nat}
    (h : ¬(b ≠ 0xFFFFFF ∧ b < (s.die d).nblk) ∨ (s.kvEntry d b).state = 3) : s.freeAddr d b = none := by
  rw [State.freeAddr, if_pos (by omega)]

theorem freeAddr_of_fit {s : State} {d : Fin 8} {b : Nat} (h : b ≠ 0xFFFFFF ∧ b < (s.die d).nblk)
    (hstate : (s.kvEntry d b).state ≠ 3) : s.freeAddr d b = s.blockAddr d (s.kvEntry d b) := by
  rw [State.freeAddr, if_neg (by omega)]

section
variable {u v w : State} {q : KvReq} {ntok : Nat} (h : u.unitMay q q.list 8 = (v, .got []))
  (hslot : v.unitMay q (BitVec.ofNat 64 (q.list.toNat + 8 + 4 * (ntok / 16))) 4 = (w, .got []))
include h hslot

theorem appendAt_empty (hfirst : ntok % 16 = 0) (hempty : (w.die q.id.die).kvfrHead = (w.die q.id.die).kvfrTail) :
    u.appendAt q ntok = .wait (w.ringEmpty q.id.die) := by
  rw [← slotVa_eq] at hslot
  rw [State.appendAt_first h hslot hfirst, State.nextFree]
  rw [if_pos hempty]

theorem appendAt_free (hfirst : ntok % 16 = 0) {b : Nat} (hfree : w.nextFree q.id.die = some b)
    (hrecord : w.badUnits (w.die q.id.die).freeRecord 4 = []) (hentry : w.kvBad q.id.die b = []) :
    (¬(b ≠ 0xFFFFFF ∧ b < (w.die q.id.die).nblk) ∨ (w.kvEntry q.id.die b).state = 3 →
      u.appendAt q ntok = .done badBlk w) ∧
    ∀ pa, b ≠ 0xFFFFFF ∧ b < (w.die q.id.die).nblk → (w.kvEntry q.id.die b).state ≠ 3 →
      w.blockAddr q.id.die (w.kvEntry q.id.die b) = some pa → u.appendAt q ntok =
        ((w.takeFree q.id.die b).unitWrite q (BitVec.ofNat 64 (q.list.toNat + 8 + 4 * (ntok / 16))) (lowBytes 4 b)).endAppend
          q ntok pa := by
  rw [← slotVa_eq] at hslot ⊢
  rw [State.appendAt_first_of_free h hslot hfirst hfree hrecord hentry]
  refine ⟨fun hunfit => ?_, fun pa hfit hstate hpa => ?_⟩
  · rw [freeAddr_of_unfit hunfit]
  · rw [freeAddr_of_fit hfit hstate, hpa, leBytes_eq_lowBytes]

theorem appendAt_named (hnext : ntok % 16 ≠ 0) {x : State} {bs : List Byte}
    (hread : w.unitRead q (BitVec.ofNat 64 (q.list.toNat + 8 + 4 * (ntok / 16))) 4 = (x, .got bs)) {b : Nat}
    (hb : leNat bs % 2 ^ 24 = b) (hentry : x.kvBad q.id.die b = []) :
    let e := x.kvEntry q.id.die b
    let valid := (b ≠ 0xFFFFFF ∧ b < (x.die q.id.die).nblk) ∧ e.v = true ∧ e.refs ≠ 0 ∧ e.state ≠ 3
    (¬valid → u.appendAt q ntok = .done badBlk x) ∧ (valid → e.state ≠ 0 → u.appendAt q ntok = .wait x) ∧
      (valid → e.state = 0 → e.refs = 1 → ∀ pa, x.blockAddr q.id.die e = some pa →
        u.appendAt q ntok = x.endAppend q ntok pa) := by
  rw [← slotVa_eq] at hslot hread
  intro e valid
  have hsteps := State.appendAt_next h hslot hnext hread (by rw [hb, hentry])
  rw [hb] at hsteps
  have hunfit : (b = 0xFFFFFF ∨ (x.die q.id.die).nblk ≤ b) ∨ ((!e.v) = true ∨ e.refs = 0 ∨ e.state = 3) ↔ ¬valid := by
    rw [← Nat.not_lt, Bool.not_eq_true', ← Bool.not_eq_true]
    tauto
  refine ⟨fun hbad => hsteps.trans ?_, fun hvalid hstate => hsteps.trans ?_, fun hvalid hstate hrefs pa hpa => hsteps.trans ?_⟩
  · obtain hname | hentry := hunfit.2 hbad
    · exact if_pos hname
    · split
      · rfl
      · exact if_pos hentry
  · obtain ⟨hname, hgood⟩ := not_or.1 (mt hunfit.1 (not_not.2 hvalid))
    rw [if_neg hname]
    exact (if_neg hgood).trans (if_pos hstate)
  · obtain ⟨hname, hgood⟩ := not_or.1 (mt hunfit.1 (not_not.2 hvalid))
    rw [if_neg hname]
    refine (if_neg hgood).trans ((if_neg (not_not.2 hstate)).trans ((if_neg (not_lt.2 hrefs.le)).trans ?_))
    rw [hpa]

end

end Sys2Proof.Claims

/-! The operations of the block table (13 R308 to R311): the request that `kvapp` and `kvfree` hand to the unit, and the rows that
`kvld` reads from the blocks of its list; from these O14. -/

namespace Sys2Proof.Machine

/-! ### What the contexts of a core do not touch -/

section
variable {α : Type} {read : Die → α} (h : ∀ x cores, read { x with cores := cores } = read x)
include h

theorem State.read_die_updCore (s : State) (d : Fin 8) (c : Fin 16) (f : Core → Core) (e : Fin 8) :
    read ((s.updCore d c f).die e) = read (s.die e) := by
  by_cases hd : d = e
  · subst hd
    exact (congrArg read (State.die_updDie ..)).trans (h ..)
  · exact congrArg read (State.die_updDie_ne s hd _)

theorem State.read_die_block (s : State) (id : CtxId) (why : BlockCause) (e : Fin 8) :
    read ((s.block id why).die e) = read (s.die e) := by
  unfold State.block
  split
  · exact State.read_die_updCore h ..
  · exact (State.read_die_updCore h ..).trans ((State.read_die_updCore h ..).trans (State.read_die_updCore h ..))

end

/-! ### The place of a request (04 R110) -/

theorem le_foldl_max {x : Nat} : ∀ {l : List Nat} {a : Nat}, x ∈ l ∨ x ≤ a → x ≤ l.foldl Nat.max a
  | [], a, h => h.resolve_left List.not_mem_nil
  | y :: l, a, h => by
    refine le_foldl_max (l := l) (a := max a y) ?_
    obtain h | h := h
    · obtain rfl | h := List.mem_cons.1 h
      · exact .inr (Nat.le_max_right ..)
      · exact .inl h
    · exact .inr (Nat.le_trans h (Nat.le_max_left ..))

/-- A request comes after every other of the package. -/
theorem State.order_lt_kvOrder {s : State} {d : Fin 8} {p : KvReq} (h : p ∈ (s.die d).kvReqs) : p.order < s.kvOrder := by
  refine le_foldl_max (.inl ?_)
  refine List.mem_flatMap.2 ⟨d, mem_fins d, List.mem_map.2 ⟨p, h, rfl⟩⟩

end Sys2Proof.Machine

namespace Sys2Proof.Claims
open Machine

theorem kvEn_iff (x : Die) : x.kvEn = true ↔ x.kvcfg.toNat % 2 = 1 := by
  rw [Die.kvEn, bit_zero_eq_decide, decide_eq_true_iff]

theorem kvEn_eq_false {x : Die} (h : x.kvcfg.toNat % 2 = 0) : x.kvEn = false := by
  rw [Die.kvEn, bit_zero_eq_decide, h]
  rfl

/-! ### Requests (13 R310, R311) -/

/-- The parts of a list that a request names, by the header that the unit reads. -/
theorem kvParts_eq_listRuns {s u : State} {append : Bool} {list : W64} {ps : List Part} (hcur : u.cur = s.cur)
    (hpeers : ∀ p, p ∈ ps → u.peerWaits p = false) :
    u.kvParts append list ps = listRuns append list (u.readList s.cur ps).2.bytes := by
  have hany : ps.any u.peerWaits = false := List.any_eq_false.2 fun p hp => by simp [hpeers p hp]
  simp only [State.kvParts, hany, hcur, listRuns, slotVa_eq]
  rfl

section
variable {s : State} {append : Bool} {r : BitVec 4} {n : BitVec 6} {data : BitVec 32768}

theorem kvHand_off (hreq : s.cx.kvReq = none) (hoff : s.myDie.kvcfg.toNat % 2 = 0) :
    s.kvHand append r n data = s.putS n 1 (BitVec.ofInt 64 (-1)) := by
  have hen : (s.die s.cur.die).kvEn = false := kvEn_eq_false hoff
  simp only [State.kvHand, hreq, hen]
  rfl

theorem kvHand_misaligned (hreq : s.cx.kvReq = none) (hon : s.myDie.kvcfg.toNat % 2 = 1) (halign : (s.rA r).toNat % 8 ≠ 0) :
    s.kvHand append r n data = s.putS n 1 (BitVec.ofInt 64 (-2)) := by
  have hen : (s.die s.cur.die).kvEn = true := (kvEn_iff _).2 hon
  simp only [State.kvHand, hreq, hen, if_pos halign]
  rfl

/-- What an allowed request leaves: the unit has it, after every other, and its bundle waits for it. -/
structure Handed (s v : State) (append : Bool) (list : W64) (data : BitVec 32768) (u : State) : Prop where
  queued : ∃ home order, (u.die s.cur.die).kvReqs = (v.die s.cur.die).kvReqs ++
      [⟨(v.die s.cur.die).kvNext, s.cur, v.cx.task, append, list, v.cx.asid, v.cx.arch.pkr, data, home, order,
        none, none, false, [], none, 0, false, none, false⟩] ∧
    ∀ d p, p ∈ (v.die d).kvReqs → p.order < order
  blocked : (u.ctxOf s.cur).status = .blocked .blockTable
  waits : ∃ w, (u.ctxOf s.cur).kvReq = some w ∧ w.num = (v.die s.cur.die).kvNext

/-- A state in which a request is queued and its context blocked. -/
theorem handed_of_queued {s v : State} {append : Bool} {list : W64} {data : BitVec 32768} (hcur : v.cur = s.cur)
    (home : Space × Nat) (w : KvWait) (hw : w.num = (v.die s.cur.die).kvNext) :
    Handed s v append list data (((v.updDie s.cur.die fun x => { x with
      kvReqs := x.kvReqs ++ [⟨(v.die s.cur.die).kvNext, s.cur, v.cx.task, append, list, v.cx.asid, v.cx.arch.pkr, data, home,
        v.kvOrder, none, none, false, [], none, 0, false, none, false⟩]
      kvNext := (v.die s.cur.die).kvNext + 1 }).updCx fun c => { c with kvReq := some w }).block s.cur .blockTable) := by
  refine ⟨⟨home, v.kvOrder, ?_, fun d p hp => State.order_lt_kvOrder hp⟩, State.status_block .., w, ?_, hw⟩
  · refine (State.read_die_block (read := Die.kvReqs) (fun _ _ => rfl) ..).trans ?_
    refine (State.read_die_updCore (read := Die.kvReqs) (fun _ _ => rfl) ..).trans ?_
    rw [State.die_updDie]
  · rw [State.ctxOf_block, State.updCx, State.updDie_cur, hcur, State.ctxOf_updCtx]

theorem handed_kvHand {u v : State} {ps qs : List Part} (hreq : s.cx.kvReq = none) (hon : s.myDie.kvcfg.toNat % 2 = 1)
    (halign : (s.rA r).toNat % 8 = 0) (hhead : s.checkFor s.cur (s.cx.req s.cur .store true true) [⟨s.rA r, 8⟩] = (u, .ok ps))
    (hpeers : ∀ p, p ∈ ps → u.peerWaits p = false)
    (hlist : u.checkFor s.cur (s.cx.req s.cur .store true true) (listRuns append (s.rA r) (u.readList s.cur ps).2.bytes) =
      (v, .ok qs)) : Handed s v append (s.rA r) data (s.kvHand append r n data) := by
  have hen : (s.die s.cur.die).kvEn = true := (kvEn_iff _).2 hon
  have hu : u.scene s.cur = s.scene s.cur := by
    have hscene := s.scene_checkFor s.cur (s.cx.req s.cur .store true true) [⟨s.rA r, 8⟩]
    rwa [hhead] at hscene
  have hv : v.scene s.cur = u.scene s.cur := by
    have hscene := u.scene_checkFor s.cur (s.cx.req s.cur .store true true)
      (listRuns append (s.rA r) (u.readList s.cur ps).2.bytes)
    rwa [hlist] at hscene
  rw [← kvParts_eq_listRuns (State.cur_of_scene hu) hpeers] at hlist
  simp only [State.kvHand, hreq, hen, hhead, hlist, if_neg (not_not.2 halign)]
  exact handed_of_queued (State.cur_of_scene (hv.trans hu)) _ _ rfl

theorem kvHand_done {w : KvWait} {x : KvReq} {v : W64} (hreq : s.cx.kvReq = some w)
    (hdone : s.myDie.kvReqs.find? (fun q => q.num == w.num && q.status.isSome) = some x) (hstatus : x.status = some v)
    (hgood : x.poison = false) : s.kvHand append r n data =
      ((s.updDie x.id.die fun d => { d with kvReqs := d.kvReqs.filter fun q => q.num != x.num }).updCx
        fun c => { c with kvReq := none }).putS n 1 v := by
  replace hdone : (s.die s.cur.die).kvReqs.find? (fun q => q.num == w.num && q.status.isSome) = some x := hdone
  simp only [State.kvHand, hreq, hdone, State.kvTake, hgood, hstatus]
  rfl

end

section
variable {s : State} {g t r : BitVec 4} {n : BitVec 6}

theorem runs_kvapp {u : State} (hconf : Configured s [t]) (h : s.kvHand true r n (s.cx.rT t) = u) :
    Runs s g (.kvapp g t r n) u := by
  refine runs_of_slotOp (by rfl) ?_
  exact (configured_of_configured hconf _).trans h

theorem reaches_kvapp {P : State → Prop} (hconf : Configured s [t]) (h : P (s.kvHand true r n (s.cx.rT t))) :
    Reaches s g (.kvapp g t r n) P := by
  refine reaches_of_slotOp (by rfl) ?_
  rwa [configured_of_configured hconf]

theorem runs_kvfree {u : State} (h : s.kvHand false r n 0 = u) : Runs s g (.kvfree g r n) u :=
  runs_of_slotOp (by rfl) h

theorem reaches_kvfree {P : State → Prop} (h : P (s.kvHand false r n 0)) : Reaches s g (.kvfree g r n) P :=
  reaches_of_slotOp (by rfl) h

end

end Sys2Proof.Claims

namespace Sys2Proof.Machine

/-! ### The slots of a list (13 R309) -/

section
variable {α : Type} [BEq α] [LawfulBEq α]

theorem mem_dedup {x : α} : ∀ {l acc : List α}, x ∈ dedup l acc ↔ x ∈ l ∨ x ∈ acc
  | [], acc => by simp [dedup]
  | y :: l, acc => by
    rw [dedup, mem_dedup, List.mem_cons]
    split
    next h =>
      have hy : y ∈ acc := List.contains_iff_mem.1 h
      refine ⟨fun hx => hx.imp_left .inr, fun hx => ?_⟩
      obtain (rfl | hx) | hx := hx
      · exact .inr hy
      · exact .inl hx
      · exact .inr hx
    · rw [List.mem_cons]
      tauto

theorem nodup_dedup : ∀ {l acc : List α}, acc.Nodup → (dedup l acc).Nodup
  | [], acc, h => by rwa [dedup, List.nodup_reverse]
  | y :: l, acc, h => by
    rw [dedup]
    refine nodup_dedup ?_
    split
    · exact h
    next hy => exact List.nodup_cons.2 ⟨fun hmem => hy (List.contains_iff_mem.2 hmem), h⟩

theorem findIdx?_of_nodup {l : List α} (hl : l.Nodup) {k : Nat} {x : α} (h : l[k]? = some x) :
    l.findIdx? (· == x) = some k := by
  obtain ⟨hk, rfl⟩ := List.getElem?_eq_some_iff.1 h
  refine List.findIdx?_eq_some_iff_getElem.2 ⟨hk, beq_self_eq_true _, fun j hj heq => ?_⟩
  exact Nat.ne_of_lt hj ((List.Nodup.getElem_inj_iff hl).1 (eq_of_beq heq))

end

theorem nodup_kvSlots (vrows n k0 : Nat) : (kvSlots vrows n k0).Nodup := nodup_dedup List.nodup_nil

theorem mem_kvSlots {vrows n k0 i : Nat} (hi : i < vrows) (hn : k0 + i < n) : (k0 + i) / 16 ∈ kvSlots vrows n k0 :=
  mem_dedup.2 (.inl (List.mem_map.2 ⟨i, List.mem_filter.2 ⟨List.mem_range.2 hi, decide_eq_true hn⟩, rfl⟩))

/-- The block that the bytes of some slots name for a slot number. -/
def listIndex (slots : List Nat) (bytes : List Byte) (j : Nat) : Nat :=
  match slots.findIdx? (· == j) with
  | some k => leNat ((bytes.drop (4 * k)).take 4) % 2 ^ 24
  | none => 0xFFFFFF

theorem listIndex_of_nodup {slots : List Nat} (h : slots.Nodup) {k j : Nat} (hk : slots[k]? = some j) (bytes : List Byte) :
    listIndex slots bytes j = leNat ((bytes.drop (4 * k)).take 4) % 2 ^ 24 := by
  rw [listIndex, findIdx?_of_nodup h hk]

/-! ### The end of a `kvld` (13 R309) -/

section
variable {s u : State} {w : Gather} {sp : List Part} (hread : s.readList s.cur sp = (u, w)) (hgood : w.poison = false)
include hread hgood

theorem State.kvLoad_eq (t : BitVec 4) (half : Nat) (n : BitVec 6) (chunk k0 : Nat) (h : KvHead) :
    s.kvLoad t half n chunk k0 h sp =
      let index := listIndex h.slots w.bytes
      let bad := h.slots.flatMap fun j => if index j < (u.die s.cur.die).nblk then u.kvBad s.cur.die (index j) else []
      if !bad.isEmpty then (u.recordBad bad 0 s.cur.die s.cur.core).kvRead t n (h.parts ++ sp) true []
      else if h.slots.any fun j => (u.readableBlock s.cur.die (index j)).isNone then u.kvFail n (h.parts ++ sp) badBlk
      else u.kvRead t n (h.parts ++ sp) false
        (kvRows (u.cx.rTS t) h.n k0 half chunk fun j => u.readableBlock s.cur.die (index j)) := by
  rw [State.kvLoad]
  simp only [hread, hgood]
  rfl

end

/-- The blocks read counted, and a status that is due in the next cycle. -/
theorem State.kvFail_eq (s : State) (n : BitVec 6) (ps : List Part) (v : Int) : s.kvFail n ps v = s.updCx fun y =>
    (y.countRequests s.cur.die ps).addPend ⟨s.cycle + 1, [], [], .given [y.wS n (BitVec.ofInt 64 v)], 0, false, [], true,
      false⟩ :=
  s.updCx_updCx _ _

/-! ### The rows of a `kvld` -/

theorem foldl_of_appends {ι : Type} {s : State} {step : State × List Byte × Bool → ι → State × List Byte × Bool}
    {f : ι → List Byte} :
    ∀ {l : List ι}, (∀ i ∈ l, ∀ acc, step (s, acc, false) i = (s, acc ++ f i, false)) →
      ∀ acc, l.foldl step (s, acc, false) = (s, acc ++ l.flatMap f, false)
  | [], _, acc => by simp
  | i :: l, h, acc => by
    rw [List.foldl_cons, h i List.mem_cons_self, foldl_of_appends fun j hj => h j (List.mem_cons_of_mem i hj), List.flatMap_cons,
      List.append_assoc]

theorem filterMap_ite {α β : Type} (p : α → Prop) [DecidablePred p] (f : α → β) (l : List α) :
    l.filterMap (fun i => if p i then some (f i) else none) = (l.filter fun i => decide (p i)).map f := by
  induction l with
  | nil => rfl
  | cons i l ih => by_cases h : p i <;> simp [h, ih]

theorem length_filter_below (k m n : Nat) : ((List.range n).filter fun i => decide (k + i < m)).length = min n (m - k) := by
  induction n with
  | zero => simp
  | succ n ih =>
    rw [List.range_succ, List.filter_append, List.length_append, ih]
    by_cases h : k + n < m
    · simp [h]
      omega
    · simp [h]
      omega

end Sys2Proof.Machine

namespace Sys2Proof.Claims
open Machine

/-! ### The rows that a `kvld` delivers (13 R309) -/

section
variable {s : State} {id : CtxId} {run vrows : Nat} {p : Nat → Prop} [DecidablePred p] {at_ : Nat → Nat}
  (hgood : ∀ i, i < vrows → p i → s.poisoned (at_ i) run = false)
include hgood

theorem kvData_rows (hok : s.MemOk) :
    s.kvData id run ((List.range vrows).map fun i => if p i then some (at_ i) else none) =
      (s, (List.range vrows).flatMap fun i =>
        if p i then (List.range run).map fun k => seen s id (at_ i + k) else List.replicate run 0, false) := by
  rw [State.kvData, List.foldl_map]
  refine (foldl_of_appends (fun i hi acc => ?_) []).trans (by rw [List.nil_append])
  by_cases hp : p i
  · simp only [if_pos hp]
    rw [readHeld_good id (hgood i (List.mem_range.1 hi) hp), readHeld_bytes hok]
    rfl
  · simp only [if_neg hp]

/-- The rows with a token are read from their blocks, the others are zeros. -/
theorem kvRead_rows (hok : s.MemOk) (hid : s.cur = id) (t : BitVec 4) (n : BitVec 6) (ps : List Part)
    (hrun : shapeVCols (s.cx.rTS t) * elemSize (shapeFmt (s.cx.rTS t)) = run) {count : Nat}
    (hcount : ((List.range vrows).filter fun i => decide (p i)).length = count) :
    s.kvRead t n ps false ((List.range vrows).map fun i => if p i then some (at_ i) else none) =
      let parts : List Part := if run = 0 then [] else
        ((List.range vrows).filter fun i => decide (p i)).map fun i => ⟨0, run, ⟨.dev, at_ i, 0, none⟩⟩
      s.updCx fun c => (c.countRequests id.die (ps ++ parts)).addPend ⟨s.cycle + loadLatency id (parts ++ ps), [], [],
        .kv [tileWrite t (s.cx.rTS t) ((List.range vrows).flatMap fun i =>
          if p i then (List.range run).map fun k => seen s id (at_ i + k) else List.replicate run 0),
          c.wS n (BitVec.ofNat 64 count)], 0, false, [], true, false⟩ := by
  have hparts : ((List.range vrows).map fun i => if p i then some (at_ i) else none).filterMap
      (fun x => x.bind fun pa => if run = 0 then none else some (⟨0, run, ⟨.dev, pa, 0, none⟩⟩ : Part)) =
      if run = 0 then [] else
        ((List.range vrows).filter fun i => decide (p i)).map fun i => ⟨0, run, ⟨.dev, at_ i, 0, none⟩⟩ := by
    rw [List.filterMap_map]
    split
    next hzero => exact List.filterMap_eq_nil_iff.2 fun i _ => by simp
    next hzero =>
      rw [← filterMap_ite]
      refine List.filterMap_congr fun i _ => ?_
      by_cases hp : p i <;> simp [hp]
  have hrows : (((List.range vrows).map fun i => if p i then some (at_ i) else none).filter Option.isSome).length = count := by
    rw [List.filter_map, List.length_map, ← hcount]
    refine congrArg List.length (List.filter_congr fun i _ => ?_)
    by_cases hp : p i <;> simp [hp]
  subst hid
  simp only [State.kvRead, hrun, kvData_rows hgood hok, hparts, hrows]
  rfl

end

end Sys2Proof.Claims

namespace Sys2Proof.Claims
open Machine

/-! ### A `kvld` by what it has read (13 R308, R309) -/

section
variable {s u : State} {g t r : BitVec 4} {q : BitVec 2} {n : BitVec 6} {c : BitVec 3} (hconf : Configured s [t])
include hconf

theorem runs_kvld_off (hoff : s.myDie.kvcfg.toNat % 2 = 0) : Runs s g (.kvld g t q r n c) (s.kvStatus n (-1)) := by
  have hen : (s.die s.cur.die).kvEn = false := kvEn_eq_false hoff
  refine runs_of_slotOp (by rfl) ((configured_of_configured hconf _).trans ?_)
  simp only [hen]
  rfl

variable (hon : s.myDie.kvcfg.toNat % 2 = 1)
include hon

theorem runs_kvld_misaligned (halign : (s.rA r).toNat % 8 ≠ 0) : Runs s g (.kvld g t q r n c) (s.kvStatus n (-2)) := by
  have hen : (s.die s.cur.die).kvEn = true := (kvEn_iff _).2 hon
  refine runs_of_slotOp (by rfl) ((configured_of_configured hconf _).trans ?_)
  simp only [hen, if_pos halign]
  rfl

variable (halign : (s.rA r).toNat % 8 = 0) (x : KvReads s (s.cx.rTS t) (s.rA r) (s.rS n).toNat)
include halign

/-- Once the header is read, its CAP decides, and then the checks of its slots. -/
theorem runs_kvld_of_header (hx : x.Header)
    (h : (if x.cap = 0 ∨ (x.slots.any fun j => decide (x.cap ≤ j)) then x.b.kvFail n x.hp badSeq
      else match x.a.checkFor s.cur (s.cx.req s.cur .load true false) (x.slots.map fun j => ⟨slotVa (s.rA r) j, 4⟩) with
        | (v, .error f) => v.refuse .load f
        | (v, .ok sp) =>
          if sp.any v.peerWaits then { v.setNext s.cur.die s.cur.core (v.cycle + 1) with stalled := true }
          else (v.readList s.cur x.hp).1.kvLoad t q.toNat n c.toNat (s.rS n).toNat ⟨x.hp, x.ntok, x.slots⟩ sp) = u) :
    Runs s g (.kvld g t q r n c) u := by
  have hen : (s.die s.cur.die).kvEn = true := (kvEn_iff _).2 hon
  obtain ⟨hcheck, hpeers, hread, hgood⟩ := hx
  have hscene := s.scene_checkFor s.cur (s.cx.req s.cur .load true false) [⟨s.rA r, 8⟩]
  rw [hcheck] at hscene
  have hts : x.a.cx.rTS t = s.cx.rTS t := State.rTS_of_scene hscene t
  have hany : x.hp.any x.a.peerWaits = false := List.any_eq_false.2 fun p hp => by simp [hpeers p hp]
  refine runs_of_slotOp (by rfl) ((configured_of_configured hconf _).trans (Eq.trans ?_ h))
  simp only [hen, if_neg (not_not.2 halign), hcheck, hread, hany, hgood, hts]
  rfl

/-- Once the slots are checked too, the list is read whole. -/
theorem runs_kvld_of_listed (hx : x.Listed)
    (h : x.e.kvLoad t q.toNat n c.toNat (s.rS n).toNat ⟨x.hp, x.ntok, x.slots⟩ x.sp = u) :
    Runs s g (.kvld g t q r n c) u := by
  obtain ⟨hheader, hcap, hslots, hcheck, hpeers, he, -⟩ := hx
  simp only [← slotVa_eq] at hcheck
  have hany : x.sp.any x.c.peerWaits = false := List.any_eq_false.2 fun p hp => by simp [hpeers p hp]
  have hcap' : ¬(x.cap = 0 ∨ (x.slots.any fun j => decide (x.cap ≤ j)) = true) := by
    rw [List.any_eq_true]
    rintro (h0 | ⟨j, hj, hle⟩)
    · exact hcap h0
    · exact Nat.not_lt.2 (of_decide_eq_true hle) (hslots j hj)
  refine runs_kvld_of_header hconf hon halign x hheader (Eq.trans ?_ h)
  rw [if_neg hcap']
  simp only [hcheck, hany, he]
  rfl

end

/-- Reading the header leaves the cycle, the context that issues and its registers. -/
theorem KvReads.scene_b {s : State} {ts : BitVec 32} {list : W64} {k0 : Nat} {x : KvReads s ts list k0} (hx : x.Header) :
    x.b.scene s.cur = s.scene s.cur := by
  obtain ⟨ha, -, hb, -⟩ := hx
  have hsa := s.scene_checkFor s.cur (s.cx.req s.cur .load true false) [⟨list, 8⟩]
  have hsb := x.a.scene_readList s.cur x.hp
  rw [ha] at hsa
  rw [hb] at hsb
  exact hsb.trans hsa

theorem KvReads.listIndex_eq {s : State} {ts : BitVec 32} {list : W64} {k0 : Nat} (x : KvReads s ts list k0) {k j : Nat}
    (hk : x.slots[k]? = some j) : listIndex x.slots x.w.bytes j = x.index k :=
  listIndex_of_nodup (nodup_kvSlots ..) hk _

section
variable {s : State} {ts : BitVec 32} {list : W64} {k0 : Nat} {x : KvReads s ts list k0} (hx : x.Listed)
include hx

/-- So does reading the rest of the list. -/
theorem KvReads.scene_d : x.e.scene s.cur = s.scene s.cur ∧ x.d.scene s.cur = s.scene s.cur := by
  obtain ⟨⟨ha, -, -, -⟩, -, -, hc, -, he, hd, -⟩ := hx
  have hsa := s.scene_checkFor s.cur (s.cx.req s.cur .load true false) [⟨list, 8⟩]
  have hsc := x.a.scene_checkFor s.cur (s.cx.req s.cur .load true false)
    (x.slots.map fun j => ⟨BitVec.ofNat 64 (list.toNat + 8 + 4 * j), 4⟩)
  have hse := x.c.scene_readList s.cur x.hp
  have hsd := x.e.scene_readList s.cur x.sp
  rw [ha] at hsa
  rw [hc] at hsc
  rw [he] at hse
  rw [hd] at hsd
  exact ⟨hse.trans (hsc.trans hsa), hsd.trans (hse.trans (hsc.trans hsa))⟩

/-- What is left of a `kvld` that has read its list. -/
theorem KvReads.kvLoad_eq (t : BitVec 4) (half : Nat) (n : BitVec 6) (chunk : Nat) :
    x.e.kvLoad t half n chunk k0 ⟨x.hp, x.ntok, x.slots⟩ x.sp =
      if x.slots.any fun j => (x.d.readableBlock s.cur.die (listIndex x.slots x.w.bytes j)).isNone then
        x.d.kvFail n (x.hp ++ x.sp) badBlk
      else x.d.kvRead t n (x.hp ++ x.sp) false
        (kvRows (x.d.cx.rTS t) x.ntok k0 half chunk fun j => x.d.readableBlock s.cur.die (listIndex x.slots x.w.bytes j)) := by
  have hcur : x.e.cur = s.cur := State.cur_of_scene (KvReads.scene_d hx).1
  obtain ⟨-, -, -, -, -, -, hd, hgood, hentries⟩ := id hx
  have hbad : (x.slots.flatMap fun j => if listIndex x.slots x.w.bytes j < (x.d.die s.cur.die).nblk then
      x.d.kvBad s.cur.die (listIndex x.slots x.w.bytes j) else []) = [] := by
    refine List.flatMap_eq_nil_iff.2 fun j hj => ?_
    obtain ⟨k, hk⟩ := List.mem_iff_getElem?.1 hj
    rw [x.listIndex_eq hk]
    exact ite_eq_right_iff.2 fun hlt => hentries k j hk hlt
  rw [← hcur] at hd
  rw [State.kvLoad_eq hd hgood, hcur]
  dsimp only
  rw [hbad]
  rfl

end

/-- The rows of a `kvld` whose slots all name readable blocks. -/
theorem KvReads.kvRows_eq {s : State} {t : BitVec 4} {list : W64} {k0 : Nat} {x : KvReads s (s.cx.rTS t) list k0} (hx : x.Good)
    (half chunk : Nat) :
    kvRows (x.d.cx.rTS t) x.ntok k0 half chunk (fun j => x.d.readableBlock s.cur.die (listIndex x.slots x.w.bytes j)) =
      (List.range (part (s.cx.rTS t).toNat 12 7)).map fun i =>
        if k0 + i < x.ntok then some (x.block ((k0 + i) / 16) + half * 32768 + (k0 + i) % 16 * 2048 + chunk * 256) else none := by
  obtain ⟨hlisted, hblocks⟩ := hx
  rw [kvRows, State.rTS_of_scene (KvReads.scene_d hlisted).2]
  refine List.map_congr_left fun i hi => ?_
  dsimp only
  split
  next htok =>
    obtain ⟨k, hk⟩ := List.mem_iff_getElem?.1 (mem_kvSlots (List.mem_range.1 hi) htok)
    rw [x.listIndex_eq hk, hblocks k _ hk]
    rfl
  next => rfl

section
variable {s : State} {g t r : BitVec 4} {q : BitVec 2} {n : BitVec 6} {c : BitVec 3} (hconf : Configured s [t])
  (hon : s.myDie.kvcfg.toNat % 2 = 1) (halign : (s.rA r).toNat % 8 = 0)
  {x : KvReads s (s.cx.rTS t) (s.rA r) (s.rS n).toNat}
include hconf hon halign

theorem runs_kvld_of_badHeader (hx : x.Header) (hbad : x.cap = 0 ∨ ∃ j, j ∈ x.slots ∧ x.cap ≤ j) :
    Runs s g (.kvld g t q r n c) (x.b.kvFail n x.hp (-2)) := by
  refine runs_kvld_of_header hconf hon halign x hx (if_pos (hbad.imp_right ?_))
  rintro ⟨j, hj, hle⟩
  exact List.any_eq_true.2 ⟨j, hj, decide_eq_true hle⟩

theorem runs_kvld_of_badBlock (hx : x.Listed)
    (hbad : ∃ k j, x.slots[k]? = some j ∧ x.d.readableBlock s.cur.die (x.index k) = none) :
    Runs s g (.kvld g t q r n c) (x.d.kvFail n (x.hp ++ x.sp) (-4)) := by
  obtain ⟨k, j, hk, hnone⟩ := hbad
  refine runs_kvld_of_listed hconf hon halign x hx ((KvReads.kvLoad_eq hx ..).trans (if_pos ?_))
  refine List.any_eq_true.2 ⟨j, List.mem_of_getElem? hk, ?_⟩
  rw [x.listIndex_eq hk, hnone]
  rfl

theorem runs_kvld_of_good (hx : x.Good) {u : State}
    (h : x.d.kvRead t n (x.hp ++ x.sp) false ((List.range (part (s.cx.rTS t).toNat 12 7)).map fun i =>
      if (s.rS n).toNat + i < x.ntok then
        some (x.block (((s.rS n).toNat + i) / 16) + q.toNat * 32768 + ((s.rS n).toNat + i) % 16 * 2048 + c.toNat * 256)
      else none) = u) : Runs s g (.kvld g t q r n c) u := by
  refine runs_kvld_of_listed hconf hon halign x hx.1 ((KvReads.kvLoad_eq hx.1 ..).trans (Eq.trans ?_ h))
  rw [KvReads.kvRows_eq hx]
  refine if_neg ?_
  rw [List.any_eq_true]
  rintro ⟨j, hj, hnone⟩
  obtain ⟨k, hk⟩ := List.mem_iff_getElem?.1 hj
  rw [x.listIndex_eq hk, hx.2 k j hk] at hnone
  cases hnone

end

/-- Settles O14: the parts of a list that `kvld` reads leave the registers of its context, so that its rows are those of the
blocks it names; a request that is allowed is queued after every other, and the unit's steps are those of R108 and R112. -/
theorem blockTable : Obligations.BlockTable := by
  refine ⟨fun s g t q r n c hconf => ⟨fun hoff => runs_kvld_off hconf hoff,
      fun hon halign => runs_kvld_misaligned hconf hon halign, fun hon halign x => ⟨fun hx hbad => ?_, fun hx hbad => ?_,
        fun hx hok => ?_⟩⟩,
    fun s g t r n => ⟨fun hreq hoff => ?_, fun hreq hon halign => ?_, fun hreq hon halign v => ⟨?_, ?_⟩,
      fun w x v hreq hfind hstatus hgood => ?_⟩, fun s u q hd hread => ⟨fun happend hcopying hplaced => ?_,
        fun hrelease hbegun => ?_⟩⟩
  · have hruns := runs_kvld_of_badHeader (g := g) (q := q) (c := c) hconf hon halign hx hbad
    rwa [State.kvFail_eq, State.cur_of_scene (KvReads.scene_b hx)] at hruns
  · have hruns := runs_kvld_of_badBlock (g := g) (q := q) (c := c) hconf hon halign hx hbad
    rwa [State.kvFail_eq, State.cur_of_scene (KvReads.scene_d hx).2] at hruns
  · intro at_ rows hgood parts
    have hd := (KvReads.scene_d hx.1).2
    refine runs_kvld_of_good hconf hon halign hx ?_
    have hread := kvRead_rows (run := part (s.cx.rTS t).toNat 19 7 * elemSize (part (s.cx.rTS t).toNat 26 4))
      (fun i hi htok => hgood i (List.mem_filter.2 ⟨List.mem_range.2 hi, decide_eq_true htok⟩)) hok (State.cur_of_scene hd) t n
      (x.hp ++ x.sp) (by rw [State.rTS_of_scene hd]; rfl)
      (length_filter_below (s.rS n).toNat x.ntok (part (s.cx.rTS t).toNat 12 7))
    rw [State.rTS_of_scene hd] at hread
    exact hread
  · exact ⟨fun hconf => runs_kvapp hconf (kvHand_off hreq hoff), runs_kvfree (kvHand_off hreq hoff)⟩
  · exact ⟨fun hconf => runs_kvapp hconf (kvHand_misaligned hreq hon halign),
      runs_kvfree (kvHand_misaligned hreq hon halign)⟩
  · rintro hconf ⟨u, ps, qs, hhead, hpeers, hlist⟩
    obtain ⟨hqueued, hblocked, hwaits⟩ :=
      handed_kvHand (n := n) (data := s.cx.rT t) hreq hon halign hhead hpeers hlist
    exact reaches_kvapp hconf ⟨hqueued, hblocked, hwaits⟩
  · rintro ⟨u, ps, qs, hhead, hpeers, hlist⟩
    obtain ⟨hqueued, hblocked, hwaits⟩ := handed_kvHand (n := n) (data := 0) hreq hon halign hhead hpeers hlist
    exact reaches_kvfree ⟨hqueued, hblocked, hwaits⟩
  · exact ⟨fun hconf => runs_kvapp hconf (kvHand_done hreq hfind hstatus hgood),
      runs_kvfree (kvHand_done hreq hfind hstatus hgood)⟩
  · have hstep := State.kvStep_append hread happend hcopying hplaced
    have hplace (hroom : leNat (hd.take 4) / 16 < leNat ((hd.drop 4).take 2)) : s.kvStep q = u.appendAt q (leNat (hd.take 4)) :=
      hstep.trans ((if_neg (by omega)).trans (if_neg (by omega)))
    refine ⟨fun hcap => hstep.trans (if_pos hcap), fun hcap hfull => hstep.trans ((if_neg hcap).trans (if_pos hfull)),
      fun hroom v hmay => (hplace hroom).trans (State.appendAt_of_fault hmay), fun hroom v w hmay hslot => ?_,
      fun hroom hfirst v w hmay => ⟨fun hempty => ?_, fun b hfree hrecord hentry => ?_⟩,
      fun hroom hnext v w x bs hmay hslot => ?_⟩
    · rw [← slotVa_eq] at hslot
      exact (hplace hroom).trans (State.appendAt_of_slotFault hmay hslot)
    · obtain ⟨hfound, hmem⟩ := w.ringEmpty_found q.id.die
      exact ⟨_, (hplace hroom).trans (appendAt_empty hmay.1 hmay.2 hfirst hempty), hfound, hmem⟩
    · obtain ⟨hunfit, hfit⟩ := appendAt_free hmay.1 hmay.2 hfirst hfree hrecord hentry
      exact ⟨fun hbad => (hplace hroom).trans (hunfit hbad), fun pa hname hstate hpa =>
        (hplace hroom).trans ((hfit pa hname hstate hpa).trans (endAppend_eq ..))⟩
    · intro b e valid hentry
      obtain ⟨hbad, hbusy, hgood⟩ := appendAt_named hmay.1 hmay.2 hnext hslot rfl hentry
      exact ⟨fun h => (hplace hroom).trans (hbad h), fun h hstate => (hplace hroom).trans (hbusy h hstate),
        fun h hstate hrefs pa hpa => (hplace hroom).trans ((hgood h hstate hrefs pa hpa).trans (endAppend_eq ..))⟩
  · exact ⟨fun hshort => State.kvStep_release_of_short hread hrelease hbegun hshort, fun hcap hlen v hmay =>
      State.kvStep_release_of_fault hread hrelease hbegun (by omega) hmay⟩

end Sys2Proof.Claims
